-- ==== Sys2Proof/Word.lean ====
section
/-! DEFINITION. The word types of the PZ616 model and their plainest arithmetic.
A register, a mask and a byte of memory are bit vectors; counts, device addresses (48 bits, R58), times and sizes are
Nat. -/
namespace Sys2Proof

/-- One byte of device memory, of a packet or of the boot NOR. -/
abbrev Byte := BitVec 8

/-- One 32-bit register word (Table 0.3 describes its access types). -/
abbrev Word := BitVec 32

/-- The limit at which every 32-bit saturating counter stays (R16). -/
def satMax : Nat := 0xFFFFFFFF

/-- A 32-bit counter saturates instead of wrapping (R16). -/
def satAdd (c n : Nat) : Nat := if c + n ≤ satMax then c + n else satMax

/-- A 32-bit counter increments by 1 and saturates (R16). -/
def satInc (c : Nat) : Nat := satAdd c 1

/-- ⌈a / b⌉ for a positive b. -/
def ceilDiv (a b : Nat) : Nat := (a + b - 1) / b

/-- `a` rounded up to a multiple of `b`. -/
def roundUp (a b : Nat) : Nat := ceilDiv a b * b

end Sys2Proof
end

