-- ==== Sys2Proof/Syntax.lean ====
section
/-! DEFINITION. The commands of the PZ616: one constructor per row of spec/opcode_table.json.
The first operand `t` of every command is the time-base instant (ns, R49) at which the happening falls
(log 1). The other operands are what the outside of the device decides: the packet received, the unit
that acts, the physical outcome of a test. -/
namespace Sys2Proof

/-- Where a reset that falls inside a boot finds its journal program (Table 15.13): before it, also within the erase of its slot;
between its bytes and VALID; or after VALID, at any later order. -/
inductive BootCut where
  | beforeProgram | afterBytes | afterValid
  deriving DecidableEq, Repr

/-- What the physical device finds during a boot (Table 15.8, Table 15.9): outcomes that no rule fixes. -/
structure BootFacts where
  /-- ADDR_SEL[1:0] as sampled at order 1 (R705). -/
  addrSel : BitVec 2
  /-- Engines with faults beyond their spares at order 6. -/
  badEngines : BitVec 6
  /-- A base-die SRAM, Well, seal SRAM or DRAM row beyond its spares at order 6. -/
  badBase : Bool
  /-- Numbers of the SRAM and DRAM rows that BIST fails at order 6. -/
  bistSram : List Nat
  bistDram : List Nat
  /-- Whether each NOR program, in the order in which the trust core makes them until the next reset, reads back wrong (R661);
  those beyond the list read back right. -/
  programs : List Bool
  /-- A reset falls inside the boot. -/
  cut : Option BootCut
  /-- µs from the start of the boot to the configuration lock (BOOT_LOCK_US). -/
  lockUs : Nat
  deriving DecidableEq, Repr

/-- What the receiver finds in a CSI-2 packet besides its content (Table 12.10 orders 1 and 2). -/
structure PacketHead where
  /-- Frame kind of the Folmar frame (Table 12.3). -/
  kind : BitVec 3
  /-- Every block of the frame had a valid sync header and type (R514). -/
  blocksOk : Bool
  /-- Codewords of the frame that the RS decoder could not correct, and symbols corrected in the others (R516). -/
  uncorr : Nat
  corr : Nat
  /-- Wrong bits found by the header ECC. -/
  eccErrors : Nat
  /-- Virtual channel of the frame header (5 bits, R515). -/
  frameVc : BitVec 5
  /-- Virtual channel of the packet header, VC[3:0] (R523). -/
  headerVc : BitVec 4
  deriving DecidableEq, Repr

/-- How the I3C controller made a private transfer (R678, R681). -/
inductive Xfer where
  | sdr
  | hdr (code : Byte)
  deriving DecidableEq, Repr

/-- A product of the array that comes out wrong, a fault that the product check is there to find (R126 to R130): where
it falls and what it adds to its column's accumulator. -/
structure PeFault where
  /-- The product of the command that it falls in: 0 for a CONV or MATMUL; 2h for the scores and 2h + 1 for the values
  of head h of an ATTN. -/
  job : Nat
  /-- Column group, chunk and weight set of the pass. -/
  group : Nat
  chunk : Nat
  set : Nat
  /-- The slot whose product it is. -/
  slot : Nat
  /-- Vector of the chunk (p) and column (n). -/
  vector : Fin 128
  column : Fin 128
  /-- What it adds to A, in units of the accumulator's last bit. -/
  delta : Int
  deriving DecidableEq, Repr

/-- The engine that runs an array command, with the wrong products of its first run and of the run that a product-check
failure repeats (R609). -/
structure ArrayOn where
  engine : Fin 6
  faults1 : List PeFault
  faults2 : List PeFault
  deriving DecidableEq, Repr

/-- What the tests of a rejoin find (Table 14.6 orders 2 to 5). -/
structure RejoinFacts where
  /-- The most failing rows of one scratch bank, and those of the weight buffer and of the accumulator file (order 2). -/
  bankRows : Nat
  weightRows : Nat
  accRows : Nat
  /-- No failure in logic. -/
  logicOk : Bool
  /-- Every scratch tile reads back the test pattern, and the product check of the self-test list finds nothing (order 5). -/
  testsOk : Bool
  /-- The write signature of the self-test list. -/
  signature : BitVec 64
  deriving DecidableEq, Repr

/-- An arbiter of the fabric (Table 11.2 kinds 0 to 6, and the scratch banks of R153). -/
inductive ArbId where
  | fabric (inst : BitVec 12)
  | wellBank (inst : Fin 32)
  | dramChannel (inst : Fin 128)
  | flagUnit
  | serai
  | rfePort
  | visionPort (unit : Fin 7)
  | scratchBank (engine : Fin 6) (bank : Fin 128)
  deriving DecidableEq, Repr

/-- The resource of a request as its requester names it: the Well, stack DRAM and scratch by the address of the access,
from which R62, Table 2.9 and R152 give the bank or channel. -/
inductive ArbPort where
  /-- A router output; the spec places none. -/
  | fabric (inst : BitVec 12)
  /-- Byte address counted from the Well's base. -/
  | well (addr : Fin 67108864)
  /-- Byte address in stack DRAM, the seal region included. -/
  | dram (addr : Fin 12884901888)
  | flagUnit
  | serai
  | rfePort
  | visionPort (unit : Fin 7)
  /-- Byte offset from the engine's scratch base. -/
  | scratch (engine : Fin 6) (offset : Fin 25165824)
  deriving DecidableEq, Repr

/-- A request at an arbiter (R75 to R83). -/
structure ArbReq where
  /-- Requester index at the arbiter. -/
  req : Nat
  latencyCritical : Bool
  /-- Handshakes of the transfer. -/
  len : Nat
  /-- The context that the requester acts for. -/
  ctx : Option (Fin 64)
  /-- Step at which the sequencer issued it (R487), or the itinerary entry of its launch. -/
  tag : Nat
  /-- The handshakes of a recovery-ladder re-fetch or recomputation (R486). -/
  ladder : Bool
  deriving DecidableEq, Repr

/-- What the sensors and converters of the device read in a toll period (R57, R720, R708). -/
structure Readings where
  /-- The 16 junction sensors in 1/16 °C (Table 17.9). -/
  sensors : Vector Int 16
  /-- Measured rails in mV. -/
  vddNe : Nat
  vddBd : Nat
  /-- For each engine, ns in which it issued the steps counted in the period (R57). -/
  busyNs : Vector Nat 6
  /-- Application-core instructions of the period (Table 10.8 class 7). -/
  acInstructions : Nat
  deriving DecidableEq, Repr

/-- The commands, one per row of the operation and event table. -/
inductive Instr where
  -- boot, pins and sensors
  | boot (t : Nat) (facts : BootFacts)
  | resetNAssert (t : Nat) (lowNs : Nat)
  | pwrOkFall (t : Nat)
  | refclkLoss (t : Nat) (absentNs : Nat)
  | timePpsEdge (t : Nat)
  | thermalTrip (t : Nat) (sensor : Fin 16) (temp : Int)
  -- lanes and containers
  | trainToRun (t : Nat) (lane : Fin 24)
  | lightPresent (t : Nat) (lane : Fin 24)
  | codewordLock (t : Nat) (lane : Fin 24)
  | superframeLock (t : Nat) (lane : Fin 24)
  | lossOfActive (t : Nat) (lane : Fin 24)
  | lossOfLight (t : Nat) (lane : Fin 24)
  | alignBlock (t : Nat) (lane : Fin 24) (farTx : BitVec 3) (farRx : BitVec 3) (credits : Byte)
  | frameStartPacket (t : Nat) (lane : Fin 24) (head : PacketHead) (data : BitVec 16)
  | longPacket (t : Nat) (lane : Fin 24) (head : PacketHead) (dt : BitVec 6) (payload : List Byte) (crcOk : Bool)
  | frameEndPacket (t : Nat) (lane : Fin 24) (head : PacketHead) (data : BitVec 16)
  | containerTimeout (t : Nat) (lane : Fin 24) (vc : BitVec 5)
  | replayRecordArrival (t : Nat) (lane : Fin 24) (record : List Byte)
  | replayedPacketRelease (t : Nat) (seq : Nat)
  -- the Otson link
  | hello (t : Nat) (east : Bool) (frame : List Byte)
  | helloTimeout (t : Nat)
  | readReq (t : Nat) (east : Bool) (frame : List Byte)
  | readResp (t : Nat) (east : Bool) (frame : List Byte)
  | otsonResetFrame (t : Nat) (east : Bool) (frame : List Byte)
  | otsonFrameSend (t : Nat) (east : Bool)
  | otsonRequestTimeout (t : Nat) (part : Fin 8) (credit : BitVec 8)
  -- the itinerary unit
  | majorCycleBoundary (t : Nat)
  | entryDue (t : Nat) (entry : Nat)
  | listLaunch (t : Nat) (engine : Fin 6)
  | deadlineSkip (t : Nat) (entry : Nat)
  | budgetOverrun (t : Nat) (engine : Fin 6)
  | yieldWaitExpiry (t : Nat) (engine : Fin 6)
  | saveComplete (t : Nat) (engine : Fin 6)
  | boundaryYield (t : Nat) (engine : Fin 6)
  | restore (t : Nat) (engine : Fin 6) (ctx : Fin 64)
  | restoreComplete (t : Nat) (engine : Fin 6)
  | bestEffortSliceExpiry (t : Nat) (engine : Fin 6)
  | preEmptionMarkReached (t : Nat) (engine : Fin 6)
  | semaphoreWatchdog (t : Nat) (sem : Fin 256) (holder : Fin 64)
  | handshakeTimeout (t : Nat) (ctx : Option (Fin 64)) (engine : Option (Fin 6))
  | tollPeriodStart (t : Nat) (readings : Readings)
  | meterHold (t : Nat) (meter : Fin 73)
  -- commands of a list, run by an engine; faults1 and faults2 are the wrong products of its first run
  -- and of the run that a product-check failure repeats
  | conv (t : Nat) (engine : Fin 6) (faults1 faults2 : List PeFault)
  | matmul (t : Nat) (engine : Fin 6) (faults1 faults2 : List PeFault)
  | attn (t : Nat) (engine : ArrayOn)
  | pool (t : Nat) (engine : Fin 6)
  | cropresize (t : Nat) (engine : Fin 6)
  | rasterTile (t : Nat) (engine : Fin 6)
  | add (t : Nat) (engine : Fin 6)
  | sub (t : Nat) (engine : Fin 6)
  | mul (t : Nat) (engine : Fin 6)
  | fma (t : Nat) (engine : Fin 6)
  | min (t : Nat) (engine : Fin 6)
  | max (t : Nat) (engine : Fin 6)
  | clamp (t : Nat) (engine : Fin 6)
  | affine (t : Nat) (engine : Fin 6)
  | exp2 (t : Nat) (engine : Fin 6)
  | log2 (t : Nat) (engine : Fin 6)
  | rcp (t : Nat) (engine : Fin 6)
  | rsqrt (t : Nat) (engine : Fin 6)
  | sigmoid (t : Nat) (engine : Fin 6)
  | tanh (t : Nat) (engine : Fin 6)
  | rsum (t : Nat) (engine : Fin 6)
  | rmax (t : Nat) (engine : Fin 6)
  | rmin (t : Nat) (engine : Fin 6)
  | softmax (t : Nat) (engine : Fin 6)
  | norm (t : Nat) (engine : Fin 6)
  | cvt (t : Nat) (engine : Fin 6)
  | mxq (t : Nat) (engine : Fin 6)
  | copy (t : Nat) (engine : Fin 6)
  | tileReloadComplete (t : Nat) (tile : Nat)
  | wait (t : Nat) (engine : Fin 6)
  | waitLimitExpiry (t : Nat) (engine : Fin 6)
  | signal (t : Nat) (engine : Fin 6)
  | semAcquire (t : Nat) (engine : Fin 6)
  | semRelease (t : Nat) (engine : Fin 6)
  | reproject (t : Nat) (engine : Fin 6)
  -- streams, raster front end and vision units
  | anchorSelection (t : Nat) (stream : Fin 32)
  | guideDecisionTime (t : Nat) (stream : Fin 32)
  | triangleBinning (t : Nat)
  | flushJobStart (t : Nat) (engine : Fin 6)
  | flushJobEnd (t : Nat) (engine : Fin 6)
  | visionJobStart (t : Nat) (unit : Fin 7)
  | visionWaitExpiry (t : Nat) (unit : Fin 7)
  | flowJob (t : Nat) (unit : Fin 2)
  | stereoJob (t : Nat)
  | remapJob (t : Nat) (unit : Fin 4)
  -- the Serai and scan-out
  | layer0Drain (t : Nat)
  | stage5LineWrite (t : Nat) (stream : Fin 32)
  | ringToFifoMove (t : Nat) (stream : Fin 32)
  | lineSlotStart (t : Nat) (port : Fin 16)
  -- integrity, refresh and arbiters
  | shadowComparison (t : Nat) (entry : Nat)
  | scrubCheck (t : Nat)
  | errorScoreDecay (t : Nat)
  | rejoinAutoStart (t : Nat) (engine : Fin 6)
  | dramRefresh (t : Nat) (row : Fin 1536)
  | refreshWindow (t : Nat)
  | arbiterRequest (t : Nat) (arbiter : ArbPort) (request : ArbReq) (progress : Nat)
  | arbiterGrant (t : Nat) (arbiter : ArbId)
  | requesterWithdrawal (t : Nat) (arbiter : ArbId) (req : Nat)
  -- in-service tuning
  | holdExpiry (t : Nat) (stream : Fin 32)
  | referenceCut (t : Nat) (stream : Fin 32)
  | epochStart (t : Nat) (stream : Fin 32)
  | batchAssembly (t : Nat) (stream : Fin 32)
  | weightDigestComplete (t : Nat) (stream : Fin 32)
  | itnTuneApprove (t : Nat) (stream : Fin 32) (candidate : BitVec 16)
  | sealRejoinReq (t : Nat) (engines : BitVec 6)
  -- trust
  | attestationStart (t : Nat) (ctl : Word)
  | attestationResponse (t : Nat)
  | sessionKeyPreparation (t : Nat)
  | backgroundSlotErase (t : Nat)
  -- requests through I3C, at their effect event (R691)
  | abort (t : Nat)
  | preempt (t : Nat)
  | teardown (t : Nat)
  | otsonReset (t : Nat)
  | mode (t : Nat)
  -- the I3C target
  | enec (t : Nat) (events : Byte)
  | disec (t : Nat) (events : Byte)
  | enthdr0 (t : Nat)
  | rstact (t : Nat) (defining : Byte)
  | targetResetPattern (t : Nat)
  | entdaa (t : Nat) (address : BitVec 7)
  | setdasa (t : Nat) (static : BitVec 7) (address : BitVec 7)
  | setnewda (t : Nat) (address : BitVec 7)
  | getpid (t : Nat)
  | getbcr (t : Nat)
  | getdcr (t : Nat)
  | getstatus (t : Nat)
  | getmxds (t : Nat)
  | registerWrite (t : Nat) (xfer : Xfer) (bytes : List Byte)
  | readSetup (t : Nat) (xfer : Xfer) (bytes : List Byte)
  | privateRead (t : Nat) (xfer : Xfer)
  | loRegisterRead (t : Nat) (offset : Word)
  | ibi (t : Nat) (acked : Bool) (bytesRead : Nat)
  | rejoinComplete (t : Nat) (engine : Fin 6) (facts : RejoinFacts)
  deriving DecidableEq, Repr

end Sys2Proof
end

