-- ==== Sys2Proof/Decode.lean ====
section
/-! DEFINITION. Reading a command from a word of bits. The block takes commands from outside and the
table gives no row any bits, so no word spells a command. -/
namespace Sys2Proof

/-- The command that a word of `nbits` bits spells: none, for every word (no row of the table has bits). -/
def decodeTableWord (_nbits _w : Nat) : Option Instr := none

end Sys2Proof
end

