-- ==== Sys2Proof/Config.lean ====
section
/-! DEFINITION. What the spec leaves to the implementation, to a published standard that it does not
reproduce, or open: constants without a body, so that nothing can be proved of their values. -/
namespace Sys2Proof.Config

/-- FREE VALUE. The issuing context that CTL_FAULT_ADDR_HI shows for an unmapped access that acts for no context: R59 names
the issuing context, and the Serai acts for none (Table 10.8's text) (log 61). -/
opaque noContext : (addr : Nat) → Fin 64

/-- FREE VALUE. The code that an MXFP6 or MXFP4 element takes from a NaN (R109): Table 3.5 has no row for these
formats, whose codes are all finite (log 56). -/
opaque mxNanCode : (ebits mbits : Nat) → (neg : Bool) → Nat

/-- FREE VALUE. The sign of the NaN that an element of a block with X = 0xFF is (R87), from its own sign; an FP8
destination of a COPY shows it (log 56). -/
opaque blockNanNeg : Bool → Bool

/-- FREE VALUE. What a term is whose two elements are both infinite, by their signs: 0 a NaN, 1 +∞, 2 −∞; the text after
R91 names no such product (log 56). -/
opaque infTerm : Bool → Bool → Fin 3

/-- FREE VALUE. Word `i` of the state that no command names (VR0 to VR31, loop counters, address generators, check state)
after a command of engine `e` that started at `steps`: the spec gives no instruction's use of them (log 24). -/
opaque laneWord : (e steps i : Nat) → BitVec 32

/-- FREE VALUE. How far a command's instructions had been issued, and how many vectors of a drain were written, when a full
save stops issue: the timing that decides it is left out (log 22). -/
opaque stopAt : (e steps : Nat) → Nat × Nat

/-- FREE VALUE. The wrong products among the instructions that a command had issued before a full save stopped it: the command
that tells of wrong products is the one that completes (log 22). -/
opaque stopFaults : (e steps : Nat) → List PeFault

/-- FREE VALUE. How many more tiles a flush job on engine `e` seals before it stops at a tile boundary (R339, R342); the timing
that decides it is left out (log 22). -/
opaque flushStop : (e steps : Nat) → Nat

/-- FREE VALUE. How many output rows a job of vision unit `u` that stops at `now` has written (R392, log 41). -/
opaque visionStop : (u now : Nat) → Nat

/-- FREE VALUE. The FP32 master weights that bank 0 of a package gives (R420): the packing of a bank's weights is the
package's (log 59). -/
opaque masterWeights : (package : Nat) → (bank0 : List Byte) → List (BitVec 32)

/-- FREE VALUE. A byte whose value the spec calls undefined (R277, R376, R610); the argument is the
model's own counter of free values (log 4). -/
opaque freeByte : Nat → Byte

/-- FREE VALUE. The write signature that the image expects of its self-test list, in the bytes of section 0x003C, whose layout
the spec does not give (log 50). -/
opaque selfTestExpected : List Byte → BitVec 64

/-- FREE VALUE. The 32-byte digest of Shovor's root key in mask ROM (R648); the spec does not state it. -/
opaque rootDigest : List Byte

/-- FREE VALUE. What the 131,072 PUF cells of the part hold after a power-up (R650). -/
opaque pufCells : (powerUp : Nat) → BitVec 131072

/-- FREE VALUE. The device secret that the PUF cells and the helper data give (R650); the spec gives no reconstruction. -/
opaque deviceSecret : BitVec 131072 → (helper : List Byte) → BitVec 256

/-- FREE VALUE. The SRAM rows and the DRAM rows that a repair record lists (R653), whose layout the spec does not give
(log 44). -/
opaque repairRows : List Byte → List Nat × List Nat

/-- FREE VALUE. The shortest I3C reset-time code that covers 1 ms (R676); the I3C standard is not reproduced by the
spec (log 42). -/
opaque resetTimeCode : Byte

/-- FREE VALUE. The ordered code of the part: true for PZ616-XS, false for PZ616-CS (Table 0.1). -/
opaque orderedXS : Bool

/-- FREE VALUE. The initial count of semaphore Mm less 1, 0 to 7 (R68: from 1 to 8; the spec names no
field that sets it, log 7). -/
opaque semInitial : Nat → Fin 8

/-- FREE VALUE. Whether the ceiling class of semaphore Mm is latency-critical (R466, log 7). -/
opaque semCeiling : Nat → Bool

end Sys2Proof.Config
end

