-- ==== Sys2Proof/Machine/Records.lean ====
section
/-! DEFINITION. The records of the configuration image, as the boot parses them (chapters 5 to 15).
Each structure is one table of the spec; reserved fields are checked at boot and not kept. -/
namespace Sys2Proof.Machine

/-- Table 10.2, an itinerary entry. -/
structure Entry where
  offset : Nat
  ctx : Nat
  bestEffort : Bool
  target : Nat
  saveOk : Bool
  units : BitVec 6
  stream : Nat
  convoy : Bool
  bind : Nat
  slot : Nat
  group : Nat
  budget : Nat
  launch : Nat
  deadline : Nat
  deriving DecidableEq, Repr

/-- Table 10.3, a launch descriptor. -/
structure LaunchDesc where
  addr : Nat
  record : Nat
  credits : Nat
  yieldWait : Nat
  row0 : Nat
  rows : Nat
  deriving DecidableEq, Repr

/-- Table 10.4, a partition record. -/
structure PartRec where
  part : Nat
  engines : BitVec 6
  credits : Nat
  wayTiles : Nat
  save : Bool
  beSlice : Nat
  deriving DecidableEq, Repr

/-- Table 10.5, a context record. -/
structure CtxRec where
  ctx : Nat
  part : Nat
  tuning : Bool
  compositor : Bool
  saveF : Nat
  saveBase : Nat
  deriving DecidableEq, Repr

/-- Table 10.6, a convoy record. -/
structure ConvoyRec where
  convoy : Nat
  streams : List Nat
  deriving DecidableEq, Repr

/-- Table 10.7, a pre-emption mark. -/
structure Mark where
  lcEntry : Nat
  beEntry : Nat
  step : Nat
  deriving DecidableEq, Repr

/-- Table 10.1, an itinerary with its records (R434). -/
structure Itin where
  index : Nat
  lockstep : Bool
  cycleNs : Nat
  groups0 : Word
  parts : List PartRec
  ctxs : List CtxRec
  convoys : List ConvoyRec
  entries : List Entry
  launches : List LaunchDesc
  marks : List Mark
  deriving DecidableEq, Repr

/-- Table 11.2, a slot-table entry. -/
structure SlotEntry where
  req : Nat
  revoke : Bool
  alt : Bool
  count : Nat
  entry : Nat
  deriving DecidableEq, Repr

/-- Table 11.2, one arbiter's slot table. -/
structure SlotTable where
  kind : Nat
  inst : Nat
  entries : List SlotEntry
  deriving DecidableEq, Repr

/-- Table 6.10, a model package header, with the section's address and its weight digest (R642). -/
structure Package where
  package : Nat
  dest : Nat
  w : Nat
  t : Nat
  bank0Offset : Nat
  bank0Bytes : Nat
  initOffset : Nat
  initBytes : Nat
  stateBytes : Nat
  rowBytes : Nat
  digest : List Byte
  deriving DecidableEq, Repr

/-- Table 7.5, a raster record. -/
structure RasterRec where
  stream : Nat
  kind : Nat
  order : Nat
  fMax : Nat
  flushEngine : Nat
  width : Nat
  height : Nat
  binBase : Nat
  quota : Nat
  geoBytes : Nat
  geoBase : Vector Nat 2
  flushBase : Vector Nat 2
  deriving DecidableEq, Repr

/-- Table 7.11, a layer declaration. -/
structure LayerDecl where
  stream : Nat
  layer : Nat
  blend : Nat
  x : Nat
  y : Nat
  w : Nat
  h : Nat
  entry : Nat
  tensor : Nat
  deriving DecidableEq, Repr

/-- Table 9.1, a tuning record. -/
structure TuneRec where
  stream : Nat
  enable : Bool
  policy : Nat
  refEvery : Nat
  boxes : Nat
  w64 : Nat
  w128 : Nat
  w256 : Nat
  valMod : Nat
  capacity : Nat
  refLimit : Nat
  adoptSteps : Nat
  tseed : BitVec 64
  lr : Word
  b1 : Word
  b2 : Word
  eps2 : Word
  wd : Word
  margin : Word
  replayBase : Nat
  slotTiles : Nat
  stateBase : Nat
  bank1Base : Nat
  bank2Base : Nat
  holdBase : Nat
  eHold : Nat
  eCut : Nat
  eTrain : Nat
  eExport : Nat
  eEval : Nat
  deriving DecidableEq, Repr

/-- Table 13.1, a sensor profile. -/
structure Profile where
  profile : Nat
  dt : Nat
  lsLe : Bool
  cfa : Byte
  width : Nat
  height : Nat
  lineNs : Nat
  frameLines : Nat
  embBytes : Nat
  white : Nat
  black : Nat
  kShot : Word
  read2 : Word
  lbLines : Nat
  wmark : Nat
  embStatic : List Byte
  deriving DecidableEq, Repr

/-- Table 13.2, a port record. -/
structure PortRec where
  stream : Nat
  port : Nat
  vc : Nat
  profile : Nat
  fsOffset : Nat
  noiseSeed : BitVec 64
  lbBase : Nat
  laUs : Nat
  lgUs : Nat
  deriving DecidableEq, Repr

/-- Table 12.6, a stream input record. -/
structure InputRec where
  stream : Nat
  lane : Nat
  vc : Nat
  resim : Bool
  format : Nat
  channels : Nat
  compMask : BitVec 16
  width : Nat
  height : Nat
  rxBase : Vector Nat 2
  rxBytes : Nat
  refBase : Nat
  deriving DecidableEq, Repr

/-- Table 14.3, a producer range record. -/
structure RangeRec where
  base : Nat
  entry : Nat
  tiles : Nat
  lrs : Nat
  index : Nat
  recompute : Bool
  imageBacked : Bool
  norOffset : Nat
  deriving DecidableEq, Repr

/-- Table 14.4, a shadow record. -/
structure ShadowRec where
  entry : Nat
  n : Nat
  engine : Nat
  blocking : Bool
  index : Nat
  deriving DecidableEq, Repr

/-- The configuration image as the boot accepted it (Tables 15.3 to 15.5). -/
structure Image where
  programDigest : List Byte
  certification : Bool
  record : Bool
  replay : Bool
  ringN : Nat
  landBase : Nat
  recBase : Nat
  recBytes : Nat
  itins : List Itin
  slotTables : List (Nat × List SlotTable)
  /-- Directory index, DEST and BYTES of every section that is copied to memory (Table 15.4). -/
  loads : List (Nat × Nat × Nat)
  /-- DEST and BYTES of the self-test list with its expected write signature (section type 0x003C). -/
  selfTest : Option (Nat × Nat)
  packages : List Package
  /-- Stream and device address of its stream state block (R259). -/
  ssbs : List (Nat × Nat)
  rasters : List RasterRec
  layers : List LayerDecl
  tunes : List TuneRec
  profiles : List Profile
  ports : List PortRec
  inputs : List InputRec
  ranges : List RangeRec
  shadows : List ShadowRec
  deriving DecidableEq, Repr

/-- No image yet: before the configuration lock. -/
def Image.none : Image :=
  { programDigest := [], certification := false, record := false, replay := false, ringN := 0,
    landBase := 0, recBase := 0, recBytes := 0, itins := [], slotTables := [], loads := [], selfTest := Option.none, packages := [],
    ssbs := [], rasters := [], layers := [], tunes := [], profiles := [], ports := [], inputs := [],
    ranges := [], shadows := [] }

end Sys2Proof.Machine
end

