-- ==== Sys2Proof/Machine/State.lean ====
section
/-! DEFINITION. The state of the PZ616 block: the queue of waiting commands and the device, as plain data,
and its value right after reset. -/
namespace Sys2Proof.Machine

/-- Why the machine stops with a fault. -/
inductive Fault where
  /-- Raised by RESET_N_ASSERT for a low pulse of at least 100 ns and below 1 µs: R706 forbids the pulse
  and gives it no effect. Safe: the machine stops where a device may do anything. -/
  | resetPulseForbidden
  deriving DecidableEq, Repr

/-- Why a command has no meaning. -/
inductive Refusal where
  /-- Raised by a dispatch arm whose command has no meaning yet. Safe: the machine stops. -/
  | notModelled (mnemonic : String)
  deriving DecidableEq, Repr

/-- The status codes of Table 0.4 (R13). -/
inductive Status where
  | ok | alreadyDone | aborted | sealFail | checkFail | timeout | badDimensions | deadlineMiss
  | noCredit | tornDown | configRejected | unsupported | degraded
  deriving DecidableEq, Repr

/-- The events of Table 0.5 (R15). -/
inductive Event where
  | streamDegraded | underrun | partialRender | sealFailure | engineRetired | engineRejoined
  | batchLow | inputRejected | keyRollover | capActive | fatal
  deriving DecidableEq, Repr

/-- An in-band interrupt event with its payload (Table 16.3). -/
structure IbiEvent where
  event : Event
  seq : Nat
  arg0 : Nat
  arg1 : Nat
  arg2 : Nat
  /-- Instant at which it was queued, until it has been raised at the head of the queue (R684, R687, R729). -/
  at_ : Option Nat
  deriving DecidableEq, Repr

/-- Where the device stands between a reset and the next (R633, R634). -/
inductive Phase where
  /-- PWR_OK has fallen: the device waits for a boot (R710). -/
  | off
  /-- RESET_N is released and the boot has not reached the configuration lock. -/
  | preLock
  /-- The lock has passed; the chip count waits for HELLO (R540). -/
  | awaitChips
  /-- T0 has passed: the itinerary runs. -/
  | running
  /-- Inert until the next reset (R658, R714, R722). -/
  | inert
  deriving DecidableEq, Repr

/-! ### Lists and engines -/

/-- A launch's binding to streams (Table 10.2 BIND, R262). -/
inductive Bind where
  | encode | stripe | endOfFrame
  deriving DecidableEq, Repr

/-- An accepted anchor (Table 12.7). -/
structure Anchor where
  tag : Nat
  stamp : Nat
  buf : Fin 2
  digest : List Byte
  renderTime : List Byte
  pose : List Byte
  user : List Byte
  deriving DecidableEq, Repr

/-- One due of an itinerary entry (R736). -/
structure Due where
  index : Nat
  entry : Nat
  count : Nat
  /-- Time-base instant at which it fell due. -/
  at_ : Nat
  /-- The re-projection list of this stream launches in place of the entry's own list (R291). -/
  repro : Option Nat
  /-- A shadow launch (R612). -/
  shadow : Bool
  /-- A relaunch of R606, ahead of every waiting entry. -/
  relaunch : Bool
  /-- That relaunch is the producer's; its consumer's follows it. -/
  producer : Bool
  /-- For the consumer's relaunch, the tile whose read it repeats. -/
  tile : Option Nat
  /-- For an encode launch, the anchor that it encodes for each stream that has a newer one (R284). -/
  anchors : List (Nat × Anchor)
  /-- For a re-projection, the engine on which the launch that it replaces was placed (R291). -/
  on : Option Nat := none
  deriving DecidableEq, Repr

/-- A tensor descriptor (Table 4.8). -/
structure Desc where
  base : Nat
  tensorId : Nat
  fmt : Nat
  layout : Nat
  comp : Nat
  channels : Nat
  width : Nat
  height : Nat
  rowPitch : Nat
  planeStride : Nat
  scaleOffset : Nat
  deriving DecidableEq, Repr

/-- A pending wait of an engine (Table 4.6 wait record). -/
inductive WaitRec where
  | flag (flag target start limit : Nat)
  | sem (sem : Nat) (start : Nat)
  deriving DecidableEq, Repr

/-- Where a COPY from a remote device, or one that a full save has stopped, stands (R191, R463, R464): its requests issued and
moved, of all, its source bytes, and what has been moved, with the source address of each part. -/
structure RemoteCopy where
  issued : Nat
  moved : Nat
  total : Nat
  len : Nat
  data : List (Nat × List Byte)
  deriving DecidableEq, Repr

/-- Steps and traffic that are charged (R452). -/
structure Use where
  fullSteps : Nat := 0
  emptySteps : Nat := 0
  vecSteps : Nat := 0
  scratch : Nat := 0
  well : Nat := 0
  dram : Nat := 0
  pixels : Nat := 0
  deriving DecidableEq, Repr

/-- The expansion position of Table 4.6: the next instruction of the command at hand. -/
structure Pos where
  /-- MODEL's OWN. Instructions of the command that have been issued. -/
  issued : Nat := 0
  /-- Instruction kind, in the order that R159's list of kinds has them: 0 WLD to 5 SYN. -/
  kind : Nat := 0
  /-- MODEL's OWN. Which product of an ATTN (`ArrayJob.job`); 0 elsewhere. -/
  job : Nat := 0
  group : Nat := 0
  set : Nat := 0
  /-- The chunk, or the tile's place in the region of a RASTER_TILE (R334). -/
  chunk : Nat := 0
  slot : Nat := 0
  /-- Vectors of the chunk that a stopped drain has written, or the entry of a RASTER_TILE's tile (R334). -/
  vector : Nat := 0
  digit : Nat := 0
  half : Nat := 0
  deriving DecidableEq, Repr

/-- The weight source record of Table 4.6. -/
structure WeightSrc where
  addr : Nat
  bytes : Nat
  fmt : Nat
  slots : Nat
  scaleAddr : Nat
  set : Nat
  deriving DecidableEq, Repr

/-- The list that an engine runs, with the instruction-level state of Table 4.6: list record, current command, descriptor
cache, expansion position, weight source, pending-transfer, wait, fused-group and status records. -/
structure Run where
  due : Due
  ctx : Nat
  bestEffort : Bool
  /-- Streams the launch is bound to, with the kind and the slot number (unwrapped). -/
  bind : Option Bind
  streams : List Nat
  slot : Nat
  addr : Nat
  cmds : List (List Byte)
  descs : List Desc
  footprint : Nat
  idx : Nat
  steps : Nat
  started : Nat
  fused : Bool
  /-- The command at `idx` has started and not completed. -/
  inCmd : Bool
  wait : Option WaitRec
  remote : Option RemoteCopy
  /-- Destination ring row per stream of a writing list (R266), and H of each bound stream at launch. -/
  dests : List (Nat × Nat)
  heads : List (Nat × Nat)
  /-- Write signature (R614). -/
  sigA : Word
  sigB : Word
  degraded : Bool
  credits : Nat
  /-- The last command has ended and the commit waits: for a blocking shadow (R615) or a vision job (Table 8.8). -/
  awaitShadow : Bool
  /-- Overrun counted once (R442). -/
  overrun : Bool
  /-- Otson credits that the launch holds now, those of its outstanding requests among them (R462 to R464). -/
  credHeld : Nat := 0
  /-- The command that opened the fused group (Table 4.6 fused-group record). -/
  groupAt : Nat := 0
  pos : Pos := {}
  /-- MODEL's OWN. What the instructions issued so far of the command at hand have been charged. -/
  charged : Use := {}
  /-- The weight set in the weight buffer of a command that a full save has stopped (R188). -/
  weights : Option WeightSrc := none
  /-- A pass of the command at hand failed its check before a full save stopped it (R609). -/
  failed : Bool := false
  /-- Saved status record: columns with a false range guard in the drain that a full save stopped, reported at the restore
  (Table 4.19). -/
  lateFlags : Nat := 0
  /-- Start of the WAIT or acquire that a full save withdrew (Table 4.6 wait record). -/
  waitedAt : Nat := 0
  /-- How far a COPY through the fabric port has come that a full save has stopped (R191). -/
  xfer : Option RemoteCopy := none
  deriving DecidableEq, Repr

/-- Table 10.9, the pre-emption state of an engine. -/
inductive PreState where
  | idle | running | requested | saving | restoring
  deriving DecidableEq, Repr

/-- A long accumulator, or the FP32 sum of a BF16 or FP16 pair (R90, Table 4.3). -/
structure Acc where
  a : BitVec 64
  ef : Int
  et : Int
  n : Nat
  nan : Bool
  pinf : Bool
  ninf : Bool
  mode : Bool
  deriving DecidableEq, Repr

/-- Registers of an engine that hold what happened (Tables 3.6, 4.20, 5.9, 6.9). -/
structure NeRegs where
  arithStatus : BitVec 3
  /-- MODEL's OWN. The bits of it that the hardware set at instant `arithAt`: a write of 1 at that instant leaves them
  set (R10, R132, log 53). -/
  arithSet : BitVec 3
  arithAt : Nat
  rangeFlags : Nat
  checkFails : Nat
  checkUncovered : Nat
  checkEn : Bool
  listAddr : Nat
  stepsHi : Word
  lastStatus : Word
  decodeInfo : Word
  cmdsDone : Nat
  bankStalls : Nat
  yields : Nat
  fullSaves : Nat
  restores : Nat
  lastSaveUs : Nat
  lastRestoreUs : Nat
  teardowns : Nat
  freeChoice : Nat
  deriving DecidableEq, Repr

/-- The image-operator and attention registers of an engine (Tables 5.9, 6.9). -/
structure NeOpRegs where
  padSkips : Nat
  cropOutside : Nat
  cropZero : Nat
  mapInfo : Word
  frBlocks : Nat
  attnEmpty : Nat
  bindInfo : Word
  deriving DecidableEq, Repr

/-- Tile raster unit registers (Table 7.13). -/
structure TruRegs where
  tiles : Nat
  entries : Nat
  reloads : Nat
  flushTiles : Nat
  motSat : Nat
  culled : Nat
  deriving DecidableEq, Repr

/-- Rejoin of a retired engine (Table 14.6). -/
inductive Rejoin where
  | none
  /-- Orders 1 to 4 done, self-test running. -/
  | testing
  /-- Order 5 ended at this instant; admission at the first boundary strictly after it. -/
  | awaiting (at_ : Nat)
  deriving DecidableEq, Repr

/-- Engine NEn with its tile raster unit. -/
structure Engine where
  pre : PreState
  run : Option Run
  regs : NeRegs
  op : NeOpRegs
  tru : TruRegs
  /-- Steps since reset, and of the current toll period. -/
  steps : Nat
  periodSteps : Nat
  /-- Accumulator entries (column, entry) left by the last array command; others are empty (R90). -/
  acc : List (Nat × Nat × Acc)
  /-- The marked vectors and columns of each failing pass of the last product-check failure, which the recovery ladder
  takes (R130). -/
  marks : List (List Nat × List Nat)
  /-- What no command names: VR0 to VR31 (R147), the loop counters and address generators of Table 4.6 and the check state
  of Table 4.18. `none` while they hold the zeros of reset, else the engine and its steps at the start of the command that
  set them, of which their words are free values (`Engine.laneWord`, log 24). -/
  lanes : Option (Nat × Nat)
  /-- Request of R458: instant and YIELD_WAIT in µs; `none` outside REQUESTED. -/
  request : Option (Nat × Nat)
  /-- A full save requested at once by PREEMPT (R695). -/
  saveStart : Nat
  /-- The context being saved or restored. -/
  moving : Option Nat
  /-- Best-effort slice: context and end instant (R445). -/
  slice : Option (Nat × Nat)
  /-- Mark whose give-way holds the engine (R461): LC entry. -/
  marked : Option Nat
  /-- Producer landing that stalls the engine (R572). -/
  stalled : Bool
  score : Nat
  retired : Bool
  asleep : Bool
  retiredAt : Nat
  rejoin : Rejoin
  deriving DecidableEq, Repr

/-! ### Contexts and partitions -/

/-- A context's state (Table 10.15 ITN_CTX_STATUSc). -/
inductive CtxMode where
  | idle | queued | running | yielded | saved | quarantined
  deriving DecidableEq, Repr

/-- A change of state that leaves a quarantined context quarantined (R470). -/
def CtxMode.next (old new : CtxMode) : CtxMode := if old = .quarantined then .quarantined else new

structure Ctx where
  mode : CtxMode
  /-- Ready best-effort launches, in queue order (R444). -/
  ready : List Due
  /-- The run kept by a boundary yield or a full save. -/
  kept : Option Run
  /-- Engine on which it was pre-empted, for lockstep resume (R461). -/
  keptOn : Option (Fin 6)
  /-- It was fully saved, and not yielded (R185, R186). -/
  keptSaved : Bool
  /-- Accumulator entries in the save image of a full save (Table 4.18). -/
  keptAcc : List (Nat × Nat × Acc)
  /-- VR0 to VR31 and the check state in that image. -/
  keptLanes : Option (Nat × Nat)
  /-- It gave way under a mark of lockstep mode (R461). -/
  byMark : Bool
  lastEntry : Nat
  /-- The teardown that quarantined it was requested through I3C (R627). -/
  excused : Bool
  held : Bool
  /-- A meter has held it in the running toll period: not while it held a semaphore (R456). -/
  wasHeld : Bool
  creditsReserved : Nat
  creditsOut : Nat
  deriving DecidableEq, Repr

structure Part where
  freeCredits : Nat
  /-- Responses held in the waystation: credit number. -/
  wayHeld : List Nat
  beServed : Nat
  deriving DecidableEq, Repr

/-! ### Streams -/

/-- What is known of one slot of a stream (R18, R40, R586). -/
structure Slot where
  n : Nat
  causes : BitVec 13
  /-- Causes of bits 8 and 10 that did not arise from an abort or teardown requested through I3C (R627). -/
  ownCauses : BitVec 13
  /-- Event 0x10 has been queued (R685). -/
  raised : Bool
  underLines : Nat
  underRaised : Bool
  /-- A stripe of the slot ran the model (R286). -/
  ranModel : Bool
  /-- A stripe of the slot was replaced, launched nothing or ended without a commit (R280). -/
  fellBack : Bool
  eofCommitted : Bool
  eofFailed : Bool
  /-- Its due launched nothing for a reason that R286 does not list. -/
  eofGone : Bool
  /-- That failure came from an abort or teardown requested through I3C (R627). -/
  eofExcused : Bool
  /-- Stripe launches of the slot that ran the model: itinerary and entry (R280). -/
  ranBy : List (Nat × Nat)
  anchorDigest : Option (List Byte)
  guideDigest : Option (List Byte)
  overlayDigest : Option (List Byte)
  guideOk : Option Bool
  /-- Anchor in use: present flag, d, and the anchor itself (R286). -/
  dist : Option Nat
  anchor : Option Anchor
  /-- An anchor tagged for the slot was rejected at validation (Table 1.2). -/
  anchorBad : Bool
  /-- A cold start belongs to the slot: its input digest starts from zeros (R502). -/
  cold : Bool
  /-- Output rows that a fallback filled (Table 13.4 FALLBACK): first row and count. -/
  backRows : List (Nat × Nat)
  /-- It has been filled after a seal or check failure, which counts once (Table 11.3). -/
  sealFilled : Bool
  /-- DONE flags of flow and stereo jobs of the slot that ended without committing, with their status (Table 8.8). -/
  lostFlags : List (Nat × Status)
  /-- Sensor rows complete in the ring or the FIFO (R563). -/
  rows : List Nat
  /-- Layer declarations found present or absent when composing began (R349). -/
  layers : List (Nat × Bool)
  inputDigest : List Byte
  /-- The anchor in use when d was settled (R286). -/
  used : Option Anchor
  /-- The stream's weight digest and the mode in force at the frame start (Table 11.4). -/
  weights : List Byte
  lockstep : Bool
  deriving DecidableEq, Repr

/-- A hold of a reference slot (R401, R402). -/
structure Hold where
  slot : Nat
  buf : Fin 2
  expiry : Nat
  filled : Bool
  /-- Contents of the hold buffer: the unpacked anchor planes and the LMOT buffer (R401, log 59). -/
  anchor : List Byte
  motion : List Byte
  /-- Accepted reference: frame-end stamp and lines with a CRC failure (R404). -/
  reference : Option (Nat × List Nat)
  deriving DecidableEq, Repr

/-- A prepared batch (Table 9.4). -/
structure Batch where
  number : Nat
  epoch : Nat
  bucket : Nat
  samples : List Nat
  skipped : List Nat
  nskip : Nat
  first : Nat
  /-- Contents of the queue slot once the batch is emitted: its samples' patches, then the manifest (R417, log 36). -/
  slot : List Byte
  deriving DecidableEq, Repr

/-- A tuning candidate (R424 to R426). -/
structure Candidate where
  c : Nat
  /-- The adoption bank that its export writes (R424). -/
  bank : Fin 3
  exported : Bool
  digest : Option (List Byte)
  evalDone : Bool
  lossC : Word
  lossA : Word
  approved : Bool
  /-- Instant at which the candidate became ready (R426). -/
  readyAt : Option Nat
  deriving DecidableEq, Repr

/-- In-service tuning of one stream (chapter 9). -/
structure Tune where
  suspended : Bool
  /-- Reference slot whose hold the next E_HOLD due makes (R401). -/
  holdDue : Option Nat
  holds : List Hold
  refs : Nat
  samples : Nat
  /-- Manifest of the samples in the replay buffer: sample number, bucket, CRC_BAD. -/
  manifest : List (Nat × Nat × Bool)
  epoch : Nat
  epochRunning : Bool
  walk : List Nat
  walkPos : Nat
  open_ : List Batch
  batches : Nat
  queue : List Batch
  low : Bool
  steps : Nat
  p1 : Word
  p2 : Word
  /-- The copy of the optimiser state at STATE_BASE that the last commit selected (R420, log 59). -/
  optSel : Bool
  /-- Changes of the active bank, newest first: the instant and the bank before (R427). -/
  banks : List (Nat × Fin 3)
  failures : Nat
  /-- Candidate number whose export is pending (R424). -/
  exportDue : Option Nat
  cand : Option Candidate
  deriving DecidableEq, Repr

/-- The tuning registers of a stream (Table 9.6). -/
structure TuneRegs where
  lastCand : Nat
  bank : Fin 3
  weights : List Byte
  skipped : Nat
  refsCut : Nat
  refDrops : Nat
  lows : Nat
  dropped : Nat
  adopts : Nat
  refused : Nat
  missed : Nat
  deriving DecidableEq, Repr

/-- One emulated camera stream. -/
structure Stream where
  held : List Anchor
  selected : Option Anchor
  inUse : Option Anchor
  everAccepted : Bool
  /-- Tags of the two most recent accepted anchors (R42). -/
  tags : List Nat
  slots : List Slot
  /-- The slot whose decision time D(m) comes next, and the slot whose D_G(n) comes next. -/
  decided : Nat
  guided : Nat
  inputDigest : List Byte
  lastD : Nat
  late : Nat
  abandons : Nat
  resyncs : Nat
  appendsHi : Word
  model : Nat
  /-- Last image pixel emitted (R568). -/
  lastPixel : Option (List Nat)
  urgent : Bool
  fifo : List (Nat × List Byte)
  provFrame : Nat
  provDigest : List Byte
  tune : Tune
  treg : TuneRegs
  deriving DecidableEq, Repr

/-! ### Raster front end -/

/-- State of a set's buffer (RFE_RECi). -/
inductive SetPhase where
  | receiving | accepted | closed
  deriving DecidableEq, Repr

/-- The draw being received (Table 7.2). -/
structure Draw where
  vertsLeft : Nat
  trisLeft : Nat
  padLeft : Nat
  nvert : Nat
  cull : Nat
  baseVert : Nat
  deriving DecidableEq, Repr

/-- A geometry set in a buffer of its raster record (R304). -/
structure GeoSet where
  recIdx : Nat
  buf : Fin 2
  stream : Nat
  kind : Nat
  slot : Nat
  frame : Nat
  width : Nat
  height : Nat
  order : Nat
  tSpan : Nat
  mScale : Nat
  ndraw : Nat
  ntri : Nat
  nvert : Nat
  phase : SetPhase
  /-- Bytes received and not yet parsed, and bytes received in all. -/
  tail : List Byte
  total : Nat
  draw : Option Draw
  drawsDone : Nat
  vertsDone : Nat
  deriving DecidableEq, Repr

/-- How far a set has come: triangles, trailer, binning and partial renders. -/
structure GeoProg where
  trisDone : Nat
  /-- Numbers of triangles received at the ends of the draws so far (R343). -/
  drawEnds : List Nat
  trailer : Option Nat
  digest : List Byte
  nextTri : Nat
  nextBlock : Nat
  partials : Nat
  /-- Overflowed beyond F_MAX: later triangles are only marked (R336). -/
  denied : Bool
  incomplete : Bool
  /-- The lowest of checks 9 and 10 of Table 7.6 that has failed so far. -/
  fault : Option (Status × Nat)
  /-- Flush job of the set: engine, running, tiles flushed. -/
  flush : Option (Nat × Bool × Nat)
  /-- Instant of the overflow that asked for it. -/
  flushAt : Nat
  accepted : Bool
  deriving DecidableEq, Repr

structure Rfe where
  sets : List (GeoSet × GeoProg)
  /-- Set served: record and buffer, and triangles taken since the last switch point (R343). -/
  serving : Option (Nat × Fin 2)
  served : Nat
  /-- The RFE's place in its slot table, and the stretches between switch points that the entry there has granted (R344). -/
  slot : Nat × Nat
  accepted : Nat
  rejected : Nat
  late : Nat
  partials : Nat
  denied : Nat
  offscreen : Nat
  lastReject : Word
  tris : Nat
  trisHi : Word
  freeChoice : Nat
  deriving DecidableEq, Repr

/-! ### Vision units -/

/-- A launch of a vision unit. -/
structure VLaunch where
  due : Due
  ctx : Nat
  addr : Nat
  deriving DecidableEq, Repr

/-- A running vision job: its record, its descriptors and its wait. -/
structure VRun where
  launch : VLaunch
  job : List Byte
  descs : List Desc
  waitStart : Nat
  satisfied : Bool
  deriving DecidableEq, Repr

structure Vision where
  run : Option VRun
  queue : List VLaunch
  stalled : Bool
  jobs : Nat
  lastStatus : Word
  pixels : Nat
  pixelsHi : Word
  freeChoice : Nat
  teardowns : Nat
  /-- FLOW_NOMATCH, STEREO_NOMATCH or REMAP_OUTSIDE; FLOW_SAT or STEREO_OCCLUDED (Table 8.10). -/
  countA : Nat
  countB : Nat
  deriving DecidableEq, Repr

/-! ### The Serai and scan-out -/

/-- A landing in one of a producer's two landing slots (Table 13.4). -/
structure Landing where
  producer : Nat
  slotIdx : Fin 2
  stream : Nat
  layer : Nat
  status : Status
  fallback : Bool
  frame : Nat
  row0 : Nat
  rows : Nat
  entry : Nat
  decl : Nat
  desc : Desc
  /-- Handshake instant, for the drain order (R576). -/
  at_ : Nat
  deriving DecidableEq, Repr

structure Serai where
  landings : List Landing
  /-- Landings whose handshake stalls because both slots are full, with the unit that waits:
  engine n, or 6 + vision unit. -/
  waiting : List (Nat × Landing)
  /-- Composed rows on their way to stage 5: stream, slot, row and its FP32 pixels (R, G, B). -/
  composed : List (Nat × Nat × Nat × List (List Word))
  landed : Nat
  stalls : Nat
  absent : Nat
  freeChoice : Nat
  pixelLayers : Nat
  lastProducer : Nat
  deriving DecidableEq, Repr

/-- A packet that a port has sent in a line slot (Table 13.3). -/
structure OutPacket where
  vc : Nat
  dt : Nat
  data : Nat
  payload : List Byte
  /-- The fourth header byte, with the ECC, and the packet CRC of a long packet (Table 12.5). -/
  ecc : Nat
  crc : Option Nat
  deriving DecidableEq, Repr

structure Scan where
  running : Bool
  slot : Nat
  nextLine : Nat
  underrun : Nat
  framesA : Nat
  framesB : Nat
  freeChoice : Nat
  urgentCount : Nat
  degradedA : Nat
  degradedB : Nat
  occMinA : Nat
  occMinB : Nat
  occA : Nat
  occB : Nat
  lastCauses : Word
  /-- Packets of the last line slot, in order of emission. -/
  sent : List OutPacket
  deriving DecidableEq, Repr

/-! ### Lanes, recorder, Otson -/

inductive TxState where
  | dark | train | run
  deriving DecidableEq, Repr

inductive RxState where
  | dark | cwSearch | sfSearch | active
  deriving DecidableEq, Repr

structure TxLane where
  state : TxState
  since : Nat
  role : Byte
  frames : Nat
  deriving DecidableEq, Repr

structure RxLane where
  state : RxState
  role : Byte
  corr : Nat
  uncorr : Nat
  eccCorr : Nat
  eccDisc : Nat
  crc : Nat
  loss : Nat
  frameErr : Nat
  /-- States that the far side reports in its ALIGN blocks (R521). -/
  farTx : BitVec 3
  farRx : BitVec 3
  deriving DecidableEq, Repr

/-- An open container (R526). -/
structure Container where
  lane : Fin 24
  vc : Nat
  stream : Option Nat
  fsData : Nat
  openedAt : Nat
  dt : Option Nat
  bytes : List Byte
  packets : Nat
  header : List Byte
  /-- Receive buffer claimed at order 9 of Table 12.10. -/
  buf : Option (Fin 2)
  /-- The set of a geometry container has passed checks 1 to 7 of Table 7.6 and was not discarded at D_G (R308). -/
  opened : Bool
  badLines : List Nat
  /-- Rejected already: later packets of it are ignored until its Frame End. -/
  dead : Bool
  deriving DecidableEq, Repr

structure Lanes where
  tx : Vector TxLane 24
  rx : Vector RxLane 24
  open_ : List Container
  rejected : Nat
  lastReject : Word
  inAccept : Vector Nat 32
  inReject : Vector Nat 32
  deriving DecidableEq, Repr

/-- A record held for replay: Table 12.12 header fields and body. -/
structure ReplayRec where
  lane : Nat
  stream : Nat
  flags : Byte
  index : Nat
  stamp : Int
  seq : Nat
  body : List Byte
  /-- Instant at which the record had arrived (R500). -/
  arrived : Nat
  deriving DecidableEq, Repr

structure Recorder where
  /-- Records written and not yet sent, oldest first, with their instants, and the bytes they take in the ring
  (R498). -/
  ring : List (Nat × List Byte)
  used : Nat
  seq : Nat
  /-- Packet records dropped and not yet told by a gap record (R498). -/
  gap : Nat
  /-- Arrival index per stream (R546); 32 for VC 31, 33 for an unknown stream. -/
  arrivals : Vector Nat 34
  /-- Stamp of the last packets, and those of that stamp: stream as above, and lane (R546). -/
  instant : Nat × List (Nat × Nat)
  /-- Instant from which each recorder lane is free, and the lane of the next record (R545). -/
  laneFree : Vector Nat 4
  nextLane : Nat
  records : Nat
  replay : List ReplayRec
  replayUsed : Nat
  replayMode : List (Nat × List Byte)
  mismatch : Bool
  t0Seen : Bool
  drops : Nat
  gaps : Nat
  deriving DecidableEq, Repr

/-- An outstanding remote request (R463 to R465, R542). -/
structure OutReq where
  part : Nat
  credit : Nat
  engine : Option (Fin 6)
  ctx : Nat
  /-- The launch whose COPY it serves. -/
  due : Due
  issued : Nat
  east : Bool
  destPos : Nat
  addr : Nat
  len : Nat
  chunk : Nat
  live : Bool
  deriving DecidableEq, Repr

structure OtsPair where
  up : Bool
  epoch : Byte
  /-- Link credits of the two lanes of the pair (R543). -/
  credits : Vector Nat 2
  nextLane : Fin 2
  /-- Lane by which the pair's next frame comes; and of each receive lane the credits of frames that have left its 32 KiB landing
  buffer and are not returned yet, and what byte 7 of the last ALIGN block returned (R543). -/
  rxNext : Fin 2
  owed : Vector Nat 2
  returned : Vector Byte 2
  sendQ : List (List Byte)
  /-- HELLO seen: N, position, digest. -/
  hello : Option (Nat × Nat × List Byte)
  deriving DecidableEq, Repr

structure Otson where
  east : OtsPair
  west : OtsPair
  outstanding : List OutReq
  /-- Responses in waystation tiles: partition, credit, data. -/
  way : List (Nat × Nat × List Byte)
  ringFail : Bool
  enabledAt : Nat
  txFrames : Nat
  rxFrames : Nat
  crcErrors : Nat
  fwdFrames : Nat
  fwdDrops : Nat
  resets : Nat
  deriving DecidableEq, Repr

/-! ### Well, arbiters, DRAM -/

structure Sem where
  count : Nat
  ceiling : Bool
  /-- Holders: context and grant instant (R68, R467). -/
  holders : List (Nat × Nat)
  /-- Waiting acquirers: context, engine, latency-critical, entry, arrival instant. -/
  waiters : List (Nat × Nat × Bool × Nat × Nat)
  /-- Instant of arrival and class of the acquire granted last (R69). -/
  last : Option (Nat × Bool)
  deriving DecidableEq, Repr

structure Well where
  binSize : Nat
  flags : Vector (BitVec 16) 1024
  sems : Vector Sem 256
  semErrors : Nat
  freeChoice : Nat
  deriving DecidableEq, Repr

/-- One arbiter: waiting requests in the order in which they are to be granted, with their instants of arrival,
the granted transfer with the handshakes it had completed before, the kept progress counts (R80) and the place in its
slot table (R484). -/
structure Arbiter where
  id : ArbId
  waiting : List (Nat × ArbReq)
  granted : Option (ArbReq × Nat)
  /-- The slot-table entry that made the grant (R484). -/
  entry : Option SlotEntry
  /-- A revocation that takes effect at the next handshake boundary, with the handshakes then completed (R78). -/
  revoking : Option Nat
  kept : List (ArbReq × Nat)
  /-- Transfers that an entry with REVOKE clear left unfinished after its COUNT, with their completed handshakes: not revoked,
  so not among the 8 kept counts (R80, R484). -/
  paused : List (ArbReq × Nat)
  tablePos : Nat
  /-- Handshakes that the entry at `tablePos` has granted (R484). -/
  served : Nat
  /-- Handshakes that the running transfer makes its waiting requesters stall for, until its boundary (R156). -/
  stalls : Nat
  /-- Instant at which a granted best-effort transfer was withdrawn (Table 2.10). -/
  freedAt : Option Nat
  deadHandshakes : Nat
  deriving DecidableEq, Repr

structure Stk where
  arbiters : List Arbiter
  freeChoice : Nat
  /-- Instant of the last refresh of each row index (R73), sparse: unlisted rows since reset. -/
  refreshed : List (Nat × Nat)
  nextRow : Nat
  windows : Nat
  deriving DecidableEq, Repr

/-! ### Control, I3C, boot, trust, thermal, tolls, seals, itinerary -/

/-- The record that reads of CTL_PROV_FRAME and CTL_PROV_DIGESTi share (R508): the instant of the first read, which of
the nine registers have been read since (8 is CTL_PROV_FRAME), and its values. -/
structure ProvLatch where
  at_ : Nat
  seen : List Nat
  frame : Nat
  digest : List Byte
  deriving DecidableEq, Repr

structure Ctl where
  lockstep : Bool
  rateLow : Bool
  locked : Bool
  timeHi : Word
  pps : Option Nat
  stepsNe : Vector Nat 6
  faultAddr : Nat
  faultCtx : Nat
  replay : Bool
  record : Bool
  chips : Nat
  fabricFree : Nat
  controlFree : Nat
  replayLate : Nat
  recoveryEvents : Nat
  provSel : BitVec 5
  prov : Option ProvLatch
  runSeed : BitVec 64
  deriving DecidableEq, Repr

/-- A mode change accepted for a boundary (R536, R698). -/
structure PendingMode where
  k : Nat
  fromI3c : Bool
  /-- Order within its source: stamp and lane, or arrival. -/
  order : Nat × Nat
  body : List Byte
  deriving DecidableEq, Repr

structure Request where
  area : Vector Word 16
  /-- Request copied at GO, in phase 1 (R689). -/
  pending : Option (List Byte)
  /-- The launch that a pending PREEMPT is to stop, with its engine (R695). -/
  watch : Option (Nat × Due × Bool)
  result : Word
  arg : Word
  count : Nat
  modes : List PendingMode
  skips : Nat
  deriving DecidableEq, Repr

inductive Armed where
  | none | peripheral | whole
  deriving DecidableEq, Repr

structure I3c where
  dynAddr : Option (BitVec 7)
  enint : Bool
  hdr : Bool
  armed : Armed
  /-- A target reset pattern with nothing armed was seen and no GETSTATUS since (R676). -/
  patternSeen : Bool
  protocolError : Bool
  setup : Option (Byte × Nat × Nat)
  reply : List Byte
  last : Word
  mask : BitVec 11
  queue : List IbiEvent
  /-- MODEL's OWN. Events of the running command, queued at its end in the order of R684; empty between
  commands. -/
  fresh : List (Event × Nat × Nat × Nat)
  seq : Nat
  lost : Nat
  deriving DecidableEq, Repr

structure Boot where
  order : Nat
  status : Status
  failIndex : Nat
  cause : Nat
  lockUs : Nat
  imageBytes : Nat
  sramRepaired : Nat
  dramRepaired : Nat
  unrepaired : BitVec 6
  journalSlot : Nat
  journalPos : Nat
  slotErased : Bool
  deriving DecidableEq, Repr

/-- A session key (R664): its identity leaf, its next unused leaf, its certificate. -/
structure SessionKey where
  leaf : Nat
  next : Nat
  seeds : List Byte
  certificate : List Byte
  released : Bool
  deriving DecidableEq, Repr

structure Trust where
  secret : List Byte
  usable : Bool
  puffail : Bool
  treeFail : Bool
  journalFail : Bool
  noFactory : Bool
  exhausted : Bool
  noRepair : Bool
  lastStatus : Status
  block : Option Nat
  nextLeaf : Nat
  journalSeq : Nat
  journalSeqHi : Word
  session : Option SessionKey
  prepared : Option SessionKey
  preparing : Bool
  sessions : Nat
  deriving DecidableEq, Repr

structure Attest where
  chal : Vector Word 9
  /-- Challenge copied at START, with USE_LAST_SEEN. -/
  busy : Option (List Word × Bool)
  ready : Bool
  response : List Byte
  attests : Nat
  rollovers : Nat
  advances : Nat
  idCert : List Byte
  mfgCert : List Byte
  deviceId : List Byte
  /-- A journal slot waiting for its background erase (R662). -/
  eraseSlot : Option (Fin 2)
  /-- MODEL's OWN. Whether each coming program of the NOR reads back wrong; those beyond the list read back right (log 45). -/
  programs : List Bool
  deriving DecidableEq, Repr

structure Therm where
  hold : Bool
  trip : Bool
  clkLost : Bool
  hottest : Nat
  tj : Int
  /-- THERM_TJ_PEAK; none before the first reading, when it reads 0. -/
  peak : Option Int
  holdAt : Nat
  tripAt : Nat
  vddNe : Nat
  vddBd : Nat
  power : Nat
  holdPeriods : Nat
  ppsIgnored : Nat
  sensors : Vector Int 16
  deriving DecidableEq, Repr

/-- A toll meter: four budgets, the uses of the running period and of the last completed one (R451).
The order is steps, stack-DRAM bytes, Well bytes, energy; energy is kept in fJ and shown in nJ. -/
structure Meter where
  budget : Vector Nat 4
  use : Vector Nat 4
  last : Vector Nat 4
  held : Bool
  deriving DecidableEq, Repr

/-- Accounting of a context since reset (R457). -/
structure Acct where
  steps : Nat
  engineNs : Nat
  bytes : Nat
  energy : Nat
  launches : Nat
  his : Vector Word 4
  deriving DecidableEq, Repr

structure Toll where
  meters : Vector Meter 73
  acct : Vector Acct 64
  cap : Nat
  bePct : Nat
  static : Nat
  weights : Vector Nat 8
  deviceHeld : Bool
  beHeld : Bool
  lastDeviceHeld : Bool
  capPeriods : Nat
  heldLast : BitVec 64
  period : Nat
  /-- The running period is held by R721. -/
  thermHeld : Bool
  deriving DecidableEq, Repr

/-- The write signature of a launch that has ended, or of its shadow, which waits for its comparison (R614). -/
structure ShadowSig where
  index : Nat
  entry : Nat
  count : Nat
  shadow : Bool
  engine : Nat
  a : Word
  b : Word
  deriving DecidableEq, Repr

structure SealRegs where
  genDram : Nat
  genWell : Nat
  genScr : Vector Nat 6
  failsDram : Nat
  failsWell : Nat
  failsScr : Vector Nat 6
  refetchOk : Nat
  recomputes : Nat
  fallbacks : Nat
  fillTiles : Nat
  lastFail : Nat
  lastFailHi : Word
  /-- Latched high word of SEAL_LAST_FAIL_HI (R631). -/
  lastFailHiLatch : Word
  deriving DecidableEq, Repr

structure SealState where
  scrubEn : Bool
  scrubPos : Nat
  scrubPasses : Nat
  scrubFails : Nat
  scrubRepairs : Nat
  shadowRuns : Nat
  shadowMismatch : Nat
  shadowSkips : Nat
  retireThresh : Nat
  rejoinCtl : Word
  rejoinFails : Nat
  retirements : Nat
  /-- Decay steps taken (R620). -/
  decays : Nat
  sched : Nat
  lost : Nat
  excused : Nat
  his : Vector Word 3
  /-- Signatures of ended primaries and shadows that wait for their comparison. -/
  sigs : List ShadowSig
  /-- Image-backed tiles whose reload is under way: tile, the unit that waits for it (engine n, or 6 + the
  vision unit), by scrub. -/
  reloads : List (Nat × Option Nat × Bool)
  deriving DecidableEq, Repr

/-- A launch that has ended, or was skipped or aborted (R692). -/
structure Ended where
  index : Nat
  entry : Nat
  count : Nat
  status : Status
  deriving DecidableEq, Repr

/-- A launch that has begun its own list, or a re-projection in its place (R485). -/
structure Began where
  index : Nat
  entry : Nat
  count : Nat
  repro : Bool
  deriving DecidableEq, Repr

structure Itinerary where
  active : Nat
  t0 : Option Nat
  t0Hi : Word
  k : Nat
  cycles : Nat
  groupEn : Word
  /-- Dues that wait for an engine, in order of arrival. -/
  waiting : List Due
  /-- Entries that have fallen due in this cycle. -/
  fallen : List Nat
  /-- Launches aborted before their due: index, entry, count (Table 16.7). -/
  aborted : List (Nat × Nat × Nat)
  /-- Retirement asks for a switch at the next boundary (R471, R472). -/
  switchTo : Option Nat
  /-- Latency-critical dues with the engine whose launch was asked to give way to each (R458). -/
  asked : List (Due × Nat)
  ended : List Ended
  /-- The launches of the last two traversals that have begun (R485). -/
  began : List Began
  /-- Affinity: context, stream or convoy key (0 for an unbound entry), engine (R446). -/
  affinity : List (Nat × Nat × Nat)
  /-- Flush windows of this cycle: engine, start and end instant (R440). -/
  windows : List (Nat × Nat × Nat)
  launches : Nat
  deadlineSkips : Nat
  lateEnds : Nat
  overruns : Nat
  noCredit : Nat
  teardowns : Nat
  semWatchdog : Nat
  switches : Nat
  freeChoice : Nat
  lastTeardown : Word
  deriving DecidableEq, Repr

/-- The pins and the supplies as the device drives or sees them. -/
structure Pins where
  /-- ALERT_N is driven low (R712). -/
  alertLow : Bool
  addrSel : BitVec 2
  lasersOn : Bool
  xspiFloating : Bool
  /-- Power-ups before the one whose state the PUF cells hold (R634, R650). -/
  powerUp : Nat
  deriving DecidableEq, Repr

/-- Byte-addressed stores of the device. -/
structure Store where
  /-- Stack DRAM, Well and scratch: sorted by address, no entry equal to 0 (log 8). -/
  mem : List (Nat × Byte)
  /-- Seals by tile start address, sorted; an unlisted tile carries the seal of a zero tile of
  generation 1, or of `fillScr` for scratch (R595, R597). -/
  seals : List (Nat × BitVec 64)
  /-- Generation in which unlisted tiles of SCRn were last zero-filled and sealed (R597, R624 order 5). -/
  fillScr : Vector Nat 6
  /-- MODEL's OWN. Tiles whose next check reads wrong words once and right ones after (log 9). -/
  glitches : List Nat
  /-- The boot NOR, which survives a reset: sorted, no entry equal to the erased value 0xFF. -/
  nor : List (Nat × Byte)
  /-- MODEL's OWN. Free values used so far (log 4). -/
  freeCtr : Nat
  deriving DecidableEq, Repr

/-- The device: everything of the PZ616 but the queue of commands. -/
structure Device where
  phase : Phase
  /-- The time base in ns (R49). -/
  now : Nat
  pins : Pins
  store : Store
  image : Image
  ctl : Ctl
  req : Request
  i3c : I3c
  boot : Boot
  trust : Trust
  attest : Attest
  therm : Therm
  toll : Toll
  sealRegs : SealRegs
  sealSt : SealState
  itn : Itinerary
  well : Well
  stk : Stk
  ne : Vector Engine 6
  vis : Vector Vision 7
  ctxs : Vector Ctx 64
  parts : Vector Part 8
  streams : Vector Stream 32
  rfe : Rfe
  serai : Serai
  scan : Vector Scan 16
  lanes : Lanes
  recorder : Recorder
  ots : Otson
  deriving DecidableEq, Repr

/-- The state of the block: the commands that wait, first in first out, and the device. -/
structure State where
  pending : List Instr
  dev : Device
  deriving DecidableEq, Repr

/-! ### Reset -/

def NeRegs.reset : NeRegs :=
  { arithStatus := 0, arithSet := 0, arithAt := 0, rangeFlags := 0, checkFails := 0, checkUncovered := 0, checkEn := true,
    listAddr := 0, stepsHi := 0, lastStatus := 0, decodeInfo := 0, cmdsDone := 0, bankStalls := 0,
    yields := 0, fullSaves := 0, restores := 0, lastSaveUs := 0, lastRestoreUs := 0, teardowns := 0,
    freeChoice := 0 }

def NeOpRegs.reset : NeOpRegs :=
  { padSkips := 0, cropOutside := 0, cropZero := 0, mapInfo := 0, frBlocks := 0, attnEmpty := 0,
    bindInfo := 0 }

def Engine.reset : Engine :=
  { pre := .idle, run := none, regs := .reset, op := .reset,
    tru := { tiles := 0, entries := 0, reloads := 0, flushTiles := 0, motSat := 0, culled := 0 },
    steps := 0, periodSteps := 0, acc := [], marks := [], lanes := none, request := none, saveStart := 0, moving := none,
    slice := none, marked := none, stalled := false, score := 0, retired := false, asleep := false,
    retiredAt := 0, rejoin := .none }

def Ctx.reset : Ctx :=
  { mode := .idle, ready := [], kept := none, keptOn := none, keptSaved := false, keptAcc := [], keptLanes := none, byMark := false, lastEntry := 0, excused := false, held := false, wasHeld := false,
    creditsReserved := 0, creditsOut := 0 }

def Part.reset : Part := { freeCredits := 0, wayHeld := [], beServed := 63 }

/-- R420: tuning starts with t = 0, p1 = p2 = 1.0 and numbers at 0. -/
def Tune.reset : Tune :=
  { suspended := false, holdDue := none, holds := [], refs := 0, samples := 0, manifest := [], epoch := 0,
    epochRunning := false, walk := [], walkPos := 0, open_ := [], batches := 0, queue := [],
    low := false, steps := 0, p1 := 0x3F800000, p2 := 0x3F800000, optSel := false, banks := [], failures := 0,
    exportDue := none, cand := none }

def TuneRegs.reset : TuneRegs :=
  { lastCand := 0, bank := 0, weights := List.replicate 32 0, skipped := 0, refsCut := 0,
    refDrops := 0, lows := 0, dropped := 0, adopts := 0, refused := 0, missed := 0 }

def Stream.reset : Stream :=
  { held := [], selected := none, inUse := none, everAccepted := false, tags := [], slots := [], decided := 0, guided := 0,
    inputDigest := List.replicate 32 0, lastD := 0, late := 0, abandons := 0, resyncs := 0,
    appendsHi := 0, model := 0, lastPixel := none, urgent := false, fifo := [], provFrame := 0,
    provDigest := List.replicate 32 0, tune := .reset, treg := .reset }

def Rfe.reset : Rfe :=
  { sets := [], serving := none, served := 0, slot := (0, 0), accepted := 0, rejected := 0, late := 0, partials := 0,
    denied := 0, offscreen := 0, lastReject := 0, tris := 0, trisHi := 0, freeChoice := 0 }

def Vision.reset : Vision :=
  { run := none, queue := [], stalled := false, jobs := 0, lastStatus := 0, pixels := 0, pixelsHi := 0,
    freeChoice := 0, teardowns := 0, countA := 0, countB := 0 }

def Serai.reset : Serai :=
  { landings := [], waiting := [], composed := [], landed := 0, stalls := 0, absent := 0,
    freeChoice := 0, pixelLayers := 0, lastProducer := 0 }

def Scan.reset : Scan :=
  { running := false, slot := 0, nextLine := 0, underrun := 0, framesA := 0, framesB := 0,
    freeChoice := 0, urgentCount := 0, degradedA := 0, degradedB := 0, occMinA := 0, occMinB := 0,
    occA := 0, occB := 0, lastCauses := 0, sent := [] }

/-- R518, R519 and Table 12.14: after a reset every lane is DARK. -/
def Lanes.reset : Lanes :=
  { tx := Vector.replicate 24 { state := .dark, since := 0, role := 0, frames := 0 },
    rx := Vector.replicate 24
      { state := .dark, role := 0, corr := 0, uncorr := 0, eccCorr := 0, eccDisc := 0, crc := 0,
        loss := 0, frameErr := 0, farTx := 0, farRx := 0 },
    open_ := [], rejected := 0, lastReject := 0, inAccept := Vector.replicate 32 0,
    inReject := Vector.replicate 32 0 }

def Recorder.reset : Recorder :=
  { ring := [], used := 0, seq := 0, gap := 0, arrivals := Vector.replicate 34 0, instant := (0, []),
    laneFree := Vector.replicate 4 0, nextLane := 0, records := 0,
    replay := [], replayUsed := 0, replayMode := [], mismatch := false, t0Seen := false, drops := 0,
    gaps := 0 }

def OtsPair.reset : OtsPair :=
  { up := false, epoch := 0, credits := Vector.replicate 2 0, nextLane := 0, rxNext := 0,
    owed := Vector.replicate 2 0, returned := Vector.replicate 2 0, sendQ := [], hello := none }

def Otson.reset : Otson :=
  { east := .reset, west := .reset, outstanding := [], way := [], ringFail := false, enabledAt := 0,
    txFrames := 0, rxFrames := 0, crcErrors := 0, fwdFrames := 0, fwdDrops := 0, resets := 0 }

def Well.reset : Well :=
  { binSize := 16, flags := Vector.replicate 1024 0,
    sems := Vector.replicate 256 { count := 0, ceiling := false, holders := [], waiters := [], last := none },
    semErrors := 0, freeChoice := 0 }

def Ctl.reset : Ctl :=
  { lockstep := false, rateLow := false, locked := false, timeHi := 0, pps := none,
    stepsNe := Vector.replicate 6 0, faultAddr := 0, faultCtx := 0, replay := false, record := false,
    chips := 0, fabricFree := 0, controlFree := 0, replayLate := 0, recoveryEvents := 0, provSel := 0, prov := none,
    runSeed := 0 }

def Request.reset : Request :=
  { area := Vector.replicate 16 0, pending := none, watch := none, result := 0, arg := 0, count := 0, modes := [],
    skips := 0 }

/-- R682: ENINT is clear after every boot; CTL_IBI_MASK resets to 0x7FF. -/
def I3c.reset : I3c :=
  { dynAddr := none, enint := false, hdr := false, armed := .none, patternSeen := false,
    protocolError := false, setup := none, reply := [], last := 0, mask := 0x7FF, queue := [], fresh := [],
    seq := 0, lost := 0 }

/-- BOOT_STATUS resets to 0x03FF_0000: no failing section. -/
def Boot.reset : Boot :=
  { order := 0, status := .ok, failIndex := 0x3FF, cause := 0, lockUs := 0, imageBytes := 0,
    sramRepaired := 0, dramRepaired := 0, unrepaired := 0, journalSlot := 0, journalPos := 0,
    slotErased := false }

def Trust.reset : Trust :=
  { secret := [], usable := false, puffail := false, treeFail := false, journalFail := false,
    noFactory := false, exhausted := false, noRepair := false, lastStatus := .ok, block := none,
    nextLeaf := 0, journalSeq := 0, journalSeqHi := 0, session := none, prepared := none,
    preparing := false, sessions := 0 }

def Attest.reset : Attest :=
  { chal := Vector.replicate 9 0, busy := none, ready := false, response := [], attests := 0,
    rollovers := 0, advances := 0, idCert := [], mfgCert := [], deviceId := List.replicate 8 0,
    eraseSlot := none, programs := [] }

/-- Table 17.11: the thresholds reset by ordered code. -/
def Therm.reset : Therm :=
  { hold := false, trip := false, clkLost := false, hottest := 0, tj := 0, peak := none,
    holdAt := if Config.orderedXS then 0x690 else 0x5F0,
    tripAt := if Config.orderedXS then 0x780 else 0x6E0,
    vddNe := 0, vddBd := 0, power := 0, holdPeriods := 0, ppsIgnored := 0,
    sensors := Vector.replicate 16 0 }

def Meter.reset : Meter :=
  { budget := Vector.replicate 4 0xFFFFFFFF, use := Vector.replicate 4 0, last := Vector.replicate 4 0,
    held := false }

/-- Table 10.16; the weights are those of Table 10.8 in fJ. -/
def Toll.reset : Toll :=
  { meters := Vector.replicate 73 .reset,
    acct := Vector.replicate 64
      { steps := 0, engineNs := 0, bytes := 0, energy := 0, launches := 0, his := Vector.replicate 4 0 },
    cap := 600, bePct := 80, static := 0,
    weights := #v[3604000, 600000, 500000, 500, 1000, 2800, 300000, 156000],
    deviceHeld := false, beHeld := false, lastDeviceHeld := false, capPeriods := 0, heldLast := 0,
    period := 0, thermHeld := false }

/-- Table 14.8: the generation registers read 0 until the boot sets every generation number to 1. -/
def SealRegs.reset : SealRegs :=
  { genDram := 0, genWell := 0, genScr := Vector.replicate 6 0, failsDram := 0, failsWell := 0,
    failsScr := Vector.replicate 6 0, refetchOk := 0, recomputes := 0, fallbacks := 0, fillTiles := 0,
    lastFail := 0, lastFailHi := 0, lastFailHiLatch := 0 }

def SealState.reset : SealState :=
  { scrubEn := true, scrubPos := 0, scrubPasses := 0, scrubFails := 0, scrubRepairs := 0,
    shadowRuns := 0, shadowMismatch := 0, shadowSkips := 0, retireThresh := 16, rejoinCtl := 0x0A00,
    rejoinFails := 0, retirements := 0, decays := 0, sched := 0, lost := 0, excused := 0,
    his := Vector.replicate 3 0, sigs := [], reloads := [] }

def Itinerary.reset : Itinerary :=
  { active := 0, t0 := none, t0Hi := 0, k := 0, cycles := 0, groupEn := 0, waiting := [],
    fallen := [], aborted := [], switchTo := none, asked := [], ended := [], began := [], affinity := [], windows := [], launches := 0, deadlineSkips := 0,
    lateEnds := 0, overruns := 0, noCredit := 0, teardowns := 0, semWatchdog := 0, switches := 0,
    freeChoice := 0, lastTeardown := 0 }

/-- The device right after RESET_N is released: every register at its reset value, the time base at 0
(R49), every lane dark. The NOR and the power-up state of the PUF cells survive a reset (R634), so they are parameters, with the
model's count of free values. -/
def Device.reset (nor : List (Nat × Byte)) (powerUp : Nat := 0) (free : Nat := 0) : Device :=
  { phase := .preLock, now := 0,
    pins := { alertLow := false, addrSel := 0, lasersOn := false, xspiFloating := false, powerUp := powerUp },
    store := { mem := [], seals := [], fillScr := Vector.replicate 6 1, glitches := [], nor := nor, freeCtr := free },
    image := .none, ctl := .reset, req := .reset, i3c := .reset, boot := .reset, trust := .reset,
    attest := .reset, therm := .reset, toll := .reset, sealRegs := .reset, sealSt := .reset,
    itn := .reset, well := .reset,
    stk := { arbiters := [], freeChoice := 0, refreshed := [], nextRow := 0, windows := 0 },
    ne := Vector.replicate 6 .reset, vis := Vector.replicate 7 .reset,
    ctxs := Vector.replicate 64 .reset, parts := Vector.replicate 8 .reset,
    streams := Vector.replicate 32 .reset, rfe := .reset, serai := .reset,
    scan := Vector.replicate 16 .reset, lanes := .reset, recorder := .reset, ots := .reset }

/-- The machine right after reset: no command waits and the NOR is erased (log 8). -/
def State.reset : State := { pending := [], dev := Device.reset [] }

end Sys2Proof.Machine
end

