-- ==== Sys2Proof/Machine/Ops.lean ====
section
/-! DEFINITION. Named operations over the state: vectors and lists by number, byte fields, memory and the
tile seals (R594 to R600), free values, counters, in-band interrupt events (R682 to R686), degraded slots
(R40), time and the closing of a command. -/
namespace Sys2Proof.Machine

/-! ### Vectors and lists by number -/

def vget {α : Type} {n : Nat} (v : Vector α n) (i : Nat) (dflt : α) : α := v[i]?.getD dflt

def vset {α : Type} {n : Nat} (v : Vector α n) (i : Nat) (x : α) : Vector α n := v.setIfInBounds i x

def vmod {α : Type} {n : Nat} (v : Vector α n) (i : Nat) (f : α → α) : Vector α n :=
  match v[i]? with
  | some x => v.setIfInBounds i (f x)
  | none => v

/-- Replace the first element that satisfies `p`, if one does. -/
def replaceFirst {α : Type} (p : α → Bool) (f : α → α) : List α → List α
  | [] => []
  | x :: xs => if p x then f x :: xs else x :: replaceFirst p f xs

/-- Remove the first element that satisfies `p`, if one does. -/
def removeFirst {α : Type} (p : α → Bool) : List α → List α
  | [] => []
  | x :: xs => if p x then xs else x :: removeFirst p xs

/-- Insert before the first element that `lt` says is greater. -/
def insertBy {α : Type} (lt : α → α → Bool) (x : α) : List α → List α
  | [] => [x]
  | y :: ys => if lt x y then x :: y :: ys else y :: insertBy lt x ys

/-- A stable sort by insertion. -/
def sortBy {α : Type} (lt : α → α → Bool) (l : List α) : List α := l.foldl (fun acc x => insertBy lt x acc) []

/-- The last `n` elements. -/
def lastN {α : Type} (n : Nat) (l : List α) : List α := l.drop (l.length - n)

def allBelow (n : Nat) (p : Nat → Bool) : Bool := (List.range n).all p

/-! ### Byte fields (R6: little-endian) -/

/-- The little-endian number that bytes form. -/
def leNat : List Byte → Nat
  | [] => 0
  | b :: bs => b.toNat + 256 * leNat bs

/-- `n` little-endian bytes of a number. -/
def leBytes : (n : Nat) → Nat → List Byte
  | 0, _ => []
  | n + 1, v => BitVec.ofNat 8 v :: leBytes n (v / 256)

/-- The field of `n` bytes at offset `o`; bytes past the end read 0. -/
def field (bs : List Byte) (o n : Nat) : Nat := leNat ((bs.drop o).take n)

/-- Bits [hi:lo] of a number. -/
def bits (v hi lo : Nat) : Nat := v / 2 ^ lo % 2 ^ (hi - lo + 1)

def bit (v i : Nat) : Bool := v / 2 ^ i % 2 = 1

def boolNat (b : Bool) : Nat := if b then 1 else 0

/-- A signed byte field. -/
def sfield (bs : List Byte) (o n : Nat) : Int :=
  let v := field bs o n
  if v < 2 ^ (8 * n - 1) then (v : Int) else (v : Int) - (2 ^ (8 * n) : Nat)

def word (n : Nat) : Word := BitVec.ofNat 32 n

/-- The bytes of a list at offset `o` replaced by `new`. -/
def patch (bs : List Byte) (o : Nat) (new : List Byte) : List Byte :=
  bs.take o ++ new ++ bs.drop (o + new.length)

/-! ### The address map (Table 2.5) -/

def dramEnd : Nat := 0x2FFA00000
def wellBase : Nat := 0x800000000
def wellBytes : Nat := 0x4000000
def scratchBase (n : Nat) : Nat := 0x900000000 + n * 0x2000000
def scratchBytes : Nat := 0x1800000
def localBase : Nat := 0x9F0000000
def tileBytes : Nat := 16384

/-- Where a device address lies (R58, R733). -/
inductive Region where
  | dram | well | scratch (n : Fin 6) | localScratch | sealRegion | registers | unmapped
  deriving DecidableEq, Repr

def regionOf (a : Nat) : Region :=
  if a < dramEnd then .dram
  else if a < 0x300000000 then .sealRegion
  else if wellBase ≤ a ∧ a < wellBase + wellBytes then .well
  else if localBase ≤ a ∧ a < localBase + scratchBytes then .localScratch
  else if h : 0x900000000 ≤ a ∧ a < 0x90C000000 then
    if (a - 0x900000000) % 0x2000000 < scratchBytes then
      .scratch ⟨(a - 0x900000000) / 0x2000000, by omega⟩
    else .unmapped
  else if 0xF00000000 ≤ a ∧ a < 0xF10000000 then .registers
  else .unmapped

/-- R733: the address that an engine's access reaches. -/
def physAddr (e : Nat) (a : Nat) : Nat :=
  match regionOf a with
  | .localScratch => scratchBase e + (a - localBase)
  | _ => a

def inWellOrDram (a : Nat) : Bool :=
  match regionOf a with
  | .dram => true
  | .well => true
  | _ => false

/-! ### Memory: sorted pairs, unlisted bytes read 0 (log 8) -/

/-- The canonical form: addresses strictly rising, no entry equal to 0. -/
def Memory.wf : List (Nat × Byte) → Bool
  | [] => true
  | [(_, b)] => b != 0
  | (a, b) :: (a', b') :: rest => b != 0 && decide (a < a') && Memory.wf ((a', b') :: rest)

def memGet : List (Nat × Byte) → Nat → Byte
  | [], _ => 0
  | (a, b) :: rest, x => if a = x then b else memGet rest x

/-- The listed entries of a run of bytes from `a`. -/
def memListed (a : Nat) : List Byte → List (Nat × Byte)
  | [] => []
  | b :: bs => if b = 0 then memListed (a + 1) bs else (a, b) :: memListed (a + 1) bs

/-- The bytes from `a` replaced by `bs`. -/
def memPut (mem : List (Nat × Byte)) (a : Nat) (bs : List Byte) : List (Nat × Byte) :=
  mem.filter (fun c => c.1 < a) ++ (memListed a bs ++ mem.filter (fun c => a + bs.length ≤ c.1))

/-- The listed entries within [a, a + n). -/
def memWindow (mem : List (Nat × Byte)) (a n : Nat) : List (Nat × Byte) :=
  mem.filter (fun c => a ≤ c.1 && c.1 < a + n)

def memGetN (mem : List (Nat × Byte)) (a n : Nat) : List Byte :=
  let w := memWindow mem a n
  (List.range n).map (fun i => memGet w (a + i))

/-- Rebuild the canonical form entry by entry; later entries win. -/
def memCanon (mem : List (Nat × Byte)) : List (Nat × Byte) :=
  mem.foldl (fun m c => memPut m c.1 [c.2]) []

/-! ### Seals (R595, R600) -/

/-- Σ of the bytes' shares in A and in B of a seal, for entries of the tile at `tile`. -/
def sealShare (tile : Nat) (entries : List (Nat × Byte)) : Nat × Nat :=
  entries.foldl
    (fun s c =>
      let o := c.1 - tile
      let w := c.2.toNat * 2 ^ (8 * (o % 4))
      ((s.1 + w) % 2 ^ 32, (s.2 + (o / 4 + 1) * w) % 2 ^ 32))
    (0, 0)

/-- A seal from A and B. -/
def sealPack (a b : Nat) : BitVec 64 := BitVec.ofNat 64 (a % 2 ^ 32 + b % 2 ^ 32 * 2 ^ 32)

/-- Index of a tile's domain: 0 DRAM, 1 WELL, 2 + n SCRn (R594, Table 14.8). -/
def domainOf (tile : Nat) : Nat :=
  match regionOf tile with
  | .well => 1
  | .scratch n => 2 + n
  | _ => 0

/-- Generation number of a domain (R596). -/
def SealRegs.gen (r : SealRegs) (dom : Nat) : Nat :=
  if dom = 0 then r.genDram else if dom = 1 then r.genWell else vget r.genScr (dom - 2) 0

/-- R595: the seal that the tile's present words have in generation `g`. -/
def sealOf (mem : List (Nat × Byte)) (tile g : Nat) : BitVec 64 :=
  let s := sealShare tile (memWindow mem tile tileBytes)
  sealPack (tile / tileBytes + s.1) (g + s.2)

/-- The seal of a zero tile, as the boot and a rejoin write it. -/
def sealFill (st : Store) (tile : Nat) : BitVec 64 :=
  let dom := domainOf tile
  sealPack (tile / tileBytes) (if dom < 2 then 1 else vget st.fillScr (dom - 2) 1)

/-- The stored seal of a tile. -/
def sealGet (st : Store) (tile : Nat) : BitVec 64 :=
  match st.seals.find? (fun c => c.1 = tile) with
  | some c => c.2
  | none => sealFill st tile

/-- R598: the address of a DRAM tile's seal. -/
def sealAddr (tile : Nat) : Nat := 0x2FFA00000 + 8 * (tile / tileBytes)

/-- R598: the byte at an address of the seal region; the bytes of its reserved end hold nothing. -/
def Store.sealByte (st : Store) (a : Nat) : Option Byte :=
  if 0x2FFA00000 ≤ a ∧ a < 0x2FFFFF400 then
    some (BitVec.ofNat 8 ((sealGet st ((a - 0x2FFA00000) / 8 * tileBytes)).toNat / 256 ^ ((a - 0x2FFA00000) % 8)))
  else none

def sealPut (st : Store) (tile : Nat) (v : BitVec 64) : Store :=
  let rest := st.seals.filter (fun c => c.1 ≠ tile)
  let seals :=
    if v = sealFill st tile then rest
    else rest.filter (fun c => c.1 < tile) ++ (tile, v) :: rest.filter (fun c => tile < c.1)
  { st with seals := seals }

/-- R600: the part of a write that lies in one tile, with its seal: a full write sets the seal from the
words written, a partial one adds the differences. -/
def Store.writeInTile (st : Store) (gen : Nat) (a : Nat) (bs : List Byte) : Store :=
  let tile := a / tileBytes * tileBytes
  let new := sealShare tile (memListed a bs)
  let seal64 :=
    if bs.length = tileBytes then sealPack (tile / tileBytes + new.1) (gen + new.2)
    else
      let old := sealShare tile (memWindow st.mem a bs.length)
      let cur := (sealGet st tile).toNat
      sealPack (cur % 2 ^ 32 + new.1 + (2 ^ 32 - old.1)) (cur / 2 ^ 32 + new.2 + (2 ^ 32 - old.2))
  sealPut { st with mem := memPut st.mem a bs } tile seal64

/-- A write cut at tile boundaries, over at most `fuel` tiles. -/
def Store.writeCut (regs : SealRegs) : (fuel : Nat) → Store → Nat → List Byte → Store
  | 0, st, _, _ => st
  | fuel + 1, st, a, bs =>
    if bs.isEmpty then st
    else
      let room := tileBytes - a % tileBytes
      let st := st.writeInTile (regs.gen (domainOf a)) a (bs.take room)
      Store.writeCut regs fuel st (a + room) (bs.drop room)

/-- A sealed write of bytes at a physical address. -/
def Device.write (d : Device) (a : Nat) (bs : List Byte) : Device :=
  { d with store := d.store.writeCut d.sealRegs (bs.length / tileBytes + 2) a bs }

/-- The bytes that stand in memory, without a check. -/
def Device.peek (d : Device) (a n : Nat) : List Byte := memGetN d.store.mem a n

/-- Tiles that [a, a + n) touches. -/
def tilesOf (a n : Nat) : List Nat :=
  if n = 0 then []
  else (List.range ((a + n - 1) / tileBytes - a / tileBytes + 1)).map
    (fun i => (a / tileBytes + i) * tileBytes)

/-- R595: whether the stored seal agrees with the tile's words in its domain's generation. -/
def Device.sealed (d : Device) (tile : Nat) : Bool :=
  sealGet d.store tile = sealOf d.store.mem tile (d.sealRegs.gen (domainOf tile))

/-! ### Free values (log 4) -/

/-- The counter of the free values stands at `n`. -/
def Device.setFree (d : Device) (n : Nat) : Device := { d with store := { d.store with freeCtr := n } }

/-- `n` free bytes, one each from the counter. -/
def Device.freeBytes (d : Device) (n : Nat) : List Byte × Device :=
  let c := d.store.freeCtr
  ((List.range n).map (fun i => Config.freeByte (c + i)),
    d.setFree (c + n))

/-! ### Substructures by number -/

def Device.eng (d : Device) (e : Nat) : Engine := vget d.ne e .reset
def Device.modEng (d : Device) (e : Nat) (f : Engine → Engine) : Device := { d with ne := vmod d.ne e f }
def Device.ctx (d : Device) (c : Nat) : Ctx := vget d.ctxs c .reset
def Device.modCtx (d : Device) (c : Nat) (f : Ctx → Ctx) : Device := { d with ctxs := vmod d.ctxs c f }
def Device.part (d : Device) (p : Nat) : Part := vget d.parts p .reset
def Device.modPart (d : Device) (p : Nat) (f : Part → Part) : Device := { d with parts := vmod d.parts p f }
def Device.strm (d : Device) (s : Nat) : Stream := vget d.streams s .reset
def Device.modStrm (d : Device) (s : Nat) (f : Stream → Stream) : Device :=
  { d with streams := vmod d.streams s f }
def Device.unit (d : Device) (u : Nat) : Vision := vget d.vis u .reset
def Device.modUnit (d : Device) (u : Nat) (f : Vision → Vision) : Device := { d with vis := vmod d.vis u f }
def Device.port (d : Device) (p : Nat) : Scan := vget d.scan p .reset
def Device.modPort (d : Device) (p : Nat) (f : Scan → Scan) : Device := { d with scan := vmod d.scan p f }
def Device.modItn (d : Device) (f : Itinerary → Itinerary) : Device := { d with itn := f d.itn }
def Device.modSeal (d : Device) (f : SealRegs → SealRegs) : Device := { d with sealRegs := f d.sealRegs }
def Device.modSealSt (d : Device) (f : SealState → SealState) : Device := { d with sealSt := f d.sealSt }
def Device.modTune (d : Device) (s : Nat) (f : Tune → Tune) : Device :=
  d.modStrm s (fun x => { x with tune := f x.tune })
def Device.modTreg (d : Device) (s : Nat) (f : TuneRegs → TuneRegs) : Device :=
  d.modStrm s (fun x => { x with treg := f x.treg })

/-- The active itinerary's records. -/
def Device.itinOf (d : Device) (index : Nat) : Option Itin := d.image.itins.find? (fun i => i.index = index)
def Device.active (d : Device) : Option Itin := d.itinOf d.itn.active
def Device.cycleNs (d : Device) : Nat := match d.active with | some i => i.cycleNs | none => 0
def Device.entryOf (d : Device) (index e : Nat) : Option Entry :=
  match d.itinOf index with
  | some i => i.entries[e]?
  | none => none
def Device.launchOf (d : Device) (index e : Nat) : Option LaunchDesc :=
  match d.itinOf index, d.entryOf index e with
  | some i, some x => i.launches[x.launch]?
  | _, _ => none
def Device.ctxRec (d : Device) (c : Nat) : Option CtxRec :=
  match d.active with
  | some i => i.ctxs.find? (fun r => r.ctx = c)
  | none => none
def Device.partOf (d : Device) (c : Nat) : Nat :=
  match d.ctxRec c with
  | some r => r.part
  | none => 0
def Device.partRec (d : Device) (p : Nat) : Option PartRec :=
  match d.active with
  | some i => i.parts.find? (fun r => r.part = p)
  | none => none

/-- T0; until it falls, the earliest instant at which it can. -/
def Device.t0 (d : Device) : Nat := d.itn.t0.getD d.now
def Device.portRec (d : Device) (s : Nat) : Option PortRec := d.image.ports.find? (fun r => r.stream = s)
def Device.profileOf (d : Device) (s : Nat) : Option Profile :=
  match d.portRec s with
  | some p => d.image.profiles.find? (fun r => r.profile = p.profile)
  | none => none
def Device.inputRec (d : Device) (s : Nat) : Option InputRec := d.image.inputs.find? (fun r => r.stream = s)
def Device.tuneRec (d : Device) (s : Nat) : Option TuneRec := d.image.tunes.find? (fun r => r.stream = s)
def Device.isResim (d : Device) (s : Nat) : Bool :=
  match d.inputRec s with
  | some r => r.resim
  | none => false

/-! ### In-band interrupt events -/

def eventCode : Event → Nat
  | .streamDegraded => 0x10
  | .underrun => 0x11
  | .partialRender => 0x12
  | .sealFailure => 0x13
  | .engineRetired => 0x14
  | .engineRejoined => 0x15
  | .batchLow => 0x16
  | .inputRejected => 0x17
  | .keyRollover => 0x18
  | .capActive => 0x19
  | .fatal => 0x1A

def statusCode : Status → Nat
  | .ok => 0 | .alreadyDone => 1 | .aborted => 2 | .sealFail => 3 | .checkFail => 4 | .timeout => 5
  | .badDimensions => 6 | .deadlineMiss => 7 | .noCredit => 8 | .tornDown => 9 | .configRejected => 10
  | .unsupported => 11 | .degraded => 12

/-- An event of the running command, with its arguments (Table 16.4). -/
def Device.event (d : Device) (ev : Event) (a0 a1 a2 : Nat) : Device :=
  { d with i3c := { d.i3c with fresh := d.i3c.fresh ++ [(ev, a0 % 256, a1 % 256, a2 % 2 ^ 32)] } }

/-- R684: 0x1A first, then ascending code with 0x10 last. -/
def eventRank : Event → Nat
  | .fatal => 0
  | .streamDegraded => 0x100
  | ev => eventCode ev

/-- The queue without its newest event other than 0x1A, if it has one (R686). -/
def dropNewest (q : List IbiEvent) : Option (List IbiEvent) :=
  if q.any (fun e => e.event != .fatal) then
    some (removeFirst (fun e => e.event != .fatal) q.reverse).reverse
  else none

/-- R682, R686: one generated event meets the queue. A masked event is not generated (log 10). -/
def I3c.post (now : Nat) (r : I3c) (x : Event × Nat × Nat × Nat) : I3c :=
  let (ev, a0, a1, a2) := x
  if ev = .fatal ∨ r.mask.getLsbD (eventCode ev - 0x10) then
    let e : IbiEvent := { event := ev, seq := r.seq % 256, arg0 := a0, arg1 := a1, arg2 := a2, at_ := some now }
    let r := { r with seq := (r.seq + 1) % 256 }
    if r.queue.length < 32 then { r with queue := r.queue ++ [e] }
    else
      let r := { r with lost := satInc r.lost }
      if ev = .fatal then
        match dropNewest r.queue with
        | some q => { r with queue := q ++ [e] }
        | none => r
      else r
  else r

/-- R684, R729: the events that were queued at instant `now`, by whatever commands, and have not been raised stand in the
order of R684; the places and the SEQ values that they hold together stay. -/
def eventsInOrder (now : Nat) (q : List IbiEvent) : List IbiEvent :=
  let new := q.filter (fun e => e.at_ = some now)
  let sorted := sortBy (fun (a b : IbiEvent) => eventRank a.event < eventRank b.event) new
  q.filter (fun e => e.at_ ≠ some now) ++ (sorted.zip new).map (fun p => { p.1 with seq := p.2.seq })

/-- The command's events join the queue. -/
def I3c.flush (r : I3c) (now : Nat) : I3c :=
  if r.fresh.isEmpty then r
  else
    let sorted := sortBy (fun a b => eventRank a.1 < eventRank b.1) r.fresh
    let r := sorted.foldl (I3c.post now) r
    { r with queue := eventsInOrder now r.queue, fresh := [] }

/-! ### Slots and their causes (R40, R685, Table 13.6) -/

def Slot.fresh (n : Nat) : Slot :=
  { n := n, causes := 0, ownCauses := 0, raised := false, underLines := 0, underRaised := false,
    ranModel := false, fellBack := false, eofCommitted := false, eofFailed := false, eofGone := false, eofExcused := false, ranBy := [],
    anchorDigest := none, guideDigest := none, overlayDigest := none, guideOk := none, dist := none,
    anchor := none, anchorBad := false, cold := false, backRows := [], sealFilled := false, lostFlags := [], rows := [], layers := [], inputDigest := [],
    used := none, weights := [], lockstep := false }

def Stream.slot (x : Stream) (n : Nat) : Slot :=
  match x.slots.find? (fun s => s.n = n) with
  | some s => s
  | none => Slot.fresh n

/-- The slot's record changed; slots more than 16 behind it and the slot next decided are forgotten, their lines having
left. -/
def Stream.modSlot (x : Stream) (n : Nat) (f : Slot → Slot) : Stream :=
  let s := f (x.slot n)
  { x with slots := s :: x.slots.filter (fun y => y.n ≠ n && min n (max x.decided x.guided) < y.n + 16) }

def Device.slot (d : Device) (s n : Nat) : Slot := (d.strm s).slot n
def Device.modSlot (d : Device) (s n : Nat) (f : Slot → Slot) : Device :=
  d.modStrm s (fun x => x.modSlot n f)

/-- The lowest CAUSES bit set. -/
def lowestBit (v : Nat) : Nat := ((List.range 13).find? (fun i => bit v i)).getD 0

/-- A cause of degradation arises in a slot; its first cause raises event 0x10 (R685). `excused` says that
an abort or teardown requested through I3C brought it about (R627). -/
def Device.degrade (d : Device) (s n cause : Nat) (excused : Bool := false) : Device :=
  let before := d.slot s n
  let b : BitVec 13 := BitVec.ofNat 13 (2 ^ cause)
  let d := d.modSlot s n (fun x =>
    { x with
      causes := x.causes ||| b, raised := true,
      ownCauses := if excused then x.ownCauses else x.ownCauses ||| b })
  if before.raised then
    -- A lower cause of the same instant shows in ARG1 of the event not yet queued.
    { d with i3c := { d.i3c with fresh := d.i3c.fresh.map (fun e =>
        if e.1 = .streamDegraded ∧ e.2.1 = s ∧ e.2.2.2 = n % 2 ^ 32
        then (e.1, e.2.1, min e.2.2.1 cause, e.2.2.2) else e) } }
  else d.event .streamDegraded s cause n

/-! ### Toll charges (R452 to R457) -/

/-- Steps of an engine: every wavefront, full or empty (R135), and vector cost steps. -/
def Use.steps (u : Use) : Nat := u.fullSteps + u.emptySteps + u.vecSteps

/-- R454: energy in fJ under the weights. -/
def Use.energy (u : Use) (w : Vector Nat 8) : Nat :=
  u.fullSteps * vget w 0 0 + u.emptySteps * vget w 1 0 + u.vecSteps * vget w 2 0 +
    u.scratch * vget w 3 0 + u.well * vget w 4 0 + u.dram * vget w 5 0 + u.pixels * vget w 6 0

def Meter.add (m : Meter) (u : Use) (energy : Nat) : Meter :=
  { m with
    use := #v[vget m.use 0 0 + u.steps, vget m.use 1 0 + u.dram, vget m.use 2 0 + u.well,
      vget m.use 3 0 + energy] }

/-- Events that act for no context are charged to the device meter only (R452). -/
def Device.chargeDevice (d : Device) (u : Use) : Device :=
  let e := u.energy d.toll.weights
  { d with toll := { d.toll with meters := vmod d.toll.meters 72 (fun m => m.add u e) } }

/-- Energy in fJ of no context: the static term and the application cores (R452, R454). -/
def Device.chargeDeviceEnergy (d : Device) (e : Nat) : Device :=
  { d with toll := { d.toll with meters := vmod d.toll.meters 72 (fun m => m.add {} e) } }

/-- A charge to a context, its partition's meter, the device meter and its accounting (R452, R457). -/
def Device.charge (d : Device) (c : Nat) (u : Use) : Device :=
  let e := u.energy d.toll.weights
  let p := d.partOf c
  let d := { d with toll := { d.toll with
    meters := vmod (vmod d.toll.meters c (fun m => m.add u e)) (64 + p) (fun m => m.add u e)
    acct := vmod d.toll.acct c (fun a =>
      { a with steps := a.steps + u.steps, bytes := a.bytes + u.dram + u.well,
               energy := a.energy + e }) } }
  d.chargeDevice u

/-- Bytes moved at an address, by the kind of memory. -/
def bytesUse (a n : Nat) : Use :=
  match regionOf a with
  | .dram => { dram := n }
  | .well => { well := n }
  | .scratch _ => { scratch := n }
  | .localScratch => { scratch := n }
  | _ => {}

/-- What is left of `u` once `v` has been charged. -/
def Use.minus (u v : Use) : Use :=
  { fullSteps := u.fullSteps - v.fullSteps, emptySteps := u.emptySteps - v.emptySteps,
    vecSteps := u.vecSteps - v.vecSteps, scratch := u.scratch - v.scratch, well := u.well - v.well,
    dram := u.dram - v.dram, pixels := u.pixels - v.pixels }

def Use.add (u v : Use) : Use :=
  { fullSteps := u.fullSteps + v.fullSteps, emptySteps := u.emptySteps + v.emptySteps,
    vecSteps := u.vecSteps + v.vecSteps, scratch := u.scratch + v.scratch, well := u.well + v.well,
    dram := u.dram + v.dram, pixels := u.pixels + v.pixels }

/-! ### Free-choice counters (R492) -/

def Device.itnFreeChoice (d : Device) : Device :=
  d.modItn (fun i => { i with freeChoice := satInc i.freeChoice })

/-! ### Time and the close of a command -/

/-- R712: when ALERT_N is driven low. -/
def Device.alert (d : Device) : Bool :=
  match d.phase with
  | .inert => true
  | .awaitChips => d.therm.hold || d.therm.trip || d.toll.deviceHeld
  | .running => d.therm.hold || d.therm.trip || d.toll.deviceHeld
  | .preLock => false
  | .off => false

/-- Memory in its canonical form: every write keeps it, and the close says so. -/
def Store.close (st : Store) : Store :=
  if Memory.wf st.mem then st else { st with mem := memCanon st.mem }

/-- The end of every command: its events are queued, memory is canonical and ALERT_N is driven. -/
def Device.settle (d : Device) : Device :=
  { d with store := d.store.close, i3c := d.i3c.flush d.now, pins := { d.pins with alertLow := d.alert } }

/-- The time base at the command's instant; it never runs back (log 1). -/
def Device.atTime (d : Device) (t : Nat) : Device := { d with now := max d.now t }

/-- The meaning of a command as a change of the device; the queue of commands stays. -/
def State.run (s : State) (t : Nat) (f : Device → Device) : State :=
  { s with dev := (f (s.dev.atTime t)).settle }

/-- A change that needs the itinerary running. -/
def Device.whenRunning (d : Device) (f : Device → Device) : Device :=
  if d.phase = .running then f d else d

/-- A change that needs a device past the release of RESET_N and not inert or off. -/
def Device.whenAlive (d : Device) (f : Device → Device) : Device :=
  match d.phase with
  | .off => d
  | .inert => d
  | _ => f d

/-- A happening that cannot occur in the state changes nothing (log 1). -/
def Device.guard (d : Device) (p : Bool) (f : Device → Device) : Device := if p then f d else d

end Sys2Proof.Machine
end

