-- ==== Sys2Proof/Machine/Check.lean ====
section
/-! DEFINITION. Checks of tile seals and the rungs of the recovery ladder that every consumer shares (R601 to
R609, Table 14.1), error scores (R620) and the boot NOR as bytes. -/
namespace Sys2Proof.Machine

/-! ### The NOR: unlisted bytes read 0xFF (erased) -/

def norGet : List (Nat × Byte) → Nat → Byte
  | [], _ => 0xFF
  | (a, b) :: rest, x => if a = x then b else norGet rest x

def Device.norRead (d : Device) (a n : Nat) : List Byte :=
  let w := memWindow d.store.nor a n
  (List.range n).map (fun i => norGet w (a + i))

/-- NOR bytes programmed, with no entry equal to the erased value. -/
def Device.norWrite (d : Device) (a : Nat) (bs : List Byte) : Device :=
  let new := ((List.range bs.length).zip bs).filterMap (fun p => if p.2 = 0xFF then none else some (a + p.1, p.2))
  let nor := d.store.nor.filter (fun c => c.1 < a) ++
    (new ++ d.store.nor.filter (fun c => a + bs.length ≤ c.1))
  { d with store := { d.store with nor := nor } }

/-- Table 15.1: the configuration image's place in the NOR. -/
def norImage : Nat := 0x100000

/-! ### Counters -/

/-- R486: in lockstep mode a repeat of the ladder is counted. -/
def Device.repeated (d : Device) : Device :=
  if d.ctl.lockstep then { d with ctl := { d.ctl with recoveryEvents := satInc d.ctl.recoveryEvents } } else d

/-- A control choice of Table 11.3; none is counted before T0 (R482). -/
def Device.controlChoice (d : Device) : Device :=
  if d.phase = .running then { d with ctl := { d.ctl with controlFree := satInc d.ctl.controlFree } } else d

/-- R620: points on an engine's score. -/
def Device.score (d : Device) (e points : Nat) : Device :=
  d.modEng e (fun x => { x with score := x.score + points })

/-- Points of Table 14.5 for a scratch domain; other domains score no engine. -/
def Device.scoreDomain (d : Device) (dom points : Nat) : Device :=
  if dom < 2 then d else d.score (dom - 2) points

/-- R604: one failure in the register of the tile's domain. -/
def Device.countFail (d : Device) (dom : Nat) : Device :=
  d.modSeal (fun r =>
    if dom = 0 then { r with failsDram := satInc r.failsDram }
    else if dom = 1 then { r with failsWell := satInc r.failsWell }
    else { r with failsScr := vmod r.failsScr (dom - 2) satInc })

/-- SEAL_LAST_FAIL_LO and _HI (Table 14.8). -/
def Device.lastFail (d : Device) (tile rung ctx : Nat) (scrub : Bool) : Device :=
  d.modSeal (fun r =>
    { r with
      lastFail := tile % 2 ^ 32,
      lastFailHi := word (tile / 2 ^ 32 % 2 ^ 16 + domainOf tile * 2 ^ 16 + rung * 2 ^ 20 +
        ctx % 64 * 2 ^ 22 + boolNat scrub * 2 ^ 28) })

/-! ### A check and its re-fetch (rung 1) -/

inductive Checked where
  | ok
  | refetched
  | failed
  deriving DecidableEq, Repr

/-- A check of a tile, whose next read may be wrong (log 9). -/
def Device.passes (d : Device) (tile : Nat) : Bool := !d.store.glitches.contains tile && d.sealed tile

/-- R606: a repeated read that fails again, without a re-fetch; it is the failure already counted (R604). -/
def Device.failAgain (d : Device) (tile : Nat) : Device :=
  { d with store := { d.store with glitches := d.store.glitches.filter (· ≠ tile) } }

/-- A check of a tile, with the re-fetch of rung 1 when it fails. -/
def Device.verify (d : Device) (tile : Nat) : Checked × Device :=
  let glitch := d.store.glitches.contains tile
  if !glitch && d.sealed tile then (.ok, d)
  else
    let dom := domainOf tile
    let d := { d with store := { d.store with glitches := d.store.glitches.filter (· ≠ tile) } }
    let d := (d.countFail dom).repeated
    if d.sealed tile then
      (.refetched, (d.modSeal (fun r => { r with refetchOk := satInc r.refetchOk })).scoreDomain dom 1)
    else (.failed, d.scoreDomain dom 4)

/-- Rung 2's record of a tile that failed its re-fetch. -/
def Device.rung2 (d : Device) (tile ctx : Nat) : Device :=
  (d.lastFail tile 2 ctx false).event .sealFailure (domainOf tile) 0 (tile / tileBytes)

/-- Rung 3 is reached for a tile. -/
def Device.rung3 (d : Device) (tile ctx : Nat) : Device :=
  (d.lastFail tile 3 ctx false).modSeal (fun r => { r with fallbacks := satInc r.fallbacks })

/-! ### Producer ranges (R605, R606) -/

def RangeRec.holds (r : RangeRec) (tile : Nat) : Bool :=
  decide (r.base ≤ tile) && decide (tile < r.base + r.tiles * tileBytes)

/-- The record that holds the tile and serves the active itinerary. -/
def Device.rangeOf (d : Device) (tile : Nat) : Option RangeRec :=
  d.image.ranges.find? (fun r => r.index = d.itn.active && r.holds tile)

/-- Instant of the last major-cycle boundary. -/
def Device.cycleStart (d : Device) : Nat := d.t0 + d.itn.k * d.cycleNs

/-- Time not past LRS. -/
def Device.beforeLrs (d : Device) (r : RangeRec) : Bool := decide (d.now ≤ d.cycleStart + r.lrs * 1000)

/-- R606: an image-backed tile reloaded from the NOR: written back when the seal of the reloaded words equals
the stored one. The result says whether it was written. -/
def Device.reload (d : Device) (tile : Nat) : Bool × Device :=
  match d.image.ranges.find? (fun r => r.holds tile && r.imageBacked) with
  | none => (false, d)
  | some r =>
    let bs := d.norRead (norImage + r.norOffset + (tile - r.base)) tileBytes
    let sum := sealShare tile (memListed tile bs)
    let v := sealPack (tile / tileBytes + sum.1) (d.sealRegs.gen (domainOf tile) + sum.2)
    let d := (d.modSeal (fun r => { r with recomputes := satInc r.recomputes })).repeated
    if v = sealGet d.store tile then
      (true, { d with store := { d.store with mem := memPut d.store.mem tile bs } })
    else (false, d)

/-- The read of a tile by a unit that waits for no relaunch (the Serai, scan-out, the Otson serving path,
tuning assembly): rungs 1 to 3, a reload completing within the read (log 11). -/
def Device.verifyRead (d : Device) (tile ctx : Nat) : Bool × Device :=
  match d.verify tile with
  | (.ok, d) => (true, d)
  | (.refetched, d) => (true, d)
  | (.failed, d) =>
    let d := d.rung2 tile ctx
    let backed := match d.rangeOf tile with
      | some r => r.imageBacked && d.beforeLrs r
      | none => false
    if backed then
      match d.reload tile with
      | (true, d) => if d.sealed tile then (true, d) else (false, d.rung3 tile ctx)
      | (false, d) => (false, d.rung3 tile ctx)
    else (false, d.rung3 tile ctx)

/-- `verifyRead` over several tiles: whether all passed. -/
def Device.verifyAll (d : Device) (ctx : Nat) (tiles : List Nat) : Bool × Device :=
  tiles.foldl (fun s t =>
    let (ok, d) := s.2.verifyRead t ctx
    (s.1 && ok, d)) (true, d)

/-- Tiles of a range read only in part (R602). -/
def partTiles (a n : Nat) : Nat :=
  ((tilesOf a n).filter (fun t => !(decide (a ≤ t) && decide (t + tileBytes ≤ a + n)))).length

def Device.countFill (d : Device) (n : Nat) : Device :=
  d.modSeal (fun r => { r with fillTiles := satAdd r.fillTiles n })

/-- Whole tiles of the Well and stack DRAM moved. -/
def tilesUse (tiles : List Nat) : Use :=
  (tiles.filter inWellOrDram).foldl (fun u t => u.add (bytesUse t tileBytes)) {}

/-- A checked read of bytes of the Well or stack DRAM by such a unit, its whole tiles charged to the device
meter; the bytes, when every tile passed. -/
def Device.readChecked (d : Device) (ctx a n : Nat) : Option (List Byte) × Device :=
  let tiles := tilesOf a n
  let (ok, d) := d.verifyAll ctx tiles
  let d := d.countFill (partTiles a n)
  let d := d.chargeDevice (tiles.foldl (fun u t => u.add (bytesUse t tileBytes)) {})
  (if ok then some (d.peek a n) else none, d)

/-- The same, charged to a context. -/
def Device.readFor (d : Device) (c a n : Nat) : Option (List Byte) × Device :=
  let tiles := tilesOf a n
  let (ok, d) := d.verifyAll c tiles
  let d := (d.countFill (partTiles a n)).charge c (tiles.foldl (fun u t => u.add (bytesUse t tileBytes)) {})
  (if ok then some (d.peek a n) else none, d)

/-! ### Signatures of 32-bit words (R614) -/

/-- What a write of bytes adds to a write signature; the words it touches are read back whole. -/
def sigAdd (sig : Word × Word) (mem : List (Nat × Byte)) (a n : Nat) : Word × Word :=
  if n = 0 then sig
  else
    let w0 := a / 4
    let w1 := (a + n - 1) / 4
    let win := memWindow mem (w0 * 4) ((w1 - w0 + 1) * 4)
    (List.range (w1 - w0 + 1)).foldl (fun s i =>
      let u := w0 + i
      let v := leNat ((List.range 4).map (fun j => memGet win (u * 4 + j)))
      (s.1 + word v, s.2 + word ((u % 2 ^ 32 + 1) * v))) sig

end Sys2Proof.Machine
end

