-- ==== Sys2Proof/Machine/Flags.lean ====
section
/-! DEFINITION. The Well's flags and semaphores (R64 to R70, R466), and the bits that a command sets in an
engine's arithmetic status (Table 3.6). -/
namespace Sys2Proof.Machine

/-! ### Flags -/

def Device.flag (d : Device) (f : Nat) : BitVec 16 := vget d.well.flags f 0

/-- R64: a SIGNAL adds its increment modulo 2¹⁶. -/
def Device.signalFlag (d : Device) (f inc : Nat) : Device :=
  { d with well := { d.well with flags := vmod d.well.flags f (fun c => c + BitVec.ofNat 16 inc) } }

/-- R65: (target − count) mod 2¹⁶, read as a signed value, is at most 0. -/
def flagReached (count : BitVec 16) (target : Nat) : Bool :=
  (BitVec.ofNat 16 target - count).toInt ≤ 0

def Device.flagReached (d : Device) (f target : Nat) : Bool :=
  Sys2Proof.Machine.flagReached (d.flag f) target

/-! ### Semaphores -/

def Device.sem (d : Device) (m : Nat) : Sem :=
  vget d.well.sems m { count := 0, ceiling := false, holders := [], waiters := [], last := none }

def Device.modSem (d : Device) (m : Nat) (f : Sem → Sem) : Device :=
  { d with well := { d.well with sems := vmod d.well.sems m f } }

/-- R68: a successful acquire decrements the count and records the holder with its grant instant. -/
def Sem.take (x : Sem) (c now : Nat) : Sem :=
  { x with count := x.count - 1, holders := x.holders ++ [(c, now)] }

def Sem.heldBy (x : Sem) (c : Nat) : Bool := x.holders.any (fun h => h.1 = c)

/-- R467: a hold of the context is past its bound of 50,000 ns. -/
def Sem.overdue (x : Sem) (c now : Nat) : Bool := x.holders.any (fun h => h.1 = c && decide (h.2 + 50000 < now))

/-- R68, R70: a release by a recorded holder. -/
def Sem.giveBack (x : Sem) (c : Nat) : Sem :=
  { x with count := x.count + 1, holders := removeFirst (fun h => h.1 = c) x.holders }

/-- R466: a context is raised while it holds a semaphore whose ceiling class is latency-critical. -/
def Device.raised (d : Device) (c : Nat) : Bool :=
  d.well.sems.toList.any (fun x => x.ceiling && x.heldBy c)

/-- The class at which a launch runs now (R442, R466). -/
def Device.runsBe (d : Device) (r : Run) : Bool := r.bestEffort && !d.raised r.ctx

/-- The class at which an acquire waits now: its launch's own, or latency-critical while its context is raised. -/
def Device.acquireLc (d : Device) (w : Nat × Nat × Bool × Nat × Nat) : Bool := w.2.2.1 || d.raised w.1

/-- R69: whether waiter `a` is granted before waiter `b`; by entry order in lockstep, by arrival and then by
context number in free mode. A waiter is (context, engine, its launch is latency-critical, entry, arrival). -/
def Device.semBefore (d : Device) (a b : Nat × Nat × Bool × Nat × Nat) : Bool :=
  let (ca, _, _, ea, ta) := a
  let (cb, _, _, eb, tb) := b
  if d.acquireLc a ≠ d.acquireLc b then d.acquireLc a
  else if d.ctl.lockstep then decide (ea < eb)
  else if ta ≠ tb then decide (ta < tb)
  else decide (ca < cb)

/-- The waiter granted next, and whether the grant breaks a tie of arrivals (a free choice, R69). -/
def Device.semNext (d : Device) (x : Sem) : Option ((Nat × Nat × Bool × Nat × Nat) × Bool) :=
  match sortBy d.semBefore x.waiters with
  | [] => none
  | [w] => some (w, false)
  | w :: v :: _ => some (w, !d.ctl.lockstep && d.acquireLc w = d.acquireLc v && w.2.2.2.2 = v.2.2.2.2)

/-- R69: a semaphore grant that broke a tie of arrivals. -/
def Device.semChoice (d : Device) (tie : Bool) : Device :=
  if tie then { d with well := { d.well with freeChoice := satInc d.well.freeChoice } } else d

/-- R69, R729: whether an acquire of class `lc` that arrives now meets the grant of one that arrived with it, a choice that no
waiter of that arrival stands for. -/
def Device.meetsGrant (d : Device) (x : Sem) (lc : Bool) : Bool :=
  !d.ctl.lockstep && x.last = some (d.now, lc) && x.waiters.all (fun w => d.acquireLc w != lc || w.2.2.2.2 != d.now)

/-- A context that holds any semaphore is not held by its own or its partition's meter (R456). -/
def Device.holdsSem (d : Device) (c : Nat) : Bool := d.well.sems.toList.any (fun x => x.heldBy c)

/-- R453, R455, R456, R721: no handshake of the context is made now; `be` is the class of its work. -/
def Device.heldCtx (d : Device) (c : Nat) (be : Bool) : Bool :=
  ((vget d.ctxs c .reset).held && !d.holdsSem c) || d.toll.deviceHeld || (be && (d.toll.beHeld || d.toll.thermHeld))

/-- R456: a context whose budget is used up is held once it holds no semaphore. -/
def Device.noteHeld (d : Device) (c : Nat) : Device :=
  let holds := d.holdsSem c
  d.modCtx c (fun x => { x with wasHeld := x.wasHeld || (x.held && !holds) })

/-- R70: every semaphore that a context holds is released, and its acquires withdraw (R67). -/
def Device.dropSems (d : Device) (c : Nat) : Device :=
  ({ d with well := { d.well with sems := d.well.sems.map (fun x =>
      let n := (x.holders.filter (fun h => h.1 = c)).length
      { x with count := x.count + n, holders := x.holders.filter (fun h => h.1 ≠ c),
               waiters := x.waiters.filter (fun w => w.1 ≠ c) }) } } : Device).noteHeld c

/-- R67: the acquires of one engine withdraw. -/
def Device.withdrawSems (d : Device) (e : Nat) : Device :=
  { d with well := { d.well with sems := d.well.sems.map (fun x =>
      { x with waiters := x.waiters.filter (fun w => w.2.1 ≠ e) }) } }

/-! ### Arithmetic status (Table 3.6, R97, R129, R130, R132) -/

/-- Bits of NE_ARITH_STATUS set at instant `now`. -/
def NeRegs.setArith (r : NeRegs) (now : Nat) (bits : BitVec 3) : NeRegs :=
  { r with arithStatus := r.arithStatus ||| bits,
           arithSet := if r.arithAt = now then r.arithSet ||| bits else bits, arithAt := now }

/-- R10, R132: a write of 1 clears a bit, except one that the hardware sets at that instant. -/
def NeRegs.clearArith (r : NeRegs) (now : Nat) (w : BitVec 3) : NeRegs :=
  { r with arithStatus := r.arithStatus &&& ~~~(if r.arithAt = now then w &&& ~~~r.arithSet else w) }

/-- R97: columns drained with a false range guard. -/
def NeRegs.addRange (r : NeRegs) (now columns : Nat) : NeRegs :=
  if columns = 0 then r else ({ r with rangeFlags := satAdd r.rangeFlags columns } : NeRegs).setArith now 1#3

/-- R130: failing passes. -/
def NeRegs.addCheckFails (r : NeRegs) (now passes : Nat) : NeRegs :=
  if passes = 0 then r else ({ r with checkFails := satAdd r.checkFails passes } : NeRegs).setArith now 2#3

/-- R129: passes with an uncovered part. -/
def NeRegs.addUncovered (r : NeRegs) (now passes : Nat) : NeRegs :=
  if passes = 0 then r else ({ r with checkUncovered := satAdd r.checkUncovered passes } : NeRegs).setArith now 4#3

end Sys2Proof.Machine
end

