-- ==== Sys2Proof/Machine/Keeper.lean ====
section
/-! DEFINITION. The cache keeper (chapter 6): stream state blocks in stack DRAM, the ring, commits and
their abandonment, cold starts, and the slots and frame numbers of a stream (R18, R438, R554, R734). -/
namespace Sys2Proof.Machine

/-! ### Slots -/

/-- R554: the frame period in ns; 0 for a stream without output. -/
def Device.period (d : Device) (s : Nat) : Nat :=
  match d.profileOf s with
  | some p => p.frameLines * p.lineNs
  | none => 0

/-- R554: the frame start time of slot n. -/
def Device.frameStart (d : Device) (s n : Nat) : Nat :=
  match d.portRec s with
  | some r => d.t0 + r.fsOffset + n * d.period s
  | none => d.t0

/-- R18: the readout start of slot n, the start of line slot 1. -/
def Device.readout (d : Device) (s n : Nat) : Nat :=
  match d.profileOf s with
  | some p => d.frameStart s n + p.lineNs
  | none => d.frameStart s n

/-- The slot whose frame start is the latest at or before `t`, and 0 before slot 0 (R734). -/
def Device.slotAt (d : Device) (s t : Nat) : Nat :=
  let first := d.frameStart s 0
  if d.period s = 0 ∨ t < first then 0 else (t - first) / d.period s

/-- R734: the slot that a 32-bit number names, nearest the present slot. -/
def Device.unwrap (d : Device) (s number : Nat) : Option Nat :=
  let c := d.slotAt s d.now
  let base : Int := ((c + 2 ^ 31 - 1) / 2 ^ 32 * 2 ^ 32 : Nat) + (number % 2 ^ 32 : Nat)
  -- the candidate in [c − 2³¹, c + 2³¹)
  let n : Int :=
    if base < (c : Int) - 2 ^ 31 then base + 2 ^ 32
    else if base ≥ (c : Int) + 2 ^ 31 then base - 2 ^ 32 else base
  if n < 0 then none else some n.toNat

/-- R438: S, the slots of a stream in a major cycle. -/
def Device.slotsPerCycle (d : Device) (s : Nat) : Nat :=
  if d.period s = 0 then 0 else d.cycleNs / d.period s

/-- R29, R282: the decision time D(m), in ns; it may precede the time base's zero only for slot 0. -/
def Device.decisionTime (d : Device) (s m : Nat) : Int :=
  match d.portRec s with
  | some r => (d.frameStart s m : Int) - r.laUs * 1000
  | none => d.frameStart s m

/-- R307: the guide decision time D_G(n). -/
def Device.guideTime (d : Device) (s n : Nat) : Int :=
  match d.portRec s with
  | some r => (d.readout s n : Int) - r.lgUs * 1000
  | none => d.readout s n

/-! ### Stream state blocks (Table 6.1) -/

def Device.ssbAddr (d : Device) (s : Nat) : Option Nat := (d.image.ssbs.find? (fun p => p.1 = s)).map (·.2)

def Device.hasSsb (d : Device) (s : Nat) : Bool := (d.ssbAddr s).isSome

/-- The stream's block as it stands in memory; no bytes for a stream without one. -/
def Device.ssb (d : Device) (s : Nat) : List Byte :=
  match d.ssbAddr s with
  | some a => d.peek a 256
  | none => []

def Device.ssbField (d : Device) (s o n : Nat) : Nat := field (d.ssb s) o n

/-- The keeper writes bytes of a block. -/
def Device.ssbSet (d : Device) (s o : Nat) (bs : List Byte) : Device :=
  match d.ssbAddr s with
  | some a => d.write (a + o) bs
  | none => d

def Device.ssbG (d : Device) (s : Nat) : Nat := d.ssbField s 2 1
def Device.ssbPhase (d : Device) (s : Nat) : Nat := d.ssbField s 3 1
def Device.ssbModel (d : Device) (s : Nat) : Nat := d.ssbField s 1 1
def Device.ssbW (d : Device) (s : Nat) : Nat := d.ssbField s 4 1
def Device.ssbH (d : Device) (s : Nat) : Nat := d.ssbField s 5 1
def Device.ssbV (d : Device) (s : Nat) : Nat := d.ssbField s 6 1
def Device.ssbEvalid (d : Device) (s : Nat) : Nat := d.ssbField s 7 1
def Device.ssbT (d : Device) (s : Nat) : Nat := d.ssbField s 8 2
def Device.ssbFlags (d : Device) (s : Nat) : Nat := d.ssbField s 10 1
def Device.ssbAnchorTag (d : Device) (s : Nat) : Nat := d.ssbField s 12 4

/-- Flag bits of byte 10. -/
def flagActive : Nat := 0
def flagAf : Nat := 1
def flagLo : Nat := 2
def flagCold : Nat := 3
def flagPending : Nat := 4

def Device.ssbFlag (d : Device) (s b : Nat) : Bool := bit (d.ssbFlags s) b

/-- A number with bit `b` set or clear. -/
def withBit (v b : Nat) (x : Bool) : Nat :=
  if bit v b then (if x then v else v - 2 ^ b) else (if x then v + 2 ^ b else v)

def Device.ssbSetFlag (d : Device) (s b : Nat) (x : Bool) : Device :=
  d.ssbSet s 10 (leBytes 1 (withBit (d.ssbFlags s) b x))

def Device.ssbFlip (d : Device) (s b : Nat) : Device := d.ssbSetFlag s b (!d.ssbFlag s b)

/-- R19: slot n is anchor-aligned. -/
def Device.anchorAligned (d : Device) (s n : Nat) : Bool :=
  let g := d.ssbG s
  g != 0 && ((n : Int) - d.ssbPhase s) % (g : Int) = 0

/-- R42: a re-simulation stream that has accepted only one anchor at or before slot m. -/
def Device.oneAnchor (d : Device) (s m : Nat) : Bool :=
  d.isResim s && ((d.strm s).tags.filter (fun t => t ≤ m)).length = 1

/-- R42: a generated slot of such a stream. -/
def Device.noMotion (d : Device) (s m : Nat) : Bool := d.oneAnchor s m && !d.anchorAligned s m

def Device.package (d : Device) (p : Nat) : Option Package := d.image.packages.find? (fun x => x.package = p)

/-- R261: T for an anchor of the stream's input record. -/
def tokensOf (w h : Nat) : Nat := ceilDiv w 16 * ceilDiv h 16

/-- R735: the stream can hold a package; without an input record there is no anchor whose T the header must meet (log 46). -/
def Device.canHold (d : Device) (s : Nat) (p : Package) : Bool :=
  (match d.inputRec s with
    | some r => p.t = tokensOf r.width r.height
    | none => true) &&
  decide (p.w * p.rowBytes ≤ d.ssbField s 200 4) && decide (p.stateBytes ≤ d.ssbField s 204 4)

/-! ### The ring (R265 to R268) -/

/-- R265: logical entry e may be used by an ATTN. -/
def Device.ringUsable (d : Device) (s e : Nat) : Bool :=
  let w := d.ssbW s
  w != 0 && decide (e < d.ssbV s) && bit (d.ssbEvalid s) ((d.ssbH s + e) % w)

/-- R266: the destination row of a writing list launched now. -/
def Device.ringDest (d : Device) (s : Nat) : Nat :=
  let w := d.ssbW s
  if w = 0 then 0 else if d.ssbV s < w then (d.ssbH s + d.ssbV s) % w else d.ssbH s

/-- R266: the launch of a writing list clears the row's bit and sets PENDING. -/
def Device.ringClaim (d : Device) (s : Nat) : Device :=
  let dest := d.ringDest s
  let d := d.ssbSet s 7 (leBytes 1 (withBit (d.ssbEvalid s) dest false))
  d.ssbSetFlag s flagPending true

/-- R267: the append that a commit makes. -/
def Device.ringAppend (d : Device) (s dest : Nat) : Device :=
  let w := d.ssbW s
  let d := d.ssbSet s 7 (leBytes 1 (withBit (d.ssbEvalid s) dest true))
  let d :=
    if d.ssbV s < w then d.ssbSet s 6 (leBytes 1 (d.ssbV s + 1))
    else if w = 0 then d
    else d.ssbSet s 5 (leBytes 1 ((d.ssbH s + 1) % w))
  d.ssbSet s 24 (leBytes 8 ((d.ssbField s 24 8 + 1) % 2 ^ 64))

/-- R270: a ring row whose tile still fails is excluded until it is next a destination. -/
def Device.ringExclude (d : Device) (s row : Nat) : Device :=
  d.ssbSet s 7 (leBytes 1 (withBit (d.ssbEvalid s) row false))

/-- R279: the commit of an encode list for an anchor tagged `tag`. -/
def Device.encodeCommit (d : Device) (s dest tag : Nat) : Device :=
  let d := d.ssbFlip s flagAf
  let d := d.ssbSet s 12 (leBytes 4 tag)
  let d := d.ringAppend s dest
  let d := d.ssbSetFlag s flagCold false
  d.ssbSetFlag s flagPending false

/-- R280: the commit of the end-of-frame list of slot n; `clean` says that every stripe of the slot ran the model. -/
def Device.eofCommit (d : Device) (s dest n : Nat) (clean : Bool) : Device :=
  let d := d.ssbFlip s flagActive
  let d := if clean then (d.ssbFlip s flagLo).ssbSet s 20 (leBytes 4 n) else d
  let d := d.ringAppend s dest
  let d := d.ssbSet s 16 (leBytes 4 n)
  let d := d.ssbSetFlag s flagPending false
  d.modSlot s n (fun x => { x with eofCommitted := true })

/-- R286: a writing list of slot n that did not commit degrades the slot that the rule gives. -/
def Device.notCommitted (d : Device) (s n : Nat) (bind : Bind) (excused : Bool) : Device :=
  match bind with
  | .encode => d.degrade s n 8 excused
  | .endOfFrame =>
    let ran := (d.slot s n).ranModel
    let d := d.modSlot s n (fun x => { x with eofFailed := true, eofExcused := excused })
    if ran then d.degrade s (n + 1) 8 excused else d
  | .stripe => d

/-- R268: an abandoned commit. -/
def Device.abandonCommit (d : Device) (s n : Nat) (bind : Bind) (excused : Bool) : Device :=
  let d := d.ssbSetFlag s flagPending false
  let d := d.modStrm s (fun x => { x with abandons := satInc x.abandons })
  d.notCommitted s n bind excused

/-! ### Cold starts (R288, R735) -/

/-- The initial recurrent state of the stream's package, padded with zeros. Its bytes are read whole tile by whole tile (R602);
where one of them fails its check, they are free values (log 47). -/
def Device.initialState (d : Device) (s : Nat) : List Byte × Device :=
  match d.package (d.ssbModel s) with
  | none => ([], d)
  | some p =>
    if p.initOffset = 0 then (List.replicate p.stateBytes 0, d)
    else
      let (init, d) := match d.readChecked 0 (p.dest + p.initOffset) p.initBytes with
        | (some b, d) => (b, d)
        | (none, d) => d.freeBytes p.initBytes
      (init ++ List.replicate (p.stateBytes - p.initBytes) 0, d)

def Device.coldStart (d : Device) (s : Nat) : Device :=
  let d := d.ssbSet s 5 [0, 0, 0]
  let d := d.ssbSetFlag s flagCold true
  let base := if d.ssbFlag s flagActive then d.ssbField s 80 6 else d.ssbField s 72 6
  let (b, d) := d.initialState s
  d.write base b

/-! ### The anchor in use -/

/-- R284, R734: a tag is newer than the block's ANCHOR_TAG as it stands in memory, both 32-bit slot numbers that name the slot
nearest each other. -/
def Device.newerTag (d : Device) (s tag : Nat) : Bool :=
  let ahead := (tag + 2 ^ 32 - d.ssbAnchorTag s) % 2 ^ 32
  decide (0 < ahead) && decide (ahead < 2 ^ 31)

/-- R286: d(m) against the block's ANCHOR_TAG. -/
def Device.distance (d : Device) (s m : Nat) : Nat := (m + 2 ^ 32 - d.ssbAnchorTag s) % 2 ^ 32

/-- A stream with no accepted anchor so far emits code 0 (R24). -/
def Device.beforeFirstAnchor (d : Device) (s : Nat) : Bool := !(d.strm s).everAccepted

end Sys2Proof.Machine
end

