-- ==== Sys2Proof/Machine/Formats.lean ====
section
/-! DEFINITION. Number formats and arithmetic (chapter 3): encodings, conversions and rounding, the long
accumulator, vector-unit arithmetic, MX quantisation and the transcendental functions. -/
namespace Sys2Proof.Machine

/-- A value as R85 reads it: (−1)^neg × m × 2^q, or a NaN or an infinity with its sign. -/
inductive Num where
  | nan (neg : Bool)
  | inf (neg : Bool)
  | fin (neg : Bool) (m : Nat) (q : Int)
  deriving DecidableEq, Repr

/-- What a float format's largest exponent field encodes (Table 3.1). -/
inductive Special where
  /-- Infinity at m = 0 and NaN elsewhere. -/
  | ieee
  /-- Only the all-ones code is NaN (E4M3). -/
  | nanOnly
  /-- Ordinary values (FP6 and FP4). -/
  | none
  deriving DecidableEq, Repr

/-- A float layout of Table 3.1: field widths and bias. -/
structure FloatFmt where
  ebits : Nat
  mbits : Nat
  bias : Nat
  special : Special
  deriving DecidableEq, Repr

def fmtE4M3 : FloatFmt := { ebits := 4, mbits := 3, bias := 7, special := .nanOnly }
def fmtE5M2 : FloatFmt := { ebits := 5, mbits := 2, bias := 15, special := .ieee }
def fmtE2M3 : FloatFmt := { ebits := 2, mbits := 3, bias := 1, special := .none }
def fmtE3M2 : FloatFmt := { ebits := 3, mbits := 2, bias := 3, special := .none }
def fmtE2M1 : FloatFmt := { ebits := 2, mbits := 1, bias := 1, special := .none }
def fmtBF16 : FloatFmt := { ebits := 8, mbits := 7, bias := 127, special := .ieee }
def fmtFP16 : FloatFmt := { ebits := 5, mbits := 10, bias := 15, special := .ieee }
def fmtFP32 : FloatFmt := { ebits := 8, mbits := 23, bias := 127, special := .ieee }

/-- Exponent of the least significand bit of a subnormal (Table 3.2, E = 0). -/
def FloatFmt.qmin (f : FloatFmt) : Int := 1 - (f.bias : Int) - (f.mbits : Int)

/-- Width of the format's code. -/
def FloatFmt.bits (f : FloatFmt) : Nat := 1 + f.ebits + f.mbits

/-- Significand of the largest finite value. -/
def FloatFmt.maxSig (f : FloatFmt) : Nat :=
  match f.special with
  | .nanOnly => 2 ^ (f.mbits + 1) - 2
  | _ => 2 ^ (f.mbits + 1) - 1

/-- Exponent of the largest finite value. -/
def FloatFmt.maxQ (f : FloatFmt) : Int :=
  match f.special with
  | .ieee => ((2 ^ f.ebits - 2 : Nat) : Int) + f.qmin - 1
  | _ => ((2 ^ f.ebits - 1 : Nat) : Int) + f.qmin - 1

def FloatFmt.signBit (f : FloatFmt) (neg : Bool) : Nat := if neg then 2 ^ (f.ebits + f.mbits) else 0

/-- R103 and Table 3.5: the NaN that the PZ616 writes. FP8 keeps a sign; the others are canonical. FP6 and FP4 have no
NaN, and what such an element takes from one is a free value (log 56). -/
def FloatFmt.nanCode (f : FloatFmt) (neg : Bool) : Nat :=
  match f.special with
  | .none => Config.mxNanCode f.ebits f.mbits neg % 2 ^ f.bits
  | .nanOnly => 2 ^ (f.ebits + f.mbits) - 1 + f.signBit neg
  | _ =>
    if f.ebits = 5 ∧ f.mbits = 2 then 0x7E + f.signBit neg
    else (2 ^ f.ebits - 1) * 2 ^ f.mbits + 2 ^ (f.mbits - 1)

def FloatFmt.infCode (f : FloatFmt) (neg : Bool) : Nat :=
  (2 ^ f.ebits - 1) * 2 ^ f.mbits + f.signBit neg

/-- The largest finite code of a sign. -/
def FloatFmt.maxCode (f : FloatFmt) (neg : Bool) : Nat :=
  match f.special with
  | .ieee => (2 ^ f.ebits - 1) * 2 ^ f.mbits - 1 + f.signBit neg
  | .nanOnly => 2 ^ (f.ebits + f.mbits) - 2 + f.signBit neg
  | .none => 2 ^ (f.ebits + f.mbits) - 1 + f.signBit neg

/-- The value of a code (R85, Tables 3.1 and 3.2). -/
def floatNum (f : FloatFmt) (code : Nat) : Num :=
  let neg := code / 2 ^ (f.ebits + f.mbits) % 2 = 1
  let e := code / 2 ^ f.mbits % 2 ^ f.ebits
  let m := code % 2 ^ f.mbits
  let top := e = 2 ^ f.ebits - 1
  if f.special = .ieee ∧ top then (if m = 0 then .inf neg else .nan neg)
  else if f.special = .nanOnly ∧ top ∧ m = 2 ^ f.mbits - 1 then .nan neg
  else if e = 0 then .fin neg m f.qmin
  else .fin neg (2 ^ f.mbits + m) ((e : Int) + f.qmin - 1)

/-- The two's complement value of the low `bits` bits of `code`. -/
def signedOf (bits code : Nat) : Int :=
  let c := code % 2 ^ bits
  if c < 2 ^ (bits - 1) then (c : Int) else (c : Int) - (2 ^ bits : Nat)

/-- The code of a signed value in `bits` bits, modulo 2^bits. -/
def signedCode (bits : Nat) (v : Int) : Nat := (v % (2 ^ bits : Nat)).toNat

def intNum (v : Int) (q : Int) : Num := .fin (decide (v < 0)) v.natAbs q

/-- Bits that a positive number needs: ⌊log₂ n⌋ + 1, and 0 for 0. -/
def bitLen (n : Nat) : Nat := if n = 0 then 0 else Nat.log2 n + 1

/-- Rounding mode of a conversion: RNE, or SR with the random value of R107. -/
inductive Round where
  | rne
  | sr (r : Nat)
  deriving DecidableEq, Repr

/-- R105, R106: `m / 2^d` rounded to an integer. -/
def roundShift (rm : Round) (m d : Nat) : Nat :=
  let lo := m / 2 ^ d
  let rem := m % 2 ^ d
  if rem = 0 then lo
  else match rm with
    | .rne =>
      if 2 * rem > 2 ^ d ∨ (2 * rem = 2 ^ d ∧ lo % 2 = 1) then lo + 1 else lo
    | .sr r => if rem * 2 ^ 32 / 2 ^ d + r ≥ 2 ^ 32 then lo + 1 else lo

/-- m × 2^q compared with M × 2^Q, exactly: m × 2^q > M × 2^Q. -/
def scaledGt (m : Nat) (q : Int) (M : Nat) (Q : Int) : Bool :=
  if q ≥ Q then decide (m * 2 ^ (q - Q).toNat > M) else decide (m > M * 2 ^ (Q - q).toNat)

/-- A conversion to a float format (Table 3.5, R105, R106). -/
def toFloat (f : FloatFmt) (rm : Round) (sat : Bool) (x : Num) : Nat :=
  match x with
  | .nan neg => f.nanCode neg
  | .inf neg =>
    if sat then f.maxCode neg
    else match f.special with
      | .ieee => f.infCode neg
      | .nanOnly => f.nanCode neg
      | .none => f.maxCode neg
  | .fin neg m q =>
    if m = 0 then f.signBit neg
    else
      let e := max (q + bitLen m - (f.mbits + 1)) f.qmin
      let sig := if q ≥ e then m * 2 ^ (q - e).toNat else roundShift rm m (e - q).toNat
      if scaledGt sig e f.maxSig f.maxQ then
        if sat then f.maxCode neg
        else match f.special with
          | .ieee => f.infCode neg
          | .nanOnly => f.nanCode neg
          | .none => f.maxCode neg
      else
        let (sig, e) := if sig = 2 ^ (f.mbits + 1) then (sig / 2, e + 1) else (sig, e)
        if sig < 2 ^ f.mbits then sig + f.signBit neg
        else (e - f.qmin + 1).toNat * 2 ^ f.mbits + (sig - 2 ^ f.mbits) + f.signBit neg

/-- A conversion to an integer format with limits `lo` and `hi` (Table 3.5): always saturating. -/
def toInt (lo hi : Int) (rm : Round) (x : Num) : Int :=
  match x with
  | .nan _ => 0
  | .inf neg => if neg then lo else hi
  | .fin neg m q =>
    let a : Nat := if q ≥ 0 then m * 2 ^ q.toNat else roundShift rm m (-q).toNat
    let v : Int := if neg then -(a : Int) else a
    max lo (min hi v)

/-! ### Format codes of Table 4.9 -/

def isMx (fmt : Nat) : Bool := decide (5 ≤ fmt ∧ fmt ≤ 10)
def isFloatFmt (fmt : Nat) : Bool := decide (fmt = 3 ∨ fmt = 4 ∨ 11 ≤ fmt ∧ fmt ≤ 13)

/-- Bits of an element's code. -/
def fmtBits (fmt : Nat) : Nat :=
  match fmt with
  | 2 => 4 | 7 => 6 | 8 => 6 | 9 => 4 | 11 => 16 | 12 => 16 | 13 => 32 | 14 => 32 | _ => 8

/-- The float layout of a format code, MX element formats included. -/
def fmtFloat (fmt : Nat) : FloatFmt :=
  match fmt with
  | 3 => fmtE4M3 | 4 => fmtE5M2 | 5 => fmtE4M3 | 6 => fmtE5M2 | 7 => fmtE2M3 | 8 => fmtE3M2
  | 9 => fmtE2M1 | 11 => fmtBF16 | 12 => fmtFP16 | _ => fmtFP32

/-- R103: the code of an element that is written in the format in which it is read: a NaN of FP32, BF16 or FP16 is written as the
canonical one. -/
def canonicalCode (fmt code : Nat) : Nat :=
  if fmt = 11 ∨ fmt = 12 ∨ fmt = 13 then
    match floatNum (fmtFloat fmt) code with
    | .nan neg => (fmtFloat fmt).nanCode neg
    | _ => code
  else code

/-- The value of an element's own code (R85), without its block scale. -/
def elemNum (fmt code : Nat) : Num :=
  match fmt with
  | 0 => intNum (signedOf 8 code) 0
  | 1 => .fin false (code % 256) 0
  | 2 => intNum (signedOf 4 code) 0
  | 10 => intNum (signedOf 8 code) (-6)
  | 14 => intNum (signedOf 32 code) 0
  | _ => floatNum (fmtFloat fmt) code

def Num.neg : Num → Bool
  | .nan s => s
  | .inf s => s
  | .fin s _ _ => s

/-- R87: an element's value under its block scale X; the sign of the NaN under X = 0xFF is a free value (log 56). -/
def scaleNum (x : Nat) (n : Num) : Num :=
  if x = 0xFF then .nan (Config.blockNanNeg n.neg)
  else match n with
    | .fin neg m q => .fin neg m (q + x - 127)
    | other => other

/-- R104: the saturation bit that SAT_DEF selects. -/
def satDefault (fmt : Nat) : Bool := decide (fmt = 3 ∨ fmt = 4)

/-- R102: the code in format `fmt` (no MX) of a value. -/
def convert (fmt : Nat) (rm : Round) (sat : Bool) (x : Num) : Nat :=
  match fmt with
  | 0 => signedCode 8 (toInt (-128) 127 rm x)
  | 1 => (toInt 0 255 rm x).toNat
  | 2 => signedCode 4 (toInt (-8) 7 rm x)
  | 14 => signedCode 32 (toInt (-2147483648) 2147483647 rm x)
  | _ => toFloat (fmtFloat fmt) rm sat x

/-- R107: the random value of stochastic rounding. -/
def mix64 (seed tensorId index : Nat) : Nat :=
  let z := seed ^^^ (tensorId % 65536 * 2 ^ 48) ^^^ (index % 2 ^ 48)
  let z := (z + 0x9E3779B97F4A7C15) % 2 ^ 64
  let z := ((z ^^^ z / 2 ^ 30) * 0xBF58476D1CE4E5B9) % 2 ^ 64
  let z := ((z ^^^ z / 2 ^ 27) * 0x94D049BB133111EB) % 2 ^ 64
  z ^^^ z / 2 ^ 31

/-- The rounding of one element: RMODE, SEED, destination tensor number and element index. -/
def elemRound (rmode : Bool) (seed tensorId index : Nat) : Round :=
  if rmode then .sr (mix64 seed tensorId index / 2 ^ 32) else .rne

/-! ### FP32 arithmetic of the vector unit (R114 to R116); an FP32 value is its code -/

def fpNum (a : Nat) : Num := floatNum fmtFP32 a
def fpRound (x : Num) : Nat := toFloat fmtFP32 .rne false x
def fpNan : Nat := 0x7FC00000
def fpInf : Nat := 0x7F800000
def fpNegInf : Nat := 0xFF800000
def fpOne : Nat := 0x3F800000

def fpNeg (a : Nat) : Nat := if a / 2 ^ 31 % 2 = 1 then a - 2 ^ 31 else a + 2 ^ 31
def fpIsNan (a : Nat) : Bool := match fpNum a with | .nan _ => true | _ => false
def fpIsFinite (a : Nat) : Bool := match fpNum a with | .fin .. => true | _ => false

/-- A signed integer times 2^q as a number; `neg0` is the sign of an exact zero. -/
def signedNum (v : Int) (q : Int) (neg0 : Bool) : Num :=
  if v = 0 then .fin neg0 0 0 else .fin (decide (v < 0)) v.natAbs q

/-- The exact sum of two numbers, with the IEEE 754 rules for zeros and specials (RNE). -/
def numAdd (a b : Num) : Num :=
  match a, b with
  | .nan _, _ => .nan false
  | _, .nan _ => .nan false
  | .inf s, .inf t => if s = t then .inf s else .nan false
  | .inf s, _ => .inf s
  | _, .inf t => .inf t
  | .fin s m q, .fin t n r =>
    let e := min q r
    let x : Int := (m * 2 ^ (q - e).toNat : Nat)
    let y : Int := (n * 2 ^ (r - e).toNat : Nat)
    let v := (if s then -x else x) + (if t then -y else y)
    signedNum v e (s && t && m = 0 && n = 0)

/-- The exact product of two numbers. -/
def numMul (a b : Num) : Num :=
  match a, b with
  | .nan _, _ => .nan false
  | _, .nan _ => .nan false
  | .inf s, .inf t => .inf (s != t)
  | .inf s, .fin t n _ => if n = 0 then .nan false else .inf (s != t)
  | .fin s m _, .inf t => if m = 0 then .nan false else .inf (s != t)
  | .fin s m q, .fin t n r => .fin (s != t) (m * n) (q + r)

def numNeg (a : Num) : Num :=
  match a with
  | .nan s => .nan s
  | .inf s => .inf (!s)
  | .fin s m q => .fin (!s) m q

/-- A number times 2^k. -/
def numScale (k : Int) (a : Num) : Num :=
  match a with
  | .fin s m q => .fin s m (q + k)
  | other => other

def fpAdd (a b : Nat) : Nat := fpRound (numAdd (fpNum a) (fpNum b))
def fpSub (a b : Nat) : Nat := fpRound (numAdd (fpNum a) (numNeg (fpNum b)))
def fpMul (a b : Nat) : Nat := fpRound (numMul (fpNum a) (fpNum b))
/-- R115: one rounding. -/
def fpFma (a b c : Nat) : Nat := fpRound (numAdd (numMul (fpNum a) (fpNum b)) (fpNum c))

/-- The value of a finite code as an order key: −0 below +0 (R116). -/
def fpKey (a : Nat) : Int := if a / 2 ^ 31 % 2 = 1 then -((a % 2 ^ 31 : Nat) : Int) - 1 else (a % 2 ^ 31 : Nat)

/-- R116. -/
def fpMin (a b : Nat) : Nat :=
  if fpIsNan a || fpIsNan b then fpNan else if fpKey a ≤ fpKey b then a else b
/-- R116. -/
def fpMax (a b : Nat) : Nat :=
  if fpIsNan a || fpIsNan b then fpNan else if fpKey a ≥ fpKey b then a else b

/-- An ordered comparison a < b of two codes: false when either is NaN. -/
def fpLt (a b : Nat) : Bool :=
  match fpNum a, fpNum b with
  | .nan _, _ => false
  | _, .nan _ => false
  | .fin _ 0 _, .fin _ 0 _ => false
  | _, _ => decide (fpKey a < fpKey b)

def fpLe (a b : Nat) : Bool := !(fpIsNan a || fpIsNan b) && !fpLt b a

/-- An integer converted to FP32 by RNE. -/
def fpOfInt (v : Int) : Nat := fpRound (intNum v 0)

/-- ⌊x × 2^k⌋ of a finite number, as an integer. -/
def floorScaled (k : Int) (x : Num) : Int :=
  match x with
  | .fin s m q =>
    let e := q + k
    if e ≥ 0 then (if s then -((m * 2 ^ e.toNat : Nat) : Int) else (m * 2 ^ e.toNat : Nat))
    else
      let d := 2 ^ (-e).toNat
      if s then -(((m + d - 1) / d : Nat) : Int) else (m / d : Nat)
  | _ => 0

/-! ### Reductions (R117) -/

/-- One level of the tree: positions 2i and 2i + 1 combine; a position with no partner passes up. -/
def pairUp {α : Type} (f : α → α → α) : List α → List α
  | a :: b :: rest => f a b :: pairUp f rest
  | other => other

/-- The binary tree over a chunk, `fuel` levels deep. -/
def treeReduce {α : Type} (f : α → α → α) : Nat → List α → List α
  | 0, l => l
  | fuel + 1, l => treeReduce f fuel (pairUp f l)

/-- The list cut into pieces of `n`, at most `fuel` of them. -/
def chunksOf {α : Type} (n : Nat) : (fuel : Nat) → List α → List (List α)
  | 0, _ => []
  | _, [] => []
  | fuel + 1, l => l.take n :: chunksOf n fuel (l.drop n)

/-- R117: chunks of 256, each by a tree of 8 levels, then left to right; `dflt` for no element. -/
def reduce {α : Type} (f : α → α → α) (dflt : α) (l : List α) : α :=
  let parts := (chunksOf 256 l.length l).map (fun c => (treeReduce f 8 c).headD dflt)
  match parts with
  | [] => dflt
  | p :: ps => ps.foldl f p

def fpSum (l : List Nat) : Nat := reduce fpAdd 0 l
def fpMaxAll (l : List Nat) : Nat := reduce fpMax fpNegInf l
def fpMinAll (l : List Nat) : Nat := reduce fpMin fpInf l

/-! ### Transcendental functions -/

/-- R119: t2[j] = RNE(2³¹ × 2^(j/64)). -/
def exp2Table : List Nat :=
  [2147483648, 2170868212, 2194507417, 2218404036, 2242560872, 2266980759, 2291666561, 2316621173, 2341847524, 2367348571, 2393127307, 2419186755, 2445529972, 2472160047, 2499080105, 2526293303] ++
  [2553802834, 2581611923, 2609723834, 2638141863, 2666869345, 2695909648, 2725266179, 2754942382, 2784941738, 2815267765, 2845924021, 2876914102, 2908241642, 2939910317, 2971923842, 3004285971] ++
  [3037000500, 3070071267, 3103502151, 3137297074, 3171459999, 3205994934, 3240905930, 3276197082, 3311872529, 3347936457, 3384393094, 3421246719, 3458501653, 3496162267, 3534232978, 3572718252] ++
  [3611622603, 3650950594, 3690706840, 3730896002, 3771522796, 3812591987, 3854108391, 3896076880, 3938502376, 3981389855, 4024744348, 4068570940, 4112874773, 4157661043, 4202935003, 4248701965]

/-- R121: rc[j] = RNE(2³⁶ / (64 + j)). -/
def log2Rc : List Nat :=
  [1073741824, 1057222719, 1041204193, 1025663832, 1010580540, 995934445, 981706811, 967879954, 954437177, 941362695, 928641578, 916259690, 904203641, 892460737, 881018933, 869866794] ++
  [858993459, 848388602, 838042399, 827945503, 818089009, 808464432, 799063683, 789879043, 780903145, 772128952, 763549742, 755159085, 746950834, 738919105, 731058263, 723362913] ++
  [715827883, 708448214, 701219150, 694136129, 687194767, 680390859, 673720360, 667179386, 660764199, 654471207, 648296950, 642238100, 636291451, 630453915, 624722516, 619094385] ++
  [613566757, 608136962, 602802428, 597560667, 592409282, 587345955, 582368447, 577474594, 572662306, 567929560, 563274399, 558694933, 554189329, 549755814, 545392673, 541098242] ++
  [536870912]

/-- R121: lg[j] = RNE(2³² × log₂(2³⁰ / rc[j])). -/
def log2Lg : List Nat :=
  [0, 96069026, 190671291, 283850911, 375650044, 466108995, 555266327, 643158981, 729822323, 815290272, 899595352, 982768791, 1064840564, 1145839466, 1225793193, 1304728379] ++
  [1382670641, 1459644646, 1535674168, 1610782091, 1684990499, 1758320683, 1830793181, 1902427828, 1973243775, 2043259528, 2112492959, 2180961373, 2248681479, 2315669458, 2381940982, 2447511201] ++
  [2512394807, 2576606036, 2640158680, 2703066098, 2765341282, 2826996790, 2888044854, 2948497311, 3008365686, 3067661140, 3126394550, 3184576461, 3242217136, 3299326552, 3355914414, 3411990165] ++
  [3467562982, 3522641823, 3577235367, 3631352121, 3685000317, 3738188006, 3790923030, 3843213034, 3895065451, 3946487551, 3997486431, 4048068974, 4098241942, 4148011916, 4197385305, 4246368396] ++
  [4294967296]

/-- R118, R119: exp2. -/
def fpExp2 (x : Nat) : Nat :=
  match fpNum x with
  | .nan _ => fpNan
  | .inf neg => if neg then 0 else fpInf
  | .fin s m q =>
    if !fpLt x 0x43000000 then fpInf
    else if fpLt x 0xC3200000 then 0
    else
      let v := floorScaled 32 (.fin s m q)
      let i := v / (2 ^ 32 : Nat)
      let f := (v % (2 ^ 32 : Nat)).toNat
      let j := f / 2 ^ 26
      let u := f % 2 ^ 26
      let t := 238388332 * u / 2 ^ 32
      let t := (1031764991 + t) * u / 2 ^ 32
      let t := (2977044472 + t) * u / 2 ^ 32
      let p := 2 ^ 32 + t
      let mm := exp2Table.getD j 0 * p / 2 ^ 32
      fpRound (.fin false mm (i - 31))

/-- An arithmetic shift right by 53 (floor). -/
def shr53 (v : Int) : Int := v / (2 ^ 53 : Nat)

/-- R120, R121: log2. -/
def fpLog2 (x : Nat) : Nat :=
  match fpNum x with
  | .nan _ => fpNan
  | .inf neg => if neg then fpNan else fpInf
  | .fin s m q =>
    if m = 0 then fpNegInf
    else if s then fpNan
    else
      let sh := 24 - bitLen m
      let mi := m * 2 ^ sh
      let e : Int := q - sh + 23
      let j := (mi - 0x800000 + 0x10000) / 2 ^ 17
      let z : Int := (mi * log2Rc.getD j 0 : Nat) - (2 ^ 53 : Nat)
      let h : Int := -396564993198
      let h := 528753324264 + shr53 (h * z)
      let h := -793129986396 + shr53 (h * z)
      let h := 1586259972792 + shr53 (h * z)
      let sum := e * (2 ^ 93 : Nat) + (log2Lg.getD j 0 * 2 ^ 61 : Nat) + h * z
      fpRound (signedNum sum (-93) false)

/-- R122: the correctly rounded reciprocal. -/
def fpRcp (x : Nat) : Nat :=
  match fpNum x with
  | .nan _ => fpNan
  | .inf neg => fmtFP32.signBit neg
  | .fin s m q =>
    if m = 0 then fmtFP32.infCode s
    else
      let k := bitLen m + 40
      let n := 2 ^ k / m
      let sticky := if n * m = 2 ^ k then 0 else 1
      fpRound (.fin s (2 * n + sticky) (-(k : Int) - q - 1))

/-- ⌊√n⌋ by `fuel` bits from the top. -/
def isqrtFrom (n : Nat) : (fuel : Nat) → (acc : Nat) → Nat
  | 0, acc => acc
  | fuel + 1, acc =>
    let c := acc + 2 ^ fuel
    if c * c ≤ n then isqrtFrom n fuel c else isqrtFrom n fuel acc

/-- ⌊√n⌋. -/
def isqrt (n : Nat) : Nat := isqrtFrom n (bitLen n / 2 + 1) 0

/-- R122: the correctly rounded reciprocal square root. -/
def fpRsqrt (x : Nat) : Nat :=
  match fpNum x with
  | .nan _ => fpNan
  | .inf neg => if neg then fpNan else 0
  | .fin s m q =>
    if m = 0 then fmtFP32.infCode s
    else if s then fpNan
    else
      let (m, q) := if q % 2 = 0 then (m, q) else (2 * m, q - 1)
      let n := isqrt (2 ^ 120 / m)
      let sticky := if n * n * m = 2 ^ 120 then 0 else 1
      fpRound (.fin false (2 * n + sticky) (-60 - q / 2 - 1))

def fpL2e : Nat := 0x3FB8AA3B

/-- R123. -/
def fpSigmoid (x : Nat) : Nat :=
  if fpIsNan x then fpNan
  else
    let t := fpMul x fpL2e
    let e := fpExp2 (fpNeg t)
    fpRcp (fpAdd fpOne e)

def fpAbs (x : Nat) : Nat := x % 2 ^ 31
def fpCopySign (a s : Nat) : Nat := a % 2 ^ 31 + (s / 2 ^ 31 % 2) * 2 ^ 31

/-- R124, R125. -/
def fpTanh (x : Nat) : Nat :=
  let a := fpAbs x
  if fpIsNan x then fpNan
  else if !fpLt a 0x41200000 then fpCopySign fpOne x
  else if fpLt a 0x3E000000 then
    let s := fpMul x x
    let p := fpFma 0xBD5D0DD1 s 0x3E088889
    let p := fpFma p s 0xBEAAAAAB
    let p := fpMul p s
    fpFma p x x
  else
    let t := fpMul (fpMul 0x40000000 a) fpL2e
    let q := fpRcp (fpAdd (fpExp2 t) fpOne)
    fpCopySign (fpFma 0xC0000000 q fpOne) x

/-! ### The long accumulator (R90 to R98, R110 to R113) -/

/-- R90: a new sum. -/
def accEmpty : Acc := { a := 0, ef := 0, et := 0, n := 0, nan := false, pinf := false, ninf := false, mode := false }

/-- R91: a term of a long accumulator, the product of an activation and a weight; of two infinities it is a free value
(log 56). -/
def termMul (a b : Num) : Num :=
  match a, b with
  | .inf s, .inf t =>
    if Config.infTerm s t = 0 then .nan false else .inf (decide (Config.infTerm s t = 2))
  | a, b => numMul a b

/-- R91: one term added. -/
def accAdd (c : Acc) (x : Num) : Acc :=
  match x with
  | .nan _ => { c with nan := true }
  | .inf false => { c with pinf := true }
  | .inf true => { c with ninf := true }
  | .fin neg m e =>
    if m = 0 then c
    else
      let v : BitVec 64 := if neg then -(BitVec.ofNat 64 m) else BitVec.ofNat 64 m
      if c.n = 0 then { c with a := v, ef := e, et := e, n := 1 }
      else
        let a := if e < c.ef then c.a <<< (c.ef - e).toNat else c.a
        let ef := min e c.ef
        { c with
          a := a + v <<< (e - ef).toNat, ef := ef, et := max e c.et,
          n := if c.n < 0xFFFFFF then c.n + 1 else c.n }

/-- R93: largest significand of a format as the pair width takes it. -/
def maxSignificand (fmt : Nat) : Nat :=
  match fmt with
  | 0 => 128 | 1 => 255 | 2 => 8 | 3 => 15 | 4 => 7 | 5 => 15 | 6 => 7 | 7 => 15 | 8 => 7 | 9 => 3
  | 10 => 128 | 11 => 255 | 12 => 2047 | _ => 2 ^ 24 - 1

/-- R93: the pair width. -/
def pairWidth (fa fw : Nat) : Nat := bitLen (maxSignificand fa * maxSignificand fw)

/-- ⌈log₂ n⌉ for a positive n. -/
def clog2 (n : Nat) : Nat := if n ≤ 1 then 0 else bitLen (n - 1)

/-- R93, R94: the range guard. -/
def rangeGuard (w : Nat) (c : Acc) : Bool :=
  c.n = 0 || (c.n != 0xFFFFFF && decide ((w : Int) + (c.et - c.ef) + clog2 c.n ≤ 63))

/-- R95, R97, R98: what a drain takes from a long accumulator, and whether a false guard decided it. -/
def accValue (w : Nat) (floatOut : Bool) (c : Acc) : Num × Bool :=
  if c.nan || (c.pinf && c.ninf) then (.nan false, false)
  else if c.pinf then (.inf false, false)
  else if c.ninf then (.inf true, false)
  else if c.n = 0 then (.fin false 0 0, false)
  else if rangeGuard w c then (signedNum c.a.toInt c.ef false, false)
  else if floatOut then (.nan false, true)
  else (.fin false 0 0, true)

/-- R111: the FP32 sum of a BF16 or FP16 column takes one product (R110). -/
def accAddFp (c : Acc) (a b : Num) : Acc :=
  let p := fpRound (numMul a b)
  { c with a := BitVec.ofNat 64 (fpAdd (c.a.toNat % 2 ^ 32) p) }

/-- R99, R146, R111: the entry at command start, from the column's bias if it has one. -/
def accStart (fp : Bool) (bias : Option Nat) : Acc :=
  if fp then { accEmpty with mode := true, a := BitVec.ofNat 64 (bias.getD 0) }
  else match bias with
    | none => accEmpty
    | some b => accAdd accEmpty (fpNum b)

/-- R100, R113: the value that a drain converts, and whether a false range guard decided it. -/
def drainValue (w : Nat) (floatOut : Bool) (k : Int) (c : Acc) : Num × Bool :=
  if c.mode then (numScale k (fpNum (c.a.toNat % 2 ^ 32)), false)
  else
    let (v, bad) := accValue w floatOut c
    (numScale k v, bad)

/-! ### MX quantisation (R109) -/

/-- R109: emax of a format. -/
def mxEmax (fmt : Nat) : Int :=
  match fmt with
  | 5 => 8 | 6 => 15 | 7 => 2 | 8 => 4 | 9 => 2 | _ => 0

/-- ⌊log₂ (m × 2^q)⌋ of a nonzero magnitude. -/
def floorLog2 (m : Nat) (q : Int) : Int := (Nat.log2 m : Int) + q

/-- R109, order 2: every value of the block is zero. -/
def mxZero (vals : List Nat) : Bool := vals.all (fun v => match fpNum v with | .fin _ m _ => m = 0 | _ => false)

/-- R109, order 5: the code of one element divided by 2^(X − 127), SAT = 1. -/
def mxElem (fmt : Nat) (rm : Round) (x : Nat) (v : Nat) : Nat :=
  let n := numScale (127 - (x : Int)) (fpNum v)
  if fmt = 10 then signedCode 8 (toInt (-128) 127 rm (numScale 6 n))
  else toFloat (fmtFloat fmt) rm true n

/-- R109, orders 1 to 4: the scale byte of a block, X = 0 for a block of zeros. -/
def mxScale (fmt : Nat) (xlo : Int) (vals : List Nat) : Nat :=
  if vals.any (fun v => !fpIsFinite v) then 0xFF
  else
    let logs := vals.filterMap (fun v =>
      match fpNum v with
      | .fin _ m q => if m = 0 then none else some (floorLog2 m q)
      | _ => none)
    match logs with
    | [] => 0
    | l :: ls =>
      let e := ls.foldl max l - mxEmax fmt
      let e := max xlo (min (xlo + 15) e)
      (max (-127) (min 127 e) + 127).toNat

/-- R109: the code of a block's value `v`; a block of zeros holds +0 throughout. -/
def mxCode (fmt : Nat) (rm : Round) (xlo : Int) (vals : List Nat) (v : Nat) : Nat :=
  if mxZero vals then 0 else mxElem fmt rm (mxScale fmt xlo vals) v

/-- Sum of nonzero finite terms as an integer in units of 2^e, with e the smallest exponent. -/
def exactSum (l : List Num) : Int × Int :=
  let fins := l.filterMap (fun n => match n with
    | .fin s m q => if m = 0 then none else some (s, m, q)
    | _ => none)
  match fins with
  | [] => (0, 0)
  | f :: fs =>
    let e := fs.foldl (fun e x => min e x.2.2) f.2.2
    (fins.foldl (fun acc x =>
      let v : Int := (x.2.1 * 2 ^ (x.2.2 - e).toNat : Nat)
      if x.1 then acc - v else acc + v) 0, e)

/-- The exact sum of weighted values: NaN, an infinity, or the finite sum, +0 when it is 0 (R240, R242, R290). -/
def exactTotal (l : List Num) : Num :=
  let nan := l.any (fun x => match x with | .nan _ => true | _ => false)
  let pinf := l.any (fun x => match x with | .inf neg => !neg | _ => false)
  let ninf := l.any (fun x => match x with | .inf neg => neg | _ => false)
  if nan || (pinf && ninf) then .nan false
  else if pinf then .inf false
  else if ninf then .inf true
  else
    let (v, e) := exactSum l
    signedNum v e false

end Sys2Proof.Machine
end

