-- ==== Sys2Proof/Machine/Operands.lean ====
section
/-! DEFINITION. Operand forms: tensor descriptors and layouts (Table 4.8, R200 to R204), elements in memory,
the ranges that a command touches and where they may lie (R59, R60, R162, R733). -/
namespace Sys2Proof.Machine

/-- Table 4.8: a descriptor from its 32 bytes. -/
def descOf (bs : List Byte) : Desc :=
  { base := field bs 0 6, tensorId := field bs 6 2, fmt := field bs 8 1 % 16,
    layout := bits (field bs 8 1) 6 4, comp := bits (field bs 9 1) 1 0, channels := field bs 10 2,
    width := field bs 12 2, height := field bs 14 2, rowPitch := field bs 16 4,
    planeStride := field bs 20 4, scaleOffset := field bs 24 4 }

/-- The 32 bytes of a descriptor. -/
def Desc.bytes (t : Desc) : List Byte :=
  leBytes 6 t.base ++ leBytes 2 t.tensorId ++ leBytes 1 (t.fmt + 16 * t.layout) ++ leBytes 1 t.comp ++
    leBytes 2 t.channels ++ leBytes 2 t.width ++ leBytes 2 t.height ++ leBytes 4 t.rowPitch ++
    leBytes 4 t.planeStride ++ leBytes 4 t.scaleOffset ++ leBytes 4 0

/-- A descriptor that no command can use: reads of a missing index. -/
def Desc.zero : Desc :=
  { base := 0, tensorId := 0, fmt := 0, layout := 0, comp := 0, channels := 0, width := 0, height := 0,
    rowPitch := 0, planeStride := 0, scaleOffset := 0 }

/-- Channels of a channel block; 1 for the planar layout. -/
def Desc.cb (t : Desc) : Nat := if t.layout = 1 then 16 else if t.layout = 2 then 32 else 1

/-- Planes or channel blocks of the tensor. -/
def Desc.planes (t : Desc) : Nat := ceilDiv t.channels t.cb

/-- Bytes of a run of n elements of `b` bits; 6-bit runs round up to a multiple of 3. -/
def runBytes (b n : Nat) : Nat := if b = 6 then roundUp (ceilDiv (n * 6) 8) 3 else ceilDiv (n * b) 8

/-- The row length of the tensor. -/
def Desc.rowBytes (t : Desc) : Nat := runBytes (fmtBits t.fmt) (t.width * t.cb)

/-- R200, R201: the start of row y of a plane or channel block. -/
def Desc.rowAddr (t : Desc) (plane y : Nat) : Nat := t.base + plane * t.planeStride + y * t.rowPitch

/-- R203: the scale row pitch SP. -/
def Desc.scalePitch (t : Desc) : Nat := roundUp t.width 64

/-- R203: the byte of the scale of channel block b at (y, x). -/
def Desc.scaleAddr (t : Desc) (b y x : Nat) : Nat :=
  t.base + t.scaleOffset + (b * t.height + y) * t.scalePitch + x

/-- Bytes from BASE that the tensor's rows and scales span. -/
def Desc.span (t : Desc) : Nat :=
  let rows := (t.planes - 1) * t.planeStride + (t.height - 1) * t.rowPitch + t.rowBytes
  if isMx t.fmt then max rows (t.scaleOffset + ceilDiv t.channels 32 * t.height * t.scalePitch) else rows

/-! ### Reading elements -/

/-- The `b` bits at bit position `p` from address `a`, through a window of memory. -/
def codeAt (w : List (Nat × Byte)) (a p b : Nat) : Nat :=
  let lo := a + p / 8
  let n := (p % 8 + b + 7) / 8
  leNat ((List.range n).map (fun i => memGet w (lo + i))) / 2 ^ (p % 8) % 2 ^ b

/-- The listed bytes of the `n` addresses from `a` as engine `e` sees them, by the addresses that it names: those of the
local window are its own scratch (R733). -/
def Device.view (d : Device) (e a n : Nat) : List (Nat × Byte) :=
  let lo := max a localBase
  let hi := max lo (min (a + n) (localBase + scratchBytes))
  memWindow d.store.mem a (min n (localBase - a)) ++
    (memWindow d.store.mem (physAddr e lo) (hi - lo)).map (fun c => (c.1 - physAddr e lo + lo, c.2)) ++
    memWindow d.store.mem hi (a + n - hi)

/-- The memory that a tensor of engine `e` spans. -/
def Device.tensorWindow (d : Device) (e : Nat) (t : Desc) : List (Nat × Byte) := d.view e t.base t.span

/-- The memory that a tensor spans for a unit without a local window. -/
def Device.plainWindow (d : Device) (t : Desc) : List (Nat × Byte) := memWindow d.store.mem t.base t.span

/-- The code of element (c, y, x), through a window of memory. -/
def Desc.code (t : Desc) (w : List (Nat × Byte)) (c y x : Nat) : Nat :=
  let b := fmtBits t.fmt
  codeAt w (t.rowAddr (c / t.cb) y) ((x * t.cb + c % t.cb) * b) b

/-- The exact value of element (c, y, x), block scale included (R85, R87). -/
def Desc.num (t : Desc) (w : List (Nat × Byte)) (c y x : Nat) : Num :=
  let n := elemNum t.fmt (t.code w c y x)
  if isMx t.fmt then scaleNum (memGet w (t.scaleAddr (c / 32) y x)).toNat n else n

/-- R732: an element as FP32, by RNE with SAT = 0. -/
def Desc.fp32 (t : Desc) (w : List (Nat × Byte)) (c y x : Nat) : Nat := fpRound (t.num w c y x)

/-! ### Writing rows -/

/-- Codes replaced in a run of `b`-bit elements that starts at bit `p` of `old`; `none` keeps the code. -/
def packCodes (old : Nat) (b : Nat) : (p : Nat) → List (Option Nat) → Nat
  | _, [] => old
  | p, none :: cs => packCodes old b (p + b) cs
  | p, some c :: cs =>
    let old := old / 2 ^ (p + b) * 2 ^ (p + b) + c % 2 ^ b * 2 ^ p + old % 2 ^ p
    packCodes old b (p + b) cs

/-- Elements `i0`, `i0 + 1`, … of a plane's row written; `reach` gives the address that an access reaches (R733). -/
def Device.putRow (d : Device) (reach : Nat → Nat) (t : Desc) (plane y i0 : Nat) (codes : List (Option Nat)) : Device :=
  let b := fmtBits t.fmt
  let p := i0 * b
  let a := reach (t.rowAddr plane y + p / 8)
  let n := (p % 8 + codes.length * b + 7) / 8
  let old := leNat (d.peek a n)
  d.write a (leBytes n (packCodes old b (p % 8) codes))

/-- Bytes of the write that `putRow` makes. -/
def putRange (t : Desc) (plane y i0 n : Nat) : Nat × Nat :=
  let p := i0 * fmtBits t.fmt
  (t.rowAddr plane y + p / 8, (p % 8 + n * fmtBits t.fmt + 7) / 8)

/-- Row y of every plane written from `code`, for channels [0, nc) and columns [0, nx), with (0, 0, 0) the
tensor's origin; missing channel positions of a last block that is written are written 0 (R202), and an element without a
code stays. -/
def Device.putRowSome (d : Device) (reach : Nat → Nat) (t : Desc) (y nc nx : Nat) (code : Nat → Nat → Option Nat) : Device :=
  let cb := t.cb
  (List.range (ceilDiv nc cb)).foldl
    (fun d p =>
      let codes := (List.range (nx * cb)).map (fun i =>
        let c := p * cb + i % cb
        if c < nc then code c (i / cb) else if t.channels ≤ c then (code (p * cb) (i / cb)).map (fun _ => 0) else none)
      d.putRow reach t p y 0 codes)
    d

/-- The row with a code for every element. -/
def Device.putRowOf (d : Device) (reach : Nat → Nat) (t : Desc) (y nc nx : Nat) (code : Nat → Nat → Nat) : Device :=
  d.putRowSome reach t y nc nx (fun c x => some (code c x))

/-- The rows `y0 … y0 + n − 1` of a tensor written whole from `code c y x`. -/
def Device.putRows (d : Device) (reach : Nat → Nat) (t : Desc) (y0 n : Nat) (code : Nat → Nat → Nat → Nat) : Device :=
  (List.range n).foldl (fun d i => d.putRowOf reach t (y0 + i) t.channels t.width (fun c x => code c (y0 + i) x)) d

/-- The rows `y0 … y0 + n − 1`, where an element without a code stays. -/
def Device.putRowsSome (d : Device) (reach : Nat → Nat) (t : Desc) (y0 n : Nat) (code : Nat → Nat → Nat → Option Nat) : Device :=
  (List.range n).foldl (fun d i => d.putRowSome reach t (y0 + i) t.channels t.width (fun c x => code c (y0 + i) x)) d

/-! ### Ranges and access -/

/-- A run of bytes inside the Well or stack DRAM (R356). -/
def inOneRegion (a n : Nat) : Bool :=
  match regionOf a, regionOf (a + n - 1) with
  | .dram, .dram => true
  | .well, .well => true
  | _, _ => false

/-- R59: the first byte that may not be touched of a run that starts at `a` and does not lie in the Well or stack DRAM. -/
def firstOutside (a : Nat) : Nat :=
  match regionOf a with
  | .dram => dramEnd
  | .well => wellBase + wellBytes
  | _ => a

/-- Bytes of a work buffer. -/
def Desc.workBytes (t : Desc) : Nat := t.rowPitch * t.height


/-- A run of bytes that a command touches, and whether it writes them. -/
structure Span where
  addr : Nat
  len : Nat
  store : Bool
  deriving DecidableEq, Repr

/-- The rows of a tensor that a command reads or writes. -/
def Desc.rowSpans (t : Desc) (store : Bool) (rows : List Nat) : List Span :=
  (List.range t.planes).flatMap (fun p =>
    rows.map (fun y => { addr := t.rowAddr p y, len := t.rowBytes, store := store }))

/-- The run of bytes of one element. -/
def Desc.elemSpan (t : Desc) (ch y x : Nat) : Span :=
  let b := fmtBits t.fmt
  let p := (x * t.cb + ch % t.cb) * b
  { addr := t.rowAddr (ch / t.cb) y + p / 8, len := (p % 8 + b + 7) / 8, store := false }

/-- The scale bytes of the named rows of an MX tensor. -/
def Desc.scaleSpans (t : Desc) (store : Bool) (rows : List Nat) : List Span :=
  if isMx t.fmt then
    (List.range (ceilDiv t.channels 32)).flatMap (fun b =>
      rows.map (fun y => { addr := t.scaleAddr b y 0, len := t.width, store := store }))
  else []

/-- Every row of a tensor, with its scales. -/
def Desc.allSpans (t : Desc) (store : Bool) : List Span :=
  let rows := List.range t.height
  t.rowSpans store rows ++ t.scaleSpans store rows

/-- Runs that hold pixels [0, m) of a tensor in every plane, and their scales. -/
def Desc.pixelSpans (t : Desc) (store : Bool) (m : Nat) : List Span :=
  let full := m / t.width
  let rest := m % t.width
  let b := fmtBits t.fmt
  let tail : List Span := if rest = 0 then [] else
    (List.range t.planes).map (fun p => { addr := t.rowAddr p full, len := runBytes b (rest * t.cb), store := store }) ++
    (if isMx t.fmt then (List.range (ceilDiv t.channels 32)).map (fun k =>
      { addr := t.scaleAddr k full 0, len := rest, store := store }) else [])
  t.rowSpans store (List.range full) ++ t.scaleSpans store (List.range full) ++ tail

/-- The run as the engine's accesses reach it (R733). -/
def Span.phys (e : Nat) (s : Span) : Span := { s with addr := physAddr e s.addr }

/-- The end of the addresses from `a` on that a command of engine `e` may touch; 0 where it may not touch `a`: mapped and
not the seal region (R59), foreign scratch only for a COPY (R60), scratch below the footprint (R162). -/
def reachEnd (e : Nat) (copy : Bool) (footprint a : Nat) : Nat :=
  match regionOf a with
  | .dram => dramEnd
  | .well => wellBase + wellBytes
  | .localScratch => localBase + tileBytes * footprint
  | .scratch n => if n.val = e ∨ copy then scratchBase n.val + tileBytes * footprint else 0
  | _ => 0

/-- Whether a command of the engine may touch a run of bytes. -/
def spanOk (e : Nat) (copy : Bool) (footprint : Nat) (s : Span) : Bool :=
  decide (s.len = 0) || decide (s.addr + s.len ≤ reachEnd e copy footprint s.addr)

/-- The first run that may not be touched. -/
def badSpan (e : Nat) (copy : Bool) (footprint : Nat) (l : List Span) : Option Span :=
  l.find? (fun s => !spanOk e copy footprint s)

/-- The address recorded for a run that may not be touched: the first of its bytes that may not (R59). -/
def Span.faultAddr (e : Nat) (copy : Bool) (footprint : Nat) (s : Span) : Nat :=
  max s.addr (reachEnd e copy footprint s.addr)

/-- The tiles that runs touch, each once, in order; at physical addresses. -/
def spanTiles (e : Nat) (l : List Span) : List Nat :=
  (l.flatMap (fun s => tilesOf (physAddr e s.addr) s.len)).foldl
    (fun acc t => if acc.contains t then acc else acc ++ [t]) []

/-- Bytes moved, by kind of memory: whole tiles where `whole` says so of an address (R602), requested bytes of
other reads and of writes. -/
def spanUse (e : Nat) (whole : Nat → Bool) (l : List Span) : Use :=
  let reads := l.filter (fun s => !s.store)
  let tiles := (spanTiles e reads).filter whole
  let u := tiles.foldl (fun u t => u.add (bytesUse t tileBytes)) {}
  l.foldl
    (fun u s => if !s.store && whole (physAddr e s.addr) then u else u.add (bytesUse s.addr s.len)) u

/-- R602: tiles read whole that the runs ask for only in part. -/
def fillTiles (e : Nat) (whole : Nat → Bool) (l : List Span) : Nat :=
  let reads := (l.filter (fun s => !s.store && whole (physAddr e s.addr))).filter (fun s => s.len ≠ 0)
  let tiles := spanTiles e reads
  let covered (t : Nat) : Nat :=
    reads.foldl (fun n s =>
      let a := physAddr e s.addr
      let lo := max a t
      let hi := min (a + s.len) (t + tileBytes)
      if lo < hi then n + (hi - lo) else n) 0
  (tiles.filter (fun t => covered t < tileBytes)).length

/-- Free bytes over the runs that a command writes. -/
def Device.freeSpans (d : Device) (e : Nat) (spans : List Span) : Device :=
  (spans.filter (·.store)).foldl (fun d s =>
    let (bs, d) := d.freeBytes s.len
    d.write (physAddr e s.addr) bs) d

/-- The whole range [a, a + n) lies in this engine's scratch (R733). -/
def inOwnScratch (e a n : Nat) : Bool :=
  let last := a + n - 1
  match regionOf a, regionOf last with
  | .localScratch, .localScratch => true
  | .scratch i, .scratch j => i.val = e && j.val = e
  | _, _ => false

def Desc.inScratch (t : Desc) (e : Nat) : Bool := inOwnScratch e t.base t.span

/-! ### Layout rules (Table 5.2, R247) -/

/-- R203: no scale byte is an element byte. -/
def Desc.scalesApart (t : Desc) : Bool :=
  (List.range (ceilDiv t.channels 32)).all (fun b =>
    (List.range t.height).all (fun y =>
      (List.range t.width).all (fun x =>
        let p := t.scaleAddr b y x - t.base
        let r := p % t.planeStride
        !(p / t.planeStride < t.planes && r / t.rowPitch < t.height && r % t.rowPitch < t.rowBytes))))

/-- Table 5.2, for a tensor that a command names by its layout. -/
def Desc.layoutOk (t : Desc) : Bool :=
  if t.comp = 0 then
    t.rowPitch % 64 = 0 && decide (t.rowBytes ≤ t.rowPitch) && t.planeStride % 8 = 0 &&
      decide (t.height * t.rowPitch ≤ t.planeStride) &&
      (if isMx t.fmt then
        t.layout ≠ 1 && t.scaleOffset ≠ 0 && t.scaleOffset % 64 = 0 && t.planeStride ≠ 0 &&
          t.rowPitch ≠ 0 && t.scalesApart
       else t.scaleOffset = 0)
  else
    let bb := if t.comp = 1 then 32 else 16
    t.layout = 0 && t.rowPitch % 64 = 0 && decide (ceilDiv t.width 8 * bb ≤ t.rowPitch) &&
      t.planeStride % 64 = 0 && decide (ceilDiv t.height 8 * t.rowPitch ≤ t.planeStride)

end Sys2Proof.Machine
end

