-- ==== Sys2Proof/Machine/Mapping.lean ====
section
/-! DEFINITION. The mapping of a convolution onto the array (R196 to R227): its parameters, padding, the
three mappings of Table 5.3, what each array row and column carries, and which slots a chunk streams. -/
namespace Sys2Proof.Machine

/-- R88: pairs of Table 3.3. -/
def pairOk (fa fw : Nat) : Bool :=
  match fa with
  | 0 => fw = 0 || fw = 2
  | 1 => fw = 0 || fw = 2
  | 2 => fw = 2
  | 3 => fw = 3 || fw = 4
  | 4 => fw = 3
  | 11 => fw = 11
  | 12 => fw = 12
  | _ => isMx fa && isMx fw

def isFp6or4 (f : Nat) : Bool := f = 7 || f = 8 || f = 9

/-- R136: pairs that run at double rate. -/
def pairDouble (fa fw : Nat) : Bool := (fa = 2 && fw = 2) || (isFp6or4 fa && isFp6or4 fw)

/-- BF16 and FP16 pairs sum in FP32 in fixed order. -/
def pairFp (fa : Nat) : Bool := fa = 11 || fa = 12

/-- R180: r, the steps per vector per slot. -/
def pairSteps (fa : Nat) : Nat := if pairFp fa then 4 else 1

/-- R139: b, the weight bits per PE per slot. -/
def pairBits (fa fw : Nat) : Nat := if pairDouble fa fw then 2 * fmtBits fw else fmtBits fw

/-- Table 4.2: slots per weight set. -/
def slotsPerSet (fa fw : Nat) : Nat := 392 / pairBits fa fw

/-- Table 4.12: the dilation menu. -/
def dilationOf (i : Nat) : Nat := [1, 2, 3, 4, 6, 8, 12, 16, 24, 32, 48, 64].getD i 1

/-- The window parameters of a CONV or POOL (Table 4.12), with the input's extents. -/
structure Win where
  kh : Nat
  kw : Nat
  sv : Nat
  sh : Nat
  dv : Nat
  dh : Nat
  padV : Nat
  padH : Nat
  padT : Nat
  padB : Nat
  padL : Nat
  padR : Nat
  padConst : Nat
  h : Nat
  w : Nat
  orow0 : Nat
  orows : Nat
  deriving DecidableEq, Repr

/-- The window fields of a command with input extents h × w. -/
def winOf (c : List Byte) (h w : Nat) : Win :=
  { kh := field c 20 1 % 16, kw := field c 20 1 / 16,
    sv := 2 ^ (field c 21 1 % 4), sh := 2 ^ (field c 21 1 / 4 % 4),
    dv := dilationOf (field c 23 1 % 16), dh := dilationOf (field c 23 1 / 16),
    padV := field c 22 1 % 4, padH := field c 22 1 / 4 % 4,
    padT := field c 26 1, padB := field c 27 1, padL := field c 28 1, padR := field c 29 1,
    padConst := field c 30 4, h := h, w := w, orow0 := field c 34 2, orows := field c 36 1 }

/-- R197: numerators at least 0. -/
def Win.fits (k : Win) : Bool :=
  decide (k.dv * (k.kh - 1) + 1 ≤ k.h + k.padT + k.padB) &&
    decide (k.dh * (k.kw - 1) + 1 ≤ k.w + k.padL + k.padR)

/-- R197: the output height. -/
def Win.oh (k : Win) : Nat := (k.h + k.padT + k.padB - k.dv * (k.kh - 1) - 1) / k.sv + 1
/-- R197: the output width. -/
def Win.ow (k : Win) : Nat := (k.w + k.padL + k.padR - k.dh * (k.kw - 1) - 1) / k.sh + 1

/-- The halo h of consecutive stripes. -/
def Win.halo (k : Win) : Nat := (k.kh - 1) * k.dv + 1 - k.sv

/-- The first and last window rows of the stripe. -/
def Win.v0 (k : Win) : Int := (k.orow0 * k.sv : Nat) - (k.padT : Int)
def Win.v1 (k : Win) : Int := ((k.orow0 + k.orows - 1) * k.sv + (k.kh - 1) * k.dv : Nat) - (k.padT : Int)

/-- R222: mirror folding. -/
def mirrorIndex (e : Nat) (r : Int) : Nat :=
  if e ≤ 1 then 0
  else
    let p := 2 * (e - 1)
    let r' := (r % (p : Int)).toNat
    if r' < e then r' else p - r'

/-- Table 5.5: an index resolved by mirror or edge-repeat. -/
def resolveIndex (mode e : Nat) (r : Int) : Nat :=
  if 0 ≤ r ∧ r < e then r.toNat
  else if mode = 2 then mirrorIndex e r
  else (min (max r 0) ((e : Int) - 1)).toNat

/-- What a window position reads: an input sample, the padding constant, or nothing. -/
inductive Tap where
  | none
  | const
  /-- `folded` says that the row is one to which padding resolves (R228's second set). -/
  | at (y x : Nat) (folded : Bool)
  deriving DecidableEq, Repr

/-- R221, Table 5.5: a virtual position resolved. -/
def Win.tap (k : Win) (vy vx : Int) : Tap :=
  let outY := !(decide (0 ≤ vy) && decide (vy < k.h))
  let outX := !(decide (0 ≤ vx) && decide (vx < k.w))
  let modes := (if outY then [k.padV] else []) ++ (if outX then [k.padH] else [])
  if modes.contains 0 then .none
  else if modes.contains 1 then .const
  else .at (resolveIndex k.padV k.h vy) (resolveIndex k.padH k.w vx) outY

/-- R196: the virtual row and column of tap (i, j) for output (y, x). -/
def Win.vy (k : Win) (y i : Nat) : Int := (y * k.sv + i * k.dv : Nat) - (k.padT : Int)
def Win.vx (k : Win) (x j : Nat) : Int := (x * k.sh + j * k.dh : Nat) - (k.padL : Int)

/-- The window rows of the stripe that lie in the input (R228, first set). -/
def Win.windowRows (k : Win) : List Nat :=
  (List.range k.h).filter (fun (r : Nat) => decide (k.v0 ≤ r) && decide ((r : Int) ≤ k.v1))

/-- R228: the input rows that the stripe reads, resolved rows included. -/
def Win.inputRows (k : Win) : List Nat :=
  let n := (k.v1 - k.v0 + 1).toNat
  let resolved := if k.padV < 2 then [] else
    (List.range n).filterMap (fun (i : Nat) =>
      let r := k.v0 + i
      if 0 ≤ r ∧ r < k.h then none else some (resolveIndex k.padV k.h r))
  (k.windowRows ++ resolved).eraseDups

/-! ### The mappings -/

/-- The shape of a convolution beside its window. -/
structure ConvShape where
  win : Win
  ci : Nat
  co : Nat
  groups : Nat
  double : Bool
  /-- Slots per weight set (Table 4.2). -/
  perSet : Nat
  deriving DecidableEq, Repr

def ConvShape.cig (s : ConvShape) : Nat := s.ci / s.groups
def ConvShape.cog (s : ConvShape) : Nat := s.co / s.groups
/-- Input channels per slot of a dense tap mapping. -/
def ConvShape.reach (s : ConvShape) : Nat := if s.double then 256 else 128

/-- R211. -/
def ConvShape.q (s : ConvShape) : Nat := max 1 (128 / max s.cig s.cog)

/-- The distinct column offsets of a window of m outputs, ascending. -/
def winOffsets (k : Win) (m : Nat) : List Nat :=
  sortBy (fun a b => a < b)
    (((List.range m).flatMap (fun u => (List.range k.kw).map (fun j => u * k.sh + j * k.dh))).eraseDups)

/-- R217: eligibility. -/
def ConvShape.eligible (s : ConvShape) : Bool :=
  decide (1 < s.groups) && decide (s.cig * s.win.kh * s.win.kw ≤ 128) && decide (s.cog ≤ 128)

/-- R217: whether candidate (g, m, rows) is preferred to the best so far. -/
def diagBetter (a b : Nat × Nat × Nat) : Bool :=
  let (g, m, rows) := a
  let (g', m', rows') := b
  if g * m ≠ g' * m' then decide (g' * m' < g * m)
  else if rows ≠ rows' then decide (rows < rows')
  else decide (g' < g)

/-- R217: the (g, m) chosen, with the rows that it uses. -/
def ConvShape.diag (s : ConvShape) : Option (Nat × Nat × Nat) :=
  let k := s.win
  let cands := (List.range (min 128 k.ow)).flatMap (fun i =>
    let m := i + 1
    let nw := (winOffsets k m).length
    (List.range (min 128 s.groups)).filterMap (fun j =>
      let g := j + 1
      let rows := g * s.cig * k.kh * nw
      if rows ≤ 128 ∧ g * s.cog * m ≤ 128 then some (g, m, rows) else none))
  cands.foldl (fun best c => match best with
    | none => some c
    | some b => if diagBetter c b then some c else some b) none

/-- The mapping of a convolution (Table 5.3, R218). -/
inductive MapKind where
  | dense
  | grouped (q : Nat)
  | diagonal (g m cs : Nat)
  deriving DecidableEq, Repr

def ConvShape.map (s : ConvShape) : MapKind :=
  if s.groups = 1 then .dense
  else
    match (if s.eligible then s.diag else none) with
    | none => .grouped s.q
    | some (g, m, _) =>
      if g * m * s.cig * s.cog * s.win.kh * s.win.kw > s.q * s.cig * s.cog then
        .diagonal g m (min (min (128 / (g * s.cog * m)) s.perSet) (ceilDiv s.groups g))
      else .grouped s.q

/-- R220: NE_MAP_INFO. -/
def MapKind.info : MapKind → Nat
  | .dense => 0
  | .grouped q => 1 + q % 256 * 4
  | .diagonal g m cs => 2 + g % 256 * 4 + m % 256 * 1024 + cs % 64 * 2 ^ 18

/-- R211: a grouped mapping whose groups map as dense mappings of their own. -/
def ConvShape.wide (s : ConvShape) : Bool := decide (128 < max s.cig s.cog)

/-- Table 5.3: the slots of the weight tensor. -/
def ConvShape.slots (s : ConvShape) : Nat :=
  let taps := s.win.kh * s.win.kw
  match s.map with
  | .dense => ceilDiv s.co 128 * taps * ceilDiv s.ci s.reach
  | .grouped q =>
    if s.wide then s.groups * (ceilDiv s.cog 128 * taps * ceilDiv s.cig s.reach)
    else ceilDiv s.groups q * taps
  | .diagonal g _ _ => ceilDiv s.groups g

/-- One column group: its slots, and the vectors that every slot streams. -/
structure ColGroup where
  /-- Global number of the group's first slot. -/
  first : Nat
  count : Nat
  /-- Index of the group among those of its mapping. -/
  index : Nat
  deriving DecidableEq, Repr

/-- Slots of one column group. -/
def ConvShape.groupSlots (s : ConvShape) : Nat :=
  let taps := s.win.kh * s.win.kw
  match s.map with
  | .dense => taps * ceilDiv s.ci s.reach
  | .grouped _ => if s.wide then taps * ceilDiv s.cig s.reach else taps
  | .diagonal _ _ cs => cs

/-- The column groups in order, each with its slots. -/
def ConvShape.colGroups (s : ConvShape) : List ColGroup :=
  let n := s.groupSlots
  (List.range (ceilDiv s.slots n)).map (fun i =>
    { first := i * n, count := min n (s.slots - i * n), index := i })

/-- The vectors of a stripe: the output row and first output column of each (R212, R216). -/
def ConvShape.vectors (s : ConvShape) : List (Nat × Nat) :=
  let rows := (List.range s.win.orows).map (fun i => s.win.orow0 + i)
  match s.map with
  | .diagonal _ m _ =>
    rows.flatMap (fun y => (List.range (ceilDiv s.win.ow m)).map (fun i => (y, i * m)))
  | _ => rows.flatMap (fun y => (List.range s.win.ow).map (fun x => (y, x)))

/-! ### Kept halos (R231, R232) -/

/-- The rows that a CONV reads from IN (R228, R231). -/
def convInRows (s : ConvShape) (fromLine : Bool) : List Nat :=
  let k := s.win
  if fromLine then
    let n := (k.v1 - k.v0 + 1).toNat
    let folded := if k.padV < 2 then [] else
      (List.range n).filterMap (fun (i : Nat) =>
        let r := k.v0 + i
        if 0 ≤ r ∧ r < k.h then none else some (resolveIndex k.padV k.h r))
    (k.windowRows.filter (fun (r : Nat) => decide (k.v0 + k.halo ≤ (r : Int))) ++ folded).eraseDups
  else k.inputRows

/-- Rows of LINEBUF that hold the halo's rows of the input. -/
def convLineRows (s : ConvShape) : List Nat :=
  let k := s.win
  (k.windowRows.filter (fun (r : Nat) => decide ((r : Int) < k.v0 + k.halo))).map
    (fun (r : Nat) => ((r : Int) - k.v0).toNat)

/-- R232: the window rows kept, with their LINEBUF rows. -/
def keptRows (k : Win) : List (Nat × Nat) :=
  (k.windowRows.filter (fun (r : Nat) => decide (k.v1 - k.halo < r))).map
    (fun (r : Nat) => (r, ((r : Int) - (k.v1 - k.halo + 1)).toNat))

/-! ### Rows and columns of the array -/

/-- What a row of the array carries for one vector: nothing, or a channel and its tap. -/
def ConvShape.rowSample (s : ConvShape) (g : ColGroup) (slot k : Nat) (v : Nat × Nat) : Option (Nat × Tap) :=
  let win := s.win
  let local_ := slot - g.first
  let (y, x) := v
  let tapAt (i j : Nat) : Tap := win.tap (win.vy y i) (win.vx x j)
  match s.map with
  | .dense =>
    let n := ceilDiv s.ci s.reach
    let t := local_ / n
    let ch := local_ % n * s.reach + k
    if k < s.reach ∧ ch < s.ci then some (ch, tapAt (t / win.kw) (t % win.kw)) else none
  | .grouped q =>
    if s.wide then
      let n := ceilDiv s.cig s.reach
      let per := ceilDiv s.cog 128
      let gamma := g.index / per
      let t := local_ / n
      let ch := local_ % n * s.reach + k
      if k < s.reach ∧ ch < s.cig then some (gamma * s.cig + ch, tapAt (t / win.kw) (t % win.kw)) else none
    else
      let gamma := g.index * q + k / s.cig
      if k < q * s.cig ∧ gamma < s.groups then
        some (gamma * s.cig + k % s.cig, tapAt (local_ / win.kw) (local_ % win.kw))
      else none
  | .diagonal gg m _ =>
    let offs := winOffsets win m
    let nw := offs.length
    let w := k % nw
    let a := k / nw % win.kh
    let gi := k / (nw * win.kh)
    let gamma := slot * gg + gi / s.cig
    if k < gg * s.cig * win.kh * nw ∧ gamma < s.groups then
      some (gamma * s.cig + gi % s.cig,
        win.tap (win.vy y a) ((x * win.sh + offs.getD w 0 : Nat) - (win.padL : Int)))
    else none

/-- The output (channel, column) that column n of a group gives for a vector, if any. -/
def ConvShape.colOutput (s : ConvShape) (g : ColGroup) (n : Nat) (v : Nat × Nat) : Option (Nat × Nat) :=
  match s.map with
  | .dense =>
    let c := g.index * 128 + n
    if c < s.co then some (c, v.2) else none
  | .grouped q =>
    if s.wide then
      let per := ceilDiv s.cog 128
      let c := g.index % per * 128 + n
      if c < s.cog then some (g.index / per * s.cog + c, v.2) else none
    else
      let gamma := g.index * q + n / s.cog
      if n < q * s.cog ∧ gamma < s.groups then some (gamma * s.cog + n % s.cog, v.2) else none
  | .diagonal gg m _ =>
    let width := gg * s.cog * m
    let z := n / width
    let r := n % width
    let u := r % m
    let gi := r / m
    let gamma := (g.first + z) * gg + gi / s.cog
    if z < g.count ∧ gamma < s.groups ∧ v.2 + u < s.win.ow then
      some (gamma * s.cog + gi % s.cog, v.2 + u)
    else none

/-- The group, column and vector that give output element (c, y, x). -/
def ConvShape.colOf (s : ConvShape) (c y x : Nat) : Nat × Nat × (Nat × Nat) :=
  let gamma := c / s.cog
  match s.map with
  | .dense => (c / 128, c % 128, (y, x))
  | .grouped q =>
    if s.wide then (gamma * ceilDiv s.cog 128 + c % s.cog / 128, c % s.cog % 128, (y, x))
    else (gamma / q, gamma % q * s.cog + c % s.cog, (y, x))
  | .diagonal gg m cs =>
    let slot := gamma / gg
    (slot / cs, slot % cs * (gg * s.cog * m) + (gamma % gg * s.cog + c % s.cog) * m + x % m, (y, x - x % m))

/-- Rows of a slot: 128, or 256 at double rate. -/
def ConvShape.depth (s : ConvShape) : Nat := s.reach

/-- R225: every row of the slot that carries a channel carries a zero-mode padding sample, for every vector
of the chunk. -/
def ConvShape.skipped (s : ConvShape) (g : ColGroup) (slot : Nat) (chunk : List (Nat × Nat)) : Bool :=
  chunk.all (fun v => (List.range s.depth).all (fun k =>
    match s.rowSample g slot k v with
    | none => true
    | some (_, .none) => true
    | some _ => false))

/-! ### Steps (R141, R148, R180, R181, Table 4.15) -/

/-- D: the drain steps of one half. -/
def drainSteps (outBits : Nat) : Nat := max 64 (ceilDiv (128 * 128 * outBits / 8) 640)

/-- Digits in base 2¹⁵ that hold a magnitude, never fewer than 1. -/
def digitsOf (v : Nat) : Nat := max 1 (ceilDiv (bitLen v) 15)

/-- R181: the taps whose digit vectors a pass streams: in slot order, while their total stays at most 12. -/
def digitTaps : (left : Nat) → List Nat → Nat
  | _, [] => 0
  | left, d :: ds => if d ≤ left then 1 + digitTaps (left - d) ds else 0

/-- R181: the digit vectors that a pass streams, and the taps that they cover; the row check of the others is uncovered. -/
def digitPlan (digits : List Nat) : Nat × Nat :=
  let taps := digitTaps 12 digits
  ((digits.take taps).sum, taps)

/-- Significant bits of a number: those from its top set bit to its lowest set bit. -/
def significantBits (v : Nat) : Nat :=
  if v = 0 then 0 else bitLen (v / 2 ^ ((List.range (bitLen v)).find? (fun i => bit v i)).getD 0)

end Sys2Proof.Machine
end

