-- ==== Sys2Proof/Machine/Lists.lean ====
section
/-! DEFINITION. Command lists: header, commands and descriptors (Tables 4.7 to 4.12), rebinding (R262) and
the launch checks in the order of Table 4.13 with those of R263 after them. -/
namespace Sys2Proof.Machine

/-- Opcodes of Table 4.11. -/
def opCONV : Nat := 1
def opMATMUL : Nat := 2
def opATTN : Nat := 3
def opPOOL : Nat := 4
def opCROPRESIZE : Nat := 5
def opRASTER : Nat := 6
def opVEC : Nat := 7
def opCOPY : Nat := 8
def opWAIT : Nat := 9
def opSIGNAL : Nat := 10
def opSEM : Nat := 11
def opREPROJECT : Nat := 12

/-- Header fields of a command (Table 4.10). -/
def cmdOp (c : List Byte) : Nat := field c 0 1
def cmdFgStart (c : List Byte) : Bool := bit (field c 1 1) 0
def cmdFgEnd (c : List Byte) : Bool := bit (field c 1 1) 1
def cmdSr (c : List Byte) : Bool := bit (field c 1 1) 2
def cmdSatBit (c : List Byte) : Bool := bit (field c 1 1) 3
def cmdSatDef (c : List Byte) : Bool := bit (field c 1 1) 4
def cmdShift (c : List Byte) : Int := sfield c 4 1
def cmdXlo (c : List Byte) : Int := sfield c 5 1
def cmdOutFmt (c : List Byte) : Nat := field c 6 1 % 16
def cmdSeed (c : List Byte) : Nat := field c 8 8

/-- The saturation in force for a destination format (R104). -/
def cmdSat (c : List Byte) (fmt : Nat) : Bool := if cmdSatDef c then satDefault fmt else cmdSatBit c

/-- What a launch check needs to know beside the list's bytes. -/
structure LaunchEnv where
  engine : Nat
  /-- The context is a tuning context. -/
  tuning : Bool
  compositor : Bool
  bind : Option Bind
  /-- Streams the launch is bound to. -/
  streams : List Nat
  /-- Stream that the itinerary entry names, and its raster record of the context's kind. -/
  raster : Option RasterRec
  row0 : Nat
  rows : Nat
  /-- Chip count (R541). -/
  chips : Nat
  deriving DecidableEq, Repr

/-- A failed launch check as NE_DECODE_INFO records it (R171): opcode, byte offset, index. -/
abbrev Failure := Nat × Nat × Nat

/-- The lowest offset among failing fields. -/
def lowestFail (l : List (Nat × Bool)) : Option Nat :=
  (l.filter (fun x => x.2)).foldl (fun best x => match best with
    | none => some x.1
    | some b => some (min b x.1)) none

/-- Reserved bits of a payload, as (offset, mask) pairs for the partly used bytes. -/
def reservedMasks (op : Nat) : List (Nat × Nat) :=
  match op with
  | 1 => [(21, 0xF0), (22, 0xF0), (37, 0xFE)]
  | 2 => [(20, 0xFE)]
  | 4 => [(21, 0xF0), (22, 0xF0)]
  | 6 => [(29, 0xFE)]
  | 8 => [(18, 0xFC)]
  | _ => []

/-- Payload bytes that an opcode does not use. -/
def reservedBytes (op : Nat) : List Nat :=
  let from_ (n : Nat) : List Nat := (List.range (64 - n)).map (· + n)
  match op with
  | 1 => from_ 39
  | 2 => [21, 22, 23] ++ from_ 36
  | 3 => from_ 38
  | 4 => [19, 24, 25] ++ from_ 37
  | 5 => [19] ++ from_ 30
  | 6 => [30, 31] ++ from_ 36
  | 7 => [22, 23] ++ from_ 32
  | 8 => [19] ++ from_ 32
  | 9 => from_ 24
  | 10 => from_ 19
  | 11 => from_ 18
  | 12 => from_ 19
  | _ => []

/-- Descriptor fields of an opcode: offset, and whether 0xFF means none there (R167). -/
def descFields (c : List Byte) : List (Nat × Bool) :=
  match cmdOp c with
  | 1 => [(16, false), (17, false), (18, false), (19, true), (38, true)]
  | 2 => [(16, false), (17, false), (18, false), (19, true)]
  | 3 => [(16, false), (17, false), (18, false), (19, false), (20, true)]
  | 4 => [(16, false), (17, false)]
  | 5 => [(16, false), (17, false), (18, false)]
  | 6 => [(24, false), (25, false), (26, false), (27, false), (28, false)]
  | 7 =>
    let v := field c 16 1
    let binary := (1 ≤ v ∧ v ≤ 6 : Bool)
    [(17, false), (18, !binary), (19, v ≠ 4), (20, false)]
  | 8 => [(16, false), (17, false)]
  | 12 => [(16, false), (17, false), (18, false)]
  | _ => []

/-- The descriptor that a field names; `Desc.zero` for none. -/
def descAt (descs : List Desc) (c : List Byte) (o : Nat) : Desc := descs.getD (field c o 1) Desc.zero

def isNone (c : List Byte) (o : Nat) : Bool := field c o 1 = 0xFF

/-- Table 4.4: the codes that VEC names. -/
def vopOk (v : Nat) : Bool :=
  decide (1 ≤ v ∧ v ≤ 8) || decide (0x10 ≤ v ∧ v ≤ 0x15) || decide (0x18 ≤ v ∧ v ≤ 0x1C) || v = 0x20 || v = 0x21

/-- Table 4.4: steps per 256 elements. -/
def vopCost (v : Nat) : Nat :=
  match v with
  | 0x10 => 2 | 0x11 => 3 | 0x12 => 2 | 0x13 => 2 | 0x14 => 5 | 0x15 => 5 | 0x1B => 6 | 0x1C => 6
  | 0x21 => 2 | _ => 1

def isReduction (v : Nat) : Bool := v = 0x18 || v = 0x19 || v = 0x1A

/-- Sources that a VOP reads. -/
def vopArity (v : Nat) : Nat := if v = 4 then 3 else if 1 ≤ v ∧ v ≤ 6 then 2 else 1

/-- The convolution that a CONV names (R196, R210). -/
def convShape (c : List Byte) (tin tout wgt : Desc) : ConvShape :=
  { win := winOf c tin.height tin.width, ci := tin.channels, co := tout.channels, groups := field c 24 2,
    double := pairDouble tin.fmt wgt.fmt, perSet := slotsPerSet tin.fmt wgt.fmt }

/-- R738: the region's extent in one dimension. -/
def copyExtent (ext origin size : Nat) : Nat := if ext = 0 then size - origin else ext

/-- The rows of `t` named by a list all lie in the engine's scratch. -/
def rowsInScratch (e : Nat) (t : Desc) (rows : List Nat) : Bool :=
  (t.rowSpans false rows ++ t.scaleSpans false rows).all (fun s => inOwnScratch e s.addr s.len)

/-- R240 and Table 5.1 call the box list of 16-byte entries. -/
def boxBytes (n : Nat) : Nat := 16 * n

/-- Range checks of a command's own code fields (order 4). DESIGN CHOICE (log 23): AXIS has its range in every VEC, also in
one that does not use it. -/
def codeFails (c : List Byte) : List (Nat × Bool) :=
  let f := field c
  let inR (o n lo hi : Nat) : Nat × Bool := (o, !decide (lo ≤ f o n ∧ f o n ≤ hi))
  let window : List (Nat × Bool) :=
    [(20, f 20 1 % 16 = 0 || f 20 1 / 16 = 0), (21, f 21 1 % 4 = 3 || f 21 1 / 4 % 4 = 3),
     (23, decide (11 < f 23 1 % 16) || decide (11 < f 23 1 / 16)), inR 36 1 1 64]
  match cmdOp c with
  | 1 => window
  | 2 => [inR 24 4 1 16777216, inR 28 4 1 16777216, inR 32 4 1 16777216]
  | 3 => [inR 21 1 1 8, (22, !(decide (1 ≤ f 22 2 ∧ f 22 2 ≤ 256)) || decide (256 < f 21 1 * f 22 2)),
          inR 24 4 1 67108864, inR 28 4 1 32768, inR 36 1 0 7, inR 37 1 1 8]
  | 4 => inR 18 1 0 2 :: window
  | 5 => [inR 20 2 1 4096, inR 22 2 1 256, inR 24 2 1 256]
  | 6 => [inR 20 2 1 256, inR 22 2 1 256]
  | 7 => [(16, !vopOk (f 16 1)), inR 21 1 0 2]
  | 9 => [inR 16 2 0 1023]
  | 10 => [inR 16 2 0 1023, inR 18 1 1 255]
  | 11 => [inR 17 1 0 1]
  | _ => []

/-- Range checks of a descriptor (order 4). DESIGN CHOICE (log 23): SCALE_OFFSET, 0 in a format without scales, is held to
that where Table 5.2 is (R204), and is ignored in a CONV's WGT and BIAS and in BOXES. -/
def descFails (t : Desc) : List (Nat × Bool) :=
  [(0, t.base % 64 ≠ 0), (8, t.fmt = 15 || decide (2 < t.layout)), (9, t.comp = 3),
   (10, !decide (1 ≤ t.channels ∧ t.channels ≤ 16384)), (12, !decide (1 ≤ t.width ∧ t.width ≤ 8192)),
   (14, !decide (1 ≤ t.height ∧ t.height ≤ 8192))]

/-- A source's extents against the destination's (R151). -/
def extentsOk (dst src : Desc) : Bool :=
  (src.width = dst.width || src.width = 1) && (src.height = dst.height || src.height = 1) &&
    (src.channels = dst.channels || src.channels = 1)

/-- R151: the DST shape of a reduction along an axis. -/
def reductionShape (axis : Nat) (dst src : Desc) : Bool :=
  dst.width = (if axis = 0 then 1 else src.width) && dst.height = (if axis = 1 then 1 else src.height) &&
    dst.channels = (if axis = 2 then 1 else src.channels)

def sameShape (a b : Desc) : Bool := a.width = b.width && a.height = b.height && a.channels = b.channels

/-- Table 6.4: the formats of an ATTN. -/
def attnFormats (q k v : Nat) : Bool :=
  ((k = 11 && q = 11) || (k = 3 && (q = 3 || q = 4)) || (k = 4 && q = 3)) && (v = 11 || v = 3 || v = 4)

/-- Shape checks of one command against its operands (order 4): Tables 5.1 and 5.2, R151, R246, R255, R271,
R274, R277, R330, R541, R731, R732, R737, R738. Each is (offset of the descriptor field, failing). A check
that needs a window, an axis or an operation is made where the command's own code fields pass (`codes`). -/
def shapeFails (codes : Bool) (env : LaunchEnv) (footprint : Nat) (descs : List Desc) (c : List Byte) : List (Nat × Bool) :=
  let f := field c
  let t := descAt descs c
  let e := env.engine
  let comp0 (os : List Nat) : List (Nat × Bool) := os.map (fun o => (o, decide ((t o).comp ≠ 0)))
  let lay (o : Nat) : Nat × Bool := (o, !(t o).layoutOk)
  match cmdOp c with
  | 1 =>
    let s := convShape c (t 16) (t 17) (t 18)
    let g := f 24 2
    let divides := g ≠ 0 && s.ci % g = 0 && s.co % g = 0
    let fits := codes && s.win.fits
    let ok := divides && fits
    comp0 [16, 17] ++
    [(24, !decide divides), (20, codes && !s.win.fits),
     (17, fits && ((t 17).height ≠ s.win.oh || (t 17).width ≠ s.win.ow)),
     (18, (t 18).layout ≠ 0 || (t 18).comp ≠ 0 || (t 18).width ≠ 128 || (t 18).height ≠ 128 ||
       (ok && (t 18).channels ≠ s.slots)),
     (19, !isNone c 19 && ((t 19).fmt ≠ 13 || (t 19).channels ≠ s.co)),
     (34, fits && decide (s.win.oh < s.win.orow0 + s.win.orows)),
     (17, isMx (t 17).fmt), lay 16, lay 17, (38, !isNone c 38 && !(t 38).layoutOk)] ++
    (if ok then
      [(16, !rowsInScratch e (t 16)
         (convInRows s (bit (f 37 1) 0 && decide (0 < s.win.halo) && decide (0 < s.win.orow0)))),
       (17, !rowsInScratch e (t 17) ((List.range s.win.orows).map (fun i => s.win.orow0 + i))),
       (38, bit (f 37 1) 0 && decide (0 < s.win.halo) &&
         (isNone c 38 || !(t 38).inScratch e || (t 38).fmt ≠ (t 16).fmt || (t 38).layout ≠ (t 16).layout ||
           (t 38).channels ≠ s.ci || (t 38).width ≠ s.win.w || decide ((t 38).height < s.win.halo) ||
           (t 38).comp ≠ 0))]
     else [])
  | 2 =>
    let m := f 24 4
    let k := f 28 4
    let n := f 32 4
    let tr := bit (f 20 1) 0
    let px (x : Desc) : Nat := x.width * x.height
    let used (x : Desc) : Bool := !codes || (x.pixelSpans false (min m (px x))).all (fun s => inOwnScratch e s.addr s.len)
    lay 16 :: lay 17 :: lay 18 ::
    [(16, (t 16).channels ≠ k || decide (px (t 16) < m) || (t 16).comp ≠ 0 || !used (t 16)),
     (18, (t 18).channels ≠ n || decide (px (t 18) < m) || (t 18).comp ≠ 0 || !used (t 18)),
     (17, (t 17).comp ≠ 0 || (if tr then (t 17).channels ≠ k || decide (px (t 17) < n)
       else (t 17).channels ≠ n || decide (px (t 17) < k))),
     (19, !isNone c 19 && ((t 19).fmt ≠ 13 || (t 19).channels ≠ n || (t 19).comp ≠ 0 || !(t 19).layoutOk))]
  | 3 =>
    let hd := f 21 1 * f 22 2
    let nq := f 24 4
    let nk := f 28 4
    let len := f 37 1
    let kv (o : Nat) : Nat × Bool :=
      (o, decide ((t o).channels < hd) || (t o).height ≠ len || (t o).width * len ≠ nk || (t o).comp ≠ 0)
    let qo (o : Nat) : Nat × Bool :=
      (o, (t o).channels ≠ hd || (t o).width * (t o).height ≠ nq || (t o).comp ≠ 0 || !(t o).inScratch e)
    lay 16 :: lay 17 :: lay 18 :: lay 19 ::
    [qo 16, kv 17, kv 18, qo 19, (19, (t 19).fmt ≠ cmdOutFmt c),
     (20, !isNone c 20 && ((t 20).fmt ≠ 1 || (t 20).layout ≠ 0 || (t 20).height ≠ nq ||
       (t 20).width ≠ ceilDiv nk 8 || ((t 20).channels ≠ 1 && (t 20).channels ≠ f 21 1) || (t 20).comp ≠ 0 || !(t 20).layoutOk)),
     (28, decide (tileBytes * footprint < 512 * nk))]
  | 4 =>
    let win := winOf c (t 16).height (t 16).width
    let fits := codes && win.fits
    comp0 [16, 17] ++
    [(20, codes && !win.fits), (17, fits && ((t 17).height ≠ win.oh || (t 17).width ≠ win.ow)),
     (17, (t 17).channels ≠ (t 16).channels || isMx (t 17).fmt),
     (34, fits && decide (win.oh < win.orow0 + win.orows)), lay 16, lay 17] ++
    (if fits then
      [(16, !rowsInScratch e (t 16) win.inputRows),
       (17, !rowsInScratch e (t 17) ((List.range win.orows).map (fun i => win.orow0 + i)))]
     else [])
  | 5 =>
    let n := f 20 2
    comp0 [16, 17] ++
    [(16, isMx (t 16).fmt || !(t 16).inScratch e), (17, isMx (t 17).fmt || !(t 17).inScratch e),
     (17, (t 17).channels ≠ n * (t 16).channels || (t 17).width ≠ f 22 2 || (t 17).height ≠ f 24 2),
     (18, (t 18).fmt ≠ 14 || decide ((t 18).height < n) || !inOwnScratch e (t 18).base (boxBytes n)),
     lay 16, lay 17]
  | 6 =>
    match env.raster with
    | none => [(24, true)]
    | some r =>
      let plane (o fmt : Nat) : Nat × Bool :=
        (o, (t o).fmt ≠ fmt || (t o).layout ≠ 0 || (t o).comp ≠ 0 || (t o).channels ≠ 1 ||
          (t o).width ≠ r.width || (t o).height ≠ r.height || !(t o).layoutOk || !(t o).inScratch e)
      [(16, decide (ceilDiv r.width 32 < f 16 2 + f 20 2)), (18, decide (ceilDiv r.height 32 < f 18 2 + f 22 2)),
       plane 24 13, plane 25 14, plane 26 1, plane 27 14, plane 28 14,
       (29, bit (f 29 1) 0 ≠ decide (0 < r.fMax))]
  | 7 =>
    let v := f 16 1
    let axis := f 21 1
    let srcs := (List.range (vopArity v)).map (· + 17)
    (20 :: srcs).map lay ++
    [(20, if v = 0x21 then !isMx (t 20).fmt else isMx (t 20).fmt)] ++
    (if isReduction v then [(20, codes && !reductionShape axis (t 20) (t 17))]
     else if v = 0x1B ∨ v = 0x1C then [(20, !sameShape (t 20) (t 17))]
     else srcs.map (fun o => (o, !extentsOk (t 20) (t o))))
  | 8 =>
    let w := copyExtent (f 26 2) (f 20 2) (t 16).width
    let h := copyExtent (f 28 2) (f 22 2) (t 16).height
    let cc := copyExtent (f 30 2) (f 24 2) (t 16).channels
    let frOk (o : Nat) : Bool := (t o).comp = 0 || (t o).fmt = 0 || (t o).fmt = 1
    let k := field c 18 1 % 4
    [lay 16, lay 17, (16, !frOk 16), (17, !frOk 17), (18, k ≠ 0 && decide (env.chips ≤ k)),
     (17, isMx (t 17).fmt && (t 16).fmt ≠ (t 17).fmt),
     (20, decide ((t 16).width < f 20 2 + w) || w = 0), (22, decide ((t 16).height < f 22 2 + h) || h = 0),
     (24, decide ((t 16).channels < f 24 2 + cc) || cc = 0),
     (26, decide ((t 17).width < w)), (28, decide ((t 17).height < h)), (30, decide ((t 17).channels < cc)),
     (26, (t 17).comp ≠ 0 && w % 8 ≠ 0 && w ≠ (t 17).width),
     (28, (t 17).comp ≠ 0 && h % 8 ≠ 0 && h ≠ (t 17).height)]
  | 12 =>
    let l := t 16
    let mo := t 17
    let o := t 18
    [lay 16, lay 17, lay 18, (16, env.streams.isEmpty), (16, !(l.fmt = 11 || l.fmt = 12 || l.fmt = 13) || l.layout ≠ 0 || l.comp ≠ 0),
     (18, o.fmt ≠ l.fmt || !sameShape o l || o.layout ≠ 0 || o.comp ≠ 0 ||
       !(o.inScratch e || inWellOrDram o.base)),
     (17, mo.fmt ≠ 14 || mo.channels ≠ 1 || mo.width ≠ ceilDiv l.width 4 || mo.height ≠ ceilDiv l.height 4 ||
       mo.comp ≠ 0),
     (16, env.rows = 0 || decide (l.height < env.row0 + env.rows))]
  | _ => []

/-- R101: drain output formats. -/
def drainFmtOk (f : Nat) : Bool := f = 0 || f = 1 || f = 2 || f = 3 || f = 4 || f = 11 || f = 12 || f = 13 || f = 14

/-- Order 6: operand pairs (R89, R273) and OUT_FMT (R101). -/
def pairFails (descs : List Desc) (c : List Byte) : List (Nat × Bool) :=
  let t := descAt descs c
  match cmdOp c with
  | 1 => [(6, !drainFmtOk (cmdOutFmt c)), (16, !pairOk (t 16).fmt (t 18).fmt)]
  | 2 => [(6, !drainFmtOk (cmdOutFmt c)), (16, !pairOk (t 16).fmt (t 17).fmt)]
  | 3 => [(6, !drainFmtOk (cmdOutFmt c)), (16, !attnFormats (t 16).fmt (t 17).fmt (t 18).fmt)]
  | _ => []

/-- The first failing command of one order, at its lowest offset. -/
def firstCmd (cmds : List (List Byte)) (fails : Nat → List Byte → List (Nat × Bool)) : Option Failure :=
  (List.range cmds.length).findSome? (fun i =>
    let c := cmds.getD i []
    (lowestFail (fails i c)).map (fun o => (cmdOp c, o, i)))

/-- The first failing descriptor of one order. -/
def firstDesc (n : Nat) (fails : Nat → List (Nat × Bool)) : Option Failure :=
  (List.range n).findSome? (fun i => (lowestFail (fails i)).map (fun o => (0, o, 0x8000 + i)))

def firstHdr (l : List (Nat × Bool)) : Option Failure := (lowestFail l).map (fun o => (0, o, 0xFFFF))

/-- Fused groups: the index of the first command that breaks the pairing, or a group beyond 4,096. -/
def fgScan : (i : Nat) → (openLen : Option Nat) → List (List Byte) → Option Nat
  | i, op, [] => if op.isSome then some (i - 1) else none
  | i, op, c :: cs =>
    match op with
    | none =>
      if cmdFgStart c then
        if cmdFgEnd c then fgScan (i + 1) none cs else fgScan (i + 1) (some 1) cs
      else if cmdFgEnd c then some i
      else fgScan (i + 1) none cs
    | some n =>
      if cmdFgStart c ∨ 4096 ≤ n then some i
      else if cmdFgEnd c then fgScan (i + 1) none cs
      else fgScan (i + 1) (some (n + 1)) cs

/-- Order 1 of Table 4.13. -/
def headerFails (hdr : List Byte) : Option Failure :=
  let f := field hdr
  firstHdr [(0, f 0 2 ≠ 1), (2, !decide (1 ≤ f 2 2 ∧ f 2 2 ≤ 32768)), (4, decide (256 < f 4 2)),
    (8, f 8 6 % 32 ≠ 0), (16, !decide (1 ≤ f 16 2 ∧ f 16 2 ≤ 1536))]

/-- Orders 2 to 8 of Table 4.13: the first failure. DESIGN CHOICE (log 23): a SEED that is not 0 while RMODE is 0
(Table 4.10) and an unused VEC source that is not 0xFF (Table 4.12) fail no check and are ignored. -/
def listFails (env : LaunchEnv) (hdr : List Byte) (cmds : List (List Byte)) (rawDescs : List (List Byte))
    (descs : List Desc) : Option Failure :=
  let hf := field hdr
  let nd := descs.length
  let order2 :=
    (firstHdr ((6, decide (hf 6 2 ≠ 0)) :: (14, decide (hf 14 2 ≠ 0)) :: (18, decide (hf 18 2 / 2 ≠ 0)) ::
      [(20, decide (hf 20 44 ≠ 0))])).or <|
    (firstCmd cmds (fun _ c =>
      ([(1, field c 1 1 / 32 ≠ 0), (6, field c 6 1 / 16 ≠ 0), (7, field c 7 1 ≠ 0)] : List (Nat × Bool)) ++
      (if 1 ≤ cmdOp c ∧ cmdOp c ≤ 12 then
        (reservedBytes (cmdOp c)).map (fun o => (o, decide (field c o 1 ≠ 0))) ++
        (reservedMasks (cmdOp c)).map (fun m => (m.1, decide (field c m.1 1 &&& m.2 ≠ 0)))
       else []))).or <|
    firstDesc rawDescs.length (fun i =>
      let b := rawDescs.getD i []
      [(8, bit (field b 8 1) 7), (9, field b 9 1 / 4 ≠ 0), (28, field b 28 4 ≠ 0)])
  let order3 := firstCmd cmds (fun i c => [(2, field c 2 2 ≠ i)])
  let order4 :=
    (firstCmd cmds (fun _ c =>
      if cmdOp c = 0 ∨ 12 < cmdOp c then [(0, true)]
      else
        -- R330's checks that need no descriptor are made though a plane's index fails at order 5
        let absent := ((descFields c).filter (fun d => !(decide (field c d.1 1 < nd) || (d.2 && isNone c d.1)))).map (·.1)
        [(6, decide (cmdOutFmt c = 15))] ++ codeFails c ++
          (if absent.isEmpty ∨ cmdOp c = opRASTER then
            (shapeFails (lowestFail (codeFails c)).isNone env (field hdr 16 2) descs c).filter (fun p => !absent.contains p.1)
           else []) ++
          (if cmdOp c = 8 then [] else
            (descFields c).map (fun d =>
              (d.1, !(d.2 && isNone c d.1) && ((descAt descs c d.1).comp = 1 || (descAt descs c d.1).comp = 2)))))).or <|
    firstDesc descs.length (fun i => descFails (descs.getD i Desc.zero))
  let order5 := firstCmd cmds (fun _ c =>
    (descFields c).map (fun d => (d.1, !decide (field c d.1 1 < nd) && !(d.2 && isNone c d.1))))
  let order6 := firstCmd cmds (fun _ c => pairFails descs c)
  let order7 := firstCmd cmds (fun _ c => [(1, cmdSr c && !(bit (hf 18 2) 0 && env.tuning))])
  let order8 := (fgScan 0 none cmds).map (fun i => (cmdOp (cmds.getD i []), 1, i))
  order2.or <| order3.or <| order4.or <| order5.or <| order6.or <| order7.or order8

/-! ### Rebinding (R262, R263, Table 6.3) -/

/-- The tensor numbers of an SSB with what a descriptor that carries one becomes, per bind kind. -/
structure BindRow where
  id : Nat
  /-- New BASE from the descriptor's ROW_PITCH; `none` leaves it. -/
  base : Option (Nat × Nat)
  allowed : List Bind

/-- Offsets of the four buffer pairs in the SSB, with the selector bit and the kinds that may write. -/
def pairRows (ssb : List Byte) (flags : Nat) : List BindRow :=
  let row (o sel : Nat) (writers : List Bind) : List BindRow :=
    let b0 := field ssb (o + 8) 6
    let b1 := field ssb (o + 16) 6
    let act := if bit flags sel then b1 else b0
    let inact := if bit flags sel then b0 else b1
    [{ id := field ssb o 2, base := some (act, 0), allowed := [.encode, .stripe, .endOfFrame] },
     { id := field ssb (o + 2) 2, base := some (inact, 0), allowed := writers }]
  row 64 flagActive [.endOfFrame] ++ row 96 flagAf [.encode] ++ row 128 flagLo [.stripe] ++
    row 160 flagLo [.endOfFrame]

/-- Table 6.3 for one stream's block, with the destination row and the anchor's plane address. -/
def bindRows (ssb : List Byte) (dest : Nat) (anchorPlane : Nat) : List BindRow :=
  let flags := field ssb 10 1
  pairRows ssb flags ++
  [{ id := field ssb 48 2, base := some (field ssb 36 6, dest), allowed := [.encode, .endOfFrame] },
   { id := field ssb 50 2, base := some (field ssb 42 6, dest), allowed := [.encode, .endOfFrame] },
   { id := field ssb 52 2, base := some (anchorPlane, 0), allowed := [.encode] },
   { id := field ssb 32 2, base := none, allowed := [.encode, .stripe, .endOfFrame] },
   { id := field ssb 34 2, base := none, allowed := [.encode, .stripe, .endOfFrame] }]

/-- R262: the BASE of a descriptor rebound. -/
def rebind (rows : List BindRow) (t : Desc) : Desc :=
  match rows.find? (fun r => r.id = t.tensorId) with
  | some r =>
    match r.base with
    | some (b, dest) => { t with base := b + dest * t.rowPitch }
    | none => t
  | none => t

/-- A staging descriptor has HEIGHT 1 and matches the ring descriptor of the same list (R263). -/
def stagingOk (descs : List Desc) (ringId : Nat) (t : Desc) : Bool :=
  t.height = 1 && (match descs.find? (fun r => r.tensorId = ringId) with
    | some r => r.fmt = t.fmt && r.layout = t.layout && r.channels = t.channels && r.width = t.width &&
        r.rowPitch = t.rowPitch && r.planeStride = t.planeStride
    | none => false)

/-- R263: the first failure of a bound list. -/
def bindFails (bind : Bind) (ssb : List Byte) (cmds : List (List Byte)) (descs : List Desc) : Option Failure :=
  let kId := field ssb 32 2
  let vId := field ssb 34 2
  let ksId := field ssb 48 2
  let vsId := field ssb 50 2
  let w := field ssb 4 1
  let t := field ssb 8 2
  let rows := bindRows ssb 0 0
  (firstCmd cmds (fun _ c =>
    if cmdOp c = 3 ∧ (descAt descs c 17).tensorId = kId then
      [(37, field c 37 1 ≠ w), (28, field c 28 4 ≠ w * t), (18, (descAt descs c 18).tensorId ≠ vId)]
    else [])).or <|
  firstDesc descs.length (fun i =>
    let x := descs.getD i Desc.zero
    [(6, (x.tensorId = ksId && !stagingOk descs kId x) || (x.tensorId = vsId && !stagingOk descs vId x)),
     (6, match rows.find? (fun r => r.id = x.tensorId) with
       | some r => !r.allowed.contains bind
       | none => false)])

/-- A list that contains a RASTER_TILE (R332). -/
def hasRaster (cmds : List (List Byte)) : Bool := cmds.any (fun c => cmdOp c = opRASTER)

/-- R172, R264, R421: the steps of the launch validation. -/
def validationSteps (ncmd ndesc : Nat) (bound : Bool) (srCmds : Nat) : Nat :=
  32 + 2 * ncmd + ndesc + (if bound then 8 else 0) + 2 * srCmds

end Sys2Proof.Machine
end

