-- ==== Sys2Proof/Machine/Hash.lean ====
section
/-! DEFINITION. SHAKE256 as FIPS 202 gives it, which the digests of chapters 9, 11 and 15 name, and the CRC-32 of
records and frames. -/
namespace Sys2Proof.Machine

/-- The places of the rho step in the order that FIPS 202 (3.2.2) walks them: from (1, 0), (x, y) to (y, 2x + 3y). -/
def rhoWalk : (steps : Nat) → (x y : Nat) → List (Nat × Nat)
  | 0, _, _ => []
  | n + 1, x, y => (x, y) :: rhoWalk n y ((2 * x + 3 * y) % 5)

/-- The rotation of the lane at (x, y): step t of the walk turns its lane by (t + 1)(t + 2) / 2, and (0, 0) is not met. -/
def rhoTurn (x y : Nat) : Nat :=
  let t := (rhoWalk 24 1 0).idxOf (x, y)
  if t = 24 then 0 else (t + 1) * (t + 2) / 2 % 64

/-- One step of the shift register of FIPS 202 (3.2.5), x^8 + x^6 + x^5 + x^4 + 1, bit 0 its output. -/
def rcStep (r : BitVec 8) : BitVec 8 := (r <<< (1 : Nat)) ^^^ (if r.getLsbD 7 then 0x71 else 0)

/-- Its first `n` outputs from state `r`. -/
def rcBits : (n : Nat) → BitVec 8 → List Bool
  | 0, _ => []
  | n + 1, r => r.getLsbD 0 :: rcBits n (rcStep r)

/-- The constant of the iota step of a round: output j + 7 × round stands at bit 2^j − 1. -/
def iotaConst (round : Nat) : BitVec 64 :=
  let bits := (rcBits 168 1).drop (7 * round)
  (List.range 7).foldl (fun w j => if bits.getD j false then w ||| BitVec.ofNat 64 (2 ^ (2 ^ j - 1)) else w) 0

/-- The 24 constants, each formed once. -/
def iotaConsts : List (BitVec 64) := (List.range 24).map iotaConst

/-- The 25 turns at x + 5y, each formed once. -/
def rhoTurns : List Nat := (List.range 25).map (fun i => rhoTurn (i % 5) (i / 5))

abbrev Lanes25 := List (BitVec 64)

def lane (a : Lanes25) (x y : Nat) : BitVec 64 := a.getD (x % 5 + 5 * (y % 5)) 0

def lanesBy (f : Nat → Nat → BitVec 64) : Lanes25 := (List.range 25).map (fun i => f (i % 5) (i / 5))

/-- One round of Keccak-f[1600]. -/
def keccakRound (a : Lanes25) (rc : BitVec 64) : Lanes25 :=
  let c := (List.range 5).map (fun x => lane a x 0 ^^^ lane a x 1 ^^^ lane a x 2 ^^^ lane a x 3 ^^^ lane a x 4)
  let d := (List.range 5).map (fun x => c.getD ((x + 4) % 5) 0 ^^^ (c.getD ((x + 1) % 5) 0).rotateLeft 1)
  let t := lanesBy (fun x y => lane a x y ^^^ d.getD x 0)
  -- the lane at (x, y) moves to (y, 2x + 3y): position (x', y') takes it from x = x' + 3y', y = x'
  let b := lanesBy (fun x' y' =>
    let x := (x' + 3 * y') % 5
    (lane t x x').rotateLeft (rhoTurns.getD (x + 5 * x') 0))
  let e := lanesBy (fun x y => lane b x y ^^^ (~~~lane b (x + 1) y &&& lane b (x + 2) y))
  (lane e 0 0 ^^^ rc) :: e.drop 1

def keccakF (a : Lanes25) : Lanes25 := iotaConsts.foldl keccakRound a

def shakeRate : Nat := 136

/-- The message padded to whole blocks. -/
def shakePad (msg : List Byte) : List Byte :=
  let k := shakeRate - msg.length % shakeRate
  if k = 1 then msg ++ [0x9F] else msg ++ 0x1F :: (List.replicate (k - 2) 0 ++ [0x80])

def absorbBlock (a : Lanes25) (block : List Byte) : Lanes25 :=
  keccakF (lanesBy (fun x y =>
    let i := x + 5 * y
    if 8 * i < shakeRate then lane a x y ^^^ BitVec.ofNat 64 (field block (8 * i) 8) else lane a x y))

def absorb : (fuel : Nat) → Lanes25 → List Byte → Lanes25
  | 0, a, _ => a
  | fuel + 1, a, bs => if bs.isEmpty then a else absorb fuel (absorbBlock a (bs.take shakeRate)) (bs.drop shakeRate)

def squeezeBlock (a : Lanes25) : List Byte := (a.take 17).flatMap (fun l => leBytes 8 l.toNat)

def squeeze : (blocks : Nat) → Lanes25 → List Byte
  | 0, _ => []
  | n + 1, a => squeezeBlock a ++ squeeze n (keccakF a)

/-- `n` bytes of SHAKE256. -/
def shake256 (n : Nat) (msg : List Byte) : List Byte :=
  let p := shakePad msg
  (squeeze (ceilDiv n shakeRate) (absorb (p.length / shakeRate) (List.replicate 25 0) p)).take n

/-- The 256-bit SHAKE256 output. -/
def shake (msg : List Byte) : List Byte := shake256 32 msg

/-- One byte through the reflected CRC-32 of polynomial 0x04C11DB7. -/
def crcByte (c : BitVec 32) (b : Byte) : BitVec 32 :=
  (List.range 8).foldl (fun c _ =>
    if c.getLsbD 0 then (c >>> (1 : Nat)) ^^^ 0xEDB88320 else c >>> (1 : Nat)) (c ^^^ b.setWidth 32)

def crc32 (bs : List Byte) : Word := ~~~(bs.foldl crcByte 0xFFFFFFFF)

end Sys2Proof.Machine
end

