-- ==== Sys2Proof/Machine/Inputs.lean ====
section
/-! DEFINITION. Anchor and reference images: their formats and unpacked planes (Table 12.8, R533). -/
namespace Sys2Proof.Machine

/-- One unpacked plane: width, height and bytes per element. -/
structure PlaneShape where
  width : Nat
  height : Nat
  elem : Nat
  deriving DecidableEq, Repr

/-- Table 12.8: the unpacked planes; none for an unknown format. -/
def inputPlanes (format channels w h : Nat) : List PlaneShape :=
  let p (w e : Nat) : PlaneShape := { width := w, height := h, elem := e }
  match format with
  | 0x1E => [p w 1, p (w / 2) 1, p (w / 2) 1]
  | 0x1F => [p w 2, p (w / 2) 2, p (w / 2) 2]
  | 0x24 => [p w 1, p w 1, p w 1]
  | 0x2A => [p w 1]
  | 0x2B => [p w 2]
  | 0x2C => [p w 4]
  | 0x2D => [p w 4]
  | 0x2E => [p w 4]
  | 0x2F => [p w 4]
  | 0x80 => List.replicate channels (p w 1)
  | 0x81 => List.replicate channels (p w 2)
  | _ => []

/-- Table 12.8: WIDTH is a multiple of this. -/
def inputWidthUnit (format : Nat) : Nat :=
  match format with
  | 0x1E => 2 | 0x1F => 2 | 0x2B => 4 | 0x2C => 2 | 0x2D => 4 | 0x2F => 2 | _ => 1

def PlaneShape.pitch (p : PlaneShape) : Nat := roundUp (p.width * p.elem) 64

/-- R533: the smallest plane stride of at least HEIGHT × pitch that is congruent to 8 modulo 1,024. -/
def planeStride (n : Nat) : Nat := n + (8 + 1024 - n % 1024) % 1024

/-- R533: PS of an image; every plane of a receive buffer takes the pitch of its own row. -/
def inputStride (planes : List PlaneShape) : Nat :=
  planes.foldl (fun m p => max m (planeStride (p.height * p.pitch))) 0

/-- R533: bytes of a receive buffer. -/
def inputBytes (planes : List PlaneShape) : Nat := 16384 + planes.length * inputStride planes

/-! ### Rejected inputs (R538, Table 12.15) -/

/-- What a rejection names: status, order of Table 12.10, container (0 anchor, 1 geometry, 2 reference, 3 command),
stream (none for VC 31 or an unknown stream), lane, and the tag, FRAME or K. -/
structure Reject where
  status : Status
  order : Nat
  container : Nat
  stream : Option Nat
  lane : Nat
  tag : Nat
  deriving DecidableEq, Repr

/-- LANE_LAST_REJECT (Table 12.15); no rule gives its stream field for an input of no stream, which is then `free` (log 48). -/
def Reject.word (x : Reject) (free : Nat) : Word :=
  Sys2Proof.Machine.word (statusCode x.status + x.stream.getD free % 32 * 2 ^ 8 + x.container % 8 * 2 ^ 13 +
    x.order % 16 * 2 ^ 16 + x.lane % 32 * 2 ^ 24)

/-- A rejected input is counted, recorded and raises event 0x17. -/
def Device.rejectInput (d : Device) (x : Reject) : Device :=
  let (free, d) := if x.stream.isSome then ([], d) else d.freeBytes 1
  let d := { d with lanes := { d.lanes with
    rejected := satInc d.lanes.rejected, lastReject := x.word (leNat free),
    inReject := match x.stream with
      | some s => vmod d.lanes.inReject s satInc
      | none => d.lanes.inReject } }
  d.event .inputRejected (x.stream.getD 0xFF) (statusCode x.status) x.tag

end Sys2Proof.Machine
end

