-- ==== Sys2Proof/Machine/Tuning.lean ====
section
/-! DEFINITION. In-service tuning (chapter 9): holds, cuts, epochs, batches, training steps, candidates and
adoption, and the commands that are its happenings. -/
namespace Sys2Proof.Machine

def Device.tune (d : Device) (s : Nat) : Tune := (d.strm s).tune

/-- R396, R399: the stream tunes and is not suspended. -/
def Device.tuning (d : Device) (s : Nat) : Bool :=
  match d.tuneRec s with
  | some r => r.enable && !(d.tune s).suspended
  | none => false

/-- R400: the reference slots of a tuning stream. -/
def Device.isReference (d : Device) (r : TuneRec) (n : Nat) : Bool :=
  let m := d.ssbG r.stream * r.refEvery
  decide (d.ssbPhase r.stream ≤ n) && m != 0 && (n - d.ssbPhase r.stream) % m = 0

/-- R401: the hold buffer of a reference slot. -/
def Device.holdBuf (d : Device) (r : TuneRec) (n : Nat) : Fin 2 :=
  Fin.ofNat 2 ((n - d.ssbPhase r.stream) / (d.ssbG r.stream * r.refEvery))

/-- R401: what the end-of-frame commit of slot n asks of E_HOLD; `clean` says that it inverted LO_ACTIVE. -/
def Device.tuneEof (d : Device) (s n : Nat) (clean : Bool) : Device :=
  match d.tuneRec s with
  | none => d
  | some r =>
    d.guard (d.tuning s && clean && d.isReference r n && (d.slot s n).dist = some 0)
      (fun d => d.modTune s (fun x => { x with holdDue := some n }))

def Device.refDrop (d : Device) (s : Nat) : Device :=
  d.modTreg s (fun x => { x with refDrops := satInc x.refDrops })

/-- R402: holds that have expired before an instant are freed; an accepted reference that still waited goes with its hold.
A frame-end stamp equal to the expiry is in time (R403), so the hold stands at that instant. -/
def Device.expireHolds (d : Device) (s at_ : Nat) : Device :=
  let gone := (d.tune s).holds.filter (fun h => decide (h.expiry < at_))
  let d := d.modTune s (fun x => { x with holds := x.holds.filter (fun h => decide (at_ ≤ h.expiry)) })
  (gone.filter (fun h => h.reference.isSome)).foldl (fun (d : Device) _ => d.refDrop s) d

/-! ### The weight banks (R424 to R430) -/

/-- The adoption bank that is not active. -/
def inactiveBank (b : Fin 3) : Fin 3 := if b = 1 then 2 else 1

def TuneRec.bankBase (r : TuneRec) (b : Fin 3) : Nat := if b = 1 then r.bank1Base else r.bank2Base

/-- R427: the bank of a slot: the one active at its frame start time. -/
def Device.slotBank (d : Device) (s n : Nat) : Fin 3 :=
  (d.tune s).banks.foldl (fun b c => if d.frameStart s n < c.1 then c.2 else b) (d.strm s).treg.bank

/-- Another bank becomes active at the running cycle's boundary, with its digest. -/
def Device.setBank (d : Device) (s : Nat) (b : Fin 3) (digest : List Byte) : Device :=
  let old := (d.strm s).treg.bank
  let d := d.modTune s (fun x => { x with banks := (d.cycleStart, old) :: x.banks })
  d.modTreg s (fun y => { y with bank := b, weights := digest })

/-- A descriptor whose BASE lies in `bytes` bytes from `a`, moved to the same place from `b`. -/
def Desc.moved (t : Desc) (a b bytes : Nat) : Desc :=
  if a ≤ t.base ∧ t.base < a + bytes then { t with base := t.base - a + b } else t

/-! ### The tuning entries of an itinerary -/

inductive TuneEntry where
  | hold | cut | train | exported | eval
  deriving DecidableEq, Repr

/-- The tuning entry that an itinerary entry is, with its stream. -/
def Device.tuneEntry (d : Device) (e : Nat) : Option (Nat × TuneEntry) :=
  d.image.tunes.findSome? (fun r =>
    if !r.enable then none
    else if e = r.eHold then some (r.stream, .hold)
    else if e = r.eCut then some (r.stream, .cut)
    else if e = r.eTrain then some (r.stream, .train)
    else if e = r.eExport then some (r.stream, .exported)
    else if e = r.eEval then some (r.stream, .eval)
    else none)

/-! ### The optimiser state in memory (R420, log 59) -/

/-- The FP32 master weights that bank 0 of the stream's package gives. -/
def Device.imageMasters (d : Device) (s : Nat) : List Word :=
  match d.package (d.ssbModel s) with
  | none => []
  | some p => Config.masterWeights p.package (d.peek (p.dest + p.bank0Offset) p.bank0Bytes)

/-- Bytes of one copy of `n` master weights with their moments: w, m and v, in whole tiles. -/
def copyBytes (n : Nat) : Nat := roundUp (12 * n) tileBytes

/-- Copy 0 or 1 of `n` weights. -/
def TuneRec.copyAt (r : TuneRec) (n c : Nat) : Nat := r.stateBase + c * copyBytes n

/-- t, p1 and p2, after both copies. -/
def TuneRec.productsAt (r : TuneRec) (n : Nat) : Nat := r.stateBase + 2 * copyBytes n

/-- The working BF16 copy, in the next tile. -/
def TuneRec.workingAt (r : TuneRec) (n : Nat) : Nat := r.productsAt n + tileBytes

/-- The copy that the last commit selected, and the other. -/
def Tune.selected (x : Tune) : Nat := if x.optSel then 1 else 0
def Tune.other (x : Tune) : Nat := if x.optSel then 0 else 1

def Device.peekWords (d : Device) (a n : Nat) : List Nat :=
  let bs := d.peek a (4 * n)
  (List.range n).map (fun i => field bs (4 * i) 4)

/-- w, m and v of every weight of a copy. -/
def Device.optimiser (d : Device) (r : TuneRec) (n c : Nat) : List (Nat × Nat × Nat) :=
  let a := r.copyAt n c
  (d.peekWords a n).zip ((d.peekWords (a + 4 * n) n).zip (d.peekWords (a + 8 * n) n))

def Device.putOptimiser (d : Device) (r : TuneRec) (n c : Nat) (l : List (Nat × Nat × Nat)) : Device :=
  d.write (r.copyAt n c) (l.flatMap (fun x => leBytes 4 x.1) ++ l.flatMap (fun x => leBytes 4 x.2.1) ++
    l.flatMap (fun x => leBytes 4 x.2.2))

/-- t and the running products as they stand. -/
def Device.putProducts (d : Device) (r : TuneRec) (n : Nat) : Device :=
  let x := d.tune r.stream
  d.write (r.productsAt n) (leBytes 8 x.steps ++ leBytes 4 x.p1.toNat ++ leBytes 4 x.p2.toNat)

/-- R420, R424: in the lists of E_TRAIN and E_EXPORT, BASE in copy 0 stands for the copy that the last commit selected and BASE
in copy 1 for the other. -/
def Device.stateDesc (d : Device) (r : TuneRec) (k : TuneEntry) (t : Desc) : Desc :=
  let n := (d.imageMasters r.stream).length
  let x := d.tune r.stream
  if (k = .train ∨ k = .exported) ∧ x.optSel then
    let u := t.moved (r.copyAt n 0) (r.copyAt n x.selected) (copyBytes n)
    if u = t then t.moved (r.copyAt n 1) (r.copyAt n x.other) (copyBytes n) else u
  else t

/-- The weights that a list of tuning entry `k` or of a stream's slot n reads or writes (R424, R427): BASE in bank 0 stands
for the active bank of its slot, and BASE in BANK1 for the candidate's bank in the lists of E_EXPORT and E_EVAL (log 59). -/
def Device.bankDesc (d : Device) (s n : Nat) (k : Option TuneEntry) (t : Desc) : Desc :=
  match d.tuneRec s, d.package (d.ssbModel s) with
  | some r, some p =>
    let active := if k.isSome then (d.strm s).treg.bank else d.slotBank s n
    let t1 := t.moved (p.dest + p.bank0Offset) (r.bankBase active) (if active = 0 then 0 else p.bank0Bytes)
    let t2 := match k with
      | some k => if t1 = t then d.stateDesc r k t else t1
      | none => t1
    match k, (d.tune s).cand with
    | some .exported, some c => if t2 = t then t.moved r.bank1Base (r.bankBase c.bank) p.bank0Bytes else t2
    | some .eval, some c => if t2 = t then t.moved r.bank1Base (r.bankBase c.bank) p.bank0Bytes else t2
    | _, _ => t2
  | _, _ => t

/-- R401: an E_HOLD due that launches nothing leaves its slot without a hold. -/
def Device.missHold (d : Device) (s : Nat) (k : TuneEntry) : Device :=
  if k = .hold then d.modTune s (fun x => { x with holdDue := none }) else d

/-- Whether a due of a tuning entry goes on: E_HOLD makes its hold now (R401, R402), the other entries join the ready queue
of the tuning context (R399). -/
def Device.tuneDue (d : Device) (s : Nat) (k : TuneEntry) : Bool × Device :=
  match d.tuneRec s with
  | none => (false, d)
  | some r =>
    if !d.tuning s then (false, d.missHold s k)
    else if k ≠ .hold then (true, d)
    else
      let d := d.expireHolds s d.now
      match (d.tune s).holdDue with
      | none => (false, d)
      | some n =>
        let b := d.holdBuf r n
        let d := d.modTune s (fun x => { x with holdDue := none })
        if (d.tune s).holds.any (fun h => h.buf = b) then (false, d.refDrop s)
        else
          let h : Hold := { slot := n, buf := b, expiry := d.frameStart s n + r.refLimit * 1000000,
                            filled := false, anchor := [], motion := [], reference := none }
          (true, d.modTune s (fun x => { x with holds := x.holds ++ [h] }))

/-- Whether the launch of a tuning entry launches anything (R399, R419, R424, R425, R429), with what an export's launch
records. -/
def Device.tuneGate (d : Device) (s : Nat) (k : TuneEntry) : Bool × Device :=
  let x := d.tune s
  match d.tuneRec s with
  | none => (false, d)
  | some r =>
    if !d.tuning s then (false, d)
    else match k with
      | .hold => (true, d)
      | .cut => (true, d)
      | .train => (!x.queue.isEmpty && x.exportDue.isNone, d)
      | .exported =>
        match x.exportDue with
        | none => (false, d)
        | some c =>
          let d := if x.cand.isSome then d.modTreg s (fun y => { y with missed := satInc y.missed }) else d
          let cand : Candidate :=
            { c := c, bank := inactiveBank (d.strm s).treg.bank, exported := false, digest := none, evalDone := false,
              lossC := 0, lossA := 0, approved := false, readyAt := none }
          (true, d.modTune s (fun x => { x with cand := some cand }))
      | .eval =>
        (r.policy = 2 && (match x.cand with
          | some c => c.exported && !c.evalDone
          | none => false), d)

/-- The pitch of the rows of a stream's LMOT buffer: that of the descriptor by which its re-projection list reads it. -/
def Device.motionPitch (d : Device) (s w : Nat) : Nat :=
  let head := d.peek (d.ssbField s 192 6) 64
  let descs := (List.range (field head 4 2)).map (fun i => descOf (d.peek (field head 8 6 + 32 * i) 32))
  match descs.find? (fun t => t.tensorId = d.ssbField s 160 2) with
  | some t => t.rowPitch
  | none => roundUp (4 * ceilDiv w 4) 64

/-- R401: the commit of E_HOLD fills the hold with the unpacked anchor that the slot used and the active LMOT buffer. -/
def Device.fillHold (d : Device) (r : TuneRec) (h : Hold) : Hold :=
  let s := r.stream
  match d.inputRec s, d.image.rasters.find? (fun g => g.stream = s && g.kind = 0) with
  | some i, some g =>
    let planes := inputPlanes i.format i.channels i.width i.height
    let buf := (((d.slot s h.slot).used).map (fun a => a.buf.val)).getD 0
    let lmot := d.ssbField s (if d.ssbFlag s flagLo then 176 else 168) 6
    { h with
      filled := true, anchor := d.peek (vget i.rxBase buf 0 + 16384) (planes.length * inputStride planes)
      motion := d.peek lmot (ceilDiv g.height 4 * d.motionPitch s g.width) }
  | _, _ => { h with filled := true }

/-! ### Boxes, samples and their checks -/

/-- R406 to R408: patch size and batch size of a bucket. -/
def bucketSize (z : Nat) : Nat := if z = 0 then 64 else if z = 1 then 128 else 256
def bucketBatch (z : Nat) : Nat := if z = 0 then 32 else if z = 1 then 8 else 2

/-- R406, R407: box k of reference q: bucket, x and y. -/
def drawBox (r : TuneRec) (wr hr q k : Nat) : Nat × Nat × Nat :=
  let draw (c : Nat) : Nat := mix64 r.tseed.toNat 0xF001 (q * 256 + k * 4 + c) / 2 ^ 32
  let v := draw 0 * 255 / 2 ^ 32
  let z := if v < r.w64 then 0 else if v < r.w64 + r.w128 then 1 else 2
  let n := bucketSize z
  (z, 4 * (draw 1 * ((wr - n) / 4 + 1) / 2 ^ 32), 4 * (draw 2 * ((hr - n) / 4 + 1) / 2 ^ 32))

/-- R409: the replay slot of a sample. -/
def TuneRec.slotAddr (r : TuneRec) (n : Nat) : Nat :=
  r.replayBase + 32768 + n % r.capacity * r.slotTiles * tileBytes

/-- Table 9.3. -/
def manifestBytes (n z x y : Nat) (crcBad : Bool) : List Byte :=
  leBytes 4 n ++ leBytes 2 (x / 4 + z * 2 ^ 13 + boolNat crcBad * 2 ^ 15) ++ leBytes 2 (y / 4)

/-- Tiles that the patches of a sample of bucket z take (R408, R409). -/
def Device.patchTiles (d : Device) (r : TuneRec) (z : Nat) : Nat :=
  let n := bucketSize z
  match d.inputRec r.stream, d.image.rasters.find? (fun x => x.stream = r.stream && x.kind = 0) with
  | some i, some g =>
    let side := ceilDiv (n * i.width) g.width
    let anchor := (inputPlanes i.format i.channels side side).foldl (fun b p => b + p.pitch * p.height) 0
    min r.slotTiles (ceilDiv (3 * n * n) tileBytes + ceilDiv anchor tileBytes +
      ceilDiv (n / 4 * (n / 4) * 4) tileBytes)
  | _, _ => r.slotTiles

/-- R416: whether a sample is corrupt; its tiles are read through the ladder. -/
def Device.sampleCorrupt (d : Device) (r : TuneRec) (m : Nat × Nat × Bool) : Bool × Device :=
  if m.2.2 then (true, d)
  else
    let tiles := (List.range (d.patchTiles r m.2.1)).map (fun i => r.slotAddr m.1 + i * tileBytes)
    let (ok, d) := d.verifyAll 0 tiles
    (!ok, d)

/-- R411. -/
def TuneRec.isValidation (r : TuneRec) (n : Nat) : Bool := r.valMod != 0 && n % r.valMod = r.valMod - 1

/-- R412: the sample numbers of epoch e. -/
def TuneRec.epochList (r : TuneRec) (e : Nat) : List Nat :=
  let p := r.capacity / 4
  let hi := (e + 1) * p
  let lo := hi - 3 * p
  (List.range (hi - lo)).map (· + lo)

/-- R414: the walk order, as list positions. -/
def permute (tseed e : Nat) : (i : Nat) → List Nat → List Nat
  | 0, l => l
  | i + 1, l =>
    let r := mix64 tseed 0xF002 (e * 4096 + (i + 1))
    let j := r / 2 ^ 32 * (i + 2) / 2 ^ 32
    let a := l.getD (i + 1) 0
    let b := l.getD j 0
    permute tseed e i ((l.set (i + 1) b).set j a)

def TuneRec.walk (r : TuneRec) (e : Nat) : List Nat :=
  let l := r.epochList e
  let perm := permute r.tseed.toNat e (l.length - 1) (List.range l.length)
  perm.map (fun i => l.getD i 0)

/-! ### The prepared-batch queue -/

/-- R418: LOW when the count of full slots falls from 1 to 0. -/
def Device.takeBatch (d : Device) (s : Nat) : Device :=
  let x := d.tune s
  let d := d.modTune s (fun x => { x with queue := x.queue.drop 1, failures := 0 })
  if x.queue.length = 1 then
    let d := d.modTune s (fun x => { x with low := true })
    let d := d.modTreg s (fun y => { y with lows := satInc y.lows })
    d.event .batchLow s 0 x.steps
  else d

/-- Table 9.4: the batch manifest. -/
def Batch.bytes (b : Batch) : List Byte :=
  let pad (n : Nat) (l : List Nat) : List Byte :=
    ((l ++ List.replicate n 0xFFFFFFFF).take n).flatMap (fun v => leBytes 4 v)
  leBytes 4 b.number ++ leBytes 4 b.epoch ++ leBytes 1 b.bucket ++ leBytes 1 b.samples.length ++
    leBytes 1 (min b.nskip 255) ++ leBytes 1 0 ++ leBytes 4 b.first ++ pad 32 b.samples ++
    pad 8 b.skipped ++ List.replicate 80 0

/-- The open batch of bucket z; a new one starts at walk index i. -/
def openBatch (x : Tune) (z i : Nat) : Batch :=
  match x.open_.find? (fun b => b.bucket = z) with
  | some b => b
  | none => { number := 0, epoch := x.epoch, bucket := z, samples := [], skipped := [], nskip := 0, first := i, slot := [] }

def Tune.setOpen (x : Tune) (b : Batch) : Tune :=
  { x with open_ := b :: x.open_.filter (fun y => y.bucket ≠ b.bucket) }

/-- R417: the contents of the queue slot that a batch fills. -/
def Device.batchSlot (d : Device) (r : TuneRec) (b : Batch) : List Byte :=
  b.samples.flatMap (fun n => d.peek (r.slotAddr n) (d.patchTiles r b.bucket * tileBytes)) ++ b.bytes

/-- R415: the walk has no training sample left, so its open batches are discarded and the epoch ends. -/
def Device.endWalk (d : Device) (r : TuneRec) : Device :=
  let x := d.tune r.stream
  if (x.walk.drop x.walkPos).all r.isValidation then
    d.modTune r.stream (fun x => { x with open_ := [], epochRunning := false, epoch := x.epoch + 1 })
  else d

/-- R415, R416: the walk goes on until a batch is emitted or the epoch ends. -/
def Device.walkOn (r : TuneRec) : (fuel : Nat) → Device → Device
  | 0, d => d
  | fuel + 1, d =>
    let s := r.stream
    let x := d.tune s
    match x.walk[x.walkPos]? with
    | none => d.endWalk r
    | some n =>
      let step (x : Tune) : Tune := { x with walkPos := x.walkPos + 1 }
      if r.isValidation n then Device.walkOn r fuel (d.modTune s step)
      else
        let m := (x.manifest.find? (fun m => m.1 = n)).getD (n, 0, true)
        let b := openBatch x m.2.1 x.walkPos
        let (bad, d) := d.sampleCorrupt r m
        if bad then
          let d := d.modTreg s (fun y => { y with skipped := satInc y.skipped })
          let b := { b with skipped := (b.skipped ++ [n]).take 8, nskip := b.nskip + 1 }
          Device.walkOn r fuel (d.modTune s (fun x => (step x).setOpen b))
        else
          let b := if b.samples.isEmpty then { b with first := x.walkPos } else b
          let b := { b with samples := b.samples ++ [n] }
          if b.samples.length < bucketBatch b.bucket then
            Device.walkOn r fuel (d.modTune s (fun x => (step x).setOpen b))
          else
            let b := { b with number := (d.tune s).batches }
            let b := { b with slot := d.batchSlot r b }
            (d.modTune s (fun x =>
              { step x with
                open_ := x.open_.filter (fun y => y.bucket ≠ b.bucket), batches := x.batches + 1,
                queue := x.queue ++ [b], low := false })).endWalk r

/-! ### Training steps (R420 to R423) -/

/-- R422: the running products of step t + 1. -/
def trainProducts (r : TuneRec) (p1 p2 : Word) : Word × Word :=
  (word (fpMul p1.toNat r.b1.toNat), word (fpMul p2.toNat r.b2.toNat))

/-- R422: the update of one master weight: (w, m, v) from gradient g, with the products of the step. -/
def trainUpdate (r : TuneRec) (p1 p2 : Nat) (w m v g : Nat) : Nat × Nat × Nat :=
  let lr := r.lr.toNat
  let b1 := r.b1.toNat
  let b2 := r.b2.toNat
  let lrT := fpMul (fpMul lr (fpRcp (fpRsqrt (fpSub fpOne p2)))) (fpRcp (fpSub fpOne p1))
  let m := fpFma b1 m (fpMul (fpSub fpOne b1) g)
  let v := fpFma b2 v (fpMul (fpSub fpOne b2) (fpMul g g))
  let w := fpFma (fpNeg (fpMul lr r.wd.toNat)) w w
  let w := fpSub w (fpMul lrT (fpMul m (fpRsqrt (fpAdd v r.eps2.toNat))))
  (w, m, v)

/-- R421: the seed that replaces SEED of command j in the training list of step t + 1. -/
def trainSeed (r : TuneRec) (t j : Nat) : Nat := mix64 r.tseed.toNat 0xF003 ((t + 1) * 2 ^ 16 + j)

/-- R422: every master weight of a copy updated from its gradient, with the products of the step. -/
def trainCopy (r : TuneRec) (p : Word × Word) (l : List (Nat × Nat × Nat)) (gradients : List Nat) : List (Nat × Nat × Nat) :=
  (l.zip gradients).map (fun (x, g) => trainUpdate r p.1.toNat p.2.toNat x.1 x.2.1 x.2.2 g)

/-- R422: the working BF16 copy: each w converted by R102 with SR, under the seed of R421. -/
def workingCopy (seed : Nat) (l : List (Nat × Nat × Nat)) : List Byte :=
  l.zipIdx.flatMap (fun (x, i) => leBytes 2 (convert 11 (elemRound true seed 0 i) false (fpNum x.1)))

/-- R420: tuning starts with the master weights equal to bank 0, m = v = +0, t = 0 and p1 = p2 = 1. -/
def Device.startTune (d : Device) (r : TuneRec) : Device :=
  let w := d.imageMasters r.stream
  if w.isEmpty then d
  else (d.putOptimiser r w.length 0 (w.map (fun v => (v.toNat, 0, 0)))).putProducts r w.length

/-- R420, R422: the commit of a training step reads the selected copy and the gradients that the list leaves in place of the other
copy's w, writes the other copy, t, the products and the working copy, and selects the other. `cmds` are the list's commands, the
last of which with SR gives the seed of the working copy (log 59). -/
def Device.trainCommit (d : Device) (r : TuneRec) (cmds : List (List Byte)) : Device :=
  let s := r.stream
  let x := d.tune s
  let n := (d.imageMasters s).length
  let p := trainProducts r x.p1 x.p2
  let new := trainCopy r p (d.optimiser r n x.selected) (d.peekWords (r.copyAt n x.other) n)
  let j := (((List.range cmds.length).zip cmds).filter (fun c => cmdSr c.2)).getLast?.elim 0 (·.1)
  let d := d.modTune s (fun x => { x with steps := x.steps + 1, p1 := p.1, p2 := p.2, optSel := !x.optSel })
  let d := if n = 0 then d
    else ((d.putOptimiser r n x.other new).putProducts r n).write (r.workingAt n) (workingCopy (trainSeed r x.steps j) new)
  let d := d.takeBatch s
  let t := (d.tune s).steps
  if r.adoptSteps ≠ 0 ∧ t % r.adoptSteps = 0 then
    let c := t / r.adoptSteps
    (d.modTune s (fun x => { x with exportDue := some c })).modTreg s (fun y => { y with lastCand := c })
  else d

/-- R423: a training step that ends without committing. -/
def Device.trainFail (d : Device) (s : Nat) : Device :=
  let d := d.modTune s (fun x => { x with failures := x.failures + 1 })
  if (d.tune s).failures < 3 then d
  else
    let d := d.modTreg s (fun y => { y with dropped := satInc y.dropped })
    d.takeBatch s

/-! ### Candidates and adoption (R424 to R430) -/

/-- R425: the digest of `bytes` as bank of a package. -/
def weightDigest (package : Nat) (bytes : List Byte) : List Byte :=
  shake (leBytes 1 package ++ leBytes 4 bytes.length ++ bytes)

/-- R426: a candidate becomes ready when its digest is complete and, for POLICY 2, its E_EVAL has committed. -/
def Device.candReady (d : Device) (r : TuneRec) : Device :=
  d.modTune r.stream (fun x => { x with cand := x.cand.map (fun c =>
    if c.readyAt.isNone && c.digest.isSome && (r.policy ≠ 2 || c.evalDone) then { c with readyAt := some d.now }
    else c) })

/-- R426: whether a ready candidate is allowed. -/
def candAllowed (r : TuneRec) (c : Candidate) : Bool :=
  match r.policy with
  | 1 => true
  | 2 => fpLt c.lossC.toNat (fpMul c.lossA.toNat (fpSub fpOne r.margin.toNat))
  | 3 => c.approved
  | _ => false

/-- The commit of E_EVAL: the losses are values that no rule places (log 12). -/
def Device.evalCommit (d : Device) (r : TuneRec) : Device :=
  let s := r.stream
  let (bs, d) := d.freeBytes 8
  let x := d.tune s
  let e := if x.epochRunning then x.epoch else x.epoch - 1
  let vals := (r.epochList e).filter r.isValidation
  let d := vals.foldl (fun d n =>
    match x.manifest.find? (fun m => m.1 = n) with
    | none => d
    | some m =>
      let (bad, d) := d.sampleCorrupt r m
      if bad then d.modTreg s (fun y => { y with skipped := satInc y.skipped }) else d) d
  let d := d.modTune s (fun x => { x with cand := x.cand.map (fun c =>
    { c with evalDone := true, lossC := word (field bs 0 4), lossA := word (field bs 4 4) }) })
  d.candReady r

/-- What the commit of a tuning entry's list, of commands `cmds`, changes. -/
def Device.tuneCommit (d : Device) (s : Nat) (k : TuneEntry) (cmds : List (List Byte)) : Device :=
  match d.tuneRec s with
  | none => d
  | some r =>
    match k with
    | .hold => d.modTune s (fun x => { x with holds := x.holds.map (fun h => if h.filled then h else d.fillHold r h) })
    | .cut => d
    | .train => d.trainCommit r cmds
    | .exported =>
      d.modTune s (fun x => { x with exportDue := none, cand := x.cand.map (fun c => { c with exported := true }) })
    | .eval => d.evalCommit r

/-- Holds that no E_HOLD has filled are gone, with the references that they have taken. -/
def Device.dropUnfilled (d : Device) (s : Nat) : Device :=
  let gone := (d.tune s).holds.filter (fun h => !h.filled && h.reference.isSome)
  gone.foldl (fun (d : Device) _ => d.refDrop s) (d.modTune s (fun x => { x with holds := x.holds.filter (·.filled) }))

/-- R399: tuning of a stream is suspended: a hold that is not filled yet is not made, and its references are dropped. -/
def Device.suspendTune (d : Device) (s : Nat) : Device :=
  let d := d.dropUnfilled s
  let gone := (d.tune s).holds.filter (fun h => h.reference.isSome)
  gone.foldl (fun (d : Device) _ => d.refDrop s) (d.modTune s (fun x =>
    { x with holdDue := none, holds := x.holds.map (fun h => { h with reference := none }) }))

/-- What the end of a tuning entry's list without a commit changes (R423, Table 9.5). -/
def Device.tuneFail (d : Device) (s : Nat) (k : TuneEntry) : Device :=
  match k with
  | .hold => d.dropUnfilled s
  | .train => d.trainFail s
  | .exported => d.modTune s (fun x => { x with exportDue := none, cand := none })
  | _ => d

/-- Order 5 of Table 10.13: adoption, or the discard of a ready candidate that is not allowed (R427 to R429).
A candidate that became ready at this very instant is not ready at this boundary (Table 9.5); one under
POLICY 3 waits for its approval (log 12). -/
def Device.adopt (d : Device) (s : Nat) : Device :=
  match d.tuneRec s, (d.tune s).cand with
  | some r, some c =>
    match c.readyAt with
    | none => d
    | some at_ =>
      if d.now ≤ at_ then d
      else if candAllowed r c then
        let d := (d.setBank s c.bank (c.digest.getD (d.strm s).treg.weights)).modTreg s (fun y =>
          { y with adopts := satInc y.adopts })
        (d.modTune s (fun x => { x with cand := none })).itnFreeChoice
      else if r.policy = 3 then d
      else
        (d.modTune s (fun x => { x with cand := none })).modTreg s
          (fun y => { y with refused := satInc y.refused })
  | _, _ => d

/-- R430: bank 0 becomes active again; a ready, allowed candidate is refused (Table 9.5). -/
def Device.revert (d : Device) (s : Nat) : Device :=
  let digest := match d.package (d.ssbModel s) with
    | some p => p.digest
    | none => (d.strm s).treg.weights
  let refused := match d.tuneRec s, (d.tune s).cand with
    | some r, some c => c.readyAt.any (· < d.now) && candAllowed r c
    | _, _ => false
  let d := d.setBank s 0 digest
  if refused then
    (d.modTune s (fun x => { x with cand := none })).modTreg s (fun y => { y with refused := satInc y.refused })
  else d

/-! ### The commands -/

/-- R402: the holds whose expiry has passed are freed. -/
def execHoldExpiry (t : Nat) (stream : Fin 32) (s : State) : Host.Outcome State Fault Refusal :=
  .next (s.run t fun d => d.whenRunning fun d => d.expireHolds stream.val d.now)

/-- R412: the next epoch starts. -/
def execEpochStart (t : Nat) (stream : Fin 32) (s : State) : Host.Outcome State Fault Refusal :=
  .next (s.run t fun d => d.whenRunning fun d =>
    match d.tuneRec stream.val with
    | none => d
    | some r =>
      let x := d.tune stream.val
      d.guard (r.enable && !x.epochRunning && decide ((x.epoch + 1) * (r.capacity / 4) ≤ x.samples))
        (fun d => d.modTune stream.val (fun x =>
          { x with epochRunning := true, walk := r.walk x.epoch, walkPos := 0, open_ := [] })))

/-- R415 to R417: the next batch is assembled into a free queue slot. -/
def execBatchAssembly (t : Nat) (stream : Fin 32) (s : State) : Host.Outcome State Fault Refusal :=
  .next (s.run t fun d => d.whenRunning fun d =>
    match d.tuneRec stream.val with
    | none => d
    | some r =>
      let x := d.tune stream.val
      d.guard (d.tuning stream.val && x.epochRunning && decide (x.queue.length < 4))
        (fun d => Device.walkOn r (x.walk.length + 1) d))

/-- R425: the trust core completes the candidate's weight digest. -/
def execWeightDigestComplete (t : Nat) (stream : Fin 32) (s : State) : Host.Outcome State Fault Refusal :=
  .next (s.run t fun d => d.whenRunning fun d =>
    match d.tuneRec stream.val, d.package (d.ssbModel stream.val), (d.tune stream.val).cand with
    | some r, some p, some c =>
      d.guard (c.exported && c.digest.isNone) (fun d =>
        let digest := weightDigest p.package (d.peek (r.bankBase c.bank) p.bank0Bytes)
        let d := d.modTune stream.val (fun x =>
          { x with cand := x.cand.map (fun c => { c with digest := some digest }) })
        d.candReady r)
    | _, _, _ => d)

/-- R426: the approval of candidate c under POLICY 3; a write that precedes readiness is ignored. -/
def Device.approve (d : Device) (s : Nat) (c16 : Nat) : Device :=
  d.modTune s (fun x => { x with cand := x.cand.map (fun c =>
    match c.readyAt with
    | some at_ => if c.c % 2 ^ 16 = c16 ∧ at_ < d.now then { c with approved := true } else c
    | none => c) })

def execItnTuneApprove (t : Nat) (stream : Fin 32) (candidate : BitVec 16) (s : State) :
    Host.Outcome State Fault Refusal :=
  .next (s.run t fun d => d.whenRunning fun d => d.approve stream.val candidate.toNat)

end Sys2Proof.Machine
end

