-- ==== Sys2Proof/Machine/Serve.lean ====
section
/-! DEFINITION. What a due serves (R437, R438, R736), the geometry sets that lists read (R304, R309, R310, R332) and
the landings of producers (R572). -/
namespace Sys2Proof.Machine

/-! ### What a due serves -/

/-- A due with its records: its entry, launch descriptor, binding, streams and slot. -/
structure Serve where
  entry : Entry
  launch : LaunchDesc
  bind : Option Bind
  streams : List Nat
  slot : Nat
  deriving DecidableEq, Repr

def bindOf (b : Nat) : Option Bind :=
  match b with
  | 1 => some .encode
  | 2 => some .stripe
  | 3 => some .endOfFrame
  | _ => none

/-- Streams that an entry is bound to or names. -/
def Itin.streamsOf (i : Itin) (e : Entry) : List Nat :=
  if e.convoy then ((i.convoys.find? (fun c => c.convoy = e.stream)).map (·.streams)).getD [] else [e.stream]

/-- R438: the slot that the entry serves in cycle k. -/
def Device.slotOf (d : Device) (streams : List Nat) (e : Entry) (k : Nat) : Nat :=
  k * d.slotsPerCycle (streams.headD 0) + e.slot

/-- R291: a re-projection due is a stripe list bound to its stream. -/
def Device.serveOf (d : Device) (x : Due) : Option Serve :=
  match d.itinOf x.index with
  | none => none
  | some i =>
    match i.entries[x.entry]? with
    | none => none
    | some e =>
      match i.launches[e.launch]? with
      | none => none
      | some l =>
        let streams := i.streamsOf e
        let slot := d.slotOf streams e x.count
        match x.repro with
        | some s => some { entry := e, launch := l, bind := some .stripe, streams := [s], slot := slot }
        | none => some { entry := e, launch := l, bind := bindOf e.bind, streams := streams, slot := slot }

/-- Whether a due's class is latency-critical (R466 and R442 aside). -/
def Serve.critical (v : Serve) : Bool := !v.entry.bestEffort

def Device.isCompositor (d : Device) (c : Nat) : Bool :=
  match d.ctxRec c with
  | some r => r.compositor
  | none => false

def Device.isTuning (d : Device) (c : Nat) : Bool :=
  match d.ctxRec c with
  | some r => r.tuning
  | none => false

/-- R331: the kind of set that a context's lists read. -/
def Device.setKind (d : Device) (c : Nat) : Nat := if d.isCompositor c then 1 else 0

/-- The context of a stream: that of its first entry of TARGET 0 in the active itinerary. -/
def Device.streamCtx (d : Device) (s : Nat) : Option Nat :=
  match d.active with
  | none => none
  | some i => (i.entries.find? (fun e => e.target = 0 && (i.streamsOf e).contains s &&
      !d.isCompositor e.ctx && !d.isTuning e.ctx)).map (·.ctx)

/-! ### Lists in memory -/

/-- Commands of the list at an address, as they stand. -/
def Device.peekCmds (d : Device) (a : Nat) : List (List Byte) :=
  let n := field (d.peek a 64) 2 2
  let all := d.peek (a + 64) (64 * n)
  (List.range n).map (fun i => (all.drop (64 * i)).take 64)

/-- The address of the list that a due launches. -/
def Device.listAddr (d : Device) (x : Due) (v : Serve) : Nat :=
  match x.repro with
  | some s => d.ssbField s 192 6
  | none => v.launch.addr

/-! ### Geometry sets -/

abbrev SetRec := GeoSet × GeoProg

/-- The set for slot n of a stream, of a kind. -/
def Device.setOf (d : Device) (s kind n : Nat) : Option SetRec :=
  d.rfe.sets.find? (fun x => x.1.stream = s && x.1.kind = kind && x.1.slot = n)

def Device.modRfe (d : Device) (f : Rfe → Rfe) : Device := { d with rfe := f d.rfe }

def sameSet (a b : SetRec) : Bool := a.1.recIdx = b.1.recIdx && a.1.buf = b.1.buf

/-- A set replaced by its new value. -/
def Device.putSet (d : Device) (x : SetRec) : Device :=
  d.modRfe (fun r => { r with sets := r.sets.map (fun y => if sameSet x y then x else y) })

/-- A set released or discarded: its blocks and its buffer are free. -/
def Device.dropSet (d : Device) (x : SetRec) : Device :=
  d.modRfe (fun r =>
    { r with
      sets := r.sets.filter (fun y => !sameSet x y),
      serving := if r.serving = some (x.1.recIdx, x.1.buf) then none else r.serving })

def Device.rasterRec (d : Device) (s kind : Nat) : Option RasterRec :=
  d.image.rasters.find? (fun r => r.stream = s && r.kind = kind)

def RasterRec.tw (r : RasterRec) : Nat := ceilDiv r.width 32
def RasterRec.th (r : RasterRec) : Nat := ceilDiv r.height 32
/-- H_b: blocks of the head table. -/
def RasterRec.headBlocks (r : RasterRec) : Nat := ceilDiv (r.tw * r.th) 16
/-- R304: the first bin block of a buffer. -/
def RasterRec.block0 (r : RasterRec) (buf : Fin 2) : Nat := r.binBase + buf.val * r.quota
/-- The bin partition starts at the Well's base (log 13). -/
def blockAddr (b : Nat) : Nat := wellBase + 256 * b
/-- R324: the head-table entry of a tile. -/
def RasterRec.headAddr (r : RasterRec) (buf : Fin 2) (tile : Nat) : Nat := blockAddr (r.block0 buf) + 16 * tile
def RasterRec.geoBaseOf (r : RasterRec) (buf : Fin 2) : Nat := vget r.geoBase buf.val 0
def RasterRec.flushBaseOf (r : RasterRec) (buf : Fin 2) : Nat := vget r.flushBase buf.val 0

/-- Table 7.7: FLAGS of a tile's head-table entry. -/
def Device.tileFlags (d : Device) (r : RasterRec) (buf : Fin 2) (tile : Nat) : Nat :=
  field (d.peek (r.headAddr buf tile + 12) 1) 0 1

/-- Tiles of a RASTER_TILE's region, in ascending ty, then tx. -/
def regionTiles (tw : Nat) (c : List Byte) : List Nat :=
  let f := field c
  (List.range (f 22 2)).flatMap (fun j => (List.range (f 20 2)).map (fun i => (f 18 2 + j) * tw + f 16 2 + i))

/-- Slots whose set a list of `cmds` reads: the bound slot, or the FRAMEs of an unbound list. -/
def Device.setSlots (d : Device) (v : Serve) (cmds : List (List Byte)) : List Nat :=
  if !hasRaster cmds then []
  else if v.bind.isSome then [v.slot]
  else (cmds.filter (fun c => cmdOp c = opRASTER)).filterMap (fun c => d.unwrap v.entry.stream (field c 32 4))

/-- R310: a list holds the set of slot n: it reads it, or it is a compositor list for the slot. -/
def Device.holdsSlot (d : Device) (v : Serve) (cmds : List (List Byte)) (n : Nat) : Bool :=
  (d.setSlots v cmds).contains n || (d.isCompositor v.entry.ctx && v.bind.isSome && v.slot = n)

/-- A due holds the set of a stream, kind and slot. -/
def Device.dueReads (d : Device) (s kind n : Nat) (x : Due) : Bool :=
  match d.serveOf x with
  | none => false
  | some v =>
    v.entry.target = 0 && v.streams.contains s && d.setKind v.entry.ctx = kind && x.repro.isNone &&
      d.holdsSlot v (d.peekCmds v.launch.addr) n

def Device.runReads (d : Device) (s kind n : Nat) (r : Run) : Bool :=
  match d.serveOf r.due with
  | none => false
  | some v =>
    v.streams.contains s && d.setKind r.ctx = kind && d.holdsSlot v r.cmds n

/-- Runs that stand on an engine or are kept by a context. -/
def Device.allRuns (d : Device) : List Run :=
  d.ne.toList.filterMap (·.run) ++ d.ctxs.toList.filterMap (·.kept)

/-- Dues that wait for an engine or stand in a context's ready queue. -/
def Device.allDues (d : Device) : List Due := d.itn.waiting ++ d.ctxs.toList.flatMap (·.ready)

/-- R485: a due begins its own list, or a re-projection in its place; the entry's launches of two traversals are held. -/
def Device.noteBegan (d : Device) (x : Due) : Device :=
  if x.shadow then d
  else d.modItn (fun i =>
    { i with began := { index := x.index, entry := x.entry, count := x.count, repro := x.repro.isSome } ::
        i.began.filter (fun b => b.entry ≠ x.entry || (b.index = x.index && x.count ≤ b.count + 1)) })

/-- R310: a list that reads the set is pending or running. -/
def Device.setInUse (d : Device) (s kind n : Nat) : Bool :=
  d.allRuns.any (d.runReads s kind n) || d.allDues.any (d.dueReads s kind n)

/-- R310: a due of such a list for the slot remains in the itinerary: that of a bound entry until it has fallen; of an unbound
entry, whose list names the slot itself, every due to come (log 14). -/
def Device.dueRemains (d : Device) (s kind n : Nat) : Bool :=
  match d.active with
  | none => false
  | some i =>
    ((List.range i.entries.length).zip i.entries).any (fun p =>
      let (k, e) := p
      let streams := i.streamsOf e
      e.target = 0 && streams.contains s && d.setKind e.ctx = kind &&
        (match i.launches[e.launch]? with
          | none => false
          | some l =>
            let cmds := d.peekCmds l.addr
            let per := d.slotsPerCycle (streams.headD 0)
            if e.bind ≠ 0 then
              let cycle := (n - e.slot) / per
              (hasRaster cmds || kind = 1) && decide (e.slot ≤ n) && per != 0 && (n - e.slot) % per = 0 &&
                (decide (d.itn.k < cycle) || (cycle = d.itn.k && !d.itn.fallen.contains k))
            else
              d.itn.groupEn.getLsbD e.group && cmds.any (fun c => cmdOp c = opRASTER && d.unwrap s (field c 32 4) = some n)))

/-- R310: when a set that has been accepted is released. -/
def Device.releasable (d : Device) (x : SetRec) : Bool :=
  let (s, kind, n) := (x.1.stream, x.1.kind, x.1.slot)
  x.2.accepted && !d.setInUse s kind n &&
    (if kind = 0 && d.hasSsb s then (d.slot s n).eofCommitted || (d.slot s n).eofFailed || (d.slot s n).eofGone
     else !d.dueRemains s kind n)

/-! ### Landings (Table 13.4) -/

def Landing.bytes (l : Landing) : List Byte :=
  leBytes 1 l.stream ++ leBytes 1 l.layer ++ leBytes 1 (statusCode l.status) ++
    leBytes 1 (boolNat l.fallback) ++ leBytes 4 l.frame ++ leBytes 2 l.row0 ++
    leBytes 2 l.rows ++ leBytes 2 l.entry ++ leBytes 2 l.decl ++ l.desc.bytes ++ List.replicate 16 0

def Device.modSerai (d : Device) (f : Serai → Serai) : Device := { d with serai := f d.serai }

/-- The unit that committed stalls or goes on: engine n, or 6 + the vision unit. -/
def Device.setStalled (d : Device) (unit : Nat) (x : Bool) : Device :=
  if unit < 6 then d.modEng unit (fun e => { e with stalled := x })
  else d.modUnit (unit - 6) (fun v => { v with stalled := x })

def Serai.slotUsed (r : Serai) (p : Nat) (k : Fin 2) : Bool :=
  r.landings.any (fun l => l.producer = p && l.slotIdx = k)

/-- The handshake into a free landing slot. -/
def Device.landIn (d : Device) (l : Landing) (k : Fin 2) : Device :=
  let l := { l with slotIdx := k, at_ := d.now }
  let d := d.write (d.image.landBase + (2 * l.producer + k.val) * 64) l.bytes
  d.modSerai (fun r => { r with landings := r.landings ++ [l], landed := satInc r.landed })

/-- R572: a landing; it stalls its unit when both slots are full. -/
def Device.land (d : Device) (unit : Nat) (l : Landing) : Device :=
  if !d.serai.slotUsed l.producer 0 then d.landIn l 0
  else if !d.serai.slotUsed l.producer 1 then d.landIn l 1
  else
    let d := d.modSerai (fun r => { r with waiting := r.waiting ++ [(unit, l)], stalls := satInc r.stalls })
    d.setStalled unit true

/-- A landing slot is freed; the oldest handshake that waits for its producer completes. -/
def Device.freeLanding (d : Device) (l : Landing) : Device :=
  let d := d.modSerai (fun r =>
    { r with landings := r.landings.filter (fun x => !(x.producer = l.producer && x.slotIdx = l.slotIdx)) })
  match d.serai.waiting.find? (fun w => w.2.producer = l.producer) with
  | none => d
  | some w =>
    let d := d.modSerai (fun r => { r with waiting := removeFirst (fun x => x = w) r.waiting })
    let d := d.landIn w.2 l.slotIdx
    d.setStalled w.1 (d.serai.waiting.any (fun x => x.1 = w.1))

/-- R349, R572: the landings that the commit of a compositor list makes; a layer whose slot has begun
composing without it is discarded. -/
def Device.landLayers (d : Device) (e : Nat) (r : Run) (v : Serve) (st : Status) : Device :=
  (List.range d.image.layers.length).foldl (fun d i =>
    match d.image.layers[i]? with
    | none => d
    | some y =>
      if y.entry ≠ r.due.entry ∨ !v.streams.contains y.stream then d
      else if (d.slot y.stream v.slot).layers.any (fun p => p.1 = i) then d
      else
        match r.descs.find? (fun t => t.tensorId = y.tensor) with
        | none => d
        | some t =>
          d.land e { producer := 32 + i, slotIdx := 0, stream := y.stream, layer := y.layer, status := st, fallback := false,
                     frame := v.slot, row0 := y.y, rows := y.h, entry := r.due.entry, decl := i,
                     desc := t, at_ := d.now }) d

end Sys2Proof.Machine
end

