-- ==== Sys2Proof/Machine/Tiles.lean ====
section
/-! DEFINITION. What the tile raster unit resolves (chapter 7): positions and time at each row (R311 to R313), setup, fill and
resolution (R314 to R321), and a tile's list and flush record in memory (R324, R327, R340). -/
namespace Sys2Proof.Machine

/-! ### Triangles -/

/-- A vertex (Table 7.3); depths in units of 2^−149. -/
structure Vtx where
  x0 : Int
  y0 : Int
  x1 : Int
  y1 : Int
  z0 : Int
  z1 : Int
  id : Nat
  mat : Nat
  deriving DecidableEq, Repr

/-- A finite FP32 in units of 2^−149. -/
def fpUnits (a : Nat) : Int :=
  match fpNum a with
  | .fin neg m q => if neg then -((m * 2 ^ (q + 149).toNat : Nat) : Int) else ((m * 2 ^ (q + 149).toNat : Nat) : Int)
  | _ => 0

def vtxOf (b : List Byte) : Vtx :=
  { x0 := sfield b 0 3, y0 := sfield b 3 3, x1 := sfield b 6 3, y1 := sfield b 9 3,
    z0 := fpUnits (field b 12 4), z1 := fpUnits (field b 16 4), id := field b 20 3, mat := field b 23 1 }

/-- A triangle with its vertices in triple order; the first names ID and MAT (R301). -/
structure Tri where
  v0 : Vtx
  v1 : Vtx
  v2 : Vtx
  cull : Nat
  deriving DecidableEq, Repr

/-- R311: the readout index of row y. -/
def readoutIndex (order h y : Nat) : Nat :=
  if h ≤ 1 then 0
  else match order with
    | 0 => y
    | 1 => h - 1 - y
    | _ => 0

/-- R313: the TIME of row y. -/
def rowTime (order h tSpan y : Nat) : Nat := readoutIndex order h y * tSpan / max 1 (h - 1)

/-- A vertex at a row: position, depth over `span`, and motion. -/
structure RowVtx where
  x : Int
  y : Int
  z : Int
  dx : Int
  dy : Int
  deriving DecidableEq, Repr

/-- R312: the vertex at readout index r of `span` = max(1, HEIGHT − 1). -/
def Vtx.at (v : Vtx) (r span : Nat) : RowVtx :=
  { x := v.x0 + (v.x1 - v.x0) * r / span, y := v.y0 + (v.y1 - v.y0) * r / span,
    z := v.z0 * span + (v.z1 - v.z0) * r, dx := v.x1 - v.x0, dy := v.y1 - v.y0 }

/-- R314: the area of three points. -/
def area (a b c : RowVtx) : Int := (b.x - a.x) * (c.y - a.y) - (b.y - a.y) * (c.x - a.x)

/-- R314, R315: the triangle at a row, oriented, with its area; none when the row covers no pixel. -/
def Tri.row (t : Tri) (r span : Nat) : Option (RowVtx × RowVtx × RowVtx × Int) :=
  let a := t.v0.at r span
  let b := t.v1.at r span
  let c := t.v2.at r span
  let s := area a b c
  if s = 0 then none
  else if s < 0 then (if t.cull = 1 then none else some (a, c, b, -s))
  else if t.cull = 2 then none else some (a, b, c, s)

/-- R316: the edge from a to b at a point. -/
def edge (a b : RowVtx) (px py : Int) : Int := (b.x - a.x) * (py - a.y) - (b.y - a.y) * (px - a.x)

/-- R317: the top-left rule on one edge. -/
def edgeIn (a b : RowVtx) (e : Int) : Bool :=
  let dx := b.x - a.x
  let dy := b.y - a.y
  decide (0 < e) || (e = 0 && (decide (dy < 0) || (dy = 0 && decide (0 < dx))))

/-- The exact quotient n / d rounded once to FP32 after scaling by 2^q (R318). -/
def fpQuot (n : Int) (d : Nat) (q : Int) : Nat :=
  let k := bitLen d + 40
  let m := n.natAbs * 2 ^ k
  let sticky := if m % d = 0 then 0 else 1
  fpRound (.fin (decide (n < 0)) (2 * (m / d) + sticky) (q - (k : Int) - 1))

/-- n / d to the nearest integer, ties to even. -/
def rneQuot (n : Int) (d : Nat) : Int :=
  let lo := n / d
  let rem := n % d
  if 2 * rem < d then lo
  else if (d : Int) < 2 * rem then lo + 1
  else if lo % 2 = 0 then lo else lo + 1

/-- A motion component, saturated to 16 bits, and whether it was (R318). -/
def motion (e0 e1 e2 : Int) (a b c : Int) (mScale : Nat) (s : Int) : Int × Bool :=
  let v := rneQuot ((e0 * a + e1 * b + e2 * c) * mScale) (s.toNat * 524288)
  if v < -32768 then (-32768, true) else if 32767 < v then (32767, true) else (v, false)

/-- One pixel of the four resolved planes, and the saturated components counted for it. -/
structure Pix where
  depth : Nat
  id : Nat
  mat : Nat
  mot : Nat
  sat : Nat
  deriving DecidableEq, Repr

/-- R320. -/
def Pix.clear : Pix := { depth := fpInf, id := 0, mat := 0, mot := 0, sat := 0 }

/-- R317 to R319: one triangle at one pixel. -/
def Pix.resolve (p : Pix) (t : Tri) (mScale r span x y : Nat) : Pix :=
  match t.row r span with
  | none => p
  | some (a, b, c, s) =>
    let px : Int := 256 * x + 128
    let py : Int := 256 * y + 128
    let e0 := edge b c px py
    let e1 := edge c a px py
    let e2 := edge a b px py
    if edgeIn b c e0 && edgeIn c a e1 && edgeIn a b e2 then
      let depth := fpQuot (e0 * a.z + e1 * b.z + e2 * c.z) (s.toNat * span) (-149)
      let mx := motion e0 e1 e2 a.dx b.dx c.dx mScale s
      let my := motion e0 e1 e2 a.dy b.dy c.dy mScale s
      let p := { p with sat := p.sat + boolNat mx.2 + boolNat my.2 }
      if fpLt depth p.depth then
        { p with depth := depth, id := t.v0.id, mat := t.v0.mat,
                 mot := signedCode 16 mx.1 + signedCode 16 my.1 * 2 ^ 16 }
      else p
    else p

/-- The pixel after every triangle of its tile, in submission order. -/
def resolveAll (tris : List Tri) (mScale r span x y : Nat) (start : Pix) : Pix :=
  tris.foldl (fun p t => p.resolve t mScale r span x y) start

/-! ### Tile lists in memory -/

def noBlock : Nat := 0xFFFFFFFF

/-- The blocks of a tile's chain. -/
def Device.chain (d : Device) : (fuel : Nat) → Nat → List Nat
  | 0, _ => []
  | fuel + 1, b => if b = noBlock then [] else b :: Device.chain d fuel (field (d.peek (blockAddr b) 4) 0 4)

/-- The triangle numbers of a tile's list. -/
def Device.entriesOf (d : Device) (blocks : List Nat) : List Nat :=
  blocks.flatMap (fun b =>
    let bs := d.peek (blockAddr b) 256
    (List.range (min 62 (field bs 4 4))).map (fun i => field bs (8 + 4 * i) 4))

/-- R327: where triangle records start. -/
def triBase (nvert : Nat) : Nat := roundUp (24 * nvert) 64

def Device.triRecord (d : Device) (geo nvert n : Nat) : List Byte := d.peek (geo + triBase nvert + 12 * n) 12

/-- Absolute vertex numbers of a triangle record. -/
def triVerts (rcd : List Byte) : List Nat := (List.range 3).map (fun i => field rcd (4 * i) 4 % 2 ^ 24)

def Device.triangle (d : Device) (geo nvert n : Nat) : Tri :=
  let rcd := d.triRecord geo nvert n
  let v (i : Nat) : Vtx := vtxOf (d.peek (geo + 24 * (triVerts rcd).getD i 0) 24)
  { v0 := v 0, v1 := v 1, v2 := v 2, cull := bits (field rcd 0 4) 25 24 }

/-- What the TRU reads for one tile of a set. -/
structure TileWork where
  tile : Nat
  flushed : Bool
  blocks : List Nat
  tris : List Nat
  deriving DecidableEq, Repr

def Device.tileWork (d : Device) (r : RasterRec) (buf : Fin 2) (tile : Nat) : TileWork :=
  let head := d.peek (r.headAddr buf tile) 16
  let blocks := d.chain r.quota (field head 0 4)
  { tile := tile, flushed := bit (field head 12 1) 0, blocks := blocks, tris := d.entriesOf blocks }

/-- Bytes of a flush record (R340). -/
def flushBytes : Nat := 17408

def RasterRec.flushAddr (r : RasterRec) (buf : Fin 2) (tile : Nat) : Nat := r.flushBaseOf buf + tile * flushBytes

/-- Runs that the TRU reads for a tile; a reload reads the flush record too. -/
def Device.tileSpans (d : Device) (r : RasterRec) (g : GeoSet) (w : TileWork) (reload : Bool) : List Span :=
  let geo := r.geoBaseOf g.buf
  let s (a n : Nat) : Span := { addr := a, len := n, store := false }
  s (r.headAddr g.buf w.tile) 16 :: w.blocks.map (fun b => s (blockAddr b) 256) ++
  w.tris.flatMap (fun n =>
    s (geo + triBase g.nvert + 12 * n) 12 ::
      (triVerts (d.triRecord geo g.nvert n)).map (fun v => s (geo + 24 * v) 24)) ++
  (if reload && w.flushed then [s (r.flushAddr g.buf w.tile) flushBytes] else [])

/-- R340: a pixel of a flush record. -/
def flushPix (rcd : List Byte) (i : Nat) : Pix :=
  { depth := field rcd (4 * i) 4, id := field rcd (4096 + 4 * i) 4, mat := field rcd (8192 + i) 1,
    mot := field rcd (9216 + 4 * i) 4, sat := 0 }

/-- Every pixel of a tile in raster order after the entries `tris` of its list, from the pixels `start`; those outside the
viewport keep the clear values. -/
def Device.resolveOn (d : Device) (r : RasterRec) (g : GeoSet) (w : TileWork) (tris : List Nat) (start : Nat → Pix) : List Pix :=
  let tris := tris.map (d.triangle (r.geoBaseOf g.buf) g.nvert)
  let span := max 1 (r.height - 1)
  let (tx, ty) := (w.tile % r.tw, w.tile / r.tw)
  (List.range 1024).map (fun i =>
    let (x, y) := (32 * tx + i % 32, 32 * ty + i / 32)
    if x < r.width ∧ y < r.height then resolveAll tris g.mScale (readoutIndex g.order r.height y) span x y (start i)
    else Pix.clear)

/-- R320, R331: the pixels that a tile starts from: its flush record where it is reloaded, else the clear values. -/
def Device.tileStart (d : Device) (r : RasterRec) (g : GeoSet) (w : TileWork) (reload : Bool) : Nat → Pix :=
  let rcd := d.peek (r.flushAddr g.buf w.tile) flushBytes
  fun i => if reload && w.flushed then flushPix rcd i else Pix.clear

/-- The pixels of a tile after all its entries. -/
def Device.resolveTile (d : Device) (r : RasterRec) (g : GeoSet) (w : TileWork) (reload : Bool) : List Pix :=
  d.resolveOn r g w w.tris (d.tileStart r g w reload)

/-- R315: rows of the viewport in the tile that a triangle of `tris` leaves without a pixel. -/
def Device.culledIn (d : Device) (r : RasterRec) (g : GeoSet) (w : TileWork) (tris : List Nat) : Nat :=
  let geo := r.geoBaseOf g.buf
  let span := max 1 (r.height - 1)
  let top := 32 * (w.tile / r.tw)
  let rows := (List.range (min 32 (r.height - top))).map (top + ·)
  (tris.map (d.triangle geo g.nvert)).foldl (fun n t =>
    n + (rows.filter (fun y => (t.row (readoutIndex g.order r.height y) span).isNone)).length) 0

def Device.culledRows (d : Device) (r : RasterRec) (g : GeoSet) (w : TileWork) : Nat := d.culledIn r g w w.tris

/-- Table 4.16: steps of the tiles. -/
def tileSteps (ws : List TileWork) : Nat := ws.foldl (fun n w => n + 205 + 2 * w.tris.length) 0

/-- TRU counters of engine `e` (Table 7.13). -/
def Device.modTru (d : Device) (e : Nat) (f : TruRegs → TruRegs) : Device :=
  d.modEng e (fun x => { x with tru := f x.tru })

def pixSat (pix : List Pix) : Nat := pix.foldl (fun n p => n + p.sat) 0

end Sys2Proof.Machine
end

