-- ==== Sys2Proof/Machine/Flush.lean ====
section
/-! DEFINITION. The flush job of a partial render (R337 to R342, Table 7.9): its engine, its tiles and their records, and the
end of its lists. -/
namespace Sys2Proof.Machine

/-! ### Head table -/

/-- Head-table entry of a tile: FIRST, LAST, COUNT, FLAGS. -/
def Device.head (d : Device) (r : RasterRec) (buf : Fin 2) (tile : Nat) : Nat × Nat × Nat × Nat :=
  let b := d.peek (r.headAddr buf tile) 16
  (field b 0 4, field b 4 4, field b 8 4, field b 12 1)

def Device.writeHead (d : Device) (r : RasterRec) (buf : Fin 2) (tile first last count flags : Nat) : Device :=
  d.write (r.headAddr buf tile) (leBytes 4 first ++ leBytes 4 last ++ leBytes 4 count ++ leBytes 4 flags)

/-- The same by the RFE, which serves no context. -/
def Device.putHead (d : Device) (r : RasterRec) (buf : Fin 2) (tile first last count flags : Nat) : Device :=
  (d.writeHead r buf tile first last count flags).chargeDevice { well := 16 }

/-! ### The engine of a flush job (R339) -/

/-- R339: the engine of a set's flush job. -/
def Device.flushTo (d : Device) (x : SetRec) : Option Nat :=
  match d.image.rasters[x.1.recIdx]? with
  | none => none
  | some r =>
    let up (e : Nat) : Bool := !(d.eng e).retired && !(d.eng e).asleep
    if up r.flushEngine then some r.flushEngine
    else
      let engines : BitVec 6 := match d.streamCtx x.1.stream with
        | some c => ((d.partRec (d.partOf c)).map PartRec.engines).getD 0
        | none => 0
      (List.range 6).find? (fun e => engines.getLsbD e && up e)

/-- The deadline by which the stripes of a slot must launch: the earliest due plus DEADLINE of its stripe entries. -/
def Device.stripeDeadline (d : Device) (s n : Nat) : Option Nat :=
  match d.active with
  | none => none
  | some i =>
    let per := d.slotsPerCycle s
    (i.entries.filter (fun e => e.bind = 2 && (i.streamsOf e).contains s && decide (e.slot ≤ n) && per != 0 &&
      (n - e.slot) % per = 0)).foldl (fun best e =>
        let at_ := d.t0 + (n - e.slot) / per * i.cycleNs + 1000 * (e.offset + e.deadline)
        match best with
        | none => some at_
        | some b => some (min b at_)) none

/-- R337: a flush window on engine `e` that has opened since `since` is open. -/
def Device.windowOpen (d : Device) (e since : Nat) : Bool :=
  d.itn.windows.any (fun w => w.1 = e && decide (since ≤ w.2.1) && decide (w.2.1 ≤ d.now) && decide (d.now ≤ w.2.2))

/-- R339: in lockstep mode, a flush window on engine `e` that opens from now on and before the stripe deadline. -/
def Device.windowAhead (d : Device) (e s n : Nat) : Bool :=
  match d.active with
  | none => false
  | some i =>
    let before (a : Nat) : Bool := match d.stripeDeadline s n with
      | some l => decide (a < l)
      | none => true
    i.entries.any (fun y => y.target = 2 && y.units.getLsbD e &&
      (let a := d.cycleStart + 1000 * y.offset
       let a := if a < d.now then a + i.cycleNs else a
       before a))

/-- R339: whether engine `e` may take the flush job of a slot: in lockstep mode a window opened since the overflow (order 1, at
`since`) is open or lies ahead. -/
def Device.flushAllowed (d : Device) (e s n since : Nat) : Bool := !d.ctl.lockstep || d.windowOpen e since || d.windowAhead e s n

/-! ### The tiles of a flush job -/

/-- Steps and uses of a flush job on engine `e`, for the context of its stream (R338), or for the device where no context
serves it. -/
def Device.spendFor (d : Device) (e : Nat) (c : Option Nat) (u : Use) : Device :=
  let d := d.modEng e (fun x => { x with steps := x.steps + u.steps, periodSteps := x.periodSteps + u.steps })
  match c with
  | some c => d.charge c u
  | none => d.chargeDevice u

/-- R340: the flush record of a tile; the TIME of rows past the viewport is left open. -/
def Device.flushRecord (d : Device) (r : RasterRec) (g : GeoSet) (tile : Nat) (pix : List Pix) : List Byte × Device :=
  let top := 32 * (tile / r.tw)
  let inside := min 32 (r.height - top)
  let times := (List.range inside).flatMap (fun j =>
    (List.replicate 32 (leBytes 4 (rowTime g.order r.height g.tSpan (top + j)))).flatten)
  let (open_, d) := d.freeBytes (128 * (32 - inside))
  (pix.flatMap (fun p => leBytes 4 p.depth) ++ pix.flatMap (fun p => leBytes 4 p.id) ++
    pix.flatMap (fun p => leBytes 1 p.mat) ++ pix.flatMap (fun p => leBytes 4 p.mot) ++ times ++ open_, d)

/-- Order 5 for one tile, whose record passes its buffer in scratch (R338): written there, then read; a tile whose reads fail at rung 3 is marked INCOMPLETE. -/
def Device.flushTile (d : Device) (e : Nat) (r : RasterRec) (g : GeoSet) (tile : Nat) : Device :=
  let w := d.tileWork r g.buf tile
  let c := d.streamCtx g.stream
  let spans := d.tileSpans r g w true
  let (ok, d) := d.verifyAll (c.getD 0) (spanTiles e spans)
  let d := d.countFill (fillTiles e inWellOrDram spans)
  let d := d.spendFor e c { spanUse e inWellOrDram spans with emptySteps := tileSteps [w] }
  let (first, last, count, flags) := d.head r g.buf tile
  if !ok then (d.writeHead r g.buf tile first last count (withBit flags 1 true)).spendFor e c { well := 16 }
  else
    let pix := d.resolveTile r g w true
    let culled := d.culledRows r g w
    let (bytes, d) := d.flushRecord r g tile pix
    let d := d.write (r.flushAddr g.buf tile) bytes
    let d := d.writeHead r g.buf tile first last count (withBit flags 0 true)
    (d.spendFor e c { dram := flushBytes, well := 16, scratch := 2 * flushBytes }).modTru e (fun x =>
      { x with
        tiles := satInc x.tiles, entries := satAdd x.entries w.tris.length,
        reloads := if w.flushed then satInc x.reloads else x.reloads, flushTiles := satInc x.flushTiles,
        motSat := satAdd x.motSat (pixSat pix), culled := satAdd x.culled culled })

/-- Tiles that a flush job takes, in the order of Table 7.9: those with COUNT > 0. -/
def Device.flushList (d : Device) (r : RasterRec) (buf : Fin 2) : List Nat :=
  (List.range (r.tw * r.th)).filter (fun t =>
    let (_, _, count, _) := d.head r buf t
    decide (0 < count))

/-- At most `n` more tiles of the flush job that runs on engine `e`, of which `done` have been taken. -/
def Device.flushSome (d : Device) (e n done : Nat) (x : SetRec) : Device :=
  match d.image.rasters[x.1.recIdx]? with
  | none => d
  | some r =>
    let l := ((d.flushList r x.1.buf).drop done).take n
    let d := l.foldl (fun (d : Device) t => d.flushTile e r x.1 t) d
    d.putSet (x.1, { x.2 with flush := some (e, true, done + l.length) })

/-- R338: the job starts: the steps that no tile takes, and the two record buffers in scratch. -/
def Device.beginFlush (d : Device) (e : Nat) (x : SetRec) : Device :=
  let done := match x.2.flush with
    | some (_, _, n) => n
    | none => 0
  let d := d.spendFor e (d.streamCtx x.1.stream) { emptySteps := 16 }
  let (bs, d) := d.freeBytes (2 * flushBytes)
  (d.write (scratchBase e) bs).putSet (x.1, { x.2 with flush := some (e, true, done) })

/-- A job that runs stops at its next tile boundary: how many tiles that leaves done follows from timing (log 22). The set,
as it then stands. -/
def Device.haltFlush (d : Device) (x : SetRec) : SetRec × Device :=
  match x.2.flush with
  | some (e, true, done) =>
    let d := d.flushSome e (Config.flushStop e (d.eng e).steps) done x
    ((d.rfe.sets.find? (sameSet x)).getD x, d)
  | _ => (x, d)

/-- Order 7: the lists are empty and the allocator starts again. -/
def Device.resetLists (d : Device) (r : RasterRec) (x : SetRec) : Device :=
  let d := (List.range (r.tw * r.th)).foldl (fun (d : Device) t =>
    let (_, _, _, flags) := d.head r x.1.buf t
    d.putHead r x.1.buf t noBlock noBlock 0 flags) d
  d.putSet (x.1, { x.2 with
    flush := none, nextBlock := r.block0 x.1.buf + r.headBlocks,
    incomplete := (List.range (r.tw * r.th)).any (fun t => bit (d.tileFlags r x.1.buf t) 1) })

/-- Orders 5 to 7: the tiles that are left, then the end. -/
def Device.flushAll (d : Device) (e : Nat) (x : SetRec) : Device :=
  match d.image.rasters[x.1.recIdx]?, x.2.flush with
  | some r, some (_, _, done) => (d.flushSome e (r.tw * r.th) done x).resetLists r x
  | _, _ => d

/-- The set whose flush job runs on an engine. -/
def Device.flushSet (d : Device) (e : Nat) : Option SetRec :=
  d.rfe.sets.find? (fun x => match x.2.flush with
    | some (f, running, _) => f = e && running
    | none => false)

/-- R337, R339: a flush job waits for engine `e` and may start at its next launch boundary, or, in lockstep mode, in a flush
window that has opened since its overflow. -/
def Device.flushDue (d : Device) (e : Nat) (x : SetRec) : Bool :=
  match x.2.flush with
  | some (f, false, _) =>
    f = e && (!d.ctl.lockstep || d.windowOpen e x.2.flushAt)
  | _ => false

/-! ### Release (R310) -/

/-- Sets whose release is due are freed, with their bin blocks and buffers; a flush job of such a set stops. -/
def Device.releaseSets (d : Device) : Device :=
  (d.rfe.sets.filter d.releasable).foldl (fun d x => let (x, d) := d.haltFlush x; d.dropSet x) d

end Sys2Proof.Machine
end

