-- ==== Sys2Proof/Machine/Imaging.lean ====
section
/-! DEFINITION. What the vision units compute (chapter 8), as exact functions of images: census codes, the pyramid
and window searches of optical flow (R366 to R375), semi-global matching (R377 to R384) and remap sampling
(R385 to R391). -/
namespace Sys2Proof.Machine

/-! ### Images -/

/-- An image of plain values, row by row. -/
structure Img where
  w : Nat
  h : Nat
  px : Array Nat
  deriving DecidableEq, Repr

/-- An integer clamped to the positions 0 to n − 1. -/
def clampTo (n : Nat) (v : Int) : Nat := (max 0 (min ((n : Int) - 1) v)).toNat

/-- The value at the clamped position. -/
def Img.at (m : Img) (x y : Int) : Nat := m.px.getD (clampTo m.h y * m.w + clampTo m.w x) 0

def Img.tab (w h : Nat) (f : Nat → Nat → Nat) : Img :=
  { w := w, h := h, px := Array.ofFn (n := w * h) (fun i => f (i.val % w) (i.val / w)) }

/-- An image of UINT8 elements from memory; `w` is the window that holds it. -/
def Desc.img (t : Desc) (w : List (Nat × Byte)) : Img := Img.tab t.width t.height (fun x y => t.code w 0 y x)

/-! ### Census codes and costs (R367, R368, R378, R379) -/

/-- Neighbours (dy, dx) of a census window of half sizes ry and rx in raster order, without the centre. -/
def neighbours (ry rx : Nat) : List (Int × Int) :=
  ((List.range (2 * ry + 1)).flatMap (fun (j : Nat) => (List.range (2 * rx + 1)).map (fun (i : Nat) =>
    ((j : Int) - ry, (i : Int) - rx)))).filter (fun o => o ≠ (0, 0))

/-- Bits set where a neighbour is less than the sample. -/
def Img.censusAt (m : Img) (nb : List (Int × Int)) (x y : Nat) : Nat :=
  let c := m.at x y
  (nb.foldl (fun (s : Nat × Nat) o =>
    (if m.at (x + o.2) (y + o.1) < c then s.1 + s.2 else s.1, 2 * s.2)) (0, 1)).1

def Img.census (m : Img) (nb : List (Int × Int)) : Img := Img.tab m.w m.h (m.censusAt nb)

/-- Bits set of a number below 2^n. -/
def popCount : (n : Nat) → Nat → Nat
  | 0, _ => 0
  | n + 1, v => v % 2 + popCount n (v / 2)

/-- R368: the cost of candidate u at p, over the 3 × 3 block. -/
def flowCost (kc kp : Img) (x y : Nat) (ux uy : Int) : Nat :=
  (List.range 9).foldl (fun n i =>
    let qx : Int := (i % 3 : Nat) - 1
    let qy : Int := (i / 3 : Nat) - 1
    n + popCount 24 (kc.at (x + qx) (y + qy) ^^^ kp.at (x + qx - ux) (y + qy - uy))) 0

/-! ### A flow search (R369, R373, R374) -/

/-- What a search finds at a pixel: a usable match, the refined estimate per component, the confidence. -/
structure Found where
  usable : Bool
  ux : Int
  uy : Int
  conf : Nat
  deriving DecidableEq, Repr

/-- R373: the sub-pixel offset from three costs. -/
def subPixel (cm c0 cp : Int) : Int :=
  let den := 2 * (cm - 2 * c0 + cp)
  if den = 0 then 0 else (64 * (cm - cp) + den) / (2 * den)

/-- R369: whether a candidate comes before another, as (cost, dx, dy) with offsets from the centre. -/
def betterMatch (a b : Nat × Int × Int) : Bool :=
  let key (c : Nat × Int × Int) : List Int := [c.1, c.2.2.natAbs, c.2.1.natAbs, c.2.2, c.2.1]
  decide (key a < key b)

/-- R374: 255 × (c2 − c1) / c2, at least 1. -/
def confidence (c1 c2 : Nat) : Nat := max 1 (255 * (c2 - c1) / c2)

/-- The search of every integer offset within ±r of a centre. -/
def flowSearch (cost : Int → Int → Nat) (r cmax : Nat) (cx cy : Int) : Found :=
  let off := (List.range (2 * r + 1)).map (fun (i : Nat) => (i : Int) - r)
  let cands : List (Nat × Int × Int) := off.flatMap (fun dy => off.map (fun dx => (cost (cx + dx) (cy + dy), dx, dy)))
  match cands with
  | [] => { usable := false, ux := 0, uy := 0, conf := 0 }
  | c :: cs =>
    let best := cs.foldl (fun m y => if betterMatch y m then y else m) c
    let (c1, dx, dy) := best
    let far := cands.filter (fun y => decide (1 < (y.2.1 - dx).natAbs) || decide (1 < (y.2.2 - dy).natAbs))
    let c2 := far.foldl (fun m y => min m y.1) 0xFFFF
    let at_ (ax ay : Int) : Option Nat := (cands.find? (fun y => y.2.1 = ax && y.2.2 = ay)).map (·.1)
    let fx := match at_ (dx - 1) dy, at_ (dx + 1) dy with
      | some m, some p => subPixel m c1 p
      | _, _ => 0
    let fy := match at_ dx (dy - 1), at_ dx (dy + 1) with
      | some m, some p => subPixel m c1 p
      | _, _ => 0
    { usable := !(decide (cmax < c1) || c2 = c1), ux := 32 * (cx + dx) + fx, uy := 32 * (cy + dy) + fy,
      conf := confidence c1 c2 }

/-! ### The pyramid (R370, R371) -/

/-- R370: the next level of an image. -/
def Img.down (m : Img) : Img :=
  let wt (a : Nat) : Nat := [1, 4, 6, 4, 1].getD a 0
  Img.tab (ceilDiv m.w 2) (ceilDiv m.h 2) (fun x y =>
    ((List.range 25).foldl (fun s i =>
      let a := i / 5
      let b := i % 5
      s + wt a * wt b * m.at (2 * x + ((b : Int) - 2)) (2 * y + ((a : Int) - 2))) 128) / 256)

/-- Levels 0 to n of an image. -/
def levels : (n : Nat) → Img → List Img
  | 0, m => [m]
  | n + 1, m => m :: levels n m.down

/-- What every pixel of a level finds. -/
structure FoundImg where
  w : Nat
  px : Array Found
  deriving DecidableEq, Repr

def FoundImg.at (m : FoundImg) (x y : Nat) : Found :=
  m.px.getD (y * m.w + x) { usable := false, ux := 0, uy := 0, conf := 0 }

/-- (2 × û + 16) >> 5 of the pixel above, 0 when it has no usable match (R371). -/
def Found.centre (f : Found) : Int × Int :=
  if f.usable then ((2 * f.ux + 16) / 32, (2 * f.uy + 16) / 32) else ((16 : Int) / 32, (16 : Int) / 32)

/-- A level searched; without a level above it, every u in [−4, 4]. -/
def searchLevel (cur prev : Img) (cmax : Nat) (above : Option FoundImg) : FoundImg :=
  let nb := neighbours 2 2
  let kc := cur.census nb
  let kp := prev.census nb
  { w := cur.w, px := Array.ofFn (n := cur.w * cur.h) (fun i =>
      let x := i.val % cur.w
      let y := i.val / cur.w
      match above with
      | none => flowSearch (flowCost kc kp x y) 4 cmax 0 0
      | some a =>
        let c := (a.at (x / 2) (y / 2)).centre
        flowSearch (flowCost kc kp x y) 2 cmax c.1 c.2) }

/-- Levels from the finest to the coarsest; the coarsest is searched first. -/
def pyramid (cmax : Nat) : List (Img × Img) → Option FoundImg
  | [] => none
  | (c, p) :: rest => some (searchLevel c p cmax (pyramid cmax rest))

/-- R371: what level 0 finds. -/
def pyramidFlow (cur prev : Img) (cmax : Nat) : FoundImg :=
  (pyramid cmax ((levels 4 cur).zip (levels 4 prev))).getD { w := 0, px := #[] }

/-- The two signed components of an element of 2 × S16. -/
def motionOf (code : Nat) : Int × Int := (signedOf 16 code, signedOf 16 (code / 2 ^ 16))

/-- R372: the search of a window-mode pixel around its prediction. -/
def windowFlow (kc kp : Img) (cmax : Nat) (v : Int × Int) (x y : Nat) : Found :=
  flowSearch (flowCost kc kp x y) 16 cmax ((v.1 + 16) / 32) ((v.2 + 16) / 32)

/-- R375: a component saturated to 16 bits, and whether it was. -/
def sat16 (v : Int) : Int × Bool :=
  if v < -32768 then (-32768, true) else if 32767 < v then (32767, true) else (v, false)

/-- One output element of a flow job: MOT, CONF, saturated components, no usable match. -/
structure FlowOut where
  mot : Nat
  conf : Nat
  sats : Nat
  lost : Bool
  deriving DecidableEq, Repr

/-- R375; `miss` is the MOT element of a pixel without a usable match. -/
def Found.out (f : Found) (miss : Nat) : FlowOut :=
  if f.usable then
    let a := sat16 f.ux
    let b := sat16 f.uy
    { mot := signedCode 16 a.1 + signedCode 16 b.1 * 2 ^ 16, conf := f.conf, sats := boolNat a.2 + boolNat b.2,
      lost := false }
  else { mot := miss, conf := 0, sats := 0, lost := true }

/-- Rows of CUR or PREV that census positions from `lo` to `hi` read, each position clamped (R367, R368). -/
def censusRows (h : Nat) (lo hi : Int) (y : Nat) : Bool :=
  let a := clampTo h lo
  let b := clampTo h hi
  decide (clampTo h ((a : Int) - 2) ≤ y) && decide (y ≤ clampTo h ((b : Int) + 2))

/-! ### Semi-global matching (R378 to R384) -/

/-- R379: the 62-bit census difference; 62 where the right pixel is outside. -/
def stereoCost (kl kr : Img) (dmin x y d : Nat) : Nat :=
  if x < dmin + d then 62 else popCount 62 (kl.at x y ^^^ kr.at ((x : Int) - (dmin + d : Nat)) y)

/-- R380 at a pixel with a predecessor. -/
def pathStep (p1 p2 : Nat) (c prev : Array Nat) : Array Nat :=
  let m := prev.foldl min 0xFFFF
  Array.ofFn (n := c.size) (fun d =>
    let i := d.val
    let same := prev.getD i 0
    let dn := if i = 0 then same else prev.getD (i - 1) 0 + p1
    let up := if i + 1 < c.size then prev.getD (i + 1) 0 + p1 else same
    c.getD i 0 + min (min same dn) (min up (m + p2)) - m)

/-- The path costs of a direction (rx, ry) at every pixel, in the scan order of its pass (Table 8.7). -/
def pathCosts (w h p1 p2 : Nat) (cost : Array (Array Nat)) (back : Bool) (rx ry : Int) : Array (Array Nat) :=
  let n := w * h
  let place (i : Nat) : Nat := if back then n - 1 - i else i
  let scan := (List.range n).foldl (fun (acc : Array (Array Nat)) k =>
    let i := place k
    let x : Int := (i % w : Nat) - rx
    let y : Int := (i / w : Nat) - ry
    let c := cost.getD i #[]
    acc.push (if 0 ≤ x ∧ x < w ∧ 0 ≤ y ∧ y < h then
      pathStep p1 p2 c (acc.getD (place (y.toNat * w + x.toNat)) #[]) else c)) #[]
  Array.ofFn (n := n) (fun i => scan.getD (place i.val) #[])

def sumCosts (a b : Array (Array Nat)) : Array (Array Nat) :=
  Array.ofFn (n := a.size) (fun i =>
    let x := a.getD i.val #[]
    let y := b.getD i.val #[]
    Array.ofFn (n := x.size) (fun d => x.getD d.val 0 + y.getD d.val 0))

/-- The sum of a pass's four path costs. -/
def passCosts (w h p1 p2 : Nat) (cost : Array (Array Nat)) (back : Bool) : Array (Array Nat) :=
  let dirs : List (Int × Int) :=
    if back then [(-1, -1), (0, -1), (1, -1)] else [(1, 1), (0, 1), (-1, 1)]
  let first : Int × Int := if back then (-1, 0) else (1, 0)
  dirs.foldl (fun s r => sumCosts s (pathCosts w h p1 p2 cost back r.1 r.2)) (pathCosts w h p1 p2 cost back first.1 first.2)

/-- The index of the least value among those that `ok` allows, ties to the smaller index. -/
def leastOf (s : Array Nat) (ok : Nat → Bool) : Nat × Nat :=
  (List.range s.size).foldl (fun (m : Nat × Nat) d =>
    if ok d && decide (s.getD d 0 < m.2) then (d, s.getD d 0) else m) (0, 0xFFFF)

/-- A stereo job's settings. -/
structure StereoSet where
  w : Nat
  dmin : Nat
  nd : Nat
  uniq : Nat
  lrTol : Nat
  smax : Nat
  deriving DecidableEq, Repr

/-- R383: the right-view winner at (x′, y). -/
def rightWinner (j : StereoSet) (s : Array (Array Nat)) (x y : Nat) : Nat :=
  ((List.range j.nd).foldl (fun (m : Nat × Nat) d =>
    let xl := x + j.dmin + d
    let v := (s.getD (y * j.w + xl) #[]).getD d 0
    if xl < j.w ∧ v < m.2 then (d, v) else m) (0, 0xFFFF)).1

inductive StereoKind where
  | matched | noMatch | occluded
  deriving DecidableEq, Repr

/-- R382 to R384: a pixel's DISP element and confidence. -/
def stereoPixel (j : StereoSet) (s : Array (Array Nat)) (x y : Nat) : StereoKind × Nat × Nat :=
  let p := s.getD (y * j.w + x) #[]
  let (d, s1) := leastOf p (fun _ => true)
  let s2 := (leastOf p (fun k => decide (k + 1 < d) || decide (d + 1 < k))).2
  if j.smax < s1 ∨ s2 = s1 ∨ 100 * (s2 - s1) < j.uniq * s2 then (.noMatch, 0xFFFF, 0)
  else
    let far (a b : Nat) : Bool := decide (j.lrTol < a - b) || decide (j.lrTol < b - a)
    if x < j.dmin + d then (.occluded, 0xFFFE, 0)
    else if far d (rightWinner j s (x - j.dmin - d) y) then (.occluded, 0xFFFE, 0)
    else
      let f : Int := if d = 0 ∨ d + 1 = j.nd then 0 else subPixel (p.getD (d - 1) 0) s1 (p.getD (d + 1) 0)
      (.matched, (32 * ((j.dmin + d : Nat) : Int) + f).toNat, confidence s1 s2)

/-- R381: the stored sums of a pixel: two 12-bit values in each 3 bytes. -/
def sumBytes (s : Array Nat) : List Byte :=
  (List.range (s.size / 2)).flatMap (fun k => leBytes 3 (s.getD (2 * k) 0 % 4096 + s.getD (2 * k + 1) 0 % 4096 * 4096))

/-! ### Remap (R386 to R391) -/

/-- R386: a mesh value, bits [19:0] sign-extended. -/
def meshValue (code : Nat) : Int := signedOf 20 code

/-- R387: a source coordinate, in 1/64 pixel, from the mesh values of plane c. -/
def meshPos (node : Nat → Nat → Int) (x y : Nat) : Int :=
  let i := x / 16
  let j := y / 16
  let a : Int := (x % 16 : Nat)
  let b : Int := (y % 16 : Nat)
  ((16 - a) * (16 - b) * node i j + a * (16 - b) * node (i + 1) j + (16 - a) * b * node i (j + 1) +
    a * b * node (i + 1) (j + 1) + 128) / 256

/-- R389: the four weights of a fraction of 1/64, in 1/1,024, the tap of ix made up to 1,024. -/
def cubicWeights (f : Nat) : List Int :=
  let k (n : Int) : Int :=
    let v := if n ≤ 64 then 3 * n ^ 3 - 320 * n ^ 2 + 524288 else 320 * n ^ 2 - n ^ 3 - 32768 * n + 1048576
    rneQuot v 512
  let w0 := k (64 + f)
  let w2 := k (64 - f)
  let w3 := k (128 - f)
  [w0, 1024 - w0 - w2 - w3, w2, w3]

/-- Weights of an axis with the first tap's distance from the index: bilinear or bicubic. -/
def axisWeights (cubic : Bool) (f : Nat) : Int × List Int :=
  if cubic then (-1, cubicWeights f) else (0, [64 - (f : Int), f])

/-- A tap with its signed weight. -/
structure MeshTap where
  weight : Int
  y : Int
  x : Int
  deriving DecidableEq, Repr

/-- R388 to R390: the taps of nonzero weight of a source position. -/
def remapTaps (cubic : Bool) (sx sy : Int) : List MeshTap :=
  let (ox, wx) := axisWeights cubic (sx % 64).toNat
  let (oy, wy) := axisWeights cubic (sy % 64).toNat
  (List.range wy.length).flatMap (fun j => (List.range wx.length).filterMap (fun i =>
    let w := wy.getD j 0 * wx.getD i 0
    if w = 0 then none else some { weight := w, y := sy / 64 + oy + j, x := sx / 64 + ox + i }))

def MeshTap.inside (t : MeshTap) (h w : Nat) : Bool := decide (0 ≤ t.y ∧ t.y < h ∧ 0 ≤ t.x ∧ t.x < w)

/-- A tap's contribution: an infinity keeps its own sign whatever its weight's (R242). -/
def weighted (w : Int) (s : Num) : Num :=
  match s with
  | .fin .. => numMul (intNum w 0) s
  | _ => s

/-- R388, R389: the exact element before its one conversion. -/
def remapValue (cubic : Bool) (taps : List MeshTap) (h w : Nat) (border : Num) (src : Nat → Nat → Num) : Num :=
  numScale (if cubic then -20 else -12) (exactTotal (taps.map (fun t =>
    weighted t.weight (if t.inside h w then src t.y.toNat t.x.toNat else border))))

end Sys2Proof.Machine
end

