-- ==== Sys2Proof/Machine/VisionJobs.lean ====
section
/-! DEFINITION. The outputs of the vision jobs (chapter 8): bands (R360), optical flow (R366 to R376), stereo (R377 to R384) and
remap (R385 to R391), row by row, with what a job that stops has done. -/
namespace Sys2Proof.Machine

/-! ### Rows and bands -/

/-- A job whose output comes in bands. -/
def hasBands (job : List Byte) : Bool := field job 2 1 = 2 || (field job 2 1 = 0 && field job 3 1 = 1)

/-- R452: bytes and output pixels, charged to the launching context. -/
def Device.chargeVision (d : Device) (r : VRun) (spans : List Span) (pixels : Nat) : Device :=
  let d := d.countFill (fillTiles 0 inWellOrDram spans)
  d.charge r.launch.ctx { spanUse 0 inWellOrDram spans with pixels := pixels }

/-- R360: the first `k` of a job's output rows, in bands of BAND_ROWS, each signalled when all its rows are written and sealed. -/
def Device.putBands (job : List Byte) (put : Device → Nat → Device) : (fuel : Nat) → Device → List Nat → (k : Nat) → Device
  | 0, d, _, _ => d
  | fuel + 1, d, rows, k =>
    if rows.isEmpty ∨ k = 0 then d
    else
      let band := rows.take (max 1 (field job 30 2))
      let d := (band.take k).foldl put d
      let d := if field job 21 1 = 0 ∨ k < band.length then d else d.signalFlag (field job 22 2) (field job 21 1)
      Device.putBands job put fuel d (rows.drop band.length) (k - band.length)

/-- The first `k` rows put one by one, in bands where the job has them (R360). -/
def Device.putSomeRows (d : Device) (r : VRun) (rows : List Nat) (put : Device → Nat → Device) (k : Nat) : Device :=
  if hasBands r.job then Device.putBands r.job put (rows.length + 1) d rows k else (rows.take k).foldl put d

/-- All rows. -/
def Device.putJobRows (d : Device) (r : VRun) (rows : List Nat) (put : Device → Nat → Device) : Device :=
  d.putSomeRows r rows put rows.length

/-- Bytes of a plane written row by row. -/
def Device.putPlaneRow (d : Device) (t : Desc) (y : Nat) (code : Nat → Nat) : Device :=
  d.putRowOf id t y 1 t.width (fun _ x => code x)

/-! ### Flow -/

/-- R366: s of the prediction's extents. -/
def predShift (cur pred : Desc) : Option Nat :=
  (List.range 3).find? (fun s => pred.width = ceilDiv cur.width (2 ^ s) && pred.height = ceilDiv cur.height (2 ^ s))

/-- The output rows of a flow job: all of them, or those of a window. -/
def VRun.flowRows (r : VRun) : List Nat :=
  if field r.job 3 1 = 0 then List.range (descAt r.descs r.job 32).height
  else (List.range (field r.job 42 2)).map (field r.job 40 2 + ·)

/-- R376: the work buffer of a pyramid job. -/
def VRun.flowWork (r : VRun) : List Span :=
  let t := descAt r.descs r.job 37
  if field r.job 3 1 = 0 then [{ addr := t.base, len := t.workBytes, store := true }] else []

/-- The prediction of a window job at pixel (x, y), as its code (R366), from the memory `w` of the predictions. -/
def VRun.flowPrediction (r : VRun) (w : List (Nat × Byte)) (x y : Nat) : Nat :=
  let t := descAt r.descs r.job
  let s := (predShift (t 32) (t 34)).getD 0
  (t 34).code w 0 (y / 2 ^ s) (x / 2 ^ s)

/-- What a flow job reads and writes. -/
def Device.flowSpans (d : Device) (r : VRun) : List Span :=
  let t := descAt r.descs r.job
  let (cur, prev, pred, mot, conf) := (t 32, t 33, t 34, t 35, t 36)
  if field r.job 3 1 = 0 then
    cur.allSpans false ++ prev.allSpans false ++ mot.allSpans true ++ conf.allSpans true ++ r.flowWork
  else
    let h := cur.height
    let s := (predShift cur pred).getD 0
    let w := d.plainWindow pred
    let shifts := r.flowRows.flatMap (fun y =>
      ((List.range cur.width).map (fun x => ((motionOf (r.flowPrediction w x y)).2 + 16) / 32)).eraseDups.map
        (fun c => ((y : Int), c)))
    let curRows := (List.range h).filter (fun k => r.flowRows.any (fun y => censusRows h ((y : Int) - 1) (y + 1) k))
    let prevRows := (List.range h).filter (fun k => shifts.any (fun p => censusRows h (p.1 - 17 - p.2) (p.1 + 17 - p.2) k))
    let predRows := (r.flowRows.map (· / 2 ^ s)).eraseDups
    pred.rowSpans false predRows ++ cur.rowSpans false curRows ++ prev.rowSpans false prevRows ++
      mot.rowSpans true r.flowRows ++ conf.rowSpans true r.flowRows

/-- R42: the job's slot belongs to a re-simulation stream that has accepted only one anchor. -/
def Device.flowStill (d : Device) (r : VRun) : Bool :=
  (d.serveOf r.launch.due).any (fun v => v.bind.isSome && v.streams.any (fun s => d.oneAnchor s v.slot))

/-- R370 to R375: the outputs that the search of a flow job finds, row by row, from memory as it stands in `d`. -/
def Device.flowSearch (d : Device) (r : VRun) : Array FlowOut :=
  let t := descAt r.descs r.job
  let cur := (t 32).img (d.plainWindow (t 32))
  let prev := (t 33).img (d.plainWindow (t 33))
  if field r.job 3 1 = 0 then (pyramidFlow cur prev (field r.job 38 1)).px.map (fun f => f.out 0)
  else
    let nb := neighbours 2 2
    let kc := cur.census nb
    let kp := prev.census nb
    let w := (t 32).width
    let y0 := field r.job 40 2
    let pw := d.plainWindow (t 34)
    Array.ofFn (n := field r.job 42 2 * w) (fun i =>
      let x := i.val % w
      let y := y0 + i.val / w
      (windowFlow kc kp (field r.job 38 1) (motionOf (r.flowPrediction pw x y)) x y).out (r.flowPrediction pw x y))

/-- The outputs of a flow job: those of its search, or zero motion with confidence 0 (R42). -/
def Device.flowOuts (d : Device) (r : VRun) : Array FlowOut :=
  if d.flowStill r then (d.flowSearch r).map (fun _ => { mot := 0, conf := 0, sats := 0, lost := false }) else d.flowSearch r

/-- The motion and confidence of row y. -/
def Device.putFlowRow (r : VRun) (outs : Array FlowOut) (d : Device) (y : Nat) : Device :=
  let t := descAt r.descs r.job
  let at_ (x : Nat) : FlowOut :=
    outs.getD ((y - r.flowRows.headD 0) * (t 35).width + x) { mot := 0, conf := 0, sats := 0, lost := false }
  (d.putPlaneRow (t 35) y (fun x => (at_ x).mot)).putPlaneRow (t 36) y (fun x => (at_ x).conf)

/-- Pixels of a flow job. -/
def VRun.flowPixels (r : VRun) : Nat := r.flowRows.length * (descAt r.descs r.job 32).width

/-- What the outputs of a flow job add to FLOW_NOMATCH and FLOW_SAT. -/
def Device.countFlow (d : Device) (u : Nat) (outs : List FlowOut) : Device :=
  d.modUnit u (fun y =>
    { y with
      countA := satAdd y.countA (outs.filter (·.lost)).length
      countB := satAdd y.countB (outs.foldl (fun n o => n + o.sats) 0) })

/-! ### Stereo -/

/-- ND of a stereo job. -/
def disparities (job : List Byte) : Nat := 64 * 2 ^ min 3 (field job 37 1)

/-- R378, R379: the costs of every pixel and disparity. -/
def Device.stereoCosts (d : Device) (r : VRun) : Array (Array Nat) :=
  let t := descAt r.descs r.job
  let (left, right) := (t 32, t 33)
  let nb := neighbours 3 4
  let kl := (left.img (d.plainWindow left)).census nb
  let kr := (right.img (d.plainWindow right)).census nb
  Array.ofFn (n := left.width * left.height) (fun i =>
    Array.ofFn (n := disparities r.job) (fun k =>
      stereoCost kl kr (field r.job 38 2) (i.val % left.width) (i.val / left.width) k.val))

/-- R380: the sums of a pass over costs. -/
def VRun.stereoPass (r : VRun) (cost : Array (Array Nat)) (back : Bool) :=
  let t := descAt r.descs r.job 32
  passCosts t.width t.height (field r.job 40 1) (field r.job 41 1) cost back

/-- R382 to R384: kind, disparity code and confidence of every pixel, row by row. -/
def VRun.stereoOuts (r : VRun) (cost : Array (Array Nat)) : Array (StereoKind × Nat × Nat) :=
  let f := field r.job
  let t := descAt r.descs r.job 32
  let total := sumCosts (r.stereoPass cost false) (r.stereoPass cost true)
  let j : StereoSet :=
    { w := t.width, dmin := f 38 2, nd := disparities r.job, uniq := f 42 1, lrTol := f 43 1, smax := f 44 2 }
  Array.ofFn (n := t.width * t.height) (fun i => stereoPixel j total (i.val % t.width) (i.val / t.width))

/-- The bytes of the forward pass in WORK (R381, log 16). -/
def VRun.stereoBytes (r : VRun) (cost : Array (Array Nat)) : List Byte := (r.stereoPass cost false).toList.flatMap sumBytes

/-- The images that a stereo job reads. -/
def VRun.stereoInputs (r : VRun) : List Span :=
  (descAt r.descs r.job 32).allSpans false ++ (descAt r.descs r.job 33).allSpans false

/-- The disparities and confidences of row y. -/
def Device.putStereoRow (r : VRun) (outs : Array (StereoKind × Nat × Nat)) (d : Device) (y : Nat) : Device :=
  let t := descAt r.descs r.job
  let at_ (x : Nat) : StereoKind × Nat × Nat := outs.getD (y * (t 32).width + x) (.noMatch, 0, 0)
  (d.putPlaneRow (t 34) y (fun x => (at_ x).2.1)).putPlaneRow (t 35) y (fun x => (at_ x).2.2)

/-- What the outputs of a stereo job add to STEREO_NOMATCH and STEREO_OCCLUDED. -/
def Device.countStereo (d : Device) (u : Nat) (outs : List (StereoKind × Nat × Nat)) : Device :=
  let count (k : StereoKind) : Nat := (outs.filter (fun o => o.1 = k)).length
  d.modUnit u (fun x => { x with countA := satAdd x.countA (count .noMatch), countB := satAdd x.countB (count .occluded) })

/-! ### Remap -/

/-- R391: the first and last source rows that a remap job may read. -/
def remapReach (cubic : Bool) (h : Nat) (ys : List Int) : Nat × Nat :=
  let lo := ys.foldl min (ys.headD 0)
  let hi := ys.foldl max (ys.headD 0)
  (clampTo h (lo / 64 - (if cubic then 1 else 0)), clampTo h (hi / 64 + (if cubic then 2 else 1)))

/-- Mesh node rows of the job's output rows (R391). -/
def meshRows (job : List Byte) : List Nat :=
  let r0 := field job 36 2
  let j0 := r0 / 16
  let j1 := (r0 + field job 38 2 - 1) / 16 + 1
  (List.range (j1 - j0 + 1)).map (j0 + ·)

/-- The output rows of a remap job. -/
def VRun.remapRows (r : VRun) : List Nat := (List.range (field r.job 38 2)).map (field r.job 36 2 + ·)

/-- R386 to R390: the taps of output pixel (x, y), from the memory `w` of the mesh. -/
def VRun.remapAt (r : VRun) (w : List (Nat × Byte)) (x y : Nat) : List MeshTap :=
  let mesh := descAt r.descs r.job 34
  let node (c i j : Nat) : Int := meshValue (mesh.code w c j i)
  remapTaps (field r.job 3 1 = 1) (meshPos (node 0) x y) (meshPos (node 1) x y)

/-- What a remap job reads and writes. -/
def VRun.remapSpans (r : VRun) (mw : List (Nat × Byte)) : List Span :=
  let t := descAt r.descs r.job
  let (src, out) := (t 32, t 33)
  let reads := r.remapRows.flatMap (fun y => (List.range out.width).flatMap (fun x =>
    ((r.remapAt mw x y).filter (fun q => q.inside src.height src.width)).flatMap (fun q =>
      (List.range src.channels).map (fun c => src.elemSpan c q.y.toNat q.x.toNat))))
  (t 34).rowSpans false (meshRows r.job) ++ reads ++ out.rowSpans true r.remapRows

/-- R387 to R391: the output code of channel c at (y, x), from the memory of the source and of the mesh. -/
def VRun.remapCode (r : VRun) (w mw : List (Nat × Byte)) (c y x : Nat) : Nat :=
  let t := descAt r.descs r.job
  convert (t 33).fmt .rne true
    (remapValue (field r.job 3 1 = 1) (r.remapAt mw x y) (t 32).height (t 32).width
      (fpNum (field r.job (40 + 4 * c) 4)) (fun sy sx => (t 32).num w c sy sx))

/-- Row y of a remap job's output. -/
def Device.putRemapRow (r : VRun) (code : Nat → Nat → Nat → Nat) (d : Device) (y : Nat) : Device :=
  let out := descAt r.descs r.job 33
  d.putRowOf id out y out.channels out.width (fun c x => code c y x)

/-- Output pixels with a tap outside the source. -/
def VRun.remapOutside (r : VRun) (mw : List (Nat × Byte)) : Nat :=
  let t := descAt r.descs r.job
  r.remapRows.foldl (fun n y => (List.range (t 33).width).foldl (fun n x =>
    if (r.remapAt mw x y).any (fun q => !q.inside (t 32).height (t 32).width) then n + 1 else n) n) 0

/-! ### A job that stops -/

/-- The job over the first `k` of its output rows (a window or remap job). -/
def VRun.first (r : VRun) (k : Nat) : VRun :=
  let o := if field r.job 2 1 = 2 then 38 else 42
  { r with job := r.job.take o ++ leBytes 2 k ++ r.job.drop (o + 2) }

/-- Tiles that the spans read. -/
def readTilesOf (spans : List Span) : List Nat := spanTiles 0 (spans.filter (fun s => !s.store))

/-- R364: a job that stops has read no tile that fails its check, nor the tile `lost` that stopped it. -/
def Device.unread (d : Device) (lost : Option Nat) (tile : Nat) : Bool := lost = some tile || !d.passes tile

/-- Rows that a window or remap job has written when it stops: at most `n`, and none that needs a tile it has not read. -/
def stoppedRows (reads : Nat → List Nat) (unread : Nat → Bool) (n : Nat) : Nat :=
  ((List.range n).takeWhile (fun i => !(reads (i + 1)).any unread)).length

/-- A flow job of unit u that stops: a pyramid job has read its images whole before its first output row. -/
def Device.stopFlow (d : Device) (u : Nat) (r : VRun) (lost : Option Nat) (n : Nat) : Nat × Device :=
  let outs := d.flowOuts r
  let rows := r.flowRows
  let w := (descAt r.descs r.job 32).width
  if field r.job 3 1 = 0 then
    let k := if lost.isSome || (readTilesOf (d.flowSpans r)).any (d.unread lost) then 0 else min n rows.length
    let spans := if k = 0 then [] else d.flowSpans r
    let d := (d.freeSpans 0 r.flowWork).chargeVision r (spans.filter (fun s => !s.store)) (k * w)
    (k * w, (d.putSomeRows r rows (Device.putFlowRow r outs) k).countFlow u (outs.toList.take (k * w)))
  else
    let k := stoppedRows (fun i => readTilesOf (d.flowSpans (r.first i))) (d.unread lost) (min n rows.length)
    let d := d.chargeVision r (if k = 0 then [] else d.flowSpans (r.first k)) (k * w)
    (k * w, (d.putSomeRows r rows (Device.putFlowRow r outs) k).countFlow u (outs.toList.take (k * w)))

/-- A stereo job that stops: the backward pass writes the outputs, from the last row up. -/
def Device.stopStereo (d : Device) (u : Nat) (r : VRun) (lost : Option Nat) (n : Nat) : Nat × Device :=
  let t := descAt r.descs r.job
  let h := (t 32).height
  let k := if (readTilesOf r.stereoInputs).any (d.unread lost) then 0 else min n h
  let cost := d.stereoCosts r
  let outs := r.stereoOuts cost
  let work : Span := { addr := (t 36).base, len := (r.stereoBytes cost).length, store := true }
  let w := (t 32).width
  let d := (d.freeSpans 0 [work]).chargeVision r (if k = 0 then [] else r.stereoInputs) (k * w)
  let d := ((List.range h).reverse.take k).foldl (Device.putStereoRow r outs) d
  (k * w, d.countStereo u (outs.toList.drop ((h - k) * w)))

/-- A remap job that stops. -/
def Device.stopRemap (d : Device) (u : Nat) (r : VRun) (lost : Option Nat) (n : Nat) : Nat × Device :=
  let t := descAt r.descs r.job
  let sw := d.plainWindow (t 32)
  let mw := d.plainWindow (t 34)
  let k := stoppedRows (fun i => readTilesOf ((r.first i).remapSpans mw)) (d.unread lost) (min n r.remapRows.length)
  let pixels := k * (t 33).width
  let d := d.chargeVision r (if k = 0 then [] else (r.first k).remapSpans mw) pixels
  let d := d.putSomeRows r r.remapRows (Device.putRemapRow r (r.remapCode sw mw)) k
  (pixels, d.modUnit u (fun y => { y with countA := satAdd y.countA (if k = 0 then 0 else (r.first k).remapOutside mw) }))

/-- What a job under way has done when it stops, at its next output or pass row (R392): how many rows those are follows from
timing (log 41), but none needs the tile `lost`. Its output pixels so far, and the device. -/
def Device.stopJob (d : Device) (u : Nat) (r : VRun) (lost : Option Nat) : Nat × Device :=
  if !r.satisfied then (0, d)
  else
    let n := Config.visionStop u d.now
    let (pixels, d) := match field r.job 2 1 with
      | 0 => d.stopFlow u r lost n
      | 1 => d.stopStereo u r lost n
      | _ => d.stopRemap u r lost n
    (pixels, d.modUnit u (fun x => { x with pixels := x.pixels + pixels }))

end Sys2Proof.Machine
end

