-- ==== Sys2Proof/Machine/Finish.lean ====
section
/-! DEFINITION. How a launch ends: completion records (R173), commits and their abandonment (R174, R268, R279,
R280), re-projection in a launch's place (R291), teardown (R468 to R470) and retirement (R620 to R622). -/
namespace Sys2Proof.Machine

/-! ### Records -/

/-- Table 4.14. -/
def recordBytes (st : Status) (index steps endUs count : Nat) : List Byte :=
  leBytes 1 (statusCode st) ++ [0] ++ leBytes 2 index ++ leBytes 4 (min steps satMax) ++ leBytes 4 endUs ++
    leBytes 4 count

/-- Register block of a vision unit (Table 2.6): FLOW0, FLOW1, STEREO0, REMAP0 to REMAP3. -/
def visionBlock (u : Nat) : Nat := if u < 3 then 0x20 + u else 0x21 + u

/-- Table 8.5. -/
def visionRecordBytes (st : Status) (unit pixels endUs count : Nat) : List Byte :=
  leBytes 1 (statusCode st) ++ leBytes 1 (visionBlock unit) ++ [0, 0] ++ leBytes 4 (min pixels satMax) ++
    leBytes 4 endUs ++ leBytes 4 count

/-- RECORD_ADDR of a vision job, when it lies where a record may (R361). -/
def visionRecordAddr (job : List Byte) : Option Nat :=
  let a := field job 24 6
  if 30 ≤ job.length ∧ a % 16 = 0 ∧ inWellOrDram a then some a else none

/-- R692: the two most recent launches of every entry. -/
def noteEnded (l : List Ended) (x : Ended) : List Ended :=
  let same := l.filter (fun y => y.index = x.index && y.entry = x.entry && y.count ≠ x.count)
  x :: (same.take 1 ++ l.filter (fun y => !(y.index = x.index && y.entry = x.entry)))

/-- The launch that a due names has ended (R736). -/
def Device.hasEnded (d : Device) (x : Due) : Bool :=
  d.itn.ended.any (fun y => y.index = x.index && y.entry = x.entry && y.count = x.count)

/-- A launch has ended; a re-projection in its place ends it only where it has not ended itself (R470). -/
def Device.noteEnd (d : Device) (x : Due) (st : Status) : Device :=
  if x.shadow || (x.repro.isSome && d.hasEnded x) then d
  else d.modItn (fun i =>
    { i with ended := noteEnded i.ended { index := x.index, entry := x.entry, count := x.count, status := st } })

/-- R173: the completion record of a due. A vision job's record lies in its own job record (Table 8.5). -/
def Device.writeRecord (d : Device) (x : Due) (v : Serve) (st : Status) (index steps : Nat) : Device :=
  let d := d.noteEnd x st
  if x.shadow then d
  else if v.entry.target = 0 then
    d.write v.launch.record (recordBytes st index steps (d.now / 1000) x.count)
  else
    -- a job that never started: its job record names the place, where its reads pass (R364)
    match (if inOneRegion v.launch.addr 64 then d.readFor v.entry.ctx v.launch.addr 64 else (none, d)) with
    | (some job, d) =>
      match visionRecordAddr job with
      | some a => d.write a (visionRecordBytes st (v.entry.units.toNat % 8) 0 (d.now / 1000) x.count)
      | none => d
    | (none, d) => d

/-! ### Shadow launches (R612 to R616) -/

/-- The record that shadows a launch (R612); the first, where several fit (log 32). -/
def Device.shadowRecOf (d : Device) (x : Due) : Option ShadowRec :=
  d.image.shadows.find? (fun r => r.entry = x.entry && r.index = x.index && r.n != 0 && x.count % r.n = 0)

/-- Whether the launch is shadowed, with its record. -/
def Device.shadowOf (d : Device) (x : Due) : Option ShadowRec :=
  if x.shadow ∨ x.repro.isSome then none else d.shadowRecOf x

/-- The signature of a launch. -/
def ShadowSig.of (e : Nat) (r : Run) : ShadowSig :=
  { index := r.due.index, entry := r.due.entry, count := r.due.count, shadow := r.due.shadow, engine := e, a := r.sigA, b := r.sigB }

/-- A signature of the launch that a due stands for, or of its shadow. -/
def ShadowSig.ofDue (y : ShadowSig) (x : Due) : Bool := y.index = x.index && y.entry = x.entry && y.count = x.count

/-- The shadow of a launch waits, runs, is kept, or has ended with its signature. -/
def Device.shadowPending (d : Device) (x : Due) : Bool :=
  let mine (y : Due) : Bool := y.shadow && y.index = x.index && y.entry = x.entry && y.count = x.count
  d.allDues.any mine || d.allRuns.any (fun r => mine r.due) || d.sealSt.sigs.any (fun y => y.ofDue x && y.shadow)

/-- R616: a shadow launch without a comparison; the signature of its primary, if that has ended, waits no longer. -/
def Device.skipShadow (d : Device) (x : Due) : Device :=
  let stands := d.allRuns.any (fun r => !r.due.shadow && r.due.index = x.index && r.due.entry = x.entry && r.due.count = x.count)
  d.modSealSt (fun y =>
    { y with shadowSkips := satInc y.shadowSkips, sigs := if stands then y.sigs else y.sigs.filter (fun g => !g.ofDue x) })

/-- The end of a shadow launch: its signature waits for the comparison, or none is made of one torn down or stopped (R614,
R616). -/
def Device.endShadow (d : Device) (e : Nat) (r : Run) (st : Status) : Device :=
  if st = .aborted ∨ (d.ctx r.ctx).mode = .quarantined then d.skipShadow r.due
  else d.modSealSt (fun x => { x with sigs := x.sigs ++ [ShadowSig.of e r] })

/-! ### Slots that a launch serves -/

/-- A cause in every output slot that a due serves. -/
def Device.degradeServed (d : Device) (v : Serve) (cause : Nat) (excused : Bool := false) : Device :=
  v.streams.foldl (fun d s => d.degrade s v.slot cause excused) d

/-- R286: d(m) against the present ANCHOR_TAG, and its cause. -/
def Device.settleDistance (d : Device) (s m : Nat) : Device :=
  let dist := d.distance s m
  let inUse := (d.strm s).inUse
  let d := d.modSlot s m (fun x => { x with dist := some dist, used := inUse })
  let d := d.modStrm s (fun x => { x with lastD := dist })
  if d.ssbG s ≤ dist then d.degrade s m 11 else d

/-- R287: a selection far from the anchor in use makes a cold start before the encode list launches. -/
def Device.resync (d : Device) (s m : Nat) : Device :=
  let far := d.ssbField s 11 1
  if far ≠ 0 ∧ far ≤ d.distance s m then
    ((d.coldStart s).modSlot s m (fun y => { y with cold := true })).modStrm s (fun x => { x with resyncs := satInc x.resyncs })
  else d

/-- R286: a due of a writing list that launched nothing, for one of the causes that the rule lists (`listed`: R441, R462, R471 or
an abort) or for another; R280: a stripe that launched nothing did not run the model. -/
def Device.missedDue (d : Device) (x : Due) (v : Serve) (excused : Bool := false) (listed : Bool := true) : Device :=
  if x.shadow then d
  else match v.bind with
    | some .encode =>
      v.streams.foldl (fun d s =>
        if x.anchors.any (fun a => a.1 = s) then
          let d := d.resync s v.slot
          (if listed then d.notCommitted s v.slot .encode excused else d).settleDistance s v.slot
        else d) d
    | some .endOfFrame => v.streams.foldl (fun d s =>
        if listed then d.notCommitted s v.slot .endOfFrame excused
        else d.modSlot s v.slot (fun y => { y with eofGone := true })) d
    | some .stripe => v.streams.foldl (fun d s => d.modSlot s v.slot (fun y => { y with fellBack := true })) d
    | none => d

/-- R291: re-projection lists in place of a launch, for the streams that run a model; their slots degrade. `on` is the engine
on which the launch was placed. -/
def Device.reproject (d : Device) (x : Due) (v : Serve) (cause : Nat) (excused : Bool := false) (on : Option Nat := none) :
    Device :=
  let fills := v.streams.filter (fun s => cause = 5 && !(d.slot s v.slot).sealFilled)
  let d := d.degradeServed v cause excused
  let d := fills.foldl (fun (d : Device) s => (d.modSlot s v.slot (fun y => { y with sealFilled := true })).controlChoice) d
  v.streams.foldl (fun d s =>
    let d := d.modSlot s v.slot (fun y =>
      { y with fellBack := true, backRows := (v.launch.row0, v.launch.rows) :: y.backRows })
    if d.hasSsb s then
      d.modItn (fun i =>
        { i with waiting := i.waiting ++ [{ x with repro := some s, shadow := false, relaunch := false, producer := false, tile := none, anchors := [], on := on }] })
    else d) d

/-! ### Credits (R462, R465) -/

/-- A response of the request stands in its waystation tile. -/
def Device.arrived (d : Device) (r : OutReq) : Bool := d.ots.way.any (fun w => w.1 = r.part && w.2.1 = r.credit)

/-- The end of a launch: the credits that it holds return; a request without its response keeps its credit until the
response arrives (R462, R465). -/
def Device.returnCredits (d : Device) (x : Run) : Device :=
  let c := x.ctx
  let p := d.partOf c
  let n := x.credHeld
  let mine := d.ots.outstanding.filter (fun r => r.due = x.due && r.live)
  let back := mine.filter d.arrived
  let flying := mine.length - back.length
  let d := { d with ots := { d.ots with
    outstanding := (d.ots.outstanding.filter (fun r => !back.contains r)).map
      (fun (r : OutReq) => if r.due = x.due then { r with live := false } else r)
    way := d.ots.way.filter (fun w => !back.any (fun r => w.1 = r.part && w.2.1 = r.credit)) } }
  let d := d.modPart p (fun x =>
    { x with freeCredits := x.freeCredits + (n - flying),
             wayHeld := x.wayHeld.filter (fun k => !back.any (fun r => r.part = p && r.credit = k)) })
  d.modCtx c (fun y =>
    { y with creditsReserved := y.creditsReserved - n, creditsOut := y.creditsOut - mine.length })

/-- The state of a context (Table 10.15): what runs of it comes first, then what it keeps, then what is ready or waits. -/
def Device.modeOf (d : Device) (c : Nat) : CtxMode :=
  let x := d.ctx c
  if x.mode = .quarantined then .quarantined
  else if d.ne.toList.any (fun e => e.run.any (fun r => r.ctx = c)) then .running
  else if x.kept.isSome then (if x.keptSaved then .saved else .yielded)
  else if x.ready.isEmpty && !d.itn.waiting.any (fun y => (d.entryOf y.index y.entry).any (fun e => e.ctx = c)) then .idle
  else .queued

/-- It follows what has become of the context's launches and dues. -/
def Device.settleCtx (d : Device) (c : Nat) : Device :=
  let m := d.modeOf c
  d.modCtx c (fun x => { x with mode := m })

/-- The launch that a context keeps goes, with its image; a restore of it stops (Table 10.14). -/
def Device.dropKept (d : Device) (c : Nat) : Device :=
  let d := d.modCtx c (fun x => { x with kept := none, keptOn := none, keptSaved := false, keptAcc := [] })
  { d with ne := d.ne.map (fun (y : Engine) =>
      if y.moving = some c && y.run.isNone then { y with moving := none, pre := .idle } else y) }

/-! ### Commits -/

/-- R279 for the streams whose anchors the launch encodes. -/
def Device.commitEncode (d : Device) (r : Run) (v : Serve) : Device :=
  r.due.anchors.foldl (fun d a =>
    let (s, anchor) := a
    let dest := ((r.dests.find? (fun x => x.1 = s)).map (·.2)).getD 0
    let d := d.encodeCommit s dest anchor.tag
    let d := d.modStrm s (fun x =>
      { x with
        inUse := some anchor, held := x.held.filter (fun y => anchor.tag < y.tag),
        late := if d.decisionTime s anchor.tag < (anchor.stamp : Int) then satInc x.late else x.late })
    let d := d.modSlot s v.slot (fun y =>
      { y with anchor := some anchor, anchorDigest := some anchor.digest })
    d.settleDistance s v.slot) d

/-- Entries of one binding that serve slot n of a stream in an itinerary (R438). -/
def Device.entriesFor (d : Device) (index bind s n : Nat) : List Nat :=
  match d.image.itins.find? (fun i => i.index = index) with
  | none => []
  | some i =>
    let per := d.slotsPerCycle s
    (List.range i.entries.length).filter (fun k =>
      match i.entries[k]? with
      | none => false
      | some e => e.bind = bind && (i.streamsOf e).contains s && per != 0 && decide (e.slot ≤ n) && (n - e.slot) % per = 0)

/-- R280: every stripe of slot n of the stream has run the model without a fallback of Table 1.2. -/
def Device.slotClean (d : Device) (index s n : Nat) : Bool :=
  let sl := d.slot s n
  !sl.fellBack && (d.entriesFor index 2 s n).all (fun e => sl.ranBy.contains (index, e))

/-- R280 for every stream of the launch. -/
def Device.commitEof (d : Device) (r : Run) (v : Serve) : Device :=
  v.streams.foldl (fun d s =>
    let dest := ((r.dests.find? (fun x => x.1 = s)).map (·.2)).getD 0
    let clean := d.slotClean r.due.index s v.slot
    let d := d.eofCommit s dest v.slot clean
    d.tuneEof s v.slot clean) d

/-- A stripe has run the model (R280); R286: the end-of-frame list of its slot may have ended without a commit before. -/
def Device.commitStripe (d : Device) (r : Run) (v : Serve) : Device :=
  v.streams.foldl (fun d s =>
    let sl := d.slot s v.slot
    let d := d.modSlot s v.slot (fun y => { y with ranModel := true, ranBy := (r.due.index, r.due.entry) :: y.ranBy })
    if sl.eofFailed && !sl.ranModel then d.degrade s (v.slot + 1) 8 sl.eofExcused else d) d

/-- What the commit event of a launch on engine `e` changes beside its record. -/
def Device.commitRun (d : Device) (e : Nat) (r : Run) (v : Serve) (st : Status) : Device :=
  let d := match v.bind with
    | some .encode => d.commitEncode r v
    | some .endOfFrame => d.commitEof r v
    | some .stripe =>
      if r.due.repro.isSome then d else d.commitStripe r v
    | none => d
  let d := match d.tuneEntry r.due.entry with
    | some (s, k) => d.tuneCommit s k r.cmds
    | none => d
  if d.isCompositor r.ctx then d.landLayers e r v st else d

/-- What the end of a launch without a commit changes: R268, R280 and R423. -/
def Device.abandonRun (d : Device) (r : Run) (v : Serve) (excused : Bool) : Device :=
  let d := match v.bind with
    | some .encode =>
      r.due.anchors.foldl (fun (d : Device) (a : Nat × Anchor) =>
        (d.abandonCommit a.1 v.slot .encode excused).settleDistance a.1 v.slot) d
    | some .endOfFrame => v.streams.foldl (fun d s => d.abandonCommit s v.slot .endOfFrame excused) d
    | some .stripe => v.streams.foldl (fun d s => d.modSlot s v.slot (fun y => { y with fellBack := true })) d
    | none => d
  match d.tuneEntry r.due.entry with
  | some (s, k) => d.tuneFail s k
  | none => d

def committed (st : Status) : Bool := st = .ok || st = .degraded

/-- Index of the last command started (Table 4.14). -/
def Run.lastStarted (r : Run) : Nat := if r.inCmd then r.idx else r.idx - 1

/-- R461, item 3: a give-way ends with the launch, the skip or the abort of its mark's entry. -/
def Device.releaseMarks (d : Device) (entry : Nat) : Device :=
  { d with ne := d.ne.map (fun x => if x.marked = some entry then { x with marked := none } else x) }


/-- A list that waits on a flag. -/
def waitsOn (f : Nat) (cmds : List (List Byte)) : Bool := cmds.any (fun c => cmdOp c = opWAIT && field c 16 2 = f)

/-- DONE_FLAG of a flow or stereo job, when it has one (Table 8.2). -/
def doneFlag (job : List Byte) : Option Nat :=
  let f := field job 18 2
  if job.length < 30 ∨ field job 2 1 = 2 ∨ 1023 < f then none else some f

/-- The cause of a slot whose motion a flow or stereo job did not deliver. -/
def lostCause (st : Status) : Nat :=
  match st with
  | .sealFail => 5
  | .tornDown => 10
  | _ => 12

/-- A stripe of the slot that waits on a lost DONE_FLAG. -/
def Device.stripeWaits (d : Device) (s n f : Nat) (x : Due) : Bool :=
  match d.serveOf x with
  | none => false
  | some v =>
    v.entry.target = 0 && v.bind = some .stripe && x.repro.isNone && v.streams.contains s && v.slot = n &&
      waitsOn f (d.peekCmds v.launch.addr)

/-- Table 8.8: a flow or stereo job of a re-simulation stream that ends, or is skipped, without committing: the slot is degraded,
and every stripe of the slot that waits on its DONE_FLAG re-projects: those that have not launched now, those that run once they
stand at their WAIT (`Device.pumpLost`), and those to come when they fall due. -/
def Device.loseJob (d : Device) (x : Due) (job : List Byte) (st : Status) (excused : Bool := false) : Device :=
  match d.serveOf x, doneFlag job with
  | some v, some f =>
    let cause := lostCause st
    (v.streams.filter d.isResim).foldl (fun (d : Device) s =>
      let d := (d.degrade s v.slot cause excused).modSlot s v.slot (fun y => { y with lostFlags := (f, st) :: y.lostFlags })
      let hit := d.allDues.filter (d.stripeWaits s v.slot f)
      let d := d.modItn (fun i => { i with waiting := i.waiting.filter (fun y => !hit.contains y) })
      let d : Device := { d with ctxs := d.ctxs.map (fun (c : Ctx) =>
        let ready := c.ready.filter (fun y => !hit.contains y)
        { c with ready := ready, mode := if c.mode = .queued && ready.isEmpty then .idle else c.mode }) }
      hit.foldl (fun (d : Device) y =>
        match d.serveOf y with
        | none => d
        | some w => if y.shadow then d.skipShadow y else d.reproject y w cause excused) d) d
  | _, _ => d

/-- A due that is skipped or ends before its launch starts: its record and what it did not commit. -/
def Device.skipDue (d : Device) (x : Due) (v : Serve) (st : Status) (excused : Bool := false) (listed : Bool := true) : Device :=
  if x.shadow then (d.skipShadow x).releaseSets
  else
  let d := (d.writeRecord x v st 0 0).missedDue x v excused listed
  let d := match d.tuneEntry x.entry with
    | some (s, .hold) => d.tuneFail s .hold
    | _ => d
  (if v.entry.target = 0 then d else d.loseJob x (d.peek v.launch.addr 64) st excused).releaseSets

/-- R606, Table 14.7: a recomputation that did not end with OK, or whose producer meets a seal failure, sends the consumer, next in
line, to rung 3. -/
def Device.dropConsumer (d : Device) : Device :=
  match d.itn.waiting.find? (·.relaunch) with
  | none => d
  | some x =>
    if x.producer then d
    else
      let d := d.modItn (fun i => { i with waiting := i.waiting.filter (· ≠ x) })
      match d.serveOf x with
      | none => d
      | some v =>
        let d := match x.tile with
          | some t => d.rung3 t v.entry.ctx
          | none => d
        let d := d.skipDue x v .sealFail
        let d := match d.tuneEntry x.entry with
          | some (s, k) => if k = .hold then d else d.tuneFail s k
          | none => d
        if v.entry.target = 0 ∧ v.bind = some .stripe then d.reproject x v 5 else d

/-- R606: the producer's most recent launch, due again at once; an encode launch encodes the anchors that it encoded. -/
def Device.relaunchOf (d : Device) (p : Ended) : Due :=
  let x : Due :=
    { index := p.index, entry := p.entry, count := p.count, at_ := d.now, repro := none, shadow := false, relaunch := true,
      producer := true, tile := none, anchors := [] }
  match d.serveOf x with
  | none => x
  | some v =>
    if v.bind = some .encode then
      { x with anchors := v.streams.filterMap (fun s =>
          let y := d.slot s v.slot
          if y.anchorDigest.isSome then y.anchor.map (fun a => (s, a)) else none) }
    else x

/-- A relaunch of R606 is under way. -/
def Device.relaunching (d : Device) : Bool :=
  d.allRuns.any (fun r => r.due.relaunch) ||
    d.vis.toList.any (fun u => u.run.any (fun r => r.launch.due.relaunch) || u.queue.any (fun l => l.due.relaunch))

/-- R606: the relaunch next in line is a vision job: it heads its unit's queue. -/
def Device.relaunchVision (d : Device) : Device :=
  match d.itn.waiting.find? (·.relaunch) with
  | none => d
  | some x =>
    match d.serveOf x with
    | none => d
    | some v =>
      if d.relaunching ∨ v.entry.target = 0 then d
      else
        let d := d.modItn (fun i => { i with waiting := i.waiting.filter (· ≠ x) })
        d.modUnit (v.entry.units.toNat % 8) (fun y =>
          { y with queue := { due := x, ctx := v.entry.ctx, addr := v.launch.addr } :: y.queue })

/-- The end of a relaunch: its consumer, or the next relaunch, follows (R606). -/
def Device.endRelaunch (d : Device) (x : Due) (st : Status) : Device :=
  if !x.relaunch then d
  else (if x.producer ∧ st ≠ .ok then d.dropConsumer else d).relaunchVision

/-- R441: a latency-critical launch that ends after its deadline. -/
def Device.countLate (d : Device) (x : Due) (v : Serve) : Device :=
  if v.critical && v.entry.deadline != 0 && decide (x.at_ + 1000 * v.entry.deadline < d.now) then
    d.modItn (fun i => { i with lateEnds := satInc i.lateEnds })
  else d

/-- The end of a launch, whether it stands on engine `e` or is kept by its context; `again` says that it is relaunched (R606), so
that nothing that it has not committed is lost. -/
def Device.endLaunch (d : Device) (e : Nat) (r : Run) (st : Status) (excused : Bool) (again : Bool := false) : Device :=
  match d.serveOf r.due with
  | none => d
  | some v =>
    let d :=
      if r.due.shadow then (if again then d else d.endShadow e r st)
      else
        let d := d.writeRecord r.due v st r.lastStarted r.steps
        let d := if committed st then d.commitRun e r v st else if again then d else d.abandonRun r v excused
        let d := match d.shadowOf r.due with
          | none => d
          | some sh =>
            -- a blocking record's comparison has been made by the time of its commit
            if again || (sh.blocking && (committed st || r.awaitShadow)) || !d.shadowPending r.due then d
            else d.modSealSt (fun x => { x with sigs := x.sigs ++ [ShadowSig.of e r] })
        d.countLate r.due v
    let d := if r.credits = 0 then d else d.returnCredits r
    -- a shadow's semaphore commands have no effect (R613), and its primary holds the marks
    if r.due.shadow then ((d.settleCtx r.ctx).releaseSets).endRelaunch r.due st
    else
      let d := (d.dropSems r.ctx).settleCtx r.ctx
      ((d.releaseMarks r.due.entry).releaseSets).endRelaunch r.due st

/-- R457: engine time of the launch's context since its start or resume. -/
def Device.bookTime (d : Device) (r : Run) : Device :=
  { d with toll := { d.toll with acct := vmod d.toll.acct r.ctx (fun a =>
      { a with engineNs := a.engineNs + (d.now - r.started) }) } }

/-- The list of an engine ends with a status (R174, R268). -/
def Device.endRun (d : Device) (e : Nat) (st : Status) (excused : Bool := false) (again : Bool := false) : Device :=
  match (d.eng e).run with
  | none => d
  | some r =>
    let d := d.bookTime r
    let d := (d.withdrawSems e).modSealSt (fun x => { x with reloads := x.reloads.filter (fun y => y.2.1 ≠ some e) })
    let d := d.modEng e (fun x =>
      { x with
        run := none, pre := .idle, request := none, slice := none, moving := none,
        regs := { x.regs with lastStatus := word (statusCode st + r.ctx * 256 + r.lastStarted % 2 ^ 16 * 2 ^ 16) } })
    d.endLaunch e r st excused again

/-- Table 8.8: the commit of a writing list waits for the vision jobs bound to its streams. -/
def Device.visionHolds (d : Device) (r : Run) : Bool :=
  (r.bind = some .encode || r.bind = some .endOfFrame) && d.vis.toList.any (fun u =>
    match u.run.bind (fun x => d.serveOf x.launch.due) with
    | some v => v.bind.isSome && v.streams.any r.streams.contains
    | none => false)

/-- A list that ends: a shadowed launch of a blocking record waits for its comparison (R615), and a commit for
the vision jobs that it would disturb. -/
def Device.finishList (d : Device) (e : Nat) : Device :=
  match (d.eng e).run with
  | none => d
  | some r =>
    if d.visionHolds r then d.modEng e (fun x => { x with run := some { r with awaitShadow := true } })
    else match d.shadowOf r.due with
    | some sh =>
      if sh.blocking then
        let d := d.modEng e (fun x => { x with run := x.run.map (fun r => { r with awaitShadow := true }) })
        d.modSealSt (fun x => { x with sigs := x.sigs ++ [ShadowSig.of e r] })
      else d.endRun e (if r.degraded then .degraded else .ok)
    | none => d.endRun e (if r.degraded then .degraded else .ok)

/-! ### Teardown (Tables 10.11 and 10.12) -/

def teardownStatus (cause : Nat) : Status :=
  match cause with
  | 1 => .timeout
  | 2 => .unsupported
  | 3 => .sealFail
  | 4 => .timeout
  | _ => .tornDown

/-- R470: a due of a quarantined context: its stripe-bound entries re-project, every other launches nothing. One that waited when
its context was torn down has ended with it (R701). -/
def Device.quarantineDue (d : Device) (x : Due) (tornDown : Bool := false) : Device :=
  match d.serveOf x with
  | none => d
  | some v =>
    if x.shadow then d.skipShadow x
    else if x.repro.isSome then d.modItn (fun i => { i with waiting := i.waiting ++ [x] })
    else
      let excused := (d.ctx v.entry.ctx).mode = .quarantined && (d.ctx v.entry.ctx).excused
      if v.bind = some .stripe ∧ v.entry.target = 0 then (if tornDown then d.noteEnd x .tornDown else d).reproject x v 10 excused
      else (d.skipDue x v .tornDown excused false).releaseMarks x.entry

def Due.ctxIn (x : Due) (d : Device) : Option Nat := (d.entryOf x.index x.entry).map (·.ctx)

/-- Table 7.10: the flush jobs of a context's streams stop and their sets are discarded. -/
def Device.stopFlushes (d : Device) (c : Nat) : Device :=
  (d.rfe.sets.filter (fun x => x.2.flush.isSome && d.streamCtx x.1.stream = some c)).foldl
    (fun d x =>
      let (x, d) := d.haltFlush x
      (d.dropSet x).degrade x.1.stream x.1.slot 2) d

/-- A vision unit's job ends without completing: it stops at its next row, and its record carries the status (Table 8.8);
`order` is the failed check of Table 8.4, or 0, and `lost` the tile whose read failed. -/
def Device.stopVision (d : Device) (u : Nat) (st : Status) (order : Nat := 0) (lost : Option Nat := none) : Device :=
  match (d.unit u).run with
  | none => d
  | some r =>
    let (pixels, d) := d.stopJob u r lost
    let d := d.modUnit u (fun x =>
      { x with run := none, lastStatus := word (statusCode st + r.launch.ctx * 256 + order * 2 ^ 16) })
    let d := d.modSealSt (fun x => { x with reloads := x.reloads.filter (fun y => y.2.1 ≠ some (6 + u)) })
    let d := d.noteEnd r.launch.due st
    let d := match visionRecordAddr r.job with
      | some a => d.write a (visionRecordBytes st u pixels (d.now / 1000) r.launch.due.count)
      | none => d
    let d := match d.serveOf r.launch.due with
      | some v => (d.countLate r.launch.due v).releaseMarks r.launch.due.entry
      | none => d
    d.endRelaunch r.launch.due st

/-- A job that ends without committing, with what follows for its slot. -/
def Device.failVision (d : Device) (u : Nat) (st : Status) (order : Nat := 0) (lost : Option Nat := none) (excused : Bool := false) :
    Device :=
  match (d.unit u).run with
  | none => d
  | some r => (d.stopVision u st order lost).loseJob r.launch.due r.job st excused

/-- The contexts that stand on an engine: running, saving or restoring. -/
def Device.onEngine (d : Device) (e : Nat) : List Nat :=
  let x := d.eng e
  ((x.run.map (·.ctx)).toList ++ x.moving.toList).eraseDups

/-- Table 14.7: a recomputation whose consumer is torn down is cancelled: a producer that waits, or is queued at a vision unit, is
not relaunched. -/
def Device.cancelRelaunches (d : Device) (gone : List Due) : Device :=
  let pairs := d.itn.waiting.zip (d.itn.waiting.drop 1)
  let off (x : Due) : Bool := x.producer && pairs.any (fun p => p.1 = x && !p.2.producer && p.2.relaunch && gone.contains p.2)
  let next := (d.itn.waiting.find? (·.relaunch)).any (fun x => !x.producer && gone.contains x)
  let d := d.modItn (fun i => { i with waiting := i.waiting.filter (fun x => !off x) })
  if next then { d with vis := d.vis.map (fun (u : Vision) => { u with queue := u.queue.filter (fun l => !l.due.producer) }) } else d

/-- R77, Table 2.10: the requests of a torn-down context withdraw, a granted one with a dead handshake, and its kept progress
counts are discarded. -/
def Device.dropProgress (d : Device) (c : Nat) : Device :=
  let mine (r : ArbReq) : Bool := r.ctx.map (·.val) = some c
  { d with stk := { d.stk with arbiters := d.stk.arbiters.map (fun (a : Arbiter) =>
      let a := { a with
        waiting := a.waiting.filter (fun w => !mine w.2), kept := a.kept.filter (fun k => !mine k.1)
        paused := a.paused.filter (fun k => !mine k.1) }
      if a.granted.any (fun g => mine g.1) then
        { a with granted := none, entry := none, revoking := none, stalls := a.waiting.length, deadHandshakes := satInc a.deadHandshakes }
      else a) } }

/-- R468, R469: a context is torn down. A further cause against a quarantined context tears down what still runs of it; where
nothing does, it has no effect. -/
def Device.teardown (d : Device) (c cause entry : Nat) (excused : Bool := false) : Device :=
  let st := teardownStatus cause
  let fresh := (d.ctx c).mode ≠ .quarantined
  let ends := d.ne.toList.any (fun x => x.run.any (fun r => r.ctx = c) || x.moving = some c)
  let d := if fresh || ends then
      d.modItn (fun i =>
        { i with
          teardowns := satInc i.teardowns,
          lastTeardown := word (cause + c % 64 * 256 + entry % 2 ^ 16 * 2 ^ 16),
          semWatchdog := if cause = 4 then satInc i.semWatchdog else i.semWatchdog })
    else d
  let dues := d.itn.waiting.filter (fun x => x.ctxIn d = some c)
  let d := d.cancelRelaunches dues
  let ready := (d.ctx c).ready
  let kept := (d.ctx c).kept
  let keptOn := (d.ctx c).keptOn
  let d := d.modItn (fun i => { i with waiting := i.waiting.filter (fun x => x.ctxIn d ≠ some c) })
  let d := d.modCtx c (fun x =>
    { x with mode := .quarantined, ready := [], kept := none, keptOn := none, keptSaved := false,
             excused := if fresh then excused else x.excused })
  -- running lists, and the saves and restores of the context
  let d := (List.range 6).foldl (fun (d : Device) e =>
    let x := d.eng e
    let runs := (x.run.map (·.ctx)) == some c
    let d := if x.moving = some c then
        d.modEng e (fun x => { x with moving := none, pre := if x.run.isSome then x.pre else .idle })
      else d
    let d := if x.moving = some c ∨ runs then
        d.modEng e (fun x => { x with regs := { x.regs with teardowns := satInc x.regs.teardowns } })
      else d
    if runs then d.endRun e st excused else d) d
  let d := match kept with
    | some r => d.endLaunch ((keptOn.map (·.val)).getD 0) r st excused
    | none => d
  -- vision jobs, running and queued
  let d := (List.range 7).foldl (fun d u =>
    let x := d.unit u
    let mine := x.queue.filter (fun q => q.ctx = c)
    let d := d.modUnit u (fun x => { x with queue := x.queue.filter (fun q => q.ctx ≠ c) })
    let d := match x.run with
      | some r =>
        if r.launch.ctx = c then
          (d.modUnit u (fun x => { x with teardowns := satInc x.teardowns })).failVision u st 0 none excused
        else d
      | none => d
    mine.foldl (fun (d : Device) q => d.quarantineDue q.due true) d) d
  let d := (dues.filter (fun x => !x.relaunch) ++ ready).foldl (fun (d : Device) x => d.quarantineDue x true) d
  ((d.dropSems c).stopFlushes c).dropProgress c

/-! ### Retirement -/

/-- R339: the flush jobs of an engine that leaves stop and go on elsewhere, from their first unsealed tile. -/
def Device.moveFlushes (d : Device) (e : Nat) : Device :=
  d.rfe.sets.foldl (fun d x =>
    match x.2.flush with
    | some (f, _, _) =>
      if f ≠ e then d
      else
        let (x, d) := d.haltFlush x
        let tiles := match x.2.flush with
          | some (_, _, n) => n
          | none => 0
        match (d.flushTo x).filter (fun n => d.flushAllowed n x.1.stream x.1.slot x.2.flushAt) with
        | some n => d.putSet (x.1, { x.2 with flush := some (n, false, tiles) })
        | none =>
          let d := d.putSet (x.1, { x.2 with flush := none, denied := true, incomplete := true })
          d.modRfe (fun r => { r with denied := satInc r.denied })
    | none => d) d

/-- Engines on which a due may run. -/
def Device.unitsOf (d : Device) (x : Due) (e : Entry) : BitVec 6 :=
  if x.shadow then
    match d.shadowRecOf x with
    | some r => BitVec.ofNat 6 (2 ^ r.engine)
    | none => 0
  else e.units

/-- R441, R462, R471: a launch that is skipped. -/
def Device.deadlineSkip (d : Device) (x : Due) (v : Serve) (st : Status) : Device :=
  let d := d.modItn (fun i =>
    { i with
      waiting := i.waiting.filter (· ≠ x), deadlineSkips := satInc i.deadlineSkips,
      noCredit := if st = .noCredit then satInc i.noCredit else i.noCredit })
  ((d.skipDue x v st).itnFreeChoice).releaseMarks x.entry

/-- A best-effort due that launches nothing leaves its context's ready queue. -/
def Device.dropReady (d : Device) (x : Due) (c : Nat) : Device :=
  (d.modCtx c (fun y =>
    let ready := y.ready.filter (· ≠ x)
    { y with ready := ready, mode := if y.mode = .queued && ready.isEmpty then .idle else y.mode })).releaseMarks x.entry

/-- Every engine that an entry names is retired or asleep (R471, R472). -/
def Device.unitsGone (d : Device) (u : BitVec 6) : Bool :=
  (List.range 6).all (fun n => !u.getLsbD n || (d.eng n).retired || (d.eng n).asleep)

/-- R471: best-effort dues that are ready and can run on no engine any more are skipped. -/
def Device.skipStranded (d : Device) : Device :=
  (d.ctxs.toList.flatMap (·.ready)).foldl (fun (d : Device) x =>
    match d.serveOf x with
    | some v => if d.unitsGone (d.unitsOf x v.entry) then (d.dropReady x v.entry.ctx).deadlineSkip x v .deadlineMiss else d
    | none => d) d

/-- R195, R621, R622: an engine leaves service; `why` is ARG1 of event 0x14. -/
def Device.retire (d : Device) (e why : Nat) : Device :=
  let score := (d.eng e).score
  let d := d.modEng e (fun x =>
    { x with retired := true, asleep := why = 2, retiredAt := d.now, rejoin := .none })
  -- Table 14.7: a shadow launch on the engine only stops
  let d := if (d.eng e).run.any (fun (r : Run) => r.due.shadow) then d.endRun e .aborted else d
  let d := (d.onEngine e).foldl (fun d c =>
    d.teardown c 6 (((d.eng e).run.map (·.due.entry)).getD (d.ctx c).lastEntry)) d
  let d := (d.moveFlushes e).skipStranded
  let d := d.event .engineRetired e why score
  let d := if why = 0 then d.modSealSt (fun x => { x with retirements := satInc x.retirements }) else d
  d.modItn (fun i => { i with switchTo := if i.active = 0 && i.switchTo.isNone then some (1 + e) else i.switchTo })

/-- R621: every engine whose score has reached the threshold retires. -/
def Device.retireCheck (d : Device) : Device :=
  (List.range 6).foldl (fun d e =>
    let x := d.eng e
    if !x.retired && decide (d.sealSt.retireThresh ≤ x.score) then d.retire e 0 else d) d

/-- R607, Tables 14.2 and 1.2: what follows the end of a list at rung 3, or with CHECK_FAIL: a stripe of any stream
re-projects. -/
def Device.inPlace (d : Device) (e : Nat) (x : Due) (v : Serve) : Device :=
  if x.shadow ∨ x.repro.isSome then d
  else if v.bind = some .stripe then d.reproject x v 5 false (some e)
  else d

/-- The list of an engine ends so. -/
def Device.fallback (d : Device) (e : Nat) (st : Status) : Device :=
  match (d.eng e).run with
  | none => d
  | some r =>
    match d.serveOf r.due with
    | none => d
    | some v => (d.endRun e st).inPlace e r.due v

/-! ### Shadow comparisons -/

/-- A launch by its numbers. -/
def Due.named (index entry count at_ : Nat) : Due :=
  { index := index, entry := entry, count := count, at_ := at_, repro := none, shadow := false, relaunch := false, producer := false,
    tile := none, anchors := [] }

/-- R614, R615: the comparison of a launch with its shadow. -/
def Device.comparePair (d : Device) (p q : ShadowSig) : Device :=
  let equal := p.a = q.a && p.b = q.b
  let x := Due.named p.index p.entry p.count d.now
  let d := d.modSealSt (fun y =>
    { y with
      shadowRuns := satInc y.shadowRuns, shadowMismatch := if equal then y.shadowMismatch else satInc y.shadowMismatch,
      sigs := y.sigs.filter (fun g => !g.ofDue x) })
  let d := if equal then d else (d.score p.engine 4).score q.engine 4
  let waits (r : Run) : Bool := r.awaitShadow && p.ofDue r.due && !r.due.shadow
  let d := match (List.range 6).find? (fun e => (d.eng e).run.any waits) with
    | some e =>
      let degraded := (d.eng e).run.any (fun (r : Run) => r.degraded)
      if equal then d.endRun e (if degraded then .degraded else .ok) else d.fallback e .checkFail
    | none =>
      if equal then d
      else
        match d.serveOf x with
        | some v => if v.bind.isSome then d.degradeServed v 5 else d
        | none => d
  d.retireCheck

/-- The signatures of a launch and of its shadow, when both have ended (R614), among those that `mine` picks. -/
def Device.shadowPair (d : Device) (mine : ShadowSig → Bool) : Option (ShadowSig × ShadowSig) :=
  let all := d.sealSt.sigs.filter mine
  (all.filter (fun x => !x.shadow)).findSome? (fun p =>
    (all.find? (fun q => q.shadow && q.index = p.index && q.entry = p.entry && q.count = p.count)).map (fun q => (p, q)))

/-! ### Reads of a launch (R603 to R607) -/

/-- R606: the consumer's launch ends without committing, and the producer's most recent launch and then the
consumer's are due at once. -/
def Device.recompute (d : Device) (e : Nat) (r : Run) (p : Ended) (tile : Nat) : Device :=
  let d := (d.modSeal (fun x => { x with recomputes := satInc x.recomputes })).repeated
  let prod := d.relaunchOf p
  let cons : Due := { r.due with at_ := d.now, relaunch := true, producer := false, tile := some tile }
  ((d.modItn (fun i => { i with waiting := i.waiting ++ [prod, cons] })).endRun e .sealFail false true).relaunchVision

/-- Rung 3 for the list of engine `e`. -/
def Device.lastRung (d : Device) (e tile : Nat) (r : Run) : Device :=
  (d.rung3 tile r.ctx).fallback e .sealFail

/-- The check of one tile before the launch reads it; `lost` is what R270 adds when its re-fetch fails, and `within` says that a
reload completes within the read (log 11). The result says whether the launch goes on. -/
def Device.readTile (d : Device) (e : Nat) (r : Run) (lost : Device → Nat → Device) (within : Bool) (tile : Nat) : Bool × Device :=
  if r.due.tile = some tile ∧ !d.passes tile then (false, (lost (d.failAgain tile) tile).lastRung e tile r)
  else
    let d := if r.due.producer && !d.passes tile then d.dropConsumer else d
    match d.verify tile with
    | (.ok, d) => (true, d)
    | (.refetched, d) => (true, d)
    | (.failed, d) =>
      let d := lost d tile
      let d := d.rung2 tile r.ctx
      match d.rangeOf tile with
      | none => (false, d.lastRung e tile r)
      | some g =>
        if !d.beforeLrs g then (false, d.lastRung e tile r)
        else if g.imageBacked then
          if within then
            match d.reload tile with
            | (true, d) => if d.sealed tile then (true, d) else (false, d.lastRung e tile r)
            | (false, d) => (false, d.lastRung e tile r)
          else (false, d.modSealSt (fun x => { x with reloads := x.reloads ++ [(tile, some e, false)] }))
        else
          match d.itn.ended.find? (fun x => x.index = d.itn.active && x.entry = g.entry) with
          | some p => if g.recompute then (false, d.recompute e r p tile) else (false, d.lastRung e tile r)
          | none => (false, d.lastRung e tile r)

/-- Tiles in order, until one stops the launch, whose tiles read so far are charged (R452). -/
def Device.readTiles (d : Device) (e : Nat) (r : Run) (lost : Device → Nat → Device) (within : Bool) (tiles : List Nat) :
    Bool × Device :=
  let (ok, n, d) := tiles.foldl (fun (s : Bool × Nat × Device) t =>
    if s.1 then
      let (ok, d) := s.2.2.readTile e r lost within t
      (ok, s.2.1 + 1, d)
    else s) (true, 0, d)
  if ok then (true, d) else (false, d.charge r.ctx (tilesUse (tiles.take n)))

/-- Bytes that the sequencer reads for the launch of engine `e` (R170, R602); without them the launch has gone the way of its
ladder. -/
def Device.readList (d : Device) (e a n : Nat) : Option (List Byte) × Device :=
  match (d.eng e).run with
  | none => (none, d)
  | some r =>
    let tiles := tilesOf a n
    let (ok, d) := (d.countFill (partTiles a n)).readTiles e r (fun d _ => d) true tiles
    if ok then (some (d.peek a n), d.charge r.ctx (tilesUse tiles)) else (none, d)

end Sys2Proof.Machine
end

