-- ==== Sys2Proof/Machine/Ring.lean ====
section
/-! DEFINITION. The recorder's ring (R498), the lanes that empty it (R545) and the records that it holds (Table 12.12). -/
namespace Sys2Proof.Machine

/-! ### The ring (R498) and the recorder lanes (R545) -/

def Device.modRec (d : Device) (f : Recorder → Recorder) : Device := { d with recorder := f d.recorder }

/-- A transmit lane carries frames only in RUN (R518). -/
def Device.laneRuns (d : Device) (n : Nat) : Bool := d.lanes.tx[n]?.any (fun x => x.state = .run)

/-- A frame leaves on a lane (Table 12.15). -/
def Device.countFrame (d : Device) (n : Nat) : Device :=
  { d with lanes := { d.lanes with tx := vmod d.lanes.tx n (fun x => { x with frames := satInc x.frames }) } }

/-- The transmit lanes that carry the recorder, in order. -/
def Device.recLanes (d : Device) : List Nat :=
  (List.range 24).filter (fun n => (d.lanes.tx[n]?.map (·.role)) = some 0x40)

/-- ns that a frame of `n` body bytes takes on a lane: a START, data blocks and a TERM at 2,569 blocks in 5.445 µs
(R512, R513, R515). -/
def frameNs (n : Nat) : Nat := ceilDiv ((2 + (n - 6) / 8) * 5445) 2569

/-- Records at the head of the ring that have left by now, dealt to the recorder lanes round robin. -/
def Device.drainRec : (fuel : Nat) → Device → Device
  | 0, d => d
  | fuel + 1, d =>
    match d.recorder.ring, d.recLanes with
    | (since, bs) :: rest, l :: ls =>
      let lanes := l :: ls
      let k := d.recorder.nextLane % lanes.length
      let lane := lanes.getD k l
      let ends := max since (vget d.recorder.laneFree k 0) + frameNs bs.length
      if d.laneRuns lane ∧ ends ≤ d.now then
        let d := d.modRec (fun r =>
          { r with ring := rest, used := r.used - bs.length, laneFree := vset r.laneFree k ends,
                   nextLane := (k + 1) % lanes.length })
        Device.drainRec fuel (d.countFrame lane)
      else d
    | _, _ => d

def Device.drainRing (d : Device) : Device := Device.drainRec d.recorder.ring.length d

/-- Table 12.12: a record's bytes. -/
def recorderBytes (type lane stream flags index : Nat) (stamp : Int) (seq : Nat) (body : List Byte) : List Byte :=
  let b := leBytes 1 type ++ leBytes 1 lane ++ leBytes 1 stream ++ leBytes 1 flags ++ leBytes 4 index ++
    leBytes 8 (stamp % 2 ^ 64).toNat ++ leBytes 4 body.length ++ leBytes 4 seq ++ body
  b ++ leBytes 4 (crc32 b).toNat

/-- A record takes its place in the ring. -/
def Device.putRecord (d : Device) (type lane stream flags index : Nat) (stamp : Int) (body : List Byte) : Device :=
  let bs := recorderBytes type lane stream flags index stamp d.recorder.seq body
  d.modRec (fun r =>
    { r with ring := r.ring ++ [(d.now, bs)], used := r.used + bs.length, seq := (r.seq + 1) % 2 ^ 32,
             records := satInc r.records })

def Device.ringRoom (d : Device) : Nat := d.image.recBytes - d.recorder.used

/-- A pending gap record is written once the ring has room for it (R498). -/
def Device.putGap (d : Device) : Device :=
  let r := d.recorder
  if r.gap = 0 ∨ d.ringRoom < 28 then d
  else
    ((d.putRecord 4 0xFF 0xFF 0 r.gap ((d.now : Int) - d.t0) []).modRec (fun r =>
      { r with gap := 0, gaps := satInc r.gaps }))

/-- A control record is written whatever the ring holds; a pending gap goes first where it has room. -/
def Device.recordControl (d : Device) (type index : Nat) (body : List Byte) : Device :=
  if !d.ctl.record then d
  else (d.drainRing.putGap).putRecord type 0xFF 0xFF 0 index ((d.now : Int) - d.t0) body

end Sys2Proof.Machine
end

