-- ==== Sys2Proof/Machine/Command.lean ====
section
/-! DEFINITION. The end of a command on an engine, the waits and acquires that a command's effect satisfies
(R65 to R69), and the end of a request through I3C (R690, R691). -/
namespace Sys2Proof.Machine

/-- The command at hand completes: the list goes on to the next, or ends (R158, R174). -/
def Device.completeCommand (d : Device) (e : Nat) : Device :=
  match (d.eng e).run with
  | none => d
  | some r =>
    let c := r.cmds.getD r.idx []
    let fused := if cmdFgEnd c then false else r.fused || cmdFgStart c
    let d := d.modEng e (fun x =>
      { x with
        run := some { r with
          idx := r.idx + 1, fused := fused, inCmd := false, wait := none, remote := none, pos := {}, charged := {},
          weights := none, failed := false, xfer := none },
        regs := { x.regs with cmdsDone := satInc x.regs.cmdsDone } })
    if r.idx + 1 < r.cmds.length then d else d.finishList e

/-- R68, R69: the acquire of engine `e` for semaphore m is granted when the count allows it and it is next. -/
def Device.tryGrant (d : Device) (e m : Nat) : Option Device :=
  let x := d.sem m
  if x.count = 0 then none
  else
    match d.semNext x with
    | none => none
    | some (w, tie) =>
      if w.2.1 ≠ e then none
      else
        let lc := d.acquireLc w
        let d := d.modSem m (fun x => ({ x with
            waiters := removeFirst (fun y => y = w) x.waiters, last := some (w.2.2.2.2, lc) } : Sem).take w.1 d.now)
        some ((d.semChoice tie).completeCommand e)

/-- The pending WAIT or acquire of engine `e`, when it is satisfied now. -/
def Device.tryRelease (d : Device) (e : Nat) : Option Device :=
  match (d.eng e).run with
  | none => none
  | some r =>
    if (d.eng e).pre = .saving then none
    else match r.wait with
      | some (.flag f target start limit) =>
        -- R168: a satisfaction after the limit comes too late
        if d.flagReached f target ∧ (limit = 0 ∨ d.now ≤ start + 1000 * limit) then some (d.completeCommand e) else none
      | some (.sem m _) => d.tryGrant e m
      | none => none

/-- Waits and acquires are satisfied, engines in ascending order, until none is. -/
def Device.pumpEngines : (fuel : Nat) → Device → Device
  | 0, d => d
  | fuel + 1, d =>
    match (List.range 6).findSome? d.tryRelease with
    | some d => Device.pumpEngines fuel d
    | none => d

/-- Table 8.8: stripes that run and wait on the DONE_FLAG of a lost job end and re-project. -/
def Device.pumpLost (d : Device) : Device :=
  (List.range 6).foldl (fun d e =>
    match (d.eng e).run with
    | some r =>
      match r.wait, d.serveOf r.due with
      | some (.flag f _ _ _), some v =>
        match v.streams.findSome? (fun s =>
            ((d.slot s v.slot).lostFlags.find? (fun y => y.1 = f && d.stripeWaits s v.slot f r.due)).map (·.2)) with
        | some st => (d.endRun e st).reproject r.due v (lostCause st) false (some e)
        | none => d
      | _, _ => d
    | none => d) d

/-- R359: the waits of vision jobs that are met in time are satisfied. -/
def Device.pumpVision (d : Device) : Device :=
  (List.range 7).foldl (fun d u =>
    match (d.unit u).run with
    | some r =>
      let f := field r.job 12 2
      let limit := field r.job 16 2
      if !r.satisfied && (f = 0xFFFF || d.flagReached f (field r.job 14 2)) &&
          (limit = 0 || decide (d.now ≤ r.waitStart + 1000 * limit)) then
        d.modUnit u (fun v => { v with run := some { r with satisfied := true } })
      else d
    | none => d) d

/-- Commits that waited for a vision job are made when it is released. -/
def Device.pumpCommits (d : Device) : Device :=
  (List.range 6).foldl (fun d e =>
    match (d.eng e).run with
    | some r =>
      let mine (x : ShadowSig) : Bool := x.ofDue r.due
      if !r.awaitShadow || d.visionHolds r then d
      else if d.sealSt.sigs.any (fun x => mine x && !x.shadow) then
        -- R616: without its shadow no comparison is made
        if d.shadowPending r.due then d
        else (d.modSealSt (fun x => { x with sigs := x.sigs.filter (fun y => !mine y) })).endRun e
          (if r.degraded then .degraded else .ok)
      else d.finishList e
    | none => d) d

/-! ### Requests through I3C -/

/-- CTL_REQ_RESULT (Table 16.12). -/
def requestResult (b : List Byte) (code phase : Nat) : Word :=
  word (field b 1 1 + code * 256 + phase * 2 ^ 16 + field b 0 1 * 2 ^ 24)

/-- R690, R691, R700: the pending request ends; its effect event and phase 2 are one (log 40). -/
def Device.finishRequest (d : Device) (st : Status) (arg : Nat) : Device :=
  match d.req.pending with
  | none => d
  | some b =>
    let d : Device := { d with req := { d.req with
      pending := none, watch := none, result := requestResult b (statusCode st) 2, arg := word arg } }
    if st = .ok ∨ st = .aborted ∨ st = .alreadyDone then
      let d : Device := { d with req := { d.req with count := satInc d.req.count } }
      d.controlChoice.recordControl 3 0 (b ++ leBytes 1 (statusCode st) ++ [0, 0, 0] ++ leBytes 4 arg)
    else d

/-- The status of a watched PREEMPT, once it is known (R695). -/
def Device.preemptStatus (d : Device) (e : Nat) (x : Due) : Option Status :=
  if (d.eng e).run.any (fun r => r.due = x) then (if (d.eng e).pre = .saving then some .ok else none)
  else if d.ctxs.toList.any (fun c => c.kept.any (fun r => r.due = x)) then some .ok
  else
    match d.itn.ended.find? (fun y => y.index = x.index && y.entry = x.entry && y.count = x.count) with
    | some y => some (if committed y.status then .alreadyDone else y.status)
    | none => some .alreadyDone

def Device.pumpRequest (d : Device) : Device :=
  match d.req.watch with
  | none => d
  | some (e, x, _) =>
    match d.preemptStatus e x with
    | some st => d.finishRequest st 0
    | none => d

def Device.pump (d : Device) : Device := (Device.pumpEngines 64 d).pumpLost.pumpVision.pumpCommits.pumpRequest

/-- The meaning of a command that may satisfy waits. -/
def State.runI (s : State) (t : Nat) (f : Device → Device) : State := s.run t (fun d => (f d).pump)

end Sys2Proof.Machine
end

