-- ==== Sys2Proof/Machine/Launch.lean ====
section
/-! DEFINITION. The itinerary unit at run time (chapter 10): dues, placement, launches and their validation,
skips, pre-emption, saves and restores. -/
namespace Sys2Proof.Machine

/-! ### Placement (R446, R447) -/

/-- The key of an affinity: the context, and the stream or convoy that an entry is bound to. -/
def affinityKey (e : Entry) : Nat × Nat :=
  (e.ctx, if e.bind = 0 then 0 else 1 + e.stream + (if e.convoy then 32 else 0))

def Device.affinityOf (d : Device) (e : Entry) : Option Nat :=
  let k := affinityKey e
  (d.itn.affinity.find? (fun x => x.1 = k.1 && x.2.1 = k.2)).map (·.2.2)

/-- R446: engine `e` runs a list of an entry's context, and of its stream or convoy where the entry is bound. -/
def Device.noteAffinity (d : Device) (ent : Entry) (e : Nat) : Device :=
  let key := affinityKey ent
  let rows := if key.2 = 0 then [(key.1, 0, e)] else [(key.1, key.2, e), (key.1, 0, e)]
  d.modItn (fun i =>
    { i with affinity := rows ++ i.affinity.filter (fun y => !(y.1 = key.1 && (y.2.1 = key.2 || y.2.1 = 0))) })

/-- An engine that runs nothing and is in service. -/
def Device.engineIdle (d : Device) (e : Nat) : Bool :=
  let x := d.eng e
  x.run.isNone && x.moving.isNone && !x.retired && !x.asleep && !x.stalled && (d.flushSet e).isNone

/-- An engine that can launch without waiting: a flush job whose launch boundary this is starts first (R337). -/
def Device.engineFree (d : Device) (e : Nat) : Bool := d.engineIdle e && !d.rfe.sets.any (d.flushDue e)

/-- R446: the engine on which a due launches now, if one can launch it. -/
def Device.place (d : Device) (x : Due) (e : Entry) : Option Nat :=
  let units := d.unitsOf x e
  let ok (n : Nat) : Bool := units.getLsbD n && d.engineFree n && ((d.eng n).marked.isNone || !e.bestEffort)
  match x.on.filter (fun n => !(d.eng n).retired) with
  | some n => if ok n then some n else none
  | none =>
  match d.affinityOf e with
  | some n => if ok n then some n else (List.range 6).find? ok
  | none => (List.range 6).find? ok

/-! ### Pre-emption requests (R458) -/

/-- A latency-critical due's victim: the engine of its units that runs a best-effort launch. -/
def Device.victim (d : Device) (x : Due) (e : Entry) : Option Nat :=
  let units := d.unitsOf x e
  let ok (n : Nat) : Bool := units.getLsbD n && !(d.eng n).retired && (d.eng n).run.any (·.bestEffort)
  match d.affinityOf e with
  | some n => if ok n then some n else (List.range 6).find? ok
  | none => (List.range 6).find? ok

/-- YIELD_WAIT of a request for a due; an URGENT stream's stripe takes it as expired (R566). -/
def Device.yieldWait (d : Device) (v : Serve) : Nat :=
  if v.bind = some .stripe ∧ v.streams.any (fun s => (d.strm s).urgent) then 0 else v.launch.yieldWait

/-- The requests of the latency-critical dues that wait, in free mode, each on one engine for as long as it waits; of an
engine's requests the one whose YIELD_WAIT expires first counts, and an engine that saves already goes on. -/
def Device.requestAll (d : Device) : Device :=
  if d.ctl.lockstep then d
  else
    (sortBy (fun (a b : Due) => a.entry < b.entry) d.itn.waiting).foldl (fun d x =>
      match d.serveOf x with
      | none => d
      | some v =>
        if !v.critical ∨ (d.place x v.entry).isSome ∨ d.itn.asked.any (·.1 = x) then d
        else
          match d.victim x v.entry with
          | none => d
          | some n =>
            let d := d.modItn (fun i => { i with asked := i.asked ++ [(x, n)] })
            let new := (d.now, d.yieldWait v)
            if (d.eng n).pre = .saving then d
            else d.modEng n (fun y =>
              { y with pre := .requested,
                       request := some (match y.request with
                         | some old => if old.1 + 1000 * old.2 ≤ d.now + 1000 * new.2 then old else new
                         | none => new) })) d

/-- A request whose due has gone elsewhere is withdrawn while no yield or save has begun. -/
def Device.withdrawRequests (d : Device) : Device :=
  let d := d.modItn (fun i => { i with asked := i.asked.filter (fun a => i.waiting.contains a.1) })
  (List.range 6).foldl (fun d n =>
    let x := d.eng n
    let wanted := d.itn.asked.any (fun a => a.2 = n)
    if x.pre = .requested ∧ x.request.isSome ∧ !wanted ∧ !d.req.watch.any (fun w => w.1 = n && w.2.2) then
      d.modEng n (fun y => { y with pre := if d.req.watch.any (fun w => w.1 = n) then .requested else .running, request := none })
    else d) d

/-! ### Dues -/

/-- R284: the anchors that an encode due encodes: per stream, the anchor selected for the slot when it is newer
than ANCHOR_TAG. -/
def Device.newerAnchor (d : Device) (s m : Nat) : Option Anchor := ((d.slot s m).anchor).filter (fun a => d.newerTag s a.tag)

def Device.encodeAnchors (d : Device) (streams : List Nat) (m : Nat) : List (Nat × Anchor) :=
  streams.filterMap (fun s => (d.newerAnchor s m).map (fun a => (s, a)))

/-- R24, Table 6.5: no accepted anchor is usable at the slot, so no list of it is launched. -/
def Device.noAnchor (d : Device) (s m : Nat) : Bool := 
  (d.slot s m).causes.getLsbD 9 || ((d.slot s m).anchor.isNone && (d.strm s).inUse.isNone)

/-- R286: the distance of a slot whose encode due finds no anchor to encode, once it is selected and not yet settled. -/
def Device.settleLeft (d : Device) (v : Serve) (anchors : List (Nat × Anchor)) : Device :=
  v.streams.foldl (fun (d : Device) s =>
    if d.hasSsb s && !anchors.any (fun a => a.1 = s) && (d.slot s v.slot).dist.isNone && decide (v.slot < (d.strm s).decided) &&
        !d.noAnchor s v.slot then
      d.settleDistance s v.slot
    else d) d

/-- R362: a launch enters a vision unit's queue, in ascending entry order, at most 4 deep. -/
def Device.queueVision (d : Device) (x : Due) (v : Serve) : Device :=
  let u := v.entry.units.toNat % 8
  if 4 ≤ (d.unit u).queue.length then d.skipDue x v .noCredit false false
  else
    let l : VLaunch := { due := x, ctx := v.entry.ctx, addr := v.launch.addr }
    d.modUnit u (fun y =>
      { y with queue := insertBy (fun (a b : VLaunch) => a.due.entry < b.due.entry) l y.queue })

/-- R694: a due aborted before its launch starts. -/
def Device.abortDue (d : Device) (x : Due) (v : Serve) : Device :=
  let d := (d.skipDue x v .aborted true).releaseMarks x.entry
  if v.bind = some .stripe ∧ v.entry.target = 0 ∧ x.repro.isNone then d.reproject x v 10 true else d

/-- R444: the order of a ready queue. -/
def readyBefore (a b : Due) : Bool := decide (a.at_ < b.at_) || (a.at_ = b.at_ && decide (a.entry < b.entry))

/-- R444: a best-effort due joins its context's ready queue, in order of due time, then entry index; a 65th does not run. -/
def Device.makeReady (d : Device) (x : Due) (v : Serve) : Device :=
  let c := v.entry.ctx
  if 64 ≤ (d.ctx c).ready.length then d.skipDue x v .noCredit false false
  else d.modCtx c (fun y =>
    { y with ready := insertBy readyBefore x y.ready, mode := if y.mode = .idle then .queued else y.mode })

/-- A due of TARGET 0 whose list is to launch: it waits for an engine or becomes ready; a shadowed launch
makes its shadow due too (R612). -/
def Device.enqueue (d : Device) (x : Due) (v : Serve) : Device :=
  let put (d : Device) (x : Due) : Device :=
    if v.critical then d.modItn (fun i => { i with waiting := i.waiting ++ [x] }) else d.makeReady x v
  let d := put d x
  if (d.shadowOf x).isSome then put d { x with shadow := true } else d

/-- R401: an E_HOLD due that falls without a launch makes no hold, and no later one makes it in its place. -/
def Device.noHold (d : Device) (entry : Nat) : Device :=
  match d.tuneEntry entry with
  | some (s, k) => d.missHold s k
  | none => d

/-- R439: a due that the group enable leaves out; an encode due among them still settles the distance of its slot (R286), and an
end-of-frame due will not come (R310). -/
def Device.leaveOut (d : Device) (x : Due) : Device :=
  let d := d.noHold x.entry
  match d.serveOf x with
  | none => d
  | some v =>
    match v.bind with
    | some .encode => d.settleLeft v []
    | some .endOfFrame => d.missedDue x v false false
    | _ => d

/-- R437 to R444: entry `e` of the active itinerary falls due in cycle k. -/
def Device.fallDue (d : Device) (i : Itin) (e : Nat) (entry : Entry) : Device :=
  let d := d.modItn (fun y => { y with fallen := y.fallen ++ [e] })
  let x0 : Due :=
    { index := i.index, entry := e, count := d.itn.k, at_ := d.cycleStart + 1000 * entry.offset,
      repro := none, shadow := false, relaunch := false, producer := false, tile := none, anchors := [] }
  if !d.itn.groupEn.getLsbD entry.group then ((d.leaveOut x0).releaseMarks e).releaseSets
  else if entry.target = 2 then
    let starts := d.cycleStart + 1000 * entry.offset
    let ends := starts + 1000 * entry.deadline
    (List.range 6).foldl (fun d n =>
      if entry.units.getLsbD n then d.modItn (fun y => { y with windows := y.windows ++ [(n, starts, ends)] }) else d) d
  else
    match d.serveOf x0 with
    | none => d
    | some v =>
      let x := if v.bind = some .encode then { x0 with anchors := d.encodeAnchors v.streams v.slot } else x0
      let d := if v.bind = some .encode then d.settleLeft v x.anchors else d
      if d.itn.aborted.contains (i.index, e, x.count) then
        ((d.noHold e).modItn (fun y => { y with aborted := y.aborted.filter (· ≠ (i.index, e, x.count)) })).abortDue x v
      else if (d.ctx entry.ctx).mode = .quarantined then (d.noHold e).quarantineDue x
      else if v.bind = some .encode ∧ x.anchors.isEmpty then d.releaseMarks e
      else if entry.target = 0 ∧ (v.bind = some .stripe ∨ v.bind = some .endOfFrame) ∧
          v.streams.all (fun s => d.noAnchor s v.slot) then
        ((d.missedDue x v).releaseSets).releaseMarks e
      else if entry.target = 1 then d.queueVision x v
      else
        let (go, d) := match d.tuneEntry e with
          | some (s, k) => d.tuneDue s k
          | none => (true, d)
        if !go then d.releaseMarks e
        else if d.unitsGone entry.units then d.deadlineSkip x v .deadlineMiss
        else if let some st := v.streams.findSome? (fun s =>
            ((d.slot s v.slot).lostFlags.find? (fun f => d.stripeWaits s v.slot f.1 x)).map (·.2)) then
          (d.reproject x v (lostCause st)).releaseMarks e
        else (d.enqueue x v).requestAll

/-- R440: an entry falls due at its offset in the running cycle, once. -/
def execEntryDue (t : Nat) (entry : Nat) (s : State) : Host.Outcome State Fault Refusal :=
  .next (s.runI t fun d => d.whenRunning fun d =>
    match d.active with
    | none => d
    | some i =>
      match i.entries[entry]? with
      | none => d
      | some e =>
        d.guard (!d.itn.fallen.contains entry && decide (d.cycleStart + 1000 * e.offset ≤ d.now))
          (fun d => d.fallDue i entry e))

/-! ### What a launch waits for -/

/-- R269: a stream of a bound launch has PENDING set. -/
def Device.pendingStream (d : Device) (v : Serve) : Bool :=
  v.bind.isSome && v.streams.any (fun s => d.hasSsb s && d.ssbFlag s flagPending)

/-- How R332 stands for a list. -/
inductive SetWait where
  | go | wait | replace
  deriving DecidableEq, Repr

/-- R40, Table 1.2: a slot of a stream with guide geometry whose set was not accepted by D_G. -/
def Device.guideMissing (d : Device) (s n : Nat) : Bool :=
  (d.rasterRec s 0).isSome && !d.isResim s && decide (d.guideTime s n ≤ (d.now : Int)) && (d.slot s n).guideOk ≠ some true

/-- R336: an INCOMPLETE tile of the slot's guide set reaches the rows of a stripe. -/
def Device.stripeIncomplete (d : Device) (s n : Nat) (l : LaunchDesc) : Bool :=
  match d.setOf s 0 n, d.rasterRec s 0 with
  | some g, some r =>
    (List.range (r.tw * r.th)).any (fun t =>
      decide (l.row0 < 32 * (t / r.tw) + 32) && decide (32 * (t / r.tw) < l.row0 + l.rows) &&
        bit (d.tileFlags r g.1.buf t) 1)
  | _, _ => false

/-- R332: the set of a list's slot; a slot whose decision time has passed without a set has none. A stripe list that draws
nothing waits for no set, and re-projection replaces it in a slot that Table 1.2 fills so (log 30). -/
def Device.setWait (d : Device) (x : Due) (v : Serve) (cmds : List (List Byte)) : SetWait :=
  if x.repro.isSome then .go
  else if !hasRaster cmds then
    if v.bind = some .stripe ∧
        v.streams.any (fun s => d.guideMissing s v.slot || d.stripeIncomplete s v.slot v.launch) then .replace else .go
  else
    let s := v.entry.stream
    let kind := d.setKind v.entry.ctx
    let one (n : Nat) : SetWait :=
      match d.setOf s kind n, d.rasterRec s kind with
      | some g, some r =>
        if g.1.phase ≠ .closed then .wait
        else
          let tiles := (cmds.filter (fun c => cmdOp c = opRASTER)).flatMap (regionTiles r.tw)
          if tiles.any (fun t => bit (d.tileFlags r g.1.buf t) 1) then .replace else .go
      | none, some _ => if (d.now : Int) < d.guideTime s n then .wait else .replace
      | _, none => .go
    let all := (d.setSlots v cmds).map one
    if all.contains .replace then .replace else if all.contains .wait then .wait else .go

/-- R462: the credits of a launch; a re-projection launch reserves none (R291). -/
def creditsOf (x : Due) (v : Serve) : Nat := if x.repro.isSome ∨ x.shadow then 0 else v.launch.credits

def Device.creditShort (d : Device) (x : Due) (v : Serve) : Bool :=
  decide ((d.part (d.partOf v.entry.ctx)).freeCredits < creditsOf x v)

/-- R441: the launch's deadline has passed. -/
def Device.pastDeadline (d : Device) (x : Due) (v : Serve) : Bool :=
  v.critical && v.entry.deadline != 0 && !x.relaunch && decide (x.at_ + 1000 * v.entry.deadline < d.now)

/-- R606: a relaunch follows those before it; each runs when the one before has ended. -/
def Device.relaunchTurn (d : Device) (x : Due) : Bool :=
  !x.relaunch || ((d.itn.waiting.find? (·.relaunch)) = some x && !d.relaunching)

/-- A due that could start on engine `e` at this instant; a re-projection of a quarantined context runs
(R470). -/
def Device.startable (d : Device) (e : Nat) (x : Due) : Bool :=
  match d.serveOf x with
  | none => false
  | some v =>
    v.entry.target = 0 && d.place x v.entry = some e && !d.pendingStream v && !d.creditShort x v && !d.pastDeadline x v &&
      !d.heldCtx v.entry.ctx v.entry.bestEffort && d.relaunchTurn x &&
      ((d.ctx v.entry.ctx).mode ≠ .quarantined || x.repro.isSome)

/-! ### The choice of a launch -/

/-- R443, R346, R606: relaunches in their order, then latency-critical dues by entry with those of the
compositor first. -/
def Device.criticalOrder (d : Device) : List Due :=
  let lc := d.itn.waiting.filter (fun x => !x.relaunch)
  let key (x : Due) : Nat × Nat :=
    (boolNat (!((x.ctxIn d).map d.isCompositor).getD false), x.entry)
  d.itn.waiting.filter (·.relaunch) ++
    sortBy (fun a b => (key a).1 < (key b).1 || ((key a).1 = (key b).1 && (key a).2 < (key b).2)) lc

/-- A list of a best-effort entry. -/
def Device.beEntry (d : Device) (r : Run) : Bool := (d.entryOf r.due.index r.due.entry).any (·.bestEffort)

/-- A context's image moves to or from an engine. -/
def Device.moves (d : Device) (c : Nat) : Bool := d.ne.toList.any (fun e => e.moving = some c)

/-- R444: a context may start a best-effort launch: it runs and keeps none, and is not held. A list that only waits for the
comparison with its shadow gives way to that shadow (R612, R615; log 32). -/
def Device.beIdle (d : Device) (c : Nat) : Bool :=
  let x := d.ctx c
  x.kept.isNone && !d.heldCtx c true && x.mode ≠ .quarantined && !d.moves c &&
    !d.ne.toList.any (fun e => e.run.any (fun r => r.ctx = c && d.beEntry r &&
      !(r.awaitShadow && x.ready.head? = some { r.due with shadow := true })))

/-- Contexts of a partition with a ready launch, or with one to resume; no meter holds a restore (R456). -/
def Device.readyCtxs (d : Device) (p : Nat) : List Nat :=
  (List.range 64).filter (fun c =>
    let x := d.ctx c
    d.partOf c = p && (d.ctxRec c).isSome && (if x.kept.isSome then (x.keptSaved || !d.heldCtx c true) && !d.moves c
      else !x.ready.isEmpty && d.beIdle c))

/-- R445: the rotation starts after the context served last. -/
def rotate (last : Nat) (l : List Nat) : List Nat := l.filter (fun c => last < c) ++ l.filter (fun c => c ≤ last)

/-- R566: a stream of the partition is URGENT. -/
def Device.urgentIn (d : Device) (p : Nat) : Bool :=
  (List.range 32).any (fun s => (d.strm s).urgent && (match d.streamCtx s with
    | some c => d.partOf c = p
    | none => false))

/-- A latency-critical due waits on engine `e`. -/
def Device.criticalWaits (d : Device) (e : Nat) : Bool :=
  d.itn.waiting.any (fun x =>
    match d.serveOf x with
    | none => false
    | some v =>
      v.critical && (match d.place x v.entry with
        | some n => n = e
        | none => (d.unitsOf x v.entry).getLsbD e))

/-- The partition that an engine belongs to. -/
def Device.partOfEngine (d : Device) (e : Nat) : Option Nat :=
  match d.active with
  | none => none
  | some i => (i.parts.find? (fun p => p.engines.getLsbD e)).map (·.part)

/-- Bytes of an image of F tiles of scratch (Table 4.18). -/
def imageBytes (f : Nat) : Nat := 606208 + tileBytes * f

/-- R460: no latency-critical entry falls due on engine `e` within the time a restore and a save take. -/
def Device.restoreWindow (d : Device) (e f : Nat) : Bool :=
  match d.active with
  | none => true
  | some i =>
    !(List.range i.entries.length).any (fun n =>
      match i.entries[n]? with
      | none => false
      | some y =>
        let due := d.cycleStart + 1000 * y.offset + (if d.itn.fallen.contains n then i.cycleNs else 0)
        y.target = 0 && !y.bestEffort && y.units.getLsbD e && decide (d.now ≤ due) && decide (80 * (due - d.now) ≤ 2 * (800000 + imageBytes f)))

/-- R445, R460: an engine of its partition on which a yielded or saved context could go on in free mode. -/
def Device.resumable (d : Device) (e c : Nat) : Bool :=
  d.engineFree e && (d.eng e).marked.isNone && d.partOfEngine e = some (d.partOf c) && !d.criticalWaits e &&
    (!(d.ctx c).keptSaved || d.restoreWindow e (((d.ctxRec c).map (·.saveF)).getD 0))

/-- R446, R460: the engine on which it goes on: the affinity engine where it can, else the lowest that can. -/
def Device.resumePlace (d : Device) (c : Nat) : Option Nat :=
  let aff := match (d.ctx c).kept with
    | some r => (d.entryOf r.due.index r.due.entry).bind d.affinityOf
    | none => none
  match aff with
  | some n => if d.resumable n c then some n else (List.range 6).find? (fun n => d.resumable n c)
  | none => (List.range 6).find? (fun n => d.resumable n c)

/-- A ready context that engine `e` could serve now: its kept launch goes on there, or its next ready launch starts there. -/
def Device.servable (d : Device) (e c : Nat) : Bool :=
  if (d.ctx c).kept.isSome then d.resumePlace c = some e else ((d.ctx c).ready.head?).any (d.startable e)

/-- R445: the context that engine `e` serves next in free mode; no slice starts while a stream of the partition is URGENT
(R566). -/
def Device.turn (d : Device) (e : Nat) : Option Nat :=
  match d.partOfEngine e with
  | none => none
  | some p =>
    if d.urgentIn p then none else (rotate (d.part p).beServed (d.readyCtxs p)).find? (d.servable e)

/-- The best-effort due that engine `e` starts now, and whether the selection was a free choice. In lockstep mode it starts
where no latency-critical launch can (R447). -/
def Device.bestEffortChoice (d : Device) (e : Nat) : Option (Due × Bool) :=
  if (d.eng e).marked.isSome then none
  else if d.ctl.lockstep then
    -- R461, R695: a launch that gave way on this engine resumes ahead of every best-effort entry
    if (List.range 64).any (fun c => (d.ctx c).kept.isSome && (d.ctx c).keptOn = some (Fin.ofNat 6 e) && !d.heldCtx c true) then none
    else
    let dues := (List.range 64).flatMap (fun c => if d.beIdle c then (d.ctx c).ready.take 1 else [])
    ((sortBy (fun (a b : Due) => a.entry < b.entry) (dues.filter (d.startable e))).head?).map (fun x => (x, false))
  else if d.criticalWaits e then none
  else
    match d.turn e with
    | none => none
    | some c =>
      if (d.ctx c).kept.isSome then none
      else ((d.ctx c).ready.head?).map (fun x => (x, decide (2 ≤ (d.readyCtxs (d.partOf c)).length)))

/-! ### Reading and checking a list -/

/-- Steps of an engine that issue no product: charged and counted (R135, R452). -/
def Device.emptySteps (d : Device) (e c n : Nat) : Device :=
  let d := d.modEng e (fun x =>
    { x with steps := x.steps + n, periodSteps := x.periodSteps + n,
             run := x.run.map (fun r => { r with steps := r.steps + n }) })
  d.charge c { emptySteps := n }

/-- R59 by a list: the address and context are recorded and the context is torn down. -/
def Device.accessFault (d : Device) (c entry addr : Nat) : Device :=
  let d := { d with ctl := { d.ctl with faultAddr := addr, faultCtx := c } }
  d.teardown c 2 entry

/-- R171. -/
def Device.decodeFail (d : Device) (e : Nat) (f : Failure) : Device :=
  d.modEng e (fun x =>
    { x with regs := { x.regs with decodeInfo := word (f.1 + f.2.1 % 256 * 256 + f.2.2 % 2 ^ 16 * 2 ^ 16) } })

/-- The launch's binding: rows of Table 6.3 for every stream that has a block. -/
def Device.bindRowsOf (d : Device) (x : Due) (v : Serve) (dests : List (Nat × Nat)) : List BindRow :=
  if v.bind.isNone then []
  else (v.streams.filter d.hasSsb).flatMap (fun s =>
    let dest := ((dests.find? (fun p => p.1 = s)).map (·.2)).getD 0
    let plane := match d.inputRec s, (x.anchors.find? (fun p => p.1 = s)) with
      | some r, some a => vget r.rxBase a.2.buf.val 0 + 16384
      | _, _ => 0
    bindRows (d.ssb s) dest plane)

def Device.launchEnv (d : Device) (e : Nat) (v : Serve) : LaunchEnv :=
  { engine := e, tuning := d.isTuning v.entry.ctx, compositor := d.isCompositor v.entry.ctx, bind := v.bind,
    streams := if v.bind.isSome then v.streams else [],
    raster := if v.entry.convoy then none else d.rasterRec v.entry.stream (d.setKind v.entry.ctx),
    row0 := v.launch.row0, rows := v.launch.rows, chips := d.ctl.chips }

/-- R421: the seeds of a training list. -/
def Device.trainSeeds (d : Device) (x : Due) (cmds : List (List Byte)) : List (List Byte) :=
  match d.tuneEntry x.entry with
  | some (s, .train) =>
    match d.tuneRec s with
    | some r =>
      (List.range cmds.length).map (fun j =>
        let c := cmds.getD j []
        if cmdSr c then patch c 8 (leBytes 8 (trainSeed r (d.tune s).steps j)) else c)
    | none => cmds
  | _ => cmds

/-- R427: the stream's lists read its active bank. -/
def Device.bankDescs (d : Device) (x : Due) (v : Serve) (t : Desc) : Desc :=
  match d.tuneEntry x.entry with
  | some (s, k) => d.bankDesc s v.slot (some k) t
  | none => v.streams.foldl (fun t s => d.bankDesc s v.slot none t) t

/-- Everything of a launch that follows its validation's reads: the checks of Table 4.13 and R263. -/
def Device.validate (d : Device) (e : Nat) (x : Due) (v : Serve) (hdr : List Byte) (cmds raws : List (List Byte))
    (dests : List (Nat × Nat)) : Device :=
  let descs := (raws.map descOf).map (fun t => d.bankDescs x v (rebind (d.bindRowsOf x v dests) t))
  let env := d.launchEnv e v
  let bound := v.bind.isSome
  let train := match d.tuneEntry x.entry with
    | some (_, .train) => true
    | _ => false
  let srs := if train then (cmds.filter cmdSr).length else 0
  let d := d.emptySteps e v.entry.ctx (validationSteps cmds.length descs.length bound srs)
  let fail := (listFails env hdr cmds raws descs).or (match v.bind with
    | none => none
    | some b => (v.streams.filter d.hasSsb).findSome? (fun s => bindFails b (d.ssb s) cmds descs))
  match fail with
  | some f => (d.decodeFail e f).endRun e .unsupported
  | none =>
    let cmds := d.trainSeeds x cmds
    d.modEng e (fun y => { y with run := y.run.map (fun r =>
      { r with cmds := cmds, descs := descs, footprint := field hdr 16 2 }) })

/-- Header, commands and descriptors are read and checked (R170 to R172). -/
def Device.readAndValidate (d : Device) (e : Nat) (x : Due) (v : Serve) (dests : List (Nat × Nat)) : Device :=
  let c := v.entry.ctx
  let a := d.listAddr x v
  if !inWellOrDram a ∨ !inWellOrDram (a + 63) then d.accessFault c x.entry (firstOutside a)
  else
    match d.readList e a 64 with
    | (none, d) => d
    | (some hdr, d) =>
      let n := field hdr 2 2
      let nd := field hdr 4 2
      match headerFails hdr with
      | some f => ((d.emptySteps e c (validationSteps n nd v.bind.isSome 0)).decodeFail e f).endRun e .unsupported
      | none =>
        let da := field hdr 8 6
        if !inWellOrDram (a + 63 + 64 * n) then d.accessFault c x.entry (firstOutside a)
        else if nd ≠ 0 ∧ (!inWellOrDram da ∨ !inWellOrDram (da + 32 * nd - 1)) then d.accessFault c x.entry (firstOutside da)
        else
          match d.readList e (a + 64) (64 * n) with
          | (none, d) => d
          | (some cb, d) =>
            match d.readList e da (32 * nd) with
            | (none, d) => d
            | (some db, d) =>
              let cut (w k : Nat) (b : List Byte) : List (List Byte) :=
                (List.range k).map (fun i => (b.drop (w * i)).take w)
              d.validate e x v hdr (cut 64 n cb) (cut 32 nd db) dests

/-- R266, R287, R449: what the keeper does at the launch of a bound list: cold starts before an encode list far
from its anchor, and the destination rows of a writing list. -/
def Device.claimRows (d : Device) (x : Due) (v : Serve) : List (Nat × Nat) × Device :=
  let writing : List Nat := match v.bind with
    | some .encode => x.anchors.map (·.1)
    | some .endOfFrame => v.streams.filter d.hasSsb
    | _ => []
  if x.shadow then (writing.map (fun s => (s, d.ringDest s)), d)
  else
    writing.foldl (fun (acc : List (Nat × Nat) × Device) s =>
      let d := if v.bind = some .encode then acc.2.resync s v.slot else acc.2
      let dest := d.ringDest s
      (acc.1 ++ [(s, dest)], d.ringClaim s)) ([], d)

def bindKind : Option Bind → Nat
  | some .encode => 0
  | some .stripe => 1
  | some .endOfFrame => 2
  | none => 3

/-- NE_BIND_INFO of a bound launch (Table 6.9). -/
def bindInfoOf (v : Serve) (dests : List (Nat × Nat)) : Word :=
  let s := v.streams.headD 0
  let dest := ((dests.find? (fun p => p.1 = s)).map (·.2)).getD 0
  word (s % 32 + bindKind v.bind * 32 + dest % 8 * 128 +
    boolNat (v.bind = some .encode || v.bind = some .endOfFrame) * 1024)

/-- A launch starts on engine `e`. -/
def Device.startLaunch (d : Device) (e : Nat) (x : Due) (v : Serve) : Device :=
  let c := v.entry.ctx
  let n := creditsOf x v
  let p := d.partOf c
  let many := 1 < ((List.range 6).filter (fun k => v.entry.units.getLsbD k)).length
  let off := !d.ctl.lockstep && many && !x.shadow && (match d.affinityOf v.entry with
    | some a => a ≠ e
    | none => false)
  let d := if off then d.itnFreeChoice else d
  let d := if x.tile.isSome then d.repeated else d
  let d := d.noteAffinity v.entry e
  let d := d.modItn (fun i => { i with waiting := i.waiting.filter (· ≠ x), launches := satInc i.launches })
  let d := d.noteBegan x
  let d := d.modPart p (fun y => { y with freeCredits := y.freeCredits - n })
  let d := d.modCtx c (fun y =>
    { y with
      ready := y.ready.filter (· ≠ x), creditsReserved := y.creditsReserved + n, lastEntry := x.entry,
      mode := if y.mode = .quarantined then y.mode else .running })
  let d := { d with toll := { d.toll with acct := vmod d.toll.acct c (fun a =>
    { a with launches := satInc a.launches }) } }
  let (dests, d) := d.claimRows x v
  let r : Run :=
    { due := x, ctx := c, bestEffort := v.entry.bestEffort, bind := v.bind,
      streams := if v.bind.isSome then v.streams else [], slot := v.slot, addr := d.listAddr x v, cmds := [],
      descs := [], footprint := 0, idx := 0, steps := 0, started := d.now, fused := false, inCmd := false, wait := none,
      remote := none, dests := dests, heads := v.streams.map (fun s => (s, d.ssbH s)), sigA := 0, sigB := 0,
      degraded := x.repro.isSome, credits := n, awaitShadow := false, overrun := false, credHeld := n }
  let d := d.modEng e (fun y =>
    { y with
      run := some r, pre := .running, request := none, acc := [],
      regs := { y.regs with listAddr := r.addr },
      op := if v.bind.isSome then { y.op with bindInfo := bindInfoOf v dests } else y.op })
  d.readAndValidate e x v dests

/-- A launch, or the re-projection that R332 puts in its place. -/
def Device.launchDue (d : Device) (e : Nat) (x : Due) (v : Serve) : Device :=
  match d.setWait x v (d.peekCmds (d.listAddr x v)) with
  | .go => (d.startLaunch e x v).withdrawRequests
  | .wait => d
  | .replace =>
    let d := d.modItn (fun i => { i with waiting := i.waiting.filter (· ≠ x) })
    let d := d.modCtx v.entry.ctx (fun y => { y with ready := y.ready.filter (· ≠ x) })
    if x.shadow then (d.skipShadow x).releaseSets
    else
    let incomplete := (d.setOf v.entry.stream (d.setKind v.entry.ctx) v.slot).isSome
    let invalid := (d.slot v.entry.stream v.slot).guideOk = some false
    if d.isCompositor v.entry.ctx then (d.noteEnd x .degraded).releaseSets
    else (d.reproject x v (if incomplete then 4 else if invalid then 3 else 2)).releaseSets

/-- A due that waits only for its set is passed over. -/
def Device.setReady (d : Device) (x : Due) : Bool :=
  match d.serveOf x with
  | none => false
  | some v => d.setWait x v (d.peekCmds (d.listAddr x v)) ≠ .wait

/-- R461 item 5: a launch that gave way on engine `e` under a mark, which no longer holds the engine, resumes there ahead of
any other entry. -/
def Device.owed (d : Device) (e : Nat) : Bool :=
  d.ctl.lockstep && (d.eng e).marked.isNone &&
    (List.range 64).any (fun c => (d.ctx c).byMark && (d.ctx c).kept.isSome && (d.ctx c).keptOn = some (Fin.ofNat 6 e))

/-- The best-effort due that engine `e` starts now, after those whose launch launches nothing (R399, R419, R424, R425). -/
def Device.chosen (e : Nat) : (fuel : Nat) → Device → Option (Due × Bool) × Device
  | 0, d => (none, d)
  | fuel + 1, d =>
    match d.bestEffortChoice e with
    | none => (none, d)
    | some (x, choice) =>
      match d.tuneEntry x.entry, d.serveOf x with
      | some (s, k), some v =>
        let (go, d) := d.tuneGate s k
        if go then (some (x, choice), d) else Device.chosen e fuel (d.dropReady x v.entry.ctx)
      | _, _ => (some (x, choice), d)

/-- R440 to R447: a free engine starts the launch that the rules choose. -/
def execListLaunch (t : Nat) (engine : Fin 6) (s : State) : Host.Outcome State Fault Refusal :=
  .next (s.runI t fun d => d.whenRunning fun d =>
    let e := engine.val
    d.guard (d.engineFree e && !d.owed e) fun d =>
      match d.criticalOrder.find? (fun x => d.startable e x && d.setReady x) with
      | some x =>
        match d.serveOf x with
        | some v => d.launchDue e x v
        | none => d
      | none =>
        match Device.chosen e 4096 d with
        | (none, d) => d
        | (some (x, choice), d) =>
          match d.serveOf x with
          | none => d
          | some v =>
            let p := d.partOf v.entry.ctx
            let d := if choice then d.itnFreeChoice else d
            let d := d.modPart p (fun y => { y with beServed := v.entry.ctx })
            let slice := ((d.partRec p).map (·.beSlice)).getD 0
            let d := d.launchDue e x v
            d.modEng e (fun y =>
              { y with slice := if d.ctl.lockstep || y.run.isNone then none else some (v.entry.ctx, d.now + 1000 * slice) }))

/-! ### Skips and overruns -/

/-- R441: a due of a latency-critical entry whose deadline has come. -/
def Device.deadlineCame (d : Device) (x : Due) (v : Serve) : Bool :=
  v.critical && v.entry.deadline != 0 && !x.relaunch && decide (x.at_ + 1000 * v.entry.deadline ≤ d.now)

/-- R441, R462: latency-critical launches of the entry, waiting or queued at a vision unit, that have not started by their
deadline. Table 1.2: a stripe whose set is in a partial render at its deadline re-projects. -/
def execDeadlineSkip (t : Nat) (entry : Nat) (s : State) : Host.Outcome State Fault Refusal :=
  .next (s.runI t fun d => d.whenRunning fun d =>
    let d := (d.itn.waiting.filter (fun x => x.entry = entry)).foldl (fun d x =>
      match d.serveOf x with
      | none => d
      | some v =>
        if !d.deadlineCame x v then d
        else if v.bind = some .stripe ∧ d.setWait x v (d.peekCmds (d.listAddr x v)) = .wait ∧
            (d.setOf v.entry.stream 0 v.slot).any (fun g => g.2.accepted) then
          ((d.modItn (fun i => { i with waiting := i.waiting.filter (· ≠ x) })).reproject x v 4).releaseMarks x.entry
        else d.deadlineSkip x v (if d.creditShort x v then .noCredit else .deadlineMiss)) d
    let late := (List.range 7).flatMap (fun u => (d.unit u).queue.filter (fun l => l.due.entry = entry))
    late.foldl (fun d l =>
      match d.serveOf l.due with
      | none => d
      | some v =>
        if v.entry.target = 1 && d.deadlineCame l.due v then
          let d := (List.range 7).foldl (fun (d : Device) u => d.modUnit u (fun y => { y with queue := y.queue.filter (· ≠ l) })) d
          d.deadlineSkip l.due v .deadlineMiss
        else d) d)

/-- R442: a latency-critical launch that has used its budget goes on at best-effort class. -/
def execBudgetOverrun (t : Nat) (engine : Fin 6) (s : State) : Host.Outcome State Fault Refusal :=
  .next (s.runI t fun d => d.whenRunning fun d =>
    match (d.eng engine.val).run with
    | none => d
    | some r =>
      match d.serveOf r.due with
      | none => d
      | some v =>
        d.guard (!r.bestEffort && !r.overrun && decide (v.entry.budget * 1024 ≤ r.steps)) fun d =>
          let d := d.modEng engine.val (fun y => { y with run := some { r with bestEffort := true, overrun := true } })
          (d.modItn (fun i => { i with overruns := satInc i.overruns })).requestAll)

/-! ### Yields, saves and restores -/

/-- R185, R459: a command boundary outside a fused group; a pending WAIT or a COPY from a remote device with a
response outstanding is one, an acquire is not. -/
def Run.yieldPoint (r : Run) : Bool :=
  !r.fused && !r.awaitShadow && (match r.wait with
    | some (.sem ..) => false
    | some (.flag ..) => true
    | none => !r.inCmd || r.remote.isSome)

/-- A launch may give way: its context holds no raised semaphore (R466), and keeps and moves no other launch, since it has one
save area and one state (log 60). -/
def Device.yields (d : Device) (r : Run) : Bool := !d.raised r.ctx && (d.ctx r.ctx).kept.isNone && !d.moves r.ctx

/-- It may yield where it stands. -/
def Device.mayYield (d : Device) (e : Nat) : Bool :=
  match (d.eng e).run with
  | some r => r.yieldPoint && d.yields r
  | none => false

/-- R445: the slice of an engine has expired while another context is ready. -/
def Device.sliceOver (d : Device) (e : Nat) : Bool :=
  match (d.eng e).slice, d.partOfEngine e with
  | some (c, ends), some p => !d.ctl.lockstep && decide (ends ≤ d.now) && (d.readyCtxs p).any (· ≠ c)
  | _, _ => false

/-- R695: a full save that waits for a release. -/
def Device.savesLater (d : Device) (e : Nat) : Bool := d.req.watch.any (fun w => w.1 = e && w.2.2)

/-- A yield is still asked of engine `e`: by a due (R458), by a PREEMPT (R695), or by a slice that is over (R445). -/
def Device.yieldAsked (d : Device) (e : Nat) : Bool :=
  (d.eng e).pre = .requested && !d.savesLater e &&
    ((d.eng e).request.isSome || d.req.watch.any (fun w => w.1 = e) || d.sliceOver e)

/-- R185: the list record and the pending status are kept, and the engine is free; a pending WAIT withdraws and is
issued again at the resume (R67). -/
def Device.boundaryYield (d : Device) (e : Nat) : Device :=
  match (d.eng e).run with
  | none => d
  | some r =>
    let d := d.bookTime r
    let d := d.modCtx r.ctx (fun c =>
      { c with
        kept := some { r with wait := none }, keptOn := some (Fin.ofNat 6 e), keptSaved := false, keptAcc := [], keptLanes := none,
        mode := c.mode.next .yielded })
    d.modEng e (fun y =>
      { y with run := none, pre := .idle, request := none, slice := none,
               regs := { y.regs with yields := satInc y.regs.yields } })

def execBoundaryYield (t : Nat) (engine : Fin 6) (s : State) : Host.Outcome State Fault Refusal :=
  .next (s.runI t fun d => d.whenRunning fun d =>
    d.guard (d.yieldAsked engine.val && d.mayYield engine.val) (fun d => d.boundaryYield engine.val))

/-- Whether a yielded or saved context may resume on engine `e` now (R460, R461): in free mode when it is its turn (R445). No
meter holds a restore (R456). -/
def Device.mayResume (d : Device) (e c : Nat) : Bool :=
  let x := d.ctx c
  x.kept.isSome && !d.moves c && (x.keptSaved || !d.heldCtx c true) &&
    (if d.ctl.lockstep then d.engineFree e && (d.eng e).marked.isNone && d.partOfEngine e = some (d.partOf c) &&
        x.keptOn = some (Fin.ofNat 6 e)
     else d.turn e = some c)

/-- R445: a slice that has expired is ended by a boundary yield when another context is ready. -/
def execBestEffortSliceExpiry (t : Nat) (engine : Fin 6) (s : State) : Host.Outcome State Fault Refusal :=
  .next (s.runI t fun d => d.whenRunning fun d =>
    d.guard ((d.eng engine.val).pre = .running && d.sliceOver engine.val)
      (fun d => d.modEng engine.val (fun y => { y with pre := .requested })))

/-- R461: the latency-critical launch of a mark has still to come, waits or runs in this cycle. -/
def Device.lcPending (d : Device) (index : Nat) (m : Mark) : Bool :=
  let mine (x : Due) : Bool := x.index = index && x.entry = m.lcEntry && x.count = d.itn.k
  !d.itn.ended.any (fun x => x.index = index && x.entry = m.lcEntry && x.count = d.itn.k) &&
    (!d.itn.fallen.contains m.lcEntry || d.itn.waiting.any mine || d.ne.toList.any (fun e => e.run.any (fun r => mine r.due)))

/-- The pending marks of a best-effort launch, by rising STEP. -/
def Device.pendingMarks (d : Device) (r : Run) : List Mark :=
  match d.active with
  | none => []
  | some i => sortBy (fun (a b : Mark) => a.step < b.step)
      (i.marks.filter (fun m => r.due.index = i.index && m.beEntry = r.due.entry && d.lcPending i.index m))

/-- A pending mark whose STEP the launch has issued. -/
def Device.markOf (d : Device) (r : Run) : Option Mark := (d.pendingMarks r).find? (fun m => decide (m.step ≤ r.steps))

/-- Those whose STEP lies ahead. -/
def Device.marksAhead (d : Device) (r : Run) : List Mark := (d.pendingMarks r).filter (fun m => decide (r.steps < m.step))

/-! ### Watchdogs -/

/-- R467: a hold that reaches 50 µs. -/
def execSemaphoreWatchdog (t : Nat) (sem : Fin 256) (holder : Fin 64) (s : State) :
    Host.Outcome State Fault Refusal :=
  .next (s.runI t fun d => d.whenRunning fun d =>
    match (d.sem sem.val).holders.find? (fun h => h.1 = holder.val) with
    | none => d
    | some h => d.guard (decide (h.2 + 50000 ≤ d.now)) (fun d => d.teardown holder.val 4 (d.ctx holder.val).lastEntry))

/-- R47: a handshake without acknowledgement for 10 µs: a teardown of its context, or event 0x1A, in any phase. -/
def execHandshakeTimeout (t : Nat) (ctx : Option (Fin 64)) (engine : Option (Fin 6)) (s : State) :
    Host.Outcome State Fault Refusal :=
  .next (s.runI t fun d =>
    match ctx with
    | none => d.whenAlive fun d => d.event .fatal 3 0 0
    | some c => d.whenRunning fun d =>
      let d := match engine with
        | some e => d.score e.val 8
        | none => d
      (d.teardown c.val 1 (d.ctx c.val).lastEntry).retireCheck)

end Sys2Proof.Machine
end

