-- ==== Sys2Proof/Machine/Exec.lean ====
section
/-! DEFINITION. What every command of a list does around its own effect: the check that it may run, its decode
steps (R172), its accesses (R59, R60, R162), the seal checks of what it reads with their ladder (R603 to R607),
what it is charged (R452), its write signature (R613, R614) and its completion (R158). -/
namespace Sys2Proof.Machine

/-- An image-backed tile whose reload holds engine `e`. -/
def Device.reloading (d : Device) (e : Nat) : Bool := d.sealSt.reloads.any (fun x => x.2.1 = some e)

/-- The list of an engine that may run its next command now: no wait, no reload, no hold, and no yield point
that a request takes. -/
def Device.ready (d : Device) (e : Nat) : Option Run :=
  let x := d.eng e
  match x.run with
  | none => none
  | some r =>
    let asked := r.yieldPoint && d.yields r && (d.yieldAsked e || d.savesLater e)
    let marked := d.ctl.lockstep && (d.markOf r).isSome && !d.raised r.ctx
    if r.wait.isNone && r.remote.isNone && !r.awaitShadow && decide (r.idx < r.cmds.length) &&
        (x.pre = .running || x.pre = .requested) && !marked && (r.inCmd || !asked) && !x.stalled &&
        !d.reloading e && !d.heldCtx r.ctx (d.runsBe r) then some r
    else none

/-- The command at hand. -/
def Run.cmd (r : Run) : List Byte := r.cmds.getD r.idx []

/-- The list once its next command has started: one with FG_START opens its fused group (Table 4.10). -/
def Run.begun (r : Run) : Run :=
  if r.inCmd then r
  else if cmdFgStart r.cmd then { r with inCmd := true, fused := true, groupAt := r.idx }
  else { r with inCmd := true }

/-- Commands of one opcode. -/
def isOp (op : Nat) (c : List Byte) : Bool := cmdOp c = op

/-- The shape of a CONV. -/
def Run.convShape (r : Run) : ConvShape :=
  let t := descAt r.descs r.cmd
  Sys2Proof.Machine.convShape r.cmd (t 16) (t 17) (t 18)

/-- R220: the decode of a CONV records its mapping. -/
def Run.decodes (r : Run) (x : NeOpRegs) : NeOpRegs :=
  if isOp opCONV r.cmd then { x with mapInfo := word r.convShape.map.info } else x

/-- A command starts: 16 decode steps, once (R172). -/
def Device.startCommand (d : Device) (e : Nat) (r : Run) : Device :=
  if r.inCmd then d
  else
    let d := d.modEng e (fun x => { x with run := some r.begun, lanes := some (e, x.steps), op := r.decodes x.op })
    d.emptySteps e r.ctx 16

/-- Bytes that have been moved. -/
def RemoteCopy.movedBytes (m : RemoteCopy) : Nat := m.data.foldl (fun n q => n + q.2.length) 0

/-! ### Instructions (R158 to R160, R193) -/

/-- An instruction that the sequencer issues for a command: its expansion position and what it is charged. -/
structure Issue where
  pos : Pos
  use : Use
  deriving DecidableEq, Repr

/-- Instruction kinds in the order of the text before R158. -/
def kindWLD : Nat := 0
def kindSTR : Nat := 1
def kindDRN : Nat := 2
def kindVOP : Nat := 3
def kindXFR : Nat := 4
def kindSYN : Nat := 5

/-- What instructions are charged together. -/
def issueUse (l : List Issue) : Use := l.foldl (fun u i => u.add i.use) {}

/-- R159: steps in instructions of at most 4,096 each; at least one instruction. -/
def blockIssues (pos : Pos) (vec empty : Nat) : List Issue :=
  (List.range (max 1 (ceilDiv (vec + empty) 4096))).map (fun i =>
    let upto (k : Nat) : Nat × Nat := (min vec (4096 * k), min (vec + empty) (4096 * k) - min vec (4096 * k))
    { pos := pos, use := { vecSteps := (upto (i + 1)).1 - (upto i).1, emptySteps := (upto (i + 1)).2 - (upto i).2 } })

/-- A command that is one flag or semaphore action. -/
def synIssue : List Issue := [{ pos := { kind := kindSYN }, use := { emptySteps := 4 } }]

/-- Steps that the list has issued at each instruction boundary inside its next command, from the one before its first
instruction on (R193). -/
def Run.stopsAt (r : Run) (l : List Issue) : List Nat :=
  (List.range l.length).map (fun n =>
    r.steps + (if r.inCmd then 0 else 16) + (issueUse (l.take n)).steps - r.charged.steps)

/-- R461: the first instruction boundary inside the next command, among those not passed, at or after a count of steps. -/
def Run.stopAt (r : Run) (l : List Issue) (step : Nat) : Option Nat :=
  let at_ := r.stopsAt l
  ((List.range l.length).drop r.pos.issued).find? (fun n => decide (step ≤ at_.getD n 0))

/-- R461: in lockstep mode a pending mark's STEP lies inside the next command of engine `e`, which the list does not pass:
the mark, and how many instructions of the command are issued. -/
def Device.markInside (d : Device) (r : Run) (l : List Issue) : Option (Mark × Nat) :=
  if d.ctl.lockstep && !d.raised r.ctx then
    (d.marksAhead r).findSome? (fun m => (r.stopAt l m.step).map (fun n => (m, n)))
  else none

/-- A command of the kind that `kind` tells, at the head of the engine's list, takes effect; one that would pass a pending
mark waits for it. `issues` are its instructions. -/
def State.command (s : State) (t : Nat) (engine : Fin 6) (kind : List Byte → Bool) (issues : Device → Nat → Run → List Issue)
    (body : Device → Nat → Run → Device) : Host.Outcome State Fault Refusal :=
  .next (s.runI t fun d => d.whenRunning fun d =>
    match d.ready engine.val with
    | none => d
    | some r =>
      if kind r.cmd && (d.markInside r (issues d engine.val r)).isNone then
        let d := d.startCommand engine.val r
        match (d.eng engine.val).run with
        | some r => body d engine.val r
        | none => d
      else d)

/-! ### Reads -/

/-- What a command touches: its runs, and the runs of every load that the weight loader makes. -/
structure Plan where
  spans : List Span
  loads : List (List Span)
  /-- A COPY may reach foreign scratch (R60). -/
  copy : Bool
  /-- Scratch is read by the fabric port (Table 4.5 requester 6), in whole tiles (R602, R603). -/
  port : Bool
  deriving DecidableEq, Repr

def Plan.of (spans : List Span) : Plan := { spans := spans, loads := [], copy := false, port := false }

/-- Every run of a plan. -/
def Plan.all (p : Plan) : List Span := p.spans ++ p.loads.flatten

/-- R59, R60, R162, then the seal checks: whether the command goes on. -/
def Device.admitted (d : Device) (e : Nat) (r : Run) (p : Plan) (lost : Device → Nat → Device) : Bool × Device :=
  match badSpan e p.copy r.footprint p.all with
  | some s => (false, d.accessFault r.ctx r.due.entry (s.faultAddr e p.copy r.footprint))
  | none =>
    let (ok, d) := d.readTiles e r lost false (spanTiles e (p.all.filter (fun s => !s.store)))
    (ok, d.retireCheck)

/-! ### Charges -/

/-- Steps and uses of engine `e` for its context (R452, R457), but for what the command's instructions have been charged
before a full save. -/
def Device.spend (d : Device) (e c : Nat) (u : Use) : Device :=
  let due := match (d.eng e).run with
    | some r => u.minus r.charged
    | none => u
  let d := d.modEng e (fun x =>
    { x with steps := x.steps + due.steps, periodSteps := x.periodSteps + due.steps,
             run := x.run.map (fun r => { r with steps := r.steps + due.steps, charged := r.charged.minus u }) })
  d.charge c due

/-- Addresses that the plan's reads move in whole tiles. -/
def Plan.whole (p : Plan) (a : Nat) : Bool := p.port || inWellOrDram a

/-- Traffic of a plan: its runs once, its loads each time. -/
def Plan.traffic (p : Plan) (e : Nat) : Use :=
  p.loads.foldl (fun u s => u.add (spanUse e p.whole s)) (spanUse e p.whole p.spans)

/-- Tiles read in part (R602). -/
def Plan.fills (p : Plan) (e : Nat) : Nat :=
  p.loads.foldl (fun n s => n + fillTiles e p.whole s) (fillTiles e p.whole p.spans)

/-- R155: `cost` steps, or as many as the scratch traffic needs. -/
def scratchBound (cost : Nat) (traffic : Use) : Nat := max cost (ceilDiv traffic.scratch 640)

/-! ### Writes -/

/-- R614: the runs that a command writes outside its engine's scratch join the signature. -/
def Device.sign (d : Device) (e : Nat) (spans : List Span) : Device :=
  match (d.eng e).run with
  | none => d
  | some r =>
    if !r.due.shadow && (d.shadowOf r.due).isNone then d
    else
      let out := spans.filter (fun s => s.store && !inOwnScratch e s.addr s.len)
      let (a, b) := out.foldl (fun g s => sigAdd g d.store.mem (physAddr e s.addr) s.len) (r.sigA, r.sigB)
      d.modEng e (fun x => { x with run := some { r with sigA := a, sigB := b } })

/-- R613: a shadow launch keeps only what it wrote in its own engine's scratch. -/
def Device.suppress (d : Device) (e : Nat) (before : Store) : Device :=
  match (d.eng e).run with
  | none => d
  | some r =>
    if !r.due.shadow then d
    else
      let lo := scratchBase e
      let hi := lo + scratchBytes
      let own (a : Nat) : Bool := decide (lo ≤ a) && decide (a < hi)
      let mem := before.mem.filter (fun c => c.1 < lo) ++
        (d.store.mem.filter (fun c => own c.1) ++ before.mem.filter (fun c => hi ≤ c.1))
      let seals := before.seals.filter (fun c => c.1 < lo) ++
        (d.store.seals.filter (fun c => own c.1) ++ before.seals.filter (fun c => hi ≤ c.1))
      { d with store := { d.store with mem := mem, seals := seals } }

/-- R449: where an encode list of a convoy would write for members without a newer anchor: their rows of the ring and their
anchor features. -/
def Device.rowsDropped (d : Device) (r : Run) : List Span :=
  if r.bind ≠ some .encode then []
  else
    (r.streams.filter (fun s => d.hasSsb s && !r.dests.any (fun x => x.1 = s))).flatMap (fun s =>
      let ids := [d.ssbField s 48 2, d.ssbField s 50 2, d.ssbField s 98 2]
      (r.descs.filter (fun t => ids.contains t.tensorId)).map (fun t => { addr := t.base, len := t.span, store := true }))

/-- Those of the written runs are discarded: their bytes stay as they were. -/
def Device.discard (d : Device) (e : Nat) (r : Run) (spans : List Span) (before : Store) : Device :=
  (d.rowsDropped r).foldl (fun d w =>
    (spans.filter (·.store)).foldl (fun (d : Device) s =>
      let lo := max w.addr s.addr
      let hi := min (w.addr + w.len) (s.addr + s.len)
      if lo < hi then
        let a := physAddr e lo
        d.write a ((List.range (hi - lo)).map (fun i => memGet before.mem (a + i)))
      else d) d) d

/-- Writes of a command, held back as its launch requires. -/
def Device.landing (d : Device) (e : Nat) (spans : List Span) (f : Device → Device) : Device :=
  let before := d.store
  let d := f d
  let d := match (d.eng e).run with
    | some r => d.discard e r spans before
    | none => d
  d.suppress e before

/-- The writes of a command, signed and held back as its launch requires. -/
def Device.writing (d : Device) (e : Nat) (spans : List Span) (f : Device → Device) : Device :=
  let before := d.store
  let d := f d
  let d := match (d.eng e).run with
    | some r => d.discard e r spans before
    | none => d
  (d.sign e spans).suppress e before

/-- What a command of the vector unit is charged: `vec` vector steps, at least R155's in all, and its traffic. -/
def Plan.vecUse (p : Plan) (e vec : Nat) : Use :=
  { p.traffic e with vecSteps := vec, emptySteps := scratchBound vec (p.traffic e) - vec }

/-- The instructions of a command of the vector unit or a port: blocks of its steps; the last one writes (log 22). -/
def Plan.issues (p : Plan) (kind e vec : Nat) : List Issue :=
  let u := p.vecUse e vec
  blockIssues { kind := kind } u.vecSteps u.emptySteps

/-- A command of the vector unit or a port: admitted, its steps (at least R155's), its effect, its end. -/
def Device.simple (d : Device) (e : Nat) (r : Run) (p : Plan) (vec : Nat) (f : Device → Device) : Device :=
  match d.admitted e r p (fun d _ => d) with
  | (false, d) => d
  | (true, d) =>
    let d := d.countFill (p.fills e)
    let d := d.spend e r.ctx (p.vecUse e vec)
    (d.writing e p.spans f).completeCommand e

end Sys2Proof.Machine
end

