-- ==== Sys2Proof/Machine/Places.lean ====
section
/-! DEFINITION. The fixed placement of addresses: Well banks (R62), stack DRAM (R71, Table 2.9) and scratch (R152). -/
namespace Sys2Proof.Machine

/-- R62: a[11:7] XOR a[16:12]. -/
def wellBank (a : BitVec 26) : BitVec 5 := a.extractLsb' 7 5 ^^^ a.extractLsb' 12 5

/-- Table 2.9: where a DRAM byte lies. -/
structure DramPlace where
  /-- Channel c. -/
  channel : BitVec 7
  /-- DD0 to DD3. -/
  die : BitVec 2
  burst : BitVec 3
  bank : BitVec 5
  row : BitVec 11
  byte : BitVec 8
  deriving DecidableEq, Repr

def dramChannel (a : BitVec 34) : BitVec 7 := a.extractLsb' 8 7 ^^^ a.extractLsb' 15 7 ^^^ a.extractLsb' 22 7

/-- R71. -/
def dramPlace (a : BitVec 34) : DramPlace :=
  { channel := dramChannel a
    die := (dramChannel a).extractLsb' 5 2
    burst := a.extractLsb' 15 3
    bank := a.extractLsb' 18 5
    row := a.extractLsb' 23 11
    byte := a.extractLsb' 0 8 }

/-- R152: where a scratch byte lies. -/
structure ScratchPlace where
  bank : BitVec 7
  row : BitVec 15
  byte : BitVec 3
  deriving DecidableEq, Repr

def scratchPlace (o : BitVec 25) : ScratchPlace :=
  { bank := o.extractLsb' 3 7, row := o.extractLsb' 10 15, byte := o.extractLsb' 0 3 }

end Sys2Proof.Machine

/-- The arbiter of the resource at a place. -/
def Sys2Proof.ArbPort.id (p : Sys2Proof.ArbPort) : Sys2Proof.ArbId :=
  match p with
  | .fabric i => .fabric i
  | .well a => .wellBank (Sys2Proof.Machine.wellBank (BitVec.ofNat 26 a.val)).toFin
  | .dram a => .dramChannel (Sys2Proof.Machine.dramPlace (BitVec.ofNat 34 a.val)).channel.toFin
  | .flagUnit => .flagUnit
  | .serai => .serai
  | .rfePort => .rfePort
  | .visionPort u => .visionPort u
  | .scratch e o => .scratchBank e (Sys2Proof.Machine.scratchPlace (BitVec.ofNat 25 o.val)).bank.toFin
end

