-- ==== Sys2Proof/Machine/SlotTables.lean ====
section
/-! DEFINITION. Arbiters as state, the free-choice counters that CTL_FC_NONZERO gathers (Table 11.3), and the slot
tables of lockstep mode (R483 to R485). -/
namespace Sys2Proof.Machine

/-! ### Arbiters -/

def Arbiter.fresh (id : ArbId) : Arbiter :=
  { id := id, waiting := [], granted := none, entry := none, revoking := none, kept := [], paused := [], tablePos := 0, served := 0, stalls := 0, freedAt := none, deadHandshakes := 0 }

def Device.arb (d : Device) (id : ArbId) : Arbiter :=
  (d.stk.arbiters.find? (fun a => a.id = id)).getD (.fresh id)

def Device.setArb (d : Device) (a : Arbiter) : Device :=
  { d with stk := { d.stk with arbiters := a :: d.stk.arbiters.filter (fun b => b.id ≠ a.id) } }

/-- Kind and instance of an arbiter in Table 11.2; a scratch bank has no table (R487). -/
def arbTableKey : ArbId → Option (Nat × Nat)
  | .fabric i => some (0, i.toNat)
  | .wellBank i => some (1, i.val)
  | .dramChannel i => some (2, i.val)
  | .flagUnit => some (3, 0)
  | .serai => some (4, 0)
  | .rfePort => some (5, 0)
  | .visionPort u => some (6, u.val)
  | .scratchBank .. => none

/-- The slot table of an arbiter under the active itinerary. -/
def Device.slotTable (d : Device) (id : ArbId) : Option SlotTable :=
  match arbTableKey id, d.image.slotTables.find? (fun p => p.1 = d.itn.active) with
  | some (kind, inst), some p => p.2.find? (fun t => t.kind = kind && t.inst = inst)
  | _, _ => none

/-! ### Void entries (R485) -/

/-- The status of the entry's launch in this traversal, once it has ended or been skipped. -/
def Device.endedNow (d : Device) (entry : Nat) : Option Status :=
  (d.itn.ended.find? (fun x => x.index = d.itn.active && x.entry = entry && x.count = d.itn.k)).map (·.status)

/-- In this traversal a re-projection list has run, runs or waits in the entry's place. -/
def Device.reproRan (d : Device) (entry : Nat) : Bool :=
  d.itn.began.any (fun b => b.index = d.itn.active && b.entry = entry && b.count = d.itn.k && b.repro) ||
    d.allDues.any (fun x => x.index = d.itn.active && x.entry = entry && x.count = d.itn.k && x.repro.isSome)

/-- In this traversal the entry's launch has run, or runs, its own list, however that ended. -/
def Device.ownRan (d : Device) (entry : Nat) : Bool :=
  d.itn.began.any (fun b => b.index = d.itn.active && b.entry = entry && b.count = d.itn.k && !b.repro)

/-- R485: the entry's launch of this traversal was skipped (R441, R462, R471), or a teardown of its context ended it. A launch
that its own commands or an ABORT ended leaves its entries as they are (log 38). -/
def Device.goneNow (d : Device) (entry ctx : Nat) : Bool :=
  match d.endedNow entry with
  | none => false
  | some st => st = .deadlineMiss || st = .noCredit || st = .tornDown || ((d.ctx ctx).mode = .quarantined && !committed st)

/-- R485. -/
def Device.slotVoid (d : Device) (x : SlotEntry) : Bool :=
  match d.active with
  | none => false
  | some i =>
    match i.entries[x.entry]? with
    | none => false
    | some e =>
      !d.itn.groupEn.getLsbD e.group || (d.goneNow x.entry e.ctx && !d.reproRan x.entry) || (x.alt && d.ownRan x.entry) || (!x.alt && d.reproRan x.entry)

/-- R484: the place in the table of the next entry that is not void, from `pos` on, over at most `fuel` entries. -/
def Device.tableNext (d : Device) (tab : SlotTable) : (fuel pos : Nat) → Option (Nat × SlotEntry)
  | 0, _ => none
  | fuel + 1, pos =>
    match tab.entries[pos]? with
    | none => none
    | some x =>
      if d.slotVoid x then d.tableNext tab fuel ((pos + 1) % tab.entries.length) else some (pos, x)

/-! ### Free-choice counters -/

/-- CTL_FC_NONZERO (Table 11.8). -/
def Device.fcNonzero (d : Device) : Nat :=
  let at_ (i n : Nat) : Nat := if n = 0 then 0 else 2 ^ i
  (List.range 6).foldl (fun s e => s + at_ e (d.eng e).regs.freeChoice) 0 + at_ 6 d.rfe.freeChoice +
    (List.range 7).foldl (fun s u => s + at_ (7 + u) (d.unit u).freeChoice) 0 + at_ 14 d.itn.freeChoice +
    at_ 15 d.well.freeChoice + at_ 16 d.stk.freeChoice + at_ 17 d.serai.freeChoice + at_ 18 d.ctl.fabricFree +
    at_ 19 (d.scan.foldl (fun s p => s + p.freeChoice) 0) + at_ 20 d.ctl.controlFree

end Sys2Proof.Machine
end

