-- ==== Sys2Proof/Machine/Arbiters.lean ====
section
/-! DEFINITION. The arbiters (R75 to R82, Table 2.10), their slot tables in lockstep mode (R484 to R488), the scratch
banks (R153, R156, R487) and DRAM refresh (R73, R488). -/
namespace Sys2Proof.Machine

/-! ### Free choices of an arbiter (Table 11.3) -/

/-- The shared free-choice counter of an arbiter's block. -/
def Device.arbChoice (d : Device) (id : ArbId) : Device :=
  if d.phase ≠ .running then d
  else match id with
  | .fabric _ => { d with ctl := { d.ctl with fabricFree := satInc d.ctl.fabricFree } }
  | .wellBank _ => { d with well := { d.well with freeChoice := satInc d.well.freeChoice } }
  | .flagUnit => { d with well := { d.well with freeChoice := satInc d.well.freeChoice } }
  | .dramChannel _ => { d with stk := { d.stk with freeChoice := satInc d.stk.freeChoice } }
  | .serai => { d with serai := { d.serai with freeChoice := satInc d.serai.freeChoice } }
  | .rfePort => { d with rfe := { d.rfe with freeChoice := satInc d.rfe.freeChoice } }
  | .visionPort u => d.modUnit u.val (fun x => { x with freeChoice := satInc x.freeChoice })
  | .scratchBank e _ =>
    d.modEng e.val (fun x => { x with regs := { x.regs with freeChoice := satInc x.regs.freeChoice } })

/-! ### The lists of an arbiter -/

/-- R75: order of arrival, simultaneous requests by requester index. -/
def arrivesBefore (a b : Nat × ArbReq) : Bool :=
  decide (a.1 < b.1) || (a.1 = b.1 && decide (a.2.req < b.2.req))

/-- R487: ascending issue step, then requester index. -/
def issuedBefore (a b : Nat × ArbReq) : Bool :=
  decide (a.2.tag < b.2.tag) || (a.2.tag = b.2.tag && decide (a.2.req < b.2.req))

/-- Completed handshakes of a request that was revoked (R78) or left unfinished by its entry (R484). -/
def Arbiter.progress (a : Arbiter) (r : ArbReq) : Nat :=
  match (a.kept ++ a.paused).find? (fun k => k.1 = r) with
  | some k => k.2
  | none => 0

/-- A waiting request is granted; it resumes at its kept progress count, whose place is freed (R79, R80), and every other
waiting request stalls for its handshakes (R156). -/
def Arbiter.give (a : Arbiter) (r : ArbReq) : Arbiter :=
  { a with
    waiting := removeFirst (fun w => w.2 = r) a.waiting, granted := some (r, a.progress r), entry := none,
    kept := removeFirst (fun k => k.1 = r) a.kept, paused := removeFirst (fun k => k.1 = r) a.paused, freedAt := none,
    stalls := (r.len - a.progress r) * (removeFirst (fun w => w.2 = r) a.waiting).length }

/-- The granted transfer stops after `count` handshakes, its count kept, and its requester waits again (R78). -/
def Arbiter.revoke (a : Arbiter) (r : ArbReq) (count now : Nat) : Arbiter :=
  { a with
    granted := none, entry := none, revoking := none, kept := a.kept ++ [(r, count)], waiting := a.waiting ++ [(now, r)], stalls := 0 }

/-- The granted transfer has had the handshakes of its entry, which does not revoke it; the rest waits for the next entry
that names it (R484). -/
def Arbiter.pause (a : Arbiter) (r : ArbReq) (count now : Nat) : Arbiter :=
  { a with
    granted := none, entry := none, revoking := none, paused := a.paused ++ [(r, count)], waiting := a.waiting ++ [(now, r)], stalls := 0 }

/-- The granted transfer ends with no count kept. -/
def Arbiter.finish (a : Arbiter) : Arbiter :=
  { a with granted := none, entry := none, revoking := none, stalls := 0 }

/-- R156: the handshakes stalled by the transfer that comes to its boundary: those it does not perform for a revocation stall
nobody. -/
def Arbiter.stalled (a : Arbiter) : Nat :=
  match a.granted, a.revoking with
  | some (g, _), some n => a.stalls - (g.len - n) * a.waiting.length
  | _, _ => a.stalls

/-! ### Requests -/

/-- R78, R80: whether an arriving request revokes the transfer that runs with `progress` handshakes completed at the next
boundary: only a latency-critical one a best-effort one, once, while fewer than 8 counts are kept and a handshake remains
(Table 2.10). -/
def Arbiter.revokes (a : Arbiter) (r : ArbReq) (progress : Nat) : Bool :=
  match a.granted with
  | none => false
  | some (g, _) =>
    r.latencyCritical && !g.latencyCritical && a.revoking.isNone && decide (a.kept.length < 8) && decide (progress < g.len)

/-- R156: the handshakes that the running transfer still performs, for which an arriving request stalls. -/
def Arbiter.rest (a : Arbiter) (progress : Nat) : Nat :=
  match a.granted with
  | none => 0
  | some (g, done) => g.len - max progress done

/-- R75, R78: a request arrives. In free mode one that revokes, or that meets the withdrawal of a best-effort transfer, is to
be granted next; the revocation itself takes effect at the next handshake boundary (Table 2.10). -/
def Arbiter.request (a : Arbiter) (r : ArbReq) (progress now : Nat) (lockstep : Bool) : Arbiter :=
  let stalls := a.stalls + a.rest progress
  if lockstep then { a with waiting := insertBy arrivesBefore (now, r) a.waiting, stalls := stalls }
  else if a.revokes r progress then
    { a with waiting := (now, r) :: a.waiting, revoking := some (max progress (a.granted.elim 0 (·.2))), stalls := stalls }
  else if r.latencyCritical ∧ a.granted.isNone ∧ a.freedAt = some now then
    { a with waiting := (now, r) :: a.waiting, freedAt := none, stalls := stalls }
  else { a with waiting := insertBy arrivesBefore (now, r) a.waiting, stalls := stalls }

/-- R482: before T0 the device issues at most one request at a time to an arbiter. -/
def Device.mayRequest (d : Device) (a : Arbiter) : Bool :=
  d.phase = .running || (a.granted.isNone && a.waiting.isEmpty)

/-- R75: a request arrives for the resource at the place that its address gives (R62, R71, R152). -/
def execArbiterRequest (t : Nat) (arbiter : ArbPort) (request : ArbReq) (progress : Nat) (s : State) :
    Host.Outcome State Fault Refusal :=
  .next (s.run t fun d => d.whenAlive fun d =>
    d.guard (d.mayRequest (d.arb arbiter.id)) fun d =>
      d.setArb ((d.arb arbiter.id).request request progress d.now d.ctl.lockstep))

/-! ### Grants -/

/-- R75: the next request in free mode, and whether another was pending with it. -/
def Arbiter.freeNext (a : Arbiter) : Option (ArbReq × Bool) :=
  match a.waiting with
  | [] => none
  | [w] => some (w.2, false)
  | w :: _ :: _ => some (w.2, true)

/-- R487: requester 6 is granted only while the engine runs no command, or a COPY. -/
def Device.fabricPortOpen (d : Device) (e : Nat) : Bool :=
  match (d.eng e).run with
  | none => true
  | some r => !r.inCmd || isOp opCOPY r.cmd

/-- R487: the next request of a scratch bank in lockstep mode. -/
def Device.bankNext (d : Device) (e : Nat) (a : Arbiter) : Option ArbReq :=
  ((sortBy issuedBefore (a.waiting.filter (fun w => w.2.req < 6 || d.fabricPortOpen e))).head?).map (·.2)

/-- R488: a refresh window runs. -/
def Device.refreshing (d : Device) : Bool :=
  d.phase = .running && d.ctl.lockstep && decide ((d.now - d.t0) % 125000 < 1500)

/-- R78, R80, R82: a handshake boundary of free mode: a revocation takes effect, and is a free choice; else the transfer has
ended. -/
def Arbiter.boundaryFree (a : Arbiter) (now : Nat) : Arbiter × Bool :=
  match a.granted, a.revoking with
  | some (g, _), some n => (a.revoke g n now, true)
  | _, _ => (a.finish, false)

/-- R484: an entry has granted `n` more handshakes; after exactly COUNT the arbiter goes on to the next entry. -/
def Arbiter.serve (a : Arbiter) (x : SlotEntry) (n entries : Nat) : Arbiter :=
  if a.served + n < x.count then { a with served := a.served + n }
  else { a with served := 0, tablePos := (a.tablePos + 1) % entries }

/-- R80, R81, R484: the transfer has had the handshakes that its entry has left, or has ended. One with handshakes left is
revoked where the entry has REVOKE set and fewer than 8 counts are kept; else it waits for the next entry that names it. -/
def Arbiter.boundaryLockstep (a : Arbiter) (entries now : Nat) : Arbiter :=
  match a.granted, a.entry with
  | some (g, done), some x =>
    let n := min (x.count - a.served) (g.len - done)
    let b := a.serve x n entries
    if g.len ≤ done + n then b.finish
    else if x.revoke ∧ a.kept.length < 8 then b.revoke g (done + n) now
    else b.pause g (done + n) now
  | _, _ => a.finish

/-- R156: stalled handshakes of a scratch bank. -/
def Device.countStalls (d : Device) (id : ArbId) (n : Nat) : Device :=
  match id with
  | .scratchBank e _ => d.modEng e.val (fun x => { x with regs := { x.regs with bankStalls := satAdd x.regs.bankStalls n } })
  | _ => d

/-- The running transfer comes to its boundary and the resource is free. -/
def Device.freeResource (d : Device) (id : ArbId) : Device :=
  let a := d.arb id
  let d := d.countStalls id a.stalled
  if d.ctl.lockstep then d.setArb (a.boundaryLockstep ((d.slotTable id).elim 1 (·.entries.length)) d.now)
  else
    let (a, revoked) := a.boundaryFree d.now
    (if revoked then d.arbChoice id else d).setArb a

/-- R484, R486: the grant of an arbiter with a slot table in lockstep mode: the repeat of a recovery before the next entry,
then that entry's requester when it waits. -/
def Device.tableGrant (d : Device) (tab : SlotTable) (a : Arbiter) : Arbiter :=
  match a.waiting.find? (fun w => w.2.ladder) with
  | some w => a.give w.2
  | none =>
    match d.tableNext tab tab.entries.length a.tablePos with
    | none => a
    | some (pos, x) =>
      let a := { a with tablePos := pos, served := if pos = a.tablePos then a.served else 0 }
      match a.waiting.find? (fun w => w.2.req = x.req && (x.entry = 0xFFFF || w.2.tag = x.entry)) with
      | none => a
      | some w => { a.give w.2 with entry := some x }

/-- R75, R76, R484, R487: the resource is free and the arbiter grants the next requester. -/
def Device.grantNext (d : Device) (id : ArbId) : Device :=
  let a := d.arb id
  if !d.ctl.lockstep then
    match a.freeNext with
    | none => d.setArb a
    | some (r, choice) =>
      let d := d.setArb (a.give r)
      if choice then d.arbChoice id else d
  else
    match id with
    | .scratchBank e _ =>
      match d.bankNext e.val a with
      | none => d.setArb a
      | some r => d.setArb (a.give r)
    | _ =>
      let closed := match id with
        | .dramChannel _ => d.refreshing
        | _ => false
      if closed then d.setArb a
      else
        match d.slotTable id with
        | none => d.setArb a
        | some tab => d.setArb (d.tableGrant tab a)

/-- The resource frees and the next requester is granted. -/
def execArbiterGrant (t : Nat) (arbiter : ArbId) (s : State) : Host.Outcome State Fault Refusal :=
  .next (s.run t fun d => d.whenAlive fun d => (d.freeResource arbiter).grantNext arbiter)

/-! ### Withdrawals -/

/-- R77, Table 2.10: a waiting requester withdraws at no cost; a granted one costs one dead handshake, for which the others
stall, and keeps no count, also where it was to be revoked; the next ARBITER_GRANT then grants the next requester. -/
def Arbiter.withdraw (a : Arbiter) (req now : Nat) : Arbiter :=
  let leave : Arbiter := { a with
    waiting := removeFirst (fun w => w.2.req = req) a.waiting, kept := removeFirst (fun k => k.1.req = req) a.kept
    paused := removeFirst (fun k => k.1.req = req) a.paused }
  match a.granted with
  | some (g, _) =>
    if g.req = req then
      { a.finish with
        deadHandshakes := satInc a.deadHandshakes, stalls := a.waiting.length
        freedAt := if g.latencyCritical || a.revoking.isSome then none else some now }
    else leave
  | none => leave

/-- R77. -/
def execRequesterWithdrawal (t : Nat) (arbiter : ArbId) (req : Nat) (s : State) : Host.Outcome State Fault Refusal :=
  .next (s.run t fun d => d.whenAlive fun d => d.setArb ((d.arb arbiter).withdraw req d.now))

/-! ### Refresh -/

/-- The rows of an index are refreshed in all banks of every channel now. -/
def Device.refreshRow (d : Device) (row : Nat) : Device :=
  { d with stk := { d.stk with refreshed := (row, d.now) :: d.stk.refreshed.filter (fun x => x.1 ≠ row) } }

/-- R73: in free mode the DRAM interface refreshes a row between transfers; in lockstep mode it refreshes in windows
only (R488). -/
def execDramRefresh (t : Nat) (row : Fin 1536) (s : State) : Host.Outcome State Fault Refusal :=
  .next (s.run t fun d => d.whenAlive fun d =>
    if d.ctl.lockstep then d else d.refreshRow row.val)

/-- R488: window w starts at T0 + 125,000 × w ns, lasts 1,500 ns and refreshes the next 12 row indices, once. -/
def execRefreshWindow (t : Nat) (s : State) : Host.Outcome State Fault Refusal :=
  .next (s.run t fun d => d.whenRunning fun d =>
    d.guard (d.refreshing && decide (d.t0 + 125000 * d.stk.windows ≤ d.now)) fun d =>
      let first := d.stk.nextRow
      let d := (List.range 12).foldl (fun (d : Device) i => d.refreshRow ((first + i) % 1536)) d
      { d with stk := { d.stk with
          nextRow := (first + 12) % 1536, windows := (d.now - d.t0) / 125000 + 1 } })

end Sys2Proof.Machine
end

