-- ==== Sys2Proof/Machine/Array.lean ====
section
/-! DEFINITION. Array commands (R133 to R148, R180, R181, R196 to R233, R731): a job says what the array's rows
carry and its columns weigh; its sums, its product check, its steps and its loads follow from that. -/
namespace Sys2Proof.Machine

/-- One array job: what CONV, MATMUL and the two products of an ATTN head have in common. -/
structure ArrayJob where
  /-- Which product of its command it is, and the command's wrong products (`PeFault`). -/
  job : Nat
  faults : List PeFault
  /-- A BF16 or FP16 pair (R110). -/
  fp : Bool
  /-- Pair width w of R93. -/
  pairW : Nat
  /-- r: steps per vector per slot. -/
  rate : Nat
  /-- Rows of a slot, double-rate halves included. -/
  depth : Nat
  perSet : Nat
  /-- Bytes of a slot's weights and scales (R140). -/
  slotBytes : Nat
  outFmt : Nat
  shift : Int
  check : Bool
  fromScratch : Bool
  vectors : Nat
  /-- Column groups: first slot and number of slots. -/
  groups : List (Nat × Nat)
  /-- Group, slot, row, vector: `none` for an unused row or a sample that adds no term. -/
  sample : Nat → Nat → Nat → Nat → Option Num
  /-- Group, slot, first vector, vectors: the chunk does not stream the slot (R225). -/
  skip : Nat → Nat → Nat → Nat → Bool
  /-- Slot, row, column. -/
  weight : Nat → Nat → Nat → Num
  /-- Group and column: the FP32 bias (R99). -/
  bias : Nat → Nat → Option Nat
  /-- The first output that this run drains and the one that it stops before, by column group and vector: a full save cuts a
  command into several runs (R186, R191). -/
  start : Nat × Nat
  stop : Nat × Nat

def ArrayJob.group (j : ArrayJob) (g : Nat) : Nat × Nat := j.groups.getD g (0, 0)
def ArrayJob.slots (j : ArrayJob) (g : Nat) : List Nat := (List.range (j.group g).2).map ((j.group g).1 + ·)

def ArrayJob.chunks (j : ArrayJob) : Nat := ceilDiv j.vectors 128
def ArrayJob.chunkLen (j : ArrayJob) (c : Nat) : Nat := min 128 (j.vectors - 128 * c)

/-- The weight sets of a column group (R143): first slot and slots. -/
def weightSets (perSet first count : Nat) : List (Nat × Nat) :=
  (List.range (ceilDiv count perSet)).map (fun i => (first + i * perSet, min perSet (count - i * perSet)))

def ArrayJob.sets (j : ArrayJob) (g : Nat) : List (Nat × Nat) := weightSets j.perSet (j.group g).1 (j.group g).2

/-- The wrong products of one pass. -/
def ArrayJob.passFaults (j : ArrayJob) (g c set : Nat) : List PeFault :=
  let (first, count) := (j.sets g).getD set (0, 0)
  j.faults.filter (fun f => f.job = j.job && f.group = g && f.chunk = c && f.set = set && decide (first ≤ f.slot) &&
    decide (f.slot < first + count) && !j.skip g f.slot (128 * c) (j.chunkLen c))

/-- The wrong products that fall in column n for a vector, in any weight set. -/
def ArrayJob.faultsAt (j : ArrayJob) (g n v : Nat) : List PeFault :=
  ((List.range (j.sets g).length).flatMap (j.passFaults g (v / 128))).filter (fun f =>
    f.column.val = n && f.vector.val = v % 128)

/-- The order of column groups and vectors. -/
def placeBefore (a b : Nat × Nat) : Bool := decide (a.1 < b.1) || (a.1 = b.1 && decide (a.2 < b.2))

/-- The run drains a vector of a column group. -/
def ArrayJob.drains (j : ArrayJob) (g v : Nat) : Bool := !placeBefore (g, v) j.start && placeBefore (g, v) j.stop

/-- The run ends the drain of a chunk: its passes are reported now (Table 4.19). -/
def ArrayJob.closes (j : ArrayJob) (g c : Nat) : Bool :=
  let last := (g, 128 * c + j.chunkLen c)
  placeBefore j.start last && !placeBefore j.stop last

/-- Where a job is done. -/
def ArrayJob.done (j : ArrayJob) : Nat × Nat := (j.groups.length, 0)

/-- How far an expansion position has drained a job. -/
def ArrayJob.drainedAt (j : ArrayJob) (p : Pos) : Nat × Nat :=
  if j.job < p.job then j.done
  else if p.job < j.job then (0, 0)
  else (p.group, 128 * p.chunk + p.vector)

/-- The job from an expansion position on, and up to one. -/
def ArrayJob.after (j : ArrayJob) (p : Pos) : ArrayJob := { j with start := j.drainedAt p }
def ArrayJob.upTo (j : ArrayJob) (p : Pos) : ArrayJob := { j with stop := j.drainedAt p }

/-- The run is the job's last. -/
def ArrayJob.ends (j : ArrayJob) : Bool := !placeBefore j.stop j.done

/-- R91, R111: the exact sum that column n forms for a vector from slots in order. -/
def ArrayJob.sumOf (j : ArrayJob) (slots : List Nat) (g n v : Nat) : Acc :=
  slots.foldl (fun acc slot =>
    (List.range j.depth).foldl (fun acc k =>
      match j.sample g slot k v with
      | none => acc
      | some x =>
        if j.fp then accAddFp acc x (j.weight slot k n) else accAdd acc (termMul x (j.weight slot k n))) acc)
    (accStart j.fp (j.bias g n))

/-- The sum after every slot of the group. -/
def ArrayJob.sum (j : ArrayJob) (g n v : Nat) : Acc := j.sumOf (j.slots g) g n v

/-- The column's entry for a vector: its sum, its wrong products added. -/
def ArrayJob.acc (j : ArrayJob) (g n v : Nat) : Acc :=
  (j.faultsAt g n v).foldl (fun a f => { a with a := a.a + BitVec.ofInt 64 f.delta }) (j.sum g n v)

/-- R100, R113: the value that the drain converts, and whether a false range guard decided it. -/
def ArrayJob.drained (j : ArrayJob) (g n v : Nat) : Num × Bool :=
  drainValue j.pairW (isFloatFmt j.outFmt) j.shift (j.acc g n v)

/-! ### Range guards (R93, R97) -/

/-- The columns of a group that a bias or a nonzero weight can give a term; every other column drains the empty sum. -/
def ArrayJob.liveCols (j : ArrayJob) (g : Nat) : List Nat :=
  (List.range 128).filter (fun n => (j.bias g n).isSome || (j.slots g).any (fun slot =>
    (List.range j.depth).any (fun k => match j.weight slot k n with | .fin _ m _ => m != 0 | _ => true)))

/-- Every column that a group drains with a false range guard, whatever its flags, by vector: columns without an output channel
and outputs that are discarded are drained like the others (R127, R148, R216). -/
def ArrayJob.falseGuards (j : ArrayJob) (g : Nat) : List (Nat × Nat) :=
  (j.liveCols g).flatMap (fun n => ((List.range j.vectors).filter (fun v =>
    !j.fp && !rangeGuard j.pairW (j.acc g n v))).map (fun v => (n, v)))

/-- R97, R98: those whose result the false guard decides, no flag being set: NE_RANGE_FLAGS counts them. -/
def ArrayJob.rangeFlags (j : ArrayJob) (g : Nat) (guards : List (Nat × Nat)) : List (Nat × Nat) :=
  guards.filter (fun x => (j.drained g x.1 x.2).2)

/-! ### The product check -/

/-- R181: digit vectors of one slot in a chunk; 13 when an activation is not finite. -/
def ArrayJob.digits (j : ArrayJob) (g slot c : Nat) : Nat :=
  let cols := (List.range j.depth).map (fun k =>
    (List.range (j.chunkLen c)).filterMap (fun i => j.sample g slot k (128 * c + i)))
  let all := cols.flatten
  if all.any (fun x => match x with | .fin .. => false | _ => true) then 13
  else
    let e := (exactSum all).2
    cols.foldl (fun d col =>
      let (v, q) := exactSum col
      max d (digitsOf (v.natAbs * 2 ^ (q - e).toNat))) 1

/-- The sum of numbers as one number. -/
def sumNum (l : List Num) : Num := let (v, q) := exactSum l; signedNum v q false

/-- R127: the check weight c_k of a slot's row, over all 128 columns. -/
def ArrayJob.checkWeight (j : ArrayJob) (slot k : Nat) : Num := sumNum ((List.range 128).map (fun n => j.weight slot k n))

/-- R127, R129: a check weight of the slot needs more than 48 significant bits. -/
def ArrayJob.wideWeight (j : ArrayJob) (slot : Nat) : Bool :=
  (List.range j.depth).any (fun k =>
    (List.range 128).any (fun n => match j.weight slot k n with | .fin .. => false | _ => true) ||
      match j.checkWeight slot k with
      | .fin _ m _ => decide (48 < significantBits m)
      | _ => true)

/-- The terms of a vector in the slots of a pass, against the weights `w`. -/
def ArrayJob.terms (j : ArrayJob) (g : Nat) (slots : List Nat) (v : Nat) (w : Nat → Nat → Num) : List Num :=
  slots.flatMap (fun slot => (List.range j.depth).filterMap (fun k => (j.sample g slot k v).map (fun x => numMul x (w slot k))))

/-- R128: the column sum x̄[k] of a row over the vectors of a chunk. -/
def ArrayJob.rowSum (j : ArrayJob) (g c slot k : Nat) : Num :=
  sumNum ((List.range (j.chunkLen c)).filterMap (fun i => j.sample g slot k (128 * c + i)))

/-- What a pass adds to y[p][n], its wrong products included. -/
def ArrayJob.passSum (j : ArrayJob) (g c set : Nat) (slots : List Nat) (i n : Nat) : List Num :=
  j.terms g slots (128 * c + i) (fun slot k => j.weight slot k n) ++
    ((j.passFaults g c set).filter (fun f => slots.contains f.slot && f.vector.val = i && f.column.val = n)).map
      (fun f => intNum f.delta (j.sum g n (128 * c + i)).ef)

/-- Two exact sums differ. -/
def sumsDiffer (a b : List Num) : Bool := (exactSum (a ++ b.map numNeg)).1 != 0

/-- R127, R130: the check column marks vector p of the pass. -/
def ArrayJob.vectorMarked (j : ArrayJob) (g c set : Nat) (slots : List Nat) (p : Nat) : Bool :=
  sumsDiffer (j.terms g slots (128 * c + p) j.checkWeight) ((List.range 128).flatMap (j.passSum g c set slots p))

/-- R128, R130: the check row marks column n of the pass. -/
def ArrayJob.columnMarked (j : ArrayJob) (g c set : Nat) (slots : List Nat) (n : Nat) : Bool :=
  sumsDiffer (slots.flatMap (fun slot => (List.range j.depth).map (fun k => numMul (j.rowSum g c slot k) (j.weight slot k n))))
    ((List.range (j.chunkLen c)).flatMap (fun p => j.passSum g c set slots p n))

/-! ### Passes -/

/-- What one pass streams, what of its check is uncovered, and the vectors and columns that the check marks. -/
structure Pass where
  chunk : Nat
  /-- Slots of the weight set, and those that the chunk streams. -/
  slots : Nat
  streamed : List Nat
  digits : Nat
  uncovered : Bool
  vectors : List Nat
  columns : List Nat
  deriving DecidableEq, Repr

/-- One chunk through one weight set; `guards` are the columns and vectors that drain with a false range guard after it.
R129, R181: a wide check weight leaves the check column uncovered, digits past the twelfth vector the check row of the taps that
they belong to, and a false guard its own vector and column; an uncovered part marks nothing. Without a wrong product both sides of each comparison sum the
same products, so only its vectors and columns are compared here. -/
def ArrayJob.pass (j : ArrayJob) (g c set : Nat) (guards : List (Nat × Nat)) : Pass :=
  let (first, count) := (j.sets g).getD set (0, 0)
  let streamed := ((List.range count).map (first + ·)).filter (fun s => !j.skip g s (128 * c) (j.chunkLen c))
  if j.check then
    let (d, taps) := digitPlan (streamed.map (fun s => j.digits g s c))
    let covered := streamed.take taps
    let wide := streamed.any j.wideWeight
    let wrong := j.passFaults g c set
    { chunk := c, slots := count, streamed := streamed, digits := d,
      uncovered := decide (taps < streamed.length) || wide || !guards.isEmpty,
      vectors := if wide then [] else ((wrong.map (·.vector.val)).eraseDups).filter (fun p =>
        decide (p < j.chunkLen c) && !guards.any (fun x => x.2 = 128 * c + p) && j.vectorMarked g c set streamed p),
      columns := ((wrong.map (·.column.val)).eraseDups).filter (fun n =>
        !guards.any (fun x => x.1 = n) && j.columnMarked g c set covered n) }
  else { chunk := c, slots := count, streamed := streamed, digits := 0, uncovered := false, vectors := [], columns := [] }

/-- R130: the pass fails its check. -/
def Pass.failed (p : Pass) : Bool := !(p.vectors.isEmpty && p.columns.isEmpty)

/-- The passes of a column group in the order of R144. DESIGN CHOICE: of a chunk with several weight sets, the pass that a
false range guard affects (R129) is the one through the last set, before the chunk's one drain (log 56). -/
def ArrayJob.passes (j : ArrayJob) (g : Nat) (guards : List (Nat × Nat)) : List Pass :=
  let n := (j.sets g).length
  (List.range j.chunks).flatMap (fun c =>
    (List.range n).map (fun i => j.pass g c i (if i + 1 = n then guards.filter (fun x => x.2 / 128 = c) else [])))

/-- Slots that the weight loader loads, in order: a single set once, several for every chunk (R144), none whose
slots are all skipped (R225). -/
def loadsOf (ps : List Pass) (single : Bool) : List Nat :=
  let live := ps.filter (fun p => !p.streamed.isEmpty)
  (if single then live.take 1 else live).map (·.slots)

/-- The steps of a weight-set load (R141). -/
def ArrayJob.loadSteps (j : ArrayJob) (slots : Nat) : Nat := if j.fromScratch then ceilDiv (slots * j.slotBytes) 640 else 0

/-- Table 4.15 for one column group, without the loads. -/
def ArrayJob.groupSteps (j : ArrayJob) (ps : List Pass) (single : Bool) : Nat :=
  let d := drainSteps (fmtBits j.outFmt)
  let stream (p : Pass) : Nat := p.streamed.length * 128 * j.rate + p.digits
  ps.foldl (fun n p => n + if single then max (stream p) (255 + d) else stream p) 0 + 255 + d

/-- What a job costs and counts. -/
structure ArrayCost where
  /-- Steps that carry products, and all others. -/
  full : Nat
  empty : Nat
  skips : Nat
  uncovered : Nat
  /-- Columns drained with a false range guard (R97). -/
  flags : Nat
  /-- Marked vectors and columns of each pass that fails its check (R130). -/
  marks : List (List Nat × List Nat)
  /-- Slots of every weight-set load. -/
  loads : List Nat
  deriving DecidableEq, Repr

def ArrayCost.add (a b : ArrayCost) : ArrayCost :=
  { full := a.full + b.full, empty := a.empty + b.empty, skips := a.skips + b.skips, uncovered := a.uncovered + b.uncovered,
    flags := a.flags + b.flags, marks := a.marks ++ b.marks, loads := a.loads ++ b.loads }

def ArrayCost.zero : ArrayCost := { full := 0, empty := 0, skips := 0, uncovered := 0, flags := 0, marks := [], loads := [] }

/-- R180 for one column group: the steps and loads of all of it, and what the run counts. -/
def ArrayJob.groupCost (j : ArrayJob) (g : Nat) : ArrayCost :=
  let guards := j.falseGuards g
  let ps := j.passes g guards
  let now := ps.filter (fun p => j.closes g p.chunk)
  let single := decide ((j.group g).2 ≤ j.perSet)
  let full := ps.foldl (fun n p => n + p.streamed.length * j.chunkLen p.chunk * j.rate) 0
  let loads := loadsOf ps single
  let loadSteps := loads.foldl (fun n k => n + j.loadSteps k) 0
  { full := full, empty := j.groupSteps ps single - full + loadSteps,
    skips := now.foldl (fun n p => n + (p.slots - p.streamed.length)) 0,
    uncovered := (now.filter (·.uncovered)).length, flags := ((j.rangeFlags g guards).filter (fun x => j.drains g x.2)).length,
    marks := (now.filter (·.failed)).map (fun p => (p.vectors, p.columns)), loads := loads }

/-- R180 over the column groups. -/
def ArrayJob.cost (j : ArrayJob) : ArrayCost :=
  (List.range j.groups.length).foldl (fun a g => a.add (j.groupCost g)) .zero

/-! ### The accumulator file -/

/-- The entries that chunks of a column group leave, each after the slots that it has streamed, all of them where it says
none; an entry past the end of a chunk holds the bias that R146 preloads. DESIGN CHOICE: each column group starts at the half
of entries 0 to 127 (log 56). -/
def ArrayJob.leaves (j : ArrayJob) (g : Nat) (cs : List (Nat × Option (List Nat))) (old : List (Nat × Nat × Acc)) :
    List (Nat × Nat × Acc) :=
  let new := cs.flatMap (fun c =>
    (List.range 128).flatMap (fun n =>
      (List.range 128).filterMap (fun i =>
        let a :=
          if i < j.chunkLen c.1 then
            match c.2 with
            | none => j.acc g n (128 * c.1 + i)
            | some slots => j.sumOf slots g n (128 * c.1 + i)
          else accStart j.fp (j.bias g n)
        if a = accEmpty then none else some (n, c.1 % 2 * 128 + i, a))))
  let half (e : Nat) : Bool := cs.any (fun c => e / 128 = c.1 % 2)
  new ++ old.filter (fun x => !half x.2.1)

/-- What a whole column group leaves: its last two chunks (R145). -/
def ArrayJob.groupLeaves (j : ArrayJob) (g : Nat) (old : List (Nat × Nat × Acc)) : List (Nat × Nat × Acc) :=
  j.leaves g (((List.range j.chunks).drop (j.chunks - 2)).map (fun c => (c, none))) old

/-- What a whole job leaves. -/
def ArrayJob.left (j : ArrayJob) (old : List (Nat × Nat × Acc)) : List (Nat × Nat × Acc) :=
  j.groupLeaves (j.groups.length - 1) old

/-! ### Instructions of a job (R158 to R160) -/

/-- The instructions of one pass: its load where it makes one, one for each slot that it streams, one for its digit vectors. -/
def ArrayJob.passIssues (j : ArrayJob) (g set : Nat) (load : Bool) (p : Pass) : List Issue :=
  let at_ : Pos := { job := j.job, group := g, set := set, chunk := p.chunk, half := p.chunk % 2 }
  let full := j.chunkLen p.chunk * j.rate
  (if load then [{ pos := { at_ with kind := kindWLD }, use := { emptySteps := j.loadSteps p.slots } }] else []) ++
    p.streamed.map (fun s =>
      { pos := { at_ with kind := kindSTR, slot := s }, use := { fullSteps := full, emptySteps := 128 * j.rate - full } }) ++
    (if p.digits = 0 then [] else [{ pos := { at_ with kind := kindSTR, digit := 1 }, use := { emptySteps := p.digits } }])

/-- The drain of a chunk after its passes; its empty wavefronts are those that Table 4.15 adds to the streams. -/
def ArrayJob.drainIssue (j : ArrayJob) (g c streams : Nat) (single : Bool) : Issue :=
  let d := 255 + drainSteps (fmtBits j.outFmt)
  { pos := { kind := kindDRN, job := j.job, group := g, set := (j.sets g).length - 1, chunk := c, half := c % 2 },
    use := { emptySteps := (if single then d - streams else 0) + (if c + 1 = j.chunks then d else 0) } }

/-- The instructions of a column group in order (R144): their steps are those of `groupCost`. -/
def ArrayJob.groupIssues (j : ArrayJob) (g : Nat) : List Issue :=
  let n := (j.sets g).length
  let ps := j.passes g []
  let single := decide ((j.group g).2 ≤ j.perSet)
  let first := (ps.find? (fun p => !p.streamed.isEmpty)).map (·.chunk)
  (List.range j.chunks).flatMap (fun c =>
    let mine := (ps.drop (n * c)).take n
    (List.range n).flatMap (fun i =>
      match mine[i]? with
      | some p => j.passIssues g i (!p.streamed.isEmpty && (!single || first = some c)) p
      | none => []) ++
    [j.drainIssue g c (mine.foldl (fun k p => k + p.streamed.length * 128 * j.rate + p.digits) 0) single])

/-- The instructions of a job. -/
def ArrayJob.issues (j : ArrayJob) : List Issue := (List.range j.groups.length).flatMap j.groupIssues

/-- What the accumulator file holds once `issued` have been issued and `next` is the next: the chunk at hand after the slots
that it has streamed, and the chunk before it. -/
def ArrayJob.leftAt (j : ArrayJob) (issued : List Issue) (next : Pos) (old : List (Nat × Nat × Acc)) : List (Nat × Nat × Acc) :=
  let (g, c) := (next.group, next.chunk)
  let slots := (issued.filter (fun i => i.pos.kind = kindSTR && i.pos.job = j.job && i.pos.group = g && i.pos.chunk = c &&
    i.pos.digit = 0)).map (·.pos.slot)
  let before := if g = 0 then old else j.groupLeaves (g - 1) old
  j.leaves g ((if c = 0 then [] else [(c - 1, none)]) ++ [(c, some slots)]) before

/-! ### A CONV -/

/-- A CONV with its operands and the memory that they stand in. -/
structure ConvJob where
  shape : ConvShape
  tin : Desc
  wgt : Desc
  line : Desc
  /-- The rows of the halo come from LINEBUF (R231). -/
  fromLine : Bool
  bias : Option Nat
  padConst : Num
  win : List (Nat × Byte)
  wwin : List (Nat × Byte)
  lwin : List (Nat × Byte)
  bwin : List (Nat × Byte)
  deriving DecidableEq, Repr

/-- R224: the padding constant as the array takes it. -/
def padConstNum (fmt : Nat) (xlo : Int) (code : Nat) : Num :=
  if isMx fmt then
    let vals := List.replicate 32 code
    scaleNum (mxScale fmt xlo vals) (elemNum fmt (mxCode fmt .rne xlo vals code))
  else elemNum fmt (convert fmt .rne true (fpNum code))

/-- R231: a sample of the input or of LINEBUF. -/
def ConvJob.read (j : ConvJob) (ch y x : Nat) (folded : Bool) : Num :=
  let k := j.shape.win
  if j.fromLine && !folded && decide (k.v0 ≤ y) && decide ((y : Int) < k.v0 + k.halo) then
    j.line.num j.lwin ch ((y : Int) - k.v0).toNat x
  else j.tin.num j.win ch y x

def ConvJob.sample (j : ConvJob) (g : ColGroup) (slot k : Nat) (v : Nat × Nat) : Option Num :=
  match j.shape.rowSample g slot k v with
  | none => none
  | some (_, .none) => none
  | some (_, .const) => some j.padConst
  | some (ch, .at y x folded) => some (j.read ch y x folded)

/-- R206 to R208: the weight of PE(k, n) in a slot. -/
def slotWeight (t : Desc) (w : List (Nat × Byte)) (double : Bool) (b slot k n : Nat) : Num :=
  let i := if double then (k % 128 * 128 + n) * 2 + k / 128 else k * 128 + n
  let eb := fmtBits t.fmt
  let x := elemNum t.fmt (codeAt w (t.base + slot * 2048 * b) (i * eb) eb)
  if isMx t.fmt then
    let nb := if double then 8 else 4
    scaleNum (memGet w (t.base + t.scaleOffset + slot * 128 * nb + k / 32 * 128 + n)).toNat x
  else x

/-- Bytes of a slot with its scales (R140). -/
def slotBytesOf (fa fw : Nat) : Nat :=
  2048 * pairBits fa fw + (if isMx fw then (if pairDouble fa fw then 1024 else 512) else 0)

/-- The array job of a CONV. -/
def ConvJob.job (j : ConvJob) (outFmt : Nat) (shift : Int) (check scratch : Bool) (faults : List PeFault) : ArrayJob :=
  let s := j.shape
  let groups := s.colGroups
  let vectors := s.vectors
  let fa := j.tin.fmt
  let fw := j.wgt.fmt
  let grp (g : Nat) : ColGroup := groups.getD g { first := 0, count := 0, index := 0 }
  let vec (v : Nat) : Nat × Nat := vectors.getD v (0, 0)
  { job := 0, faults := faults, fp := pairFp fa, pairW := pairWidth fa fw, rate := pairSteps fa, depth := s.depth, perSet := s.perSet,
    slotBytes := slotBytesOf fa fw, outFmt := outFmt, shift := shift, check := check && !pairFp fa,
    fromScratch := scratch, vectors := vectors.length, groups := groups.map (fun g => (g.first, g.count)),
    sample := fun g slot k v => j.sample (grp g) slot k (vec v),
    skip := fun g slot v0 n => s.skipped (grp g) slot ((vectors.drop v0).take n),
    weight := fun slot k n => slotWeight j.wgt j.wwin s.double (pairBits fa fw) slot k n,
    bias := fun g n =>
      match j.bias, s.colOutput (grp g) n (0, 0) with
      | some base, some (c, _) => some (leNat ((List.range 4).map (fun i => memGet j.bwin (base + 4 * c + i))))
      | _, _ => none,
    start := (0, 0), stop := (groups.length, 0) }

/-- The vector number of an output position. -/
def ConvShape.vectorOf (s : ConvShape) (v : Nat × Nat) : Nat :=
  let dy := v.1 - s.win.orow0
  match s.map with
  | .diagonal _ m _ => dy * ceilDiv s.win.ow m + v.2 / m
  | _ => dy * s.win.ow + v.2

/-- Result of output element (c, y, x), where job `a` drains it. -/
def ConvJob.result (j : ConvJob) (a : ArrayJob) (c y x : Nat) : Option Num :=
  let (g, n, v) := j.shape.colOf c y x
  let v := j.shape.vectorOf v
  if a.drains g v then some (a.drained g n v).1 else none

/-- Code of a value in a drain's output format under the header's rounding (R100, R101, R107); the index is the
element's place in channel, row, column order. -/
def drainCode (c : List Byte) (t : Desc) (outFmt : Nat) (v : Num) (ch y x : Nat) : Nat :=
  let idx := (ch * t.height + y) * t.width + x
  convert outFmt (elemRound (cmdSr c) (cmdSeed c) t.tensorId idx) (cmdSat c outFmt) v

/-! ### What CONV and MATMUL share at their end -/

/-- One run of an array command: what it costs and counts, and what it leaves in the accumulator file. -/
structure ArrayRun where
  cost : ArrayCost
  acc : List (Nat × Nat × Acc)
  deriving DecidableEq, Repr

/-- R130: passes that fail their check. -/
def ArrayRun.fails (a : ArrayRun) : Nat := a.cost.marks.length

/-- The run of one job. -/
def ArrayJob.run (j : ArrayJob) (old : List (Nat × Nat × Acc)) : ArrayRun := { cost := j.cost, acc := j.left old }

def Use.ofCost (c : ArrayCost) (traffic : Use) : Use := { traffic with fullSteps := c.full, emptySteps := c.empty }

/-- Steps, counters and effect of one run; `vec` are its vector steps. -/
def Device.arrayOnce (d : Device) (e : Nat) (r : Run) (p : Plan) (vec : Nat) (a : ArrayRun) (f : Device → Device) : Device :=
  let d := d.countFill (p.fills e)
  let d := d.spend e r.ctx { Use.ofCost a.cost (p.traffic e) with vecSteps := vec }
  let d := d.modEng e (fun x =>
    { x with
      acc := a.acc, op := { x.op with padSkips := satAdd x.op.padSkips a.cost.skips },
      regs := (x.regs.addRange d.now a.cost.flags).addUncovered d.now a.cost.uncovered })
  d.writing e p.spans f

/-- Whether a written run overlaps a read one (R610). -/
def Plan.overlaps (p : Plan) (e : Nat) : Bool :=
  let rs := p.all.filter (fun s => !s.store)
  (p.spans.filter (·.store)).any (fun w => rs.any (fun r =>
    let (a, b) := (physAddr e w.addr, physAddr e r.addr)
    decide (a < b + r.len) && decide (b < a + w.len)))

/-- R130, R609: passes with marked vectors and columns fail the product check; the ladder takes the marks. -/
def Device.checkFailed (d : Device) (e : Nat) (marks : List (List Nat × List Nat)) : Device :=
  (d.modEng e (fun x => { x with marks := marks, regs := x.regs.addCheckFails d.now marks.length })).score e (2 * marks.length)

/-- An array command with its product check: a first run `a1` whose effect is `f1`, and, when a pass of it fails, or one failed
before a full save stopped the command, a run `a2` from the command's decode with effect `f2`. -/
def Device.arrayCommand (d : Device) (e : Nat) (r : Run) (p : Plan) (vec : Nat) (a1 a2 : ArrayRun) (f1 f2 : Device → Device) :
    Device :=
  let d := d.arrayOnce e r p vec a1 f1
  if a1.fails = 0 ∧ !r.failed then d.completeCommand e
  else
    let d := (if a1.fails = 0 then d else d.checkFailed e a1.cost.marks).repeated
    let d := d.emptySteps e r.ctx 16
    let d := d.arrayOnce e r p vec a2 (if p.overlaps e then fun d => d.freeSpans e p.spans else f2)
    if a2.fails = 0 then
      let d := d.modSeal (fun x => { x with recomputes := satInc x.recomputes })
      (d.completeCommand e).retireCheck
    else
      let d := (d.checkFailed e a2.cost.marks).score e 8
      (d.fallback e .checkFail).retireCheck

/-! ### CONV -/

/-- A row's codes as they stand, for every plane and every element position of the row; 0 at the missing positions of a
last block (R202), and a NaN canonical (R103). -/
def Desc.rowCodes (t : Desc) (w : List (Nat × Byte)) (plane y : Nat) : List (Option Nat) :=
  let b := fmtBits t.fmt
  (List.range (t.width * t.cb)).map (fun i =>
    some (if plane * t.cb + i % t.cb < t.channels then canonicalCode t.fmt (codeAt w (t.rowAddr plane y) (i * b) b) else 0))

/-- R232: the halo's rows written into LINEBUF, scales included. -/
def ConvJob.keep (j : ConvJob) (e : Nat) (d : Device) : Device :=
  let k := j.shape.win
  (keptRows k).foldl (fun d rl =>
    let r : Nat := rl.1
    let src := j.fromLine && decide ((r : Int) < k.v0 + k.halo)
    let (t, w, y) := if src then (j.line, j.lwin, ((r : Int) - k.v0).toNat) else (j.tin, j.win, r)
    let d := (List.range t.planes).foldl (fun d p => d.putRow (physAddr e) j.line p rl.2 0 (t.rowCodes w p y)) d
    if isMx t.fmt then
      (List.range (ceilDiv t.channels 32)).foldl (fun d b =>
        d.write (physAddr e (j.line.scaleAddr b rl.2 0)) ((List.range t.width).map (fun x => memGet w (t.scaleAddr b y x)))) d
    else d) d

/-- Slots that some chunk streams: the weights that the loader reads. -/
def loadSpans (base scaleBase slotBytes scaleBytes : Nat) (loads : List (Nat × Nat)) :
    List (List Span) :=
  loads.map (fun x =>
    [{ addr := base + x.1 * slotBytes, len := x.2 * slotBytes, store := false }] ++
    (if scaleBytes = 0 then [] else
      [{ addr := scaleBase + x.1 * scaleBytes, len := x.2 * scaleBytes, store := false }]))

/-- The weight sets that a CONV loads, in order: first slot and slots. -/
def ArrayJob.loadList (j : ArrayJob) : List (Nat × Nat) :=
  (List.range j.groups.length).flatMap (fun g =>
    let sets := j.sets g
    let live (c : Nat) (x : Nat × Nat) : Bool :=
      ((List.range x.2).any (fun i => !j.skip g (x.1 + i) (128 * c) (j.chunkLen c)))
    if sets.length ≤ 1 then sets.filter (fun x => (List.range j.chunks).any (fun c => live c x))
    else (List.range j.chunks).flatMap (fun c => sets.filter (live c)))

/-- R232: the CONV keeps its halo's rows in LINEBUF. -/
def Run.convKeeps (r : Run) : Bool := bit (field r.cmd 37 1) 0 && decide (0 < r.convShape.win.halo)

/-- R231: it takes them from LINEBUF. -/
def Run.convFromLine (r : Run) : Bool := r.convKeeps && decide (0 < r.convShape.win.orow0)

/-- Output rows of a CONV. -/
def Run.convRows (r : Run) : List Nat := (List.range r.convShape.win.orows).map (r.convShape.win.orow0 + ·)

/-- LINEBUF rows that a CONV writes. -/
def Run.convLine (r : Run) : List Nat := if r.convKeeps then (keptRows r.convShape.win).map (·.2) else []

/-- Bytes of a CONV's biases. -/
def Run.convBias (r : Run) : Nat := if isNone r.cmd 19 then 0 else 4 * r.convShape.co

/-- The operands of a CONV, from memory as it stands in `d`. -/
def Device.convJob (d : Device) (e : Nat) (r : Run) : ConvJob :=
  let c := r.cmd
  let t := descAt r.descs c
  let s := r.convShape
  { shape := s, tin := t 16, wgt := t 18, line := t 38, fromLine := r.convFromLine,
    bias := if isNone c 19 then none else some (t 19).base,
    padConst := padConstNum (t 16).fmt (cmdXlo c) s.win.padConst,
    win := d.tensorWindow e (t 16),
    wwin := d.view e (t 18).base
      (max (s.slots * 2048 * pairBits (t 16).fmt (t 18).fmt) ((t 18).scaleOffset + s.slots * 1024)),
    lwin := d.tensorWindow e (t 38), bwin := d.view e (t 19).base r.convBias }

/-- Its array job, from where a full save left it. -/
def Device.convArray (d : Device) (e : Nat) (r : Run) (j : ConvJob) (faults : List PeFault) : ArrayJob :=
  ArrayJob.after (p := r.pos) <| j.job (cmdOutFmt r.cmd) (cmdShift r.cmd) (d.eng e).regs.checkEn (inOwnScratch e (descAt r.descs r.cmd 18).base 1) faults

/-- What a CONV reads and writes. -/
def Run.convPlan (r : Run) (a : ArrayJob) : Plan :=
  let t := descAt r.descs r.cmd
  let s := r.convShape
  let inRows := convInRows s r.convFromLine
  let lineRows := if r.convFromLine then convLineRows s else []
  let nb := if isMx (t 18).fmt then (if s.double then 1024 else 512) else 0
  { spans := (t 16).rowSpans false inRows ++ (t 16).scaleSpans false inRows ++
      (t 38).rowSpans false lineRows ++ (t 38).scaleSpans false lineRows ++
      [{ addr := (t 19).base, len := r.convBias, store := false }] ++
      (t 17).rowSpans true r.convRows ++ (t 38).rowSpans true r.convLine ++ (t 38).scaleSpans true r.convLine,
    loads := loadSpans (t 18).base ((t 18).base + (t 18).scaleOffset) (2048 * pairBits (t 16).fmt (t 18).fmt) nb
      a.loadList,
    copy := false, port := false }

/-- A CONV's output elements that job `a` drains, and at its end the halo's rows kept and, where OUT's format is not
OUT_FMT, free bytes. -/
def Device.putConv (d : Device) (e : Nat) (r : Run) (j : ConvJob) (a : ArrayJob) : Device :=
  let t := descAt r.descs r.cmd
  let o := t 17
  let d := if (t 17).fmt = cmdOutFmt r.cmd then
      d.putRowsSome (physAddr e) o r.convShape.win.orow0 r.convShape.win.orows
        (fun ch y x => (j.result a ch y x).map (fun v => drainCode r.cmd o (cmdOutFmt r.cmd) v ch y x))
    else if a.ends then d.freeSpans e ((t 17).rowSpans true r.convRows)
    else d
  if r.convKeeps && a.ends then j.keep e d else d

/-- CONV of the command's descriptors (R196 to R233); `faults1` and `faults2` are the wrong products of its runs. -/
def Device.conv (d : Device) (e : Nat) (r : Run) (faults1 faults2 : List PeFault) : Device :=
  let j := d.convJob e r
  let a1 := d.convArray e r j faults1
  let a2 := d.convArray e { r with pos := {} } j faults2
  let p := r.convPlan a1
  match d.admitted e r p (fun d _ => d) with
  | (false, d) => d
  | (true, x) =>
    x.arrayCommand e r p 0 (a1.run (d.eng e).acc) (a2.run (d.eng e).acc) (fun x => x.putConv e r j a1)
      (fun x => x.putConv e r j a2)

/-- The instructions of a CONV. -/
def Device.convIssues (d : Device) (e : Nat) (r : Run) : List Issue := (d.convArray e r (d.convJob e r) []).issues

/-- R196: CONV. -/
def execConv (t : Nat) (engine : Fin 6) (faults1 faults2 : List PeFault) (s : State) : Host.Outcome State Fault Refusal :=
  s.command t engine (isOp opCONV) (·.convIssues) (fun d e r => d.conv e r faults1 faults2)

/-! ### MATMUL -/

/-- The column groups of a product with N columns over K rows. -/
def productGroups (n slots : Nat) : List (Nat × Nat) := (List.range (ceilDiv n 128)).map (fun i => (i * slots, slots))

/-- The array job of an M × K by K × N product, the command's product number `job`; `a m k` and `b k n` give the
operands. -/
def productJob (job : Nat) (faults : List PeFault) (fa fw m k n outFmt : Nat) (shift : Int) (check scratch : Bool) (a : Nat → Nat → Option Num)
    (b : Nat → Nat → Num) (bias : Nat → Option Nat) : ArrayJob :=
  let depth := if pairDouble fa fw then 256 else 128
  let slots := ceilDiv k depth
  { job := job, faults := faults, fp := pairFp fa, pairW := pairWidth fa fw, rate := pairSteps fa, depth := depth, perSet := slotsPerSet fa fw,
    slotBytes := slotBytesOf fa fw, outFmt := outFmt, shift := shift, check := check && !pairFp fa,
    fromScratch := scratch, vectors := m, groups := productGroups n slots,
    sample := fun _ slot i v =>
      let kk := slot % slots * depth + i
      if i < depth ∧ kk < k then a v kk else none,
    skip := fun _ _ _ _ => false,
    weight := fun slot i c =>
      let kk := slot % slots * depth + i
      let nn := slot / slots * 128 + c
      if kk < k ∧ nn < n then b kk nn else .fin false 0 0,
    bias := fun g c => if g * 128 + c < n then bias (g * 128 + c) else none,
    start := (0, 0), stop := (ceilDiv n 128, 0) }

/-- Pixel m of a token map in raster order. -/
def Desc.pixel (t : Desc) (m : Nat) : Nat × Nat := (m / t.width, m % t.width)

/-- Pixels [0, m) of a tensor written from `code ch m`; an element without a code stays. -/
def Device.putPixels (d : Device) (reach : Nat → Nat) (t : Desc) (m : Nat) (code : Nat → Nat → Option Nat) : Device :=
  (List.range (ceilDiv m t.width)).foldl (fun d y =>
    d.putRowSome reach t y t.channels (min t.width (m - y * t.width)) (fun ch x => code ch (y * t.width + x))) d

/-- A product command's job, from memory as it stands in `d`. DESIGN CHOICE: an element of an MX B has the scale that R203
stores with it, of its block of channels, also where TRANS_B = 0 makes the pixels the reduction (log 56). -/
def Device.matArray (d : Device) (e : Nat) (r : Run) (faults : List PeFault) : ArrayJob :=
  let c := r.cmd
  let t := descAt r.descs c
  let (m, k, n) := (field c 24 4, field c 28 4, field c 32 4)
  let trans := bit (field c 20 1) 0
  let (ta, tb, tc) := (t 16, t 17, t 19)
  let wa := d.tensorWindow e (t 16)
  let wb := d.tensorWindow e (t 17)
  let wc := d.tensorWindow e (t 19)
  let hasBias := !isNone c 19
  let aNum (v kk : Nat) : Option Num := let (y, x) := ta.pixel v; some (ta.num wa kk y x)
  let bNum (kk nn : Nat) : Num :=
    let (ch, px) := if trans then (kk, nn) else (nn, kk)
    let (y, x) := tb.pixel px
    tb.num wb ch y x
  ArrayJob.after (p := r.pos) <| productJob 0 faults ta.fmt tb.fmt m k n (cmdOutFmt c) (cmdShift c) (d.eng e).regs.checkEn
    (inOwnScratch e (t 17).base 1) aNum bNum (fun nn => if hasBias then some (tc.code wc nn 0 0) else none)

/-- What a MATMUL reads and writes. -/
def Run.matPlan (r : Run) (a : ArrayJob) : Plan :=
  let c := r.cmd
  let t := descAt r.descs c
  let (m, k, n) := (field c 24 4, field c 28 4, field c 32 4)
  let reps := if ceilDiv k a.depth ≤ a.perSet then 1 else a.chunks
  { spans := (t 16).pixelSpans false m ++
      (if isNone c 19 then [] else (t 19).pixelSpans false 1) ++ (t 18).pixelSpans true m,
    loads := List.replicate reps ((t 17).pixelSpans false (if bit (field c 20 1) 0 then n else k)),
    copy := false, port := false }

/-- Column ch, row v of a product, where the job drains it. -/
def ArrayJob.result (a : ArrayJob) (ch v : Nat) : Option Num :=
  if a.drains (ch / 128) v then some (a.drained (ch / 128) (ch % 128) v).1 else none

/-- A MATMUL's output pixels that job `a` drains; where OUT's format is not OUT_FMT, free bytes at its end. -/
def Device.putMat (d : Device) (e : Nat) (r : Run) (a : ArrayJob) : Device :=
  let c := r.cmd
  let m := field c 24 4
  let o := descAt r.descs c 18
  if o.fmt = cmdOutFmt c then
    d.putPixels (physAddr e) o m (fun ch v =>
      let (y, x) := o.pixel v
      (a.result ch v).map (fun z => drainCode c o (cmdOutFmt c) z ch y x))
  else if !a.ends then d
  else d.freeSpans e ((descAt r.descs c 18).pixelSpans true m)

/-- R731: MATMUL; `faults1` and `faults2` are the wrong products of its runs. -/
def Device.matmul (d : Device) (e : Nat) (r : Run) (faults1 faults2 : List PeFault) : Device :=
  let a1 := d.matArray e r faults1
  let a2 := d.matArray e { r with pos := {} } faults2
  let p := r.matPlan a1
  match d.admitted e r p (fun d _ => d) with
  | (false, d) => d
  | (true, x) =>
    x.arrayCommand e r p 0 (a1.run (d.eng e).acc) (a2.run (d.eng e).acc) (fun x => x.putMat e r a1) (fun x => x.putMat e r a2)

/-- The instructions of a MATMUL. -/
def Device.matIssues (d : Device) (e : Nat) (r : Run) : List Issue := (d.matArray e r []).issues

def execMatmul (t : Nat) (engine : Fin 6) (faults1 faults2 : List PeFault) (s : State) :
    Host.Outcome State Fault Refusal :=
  s.command t engine (isOp opMATMUL) (·.matIssues) (fun d e r => d.matmul e r faults1 faults2)

end Sys2Proof.Machine
end

