-- ==== Sys2Proof/Machine/Vector.lean ====
section
/-! DEFINITION. VEC commands (R149 to R151, R278, R732): element-wise operations, transcendental functions,
reductions, SOFTMAX, NORM, CVT and MXQ. -/
namespace Sys2Proof.Machine

/-! ### Values -/

/-- R275, R278: the exponentials of a vector against its maximum and the reciprocal of their sum; `none` for a
vector of which the maximum is −∞. -/
def softmaxParts (t : List Nat) : Option (List Nat × Nat) :=
  let m := fpMaxAll t
  if m = fpNegInf then none
  else
    let e := t.map (fun x => fpExp2 (fpMul (fpSub x m) fpL2e))
    some (e, fpRcp (fpSum e))

/-- R278. -/
def softmax (t : List Nat) : List Nat :=
  match softmaxParts t with
  | none => t.map (fun _ => 0)
  | some (e, r) => e.map (fun x => fpMul x r)

/-- R150. -/
def normalise (imm0 : Nat) (a : List Nat) : List Nat :=
  let invL := fpRcp (fpOfInt a.length)
  let mean := fpMul (fpSum a) invL
  let dv := a.map (fun x => fpSub x mean)
  let var := fpMul (fpSum (dv.map (fun x => fpMul x x))) invL
  let r := fpRsqrt (fpAdd var imm0)
  dv.map (fun x => fpMul x r)

/-- Table 4.4, codes 0x01 to 0x15 and CVT, on one element. -/
def vecElement (vop a b c imm0 imm1 : Nat) : Nat :=
  match vop with
  | 0x01 => fpAdd a b
  | 0x02 => fpSub a b
  | 0x03 => fpMul a b
  | 0x04 => fpFma a b c
  | 0x05 => fpMin a b
  | 0x06 => fpMax a b
  | 0x07 => fpMin (fpMax a imm0) imm1
  | 0x08 => fpFma a imm0 imm1
  | 0x10 => fpExp2 a
  | 0x11 => fpLog2 a
  | 0x12 => fpRcp a
  | 0x13 => fpRsqrt a
  | 0x14 => fpSigmoid a
  | 0x15 => fpTanh a
  | _ => a

/-! ### Operands -/

/-- R151: an extent of 1 is broadcast. -/
def bcast (ext i : Nat) : Nat := if ext = 1 then 0 else i

/-- A source element at the destination's position, as FP32 (R732). -/
def vecSrc (t : Desc) (w : List (Nat × Byte)) (ch y x : Nat) : Nat :=
  t.fp32 w (bcast t.channels ch) (bcast t.height y) (bcast t.width x)

/-- Extent of a tensor along AXIS. -/
def Desc.extent (t : Desc) (axis : Nat) : Nat := if axis = 0 then t.width else if axis = 1 then t.height else t.channels

/-- The elements along AXIS through a position. -/
def axisLine (t : Desc) (w : List (Nat × Byte)) (axis ch y x : Nat) : List Nat :=
  (List.range (t.extent axis)).map (fun i =>
    if axis = 0 then t.fp32 w ch y i else if axis = 1 then t.fp32 w ch i x else t.fp32 w i y x)

def axisIndex (axis ch y x : Nat) : Nat := if axis = 0 then x else if axis = 1 then y else ch

/-- The FP32 result of a VEC at a position of its destination. -/
def vecValue (vop axis imm0 imm1 : Nat) (src : Nat → Desc × List (Nat × Byte)) (ch y x : Nat) : Nat :=
  let (t, w) := src 0
  let get (i : Nat) : Nat := let (t, w) := src i; vecSrc t w ch y x
  match vop with
  | 0x18 => fpSum (axisLine t w axis ch y x)
  | 0x19 => fpMaxAll (axisLine t w axis ch y x)
  | 0x1A => fpMinAll (axisLine t w axis ch y x)
  | 0x1B => (softmax (axisLine t w axis ch y x)).getD (axisIndex axis ch y x) 0
  | 0x1C => (normalise imm0 (axisLine t w axis ch y x)).getD (axisIndex axis ch y x) 0
  | _ =>
    let n := vopArity vop
    vecElement vop (get 0) (if 2 ≤ n then get 1 else 0) (if 3 ≤ n then get 2 else 0) imm0 imm1

/-! ### Effects -/

/-- An FP32 result in the destination's format (R732). -/
def vecCode (c : List Byte) (t : Desc) (v ch y x : Nat) : Nat :=
  let idx := (ch * t.height + y) * t.width + x
  convert t.fmt (elemRound (cmdSr c) (cmdSeed c) t.tensorId idx) (cmdSat c t.fmt) (fpNum v)

/-- R109: a whole destination quantised to MX: its elements and its scales. -/
def Device.putMx (d : Device) (reach : Nat → Nat) (c : List Byte) (t : Desc) (val : Nat → Nat → Nat → Nat) : Device :=
  let vals (b y x : Nat) : List Nat := (List.range (min 32 (t.channels - 32 * b))).map (fun i => val (32 * b + i) y x)
  let d := d.putRows reach t 0 t.height (fun ch y x =>
    let idx := (ch * t.height + y) * t.width + x
    mxCode t.fmt (elemRound (cmdSr c) (cmdSeed c) t.tensorId idx) (cmdXlo c) (vals (ch / 32) y x) (val ch y x))
  (List.range (ceilDiv t.channels 32)).foldl (fun d b =>
    (List.range t.height).foldl (fun d y =>
      d.write (reach (t.scaleAddr b y 0)) ((List.range t.width).map (fun x => BitVec.ofNat 8 (mxScale t.fmt (cmdXlo c) (vals b y x))))) d) d

/-- Vectors of a SOFTMAX that are −∞ throughout (R278). -/
def emptyLines (axis : Nat) (t : Desc) (w : List (Nat × Byte)) : Nat :=
  let rng (a n : Nat) : List Nat := if axis = a then [0] else List.range n
  (rng 2 t.channels).foldl (fun n ch => (rng 1 t.height).foldl (fun n y => (rng 0 t.width).foldl (fun n x =>
    if fpMaxAll (axisLine t w axis ch y x) = fpNegInf then n + 1 else n) n) n) 0

def Desc.elements (t : Desc) : Nat := t.channels * t.height * t.width

/-- The operation code of a VEC. -/
def Run.vop (r : Run) : Nat := field r.cmd 16 1

/-- The source tensors of a VEC. -/
def Run.vecSources (r : Run) : List Desc :=
  (List.range (vopArity r.vop)).map (fun i => descAt r.descs r.cmd (17 + i))

/-- The destination of a VEC. -/
def Run.vecDst (r : Run) : Desc := descAt r.descs r.cmd 20

/-- What a VEC reads and writes. -/
def Run.vecPlan (r : Run) : Plan :=
  Plan.of (r.vecSources.flatMap (fun x => x.allSpans false) ++ r.vecDst.allSpans true)

/-- Table 4.16: one pass of the unit per 256 elements of the largest operand. -/
def Run.vecSteps (r : Run) : Nat :=
  vopCost r.vop * ceilDiv (r.vecSources.foldl (fun n x => max n x.elements) r.vecDst.elements) 256

/-- A tensor with the memory that holds it. -/
abbrev Operand := Desc × List (Nat × Byte)

/-- The sources of a VEC, from memory as it stands in `d`. -/
def Device.vecOperands (d : Device) (e : Nat) (r : Run) : List Operand :=
  r.vecSources.map (fun t => (t, d.tensorWindow e t))

def operandAt (ops : List Operand) (i : Nat) : Operand := ops.getD i (Desc.zero, [])

/-- The FP32 results of a VEC of operands `ops`. -/
def Run.vecResult (r : Run) (ops : List Operand) (ch y x : Nat) : Nat :=
  vecValue r.vop (field r.cmd 21 1) (field r.cmd 24 4) (field r.cmd 28 4) (operandAt ops) ch y x

/-- The destination of a VEC written with results `val`: MXQ quantises them, any other operation converts them. -/
def Device.putVec (d : Device) (e : Nat) (r : Run) (val : Nat → Nat → Nat → Nat) : Device :=
  let dst := r.vecDst
  if r.vop = 0x21 then d.putMx (physAddr e) r.cmd dst val
  else d.putRows (physAddr e) dst 0 dst.height (fun ch y x => vecCode r.cmd dst (val ch y x) ch y x)

/-- R278: vectors of a SOFTMAX that hold no finite score; none for another operation. -/
def Run.vecEmpty (r : Run) (ops : List Operand) : Nat :=
  if r.vop = 0x1B then emptyLines (field r.cmd 21 1) (operandAt ops 0).1 (operandAt ops 0).2 else 0

/-- VEC with the operation code that its command names. -/
def Device.vec (d : Device) (e : Nat) (r : Run) : Device :=
  let ops := d.vecOperands e r
  d.simple e r r.vecPlan r.vecSteps (fun x =>
    (x.modEng e (fun g => { g with op := { g.op with attnEmpty := satAdd g.op.attnEmpty (r.vecEmpty ops) } })).putVec e r
      (r.vecResult ops))

def Device.vecIssues (_ : Device) (e : Nat) (r : Run) : List Issue := r.vecPlan.issues kindVOP e r.vecSteps

/-- A VEC of one operation code at the head of the engine's list. -/
def State.vecCommand (s : State) (t : Nat) (engine : Fin 6) (vop : Nat) : Host.Outcome State Fault Refusal :=
  s.command t engine (fun c => isOp opVEC c && field c 16 1 = vop) (·.vecIssues) (fun d e r => d.vec e r)

def execAdd (t : Nat) (engine : Fin 6) (s : State) : Host.Outcome State Fault Refusal := s.vecCommand t engine 0x01
def execSub (t : Nat) (engine : Fin 6) (s : State) : Host.Outcome State Fault Refusal := s.vecCommand t engine 0x02
def execMul (t : Nat) (engine : Fin 6) (s : State) : Host.Outcome State Fault Refusal := s.vecCommand t engine 0x03
def execFma (t : Nat) (engine : Fin 6) (s : State) : Host.Outcome State Fault Refusal := s.vecCommand t engine 0x04
def execMin (t : Nat) (engine : Fin 6) (s : State) : Host.Outcome State Fault Refusal := s.vecCommand t engine 0x05
def execMax (t : Nat) (engine : Fin 6) (s : State) : Host.Outcome State Fault Refusal := s.vecCommand t engine 0x06
def execClamp (t : Nat) (engine : Fin 6) (s : State) : Host.Outcome State Fault Refusal := s.vecCommand t engine 0x07
def execAffine (t : Nat) (engine : Fin 6) (s : State) : Host.Outcome State Fault Refusal := s.vecCommand t engine 0x08
def execExp2 (t : Nat) (engine : Fin 6) (s : State) : Host.Outcome State Fault Refusal := s.vecCommand t engine 0x10
def execLog2 (t : Nat) (engine : Fin 6) (s : State) : Host.Outcome State Fault Refusal := s.vecCommand t engine 0x11
def execRcp (t : Nat) (engine : Fin 6) (s : State) : Host.Outcome State Fault Refusal := s.vecCommand t engine 0x12
def execRsqrt (t : Nat) (engine : Fin 6) (s : State) : Host.Outcome State Fault Refusal := s.vecCommand t engine 0x13
def execSigmoid (t : Nat) (engine : Fin 6) (s : State) : Host.Outcome State Fault Refusal := s.vecCommand t engine 0x14
def execTanh (t : Nat) (engine : Fin 6) (s : State) : Host.Outcome State Fault Refusal := s.vecCommand t engine 0x15
def execRsum (t : Nat) (engine : Fin 6) (s : State) : Host.Outcome State Fault Refusal := s.vecCommand t engine 0x18
def execRmax (t : Nat) (engine : Fin 6) (s : State) : Host.Outcome State Fault Refusal := s.vecCommand t engine 0x19
def execRmin (t : Nat) (engine : Fin 6) (s : State) : Host.Outcome State Fault Refusal := s.vecCommand t engine 0x1A
def execSoftmax (t : Nat) (engine : Fin 6) (s : State) : Host.Outcome State Fault Refusal := s.vecCommand t engine 0x1B
def execNorm (t : Nat) (engine : Fin 6) (s : State) : Host.Outcome State Fault Refusal := s.vecCommand t engine 0x1C
def execCvt (t : Nat) (engine : Fin 6) (s : State) : Host.Outcome State Fault Refusal := s.vecCommand t engine 0x20
def execMxq (t : Nat) (engine : Fin 6) (s : State) : Host.Outcome State Fault Refusal := s.vecCommand t engine 0x21

end Sys2Proof.Machine
end

