-- ==== Sys2Proof/Machine/Attention.lean ====
section
/-! DEFINITION. ATTN (R271 to R277): masked, scaled dot-product attention over a ring of keys and values. -/
namespace Sys2Proof.Machine

/-- The bound stream whose ring an ATTN reads (R262, R265). -/
def Device.ringStream (d : Device) (r : Run) (k : Desc) : Option Nat :=
  if r.bind.isNone then none
  else r.streams.find? (fun s => d.hasSsb s && d.ssbField s 32 2 = k.tensorId)

/-- H of a stream at the launch of its list (R272). -/
def Run.headOf (r : Run) (s : Nat) : Nat := ((r.heads.find? (fun x => x.1 = s)).map (·.2)).getD 0

/-- R265 against the head at launch: entry e of the ring may be used. -/
def Device.entryUsable (d : Device) (r : Run) (ring : Option Nat) (e : Nat) : Bool :=
  match ring with
  | none => true
  | some s =>
    let w := d.ssbW s
    w != 0 && decide (e < d.ssbV s) && bit (d.ssbEvalid s) ((r.headOf s + e) % w)

/-- What an ATTN needs of its operands. -/
structure AttnJob where
  heads : Nat
  dh : Nat
  nq : Nat
  nk : Nat
  len : Nat
  /-- Physical row of logical entry 0 (R272). -/
  row0 : Nat
  scale : Nat
  q : Desc
  k : Desc
  v : Desc
  mask : Option Desc
  usable : List Bool
  wq : List (Nat × Byte)
  wk : List (Nat × Byte)
  wv : List (Nat × Byte)
  wm : List (Nat × Byte)
  outFmt : Nat
  shift : Int
  check : Bool
  /-- The wrong products of the run. -/
  faults : List PeFault
  /-- Where a full save left the command. -/
  pos : Pos
  kScratch : Bool
  vScratch : Bool
  deriving DecidableEq, Repr

/-- Tokens of one ring row. -/
def AttnJob.per (j : AttnJob) : Nat := j.nk / j.len
/-- The physical place of key kk. -/
def AttnJob.place (j : AttnJob) (kk : Nat) : Nat × Nat := ((j.row0 + kk / j.per) % j.len, kk % j.per)

def AttnJob.qNum (j : AttnJob) (h m c : Nat) : Num :=
  let (y, x) := j.q.pixel m
  j.q.num j.wq (h * j.dh + c) y x
def AttnJob.kNum (j : AttnJob) (h c kk : Nat) : Num :=
  let (y, x) := j.place kk
  j.k.num j.wk (h * j.dh + c) y x
def AttnJob.vNum (j : AttnJob) (h kk c : Nat) : Num :=
  let (y, x) := j.place kk
  j.v.num j.wv (h * j.dh + c) y x

/-- R274: key kk is excluded for query q and head h. -/
def AttnJob.excluded (j : AttnJob) (h q kk : Nat) : Bool :=
  !j.usable.getD (kk / j.per) false ||
  (match j.mask with
    | none => false
    | some m => bit (m.code j.wm (if m.channels = 1 then 0 else h) q (kk / 8)) (kk % 8))

/-- The scores' product of one head, drained to FP32 with SHIFT 0. -/
def AttnJob.scoreJob (j : AttnJob) (h : Nat) : ArrayJob :=
  ArrayJob.after (p := j.pos) <| productJob (2 * h) j.faults j.q.fmt j.k.fmt j.nq j.dh j.nk 13 0 j.check j.kScratch (fun m c => some (j.qNum h m c))
    (fun c kk => j.kNum h c kk) (fun _ => none)

/-- R275: the scaled scores of a query. -/
def AttnJob.scores (j : AttnJob) (h q : Nat) : List Nat :=
  let a := j.scoreJob h
  (List.range j.nk).map (fun kk =>
    if j.excluded h q kk then fpNegInf
    else fpMul (convert 13 .rne false (a.drained (kk / 128) (kk % 128) q).1) j.scale)

/-- R273: the format of the probabilities. -/
def AttnJob.pFmt (j : AttnJob) : Nat := if j.v.fmt = 11 then 11 else 3

/-- R275: the probabilities of a query, as codes; `none` when its maximum is −∞. -/
def AttnJob.probs (j : AttnJob) (h q : Nat) : Option (List Nat) :=
  match softmaxParts (j.scores h q) with
  | none => none
  | some (e, r) => some (e.map (fun x => convert j.pFmt .rne true (fpNum (fpMul x r))))

/-- The product with V of one head. -/
def AttnJob.valueJob (j : AttnJob) (h : Nat) (ps : List (Option (List Nat))) : ArrayJob :=
  ArrayJob.after (p := j.pos) <| productJob (2 * h + 1) j.faults j.pFmt j.v.fmt j.nq j.nk j.dh j.outFmt j.shift j.check j.vScratch
    (fun q kk =>
      if j.excluded h q kk then none
      else match ps.getD q none with
        | none => some (.fin false 0 0)
        | some p => some (elemNum j.pFmt (p.getD kk 0)))
    (fun kk c => j.vNum h kk c) (fun _ => none)

/-- What a head gives: its two jobs and its probabilities. -/
structure AttnHead where
  score : ArrayJob
  value : ArrayJob
  probs : List (Option (List Nat))

def AttnJob.head (j : AttnJob) (h : Nat) : AttnHead :=
  let ps := (List.range j.nq).map (j.probs h)
  { score := j.scoreJob h, value := j.valueJob h ps, probs := ps }

/-- The runs of the named rows for the planes that hold channels [c0, c1). -/
def Desc.partSpans (t : Desc) (rows : List Nat) (c0 c1 : Nat) : List Span :=
  let p0 := c0 / t.cb
  let planes := (List.range (ceilDiv c1 t.cb - p0)).map (p0 + ·)
  planes.flatMap (fun p => rows.map (fun y => { addr := t.rowAddr p y, len := t.rowBytes, store := false }))

/-- Where the ring of an ATTN starts: BASE, plus the head of its stream at launch (R272). -/
def Device.attnBase (d : Device) (r : Run) : Nat :=
  field r.cmd 36 1 + (match d.ringStream r (descAt r.descs r.cmd 17) with | some s => r.headOf s | none => 0)

/-- The operands of an ATTN, from memory as it stands in `d`. -/
def Device.attnJob (d : Device) (e : Nat) (r : Run) (faults : List PeFault) : AttnJob :=
  let c := r.cmd
  let t := descAt r.descs c
  let len := field c 37 1
  { heads := field c 21 1, dh := field c 22 2, nq := field c 24 4, nk := field c 28 4, len := len,
    row0 := d.attnBase r % len, scale := field c 32 4,
    q := t 16, k := t 17, v := t 18,
    mask := if isNone c 20 then none else some (t 20),
    usable := (List.range len).map (d.entryUsable r (d.ringStream r (t 17))),
    wq := d.tensorWindow e (t 16), wk := d.tensorWindow e (t 17), wv := d.tensorWindow e (t 18),
    wm := d.tensorWindow e (t 20), outFmt := cmdOutFmt c, shift := cmdShift c,
    check := (d.eng e).regs.checkEn, faults := faults, pos := r.pos, kScratch := inOwnScratch e (t 17).base 1,
    vScratch := inOwnScratch e (t 18).base 1 }

/-- Every head of an ATTN. -/
def AttnJob.all (j : AttnJob) : List AttnHead := (List.range j.heads).map j.head

/-- R275: the query's maximum is −∞. -/
def AttnHead.empty (x : AttnHead) (q : Nat) : Bool := (x.probs.getD q none).isNone

/-- The rows of the ring that may be used. -/
def Device.attnRows (d : Device) (r : Run) : List Nat :=
  let len := field r.cmd 37 1
  let ring := d.ringStream r (descAt r.descs r.cmd 17)
  ((List.range len).filter (d.entryUsable r ring)).map (fun i => (d.attnBase r + i) % len)

/-- R277: the working area at the end of the footprint. -/
def Run.attnWork (r : Run) : Span :=
  let n := 512 * field r.cmd 28 4
  { addr := localBase + tileBytes * r.footprint - n, len := n, store := true }

/-- What an ATTN reads and writes. -/
def Run.attnPlan (r : Run) (hs : List AttnHead) (rows : List Nat) : Plan :=
  let c := r.cmd
  let t := descAt r.descs c
  let (dh, nk) := (field c 22 2, field c 28 4)
  let loads := (List.range hs.length).flatMap (fun h =>
    let reps := match hs[h]? with
      | some x => if ceilDiv nk x.value.depth ≤ x.value.perSet then 1 else x.value.chunks
      | none => 0
    (t 17).partSpans rows (h * dh) ((h + 1) * dh) :: List.replicate reps ((t 18).partSpans rows (h * dh) ((h + 1) * dh)))
  { spans := (t 16).allSpans false ++ (if isNone c 20 then [] else (t 20).allSpans false) ++ (t 19).allSpans true ++
      [r.attnWork],
    loads := loads, copy := false, port := false }

/-- What both products of every head cost and count. -/
def attnCost (hs : List AttnHead) : ArrayCost :=
  hs.foldl (fun a x => (a.add x.score.cost).add x.value.cost) .zero

/-- Queries of which every key is excluded. -/
def AttnJob.gone (j : AttnJob) : Nat :=
  (List.range j.heads).foldl (fun n h => (List.range j.nq).foldl (fun n q =>
    if (List.range j.nk).all (j.excluded h q) then n + 1 else n) n) 0

/-- Vector steps of an ATTN. -/
def AttnJob.vecSteps (j : AttnJob) : Nat := 6 * ceilDiv (j.nq * j.nk) 256 * j.heads

/-- What an ATTN leaves in the accumulator file. -/
def attnLeft (hs : List AttnHead) (old : List (Nat × Nat × Acc)) : List (Nat × Nat × Acc) :=
  match hs.getLast? with
  | some x => x.value.left old
  | none => old

/-- One run of an ATTN. -/
def attnRun (hs : List AttnHead) (old : List (Nat × Nat × Acc)) : ArrayRun := { cost := attnCost hs, acc := attnLeft hs old }

/-- The output code of an ATTN, where its value job drains it. -/
def AttnJob.outCode (j : AttnJob) (hs : List AttnHead) (c : List Byte) (o : Desc) (ch y x : Nat) : Option Nat :=
  let h := ch / j.dh
  let q := y * o.width + x
  match hs[h]? with
  | none => some 0
  | some a => (a.value.result (ch % j.dh) q).map (fun v => if a.empty q then 0 else drainCode c o j.outFmt v ch y x)

/-- The output of an ATTN written, with free bytes in its working area. -/
def Device.putAttn (d : Device) (e : Nat) (r : Run) (j : AttnJob) (hs : List AttnHead) : Device :=
  let o := descAt r.descs r.cmd 19
  (d.freeSpans e [r.attnWork]).putRowsSome (physAddr e) o 0 o.height (j.outCode hs r.cmd o)

/-- R270: the ring rows that hold a lost tile lose their bits. -/
def Device.attnLost (d : Device) (e : Nat) (r : Run) (tile : Nat) : Device :=
  let t := descAt r.descs r.cmd
  let n := field r.cmd 21 1 * field r.cmd 22 2
  match d.ringStream r (t 17) with
  | none => d
  | some s =>
    ((d.attnRows r).filter (fun y =>
      (spanTiles e ((t 17).partSpans [y] 0 n ++ (t 18).partSpans [y] 0 n)).contains tile)).foldl
      (fun d y => d.ringExclude s y) d

/-- ATTN of the command's descriptors; `faults1` and `faults2` are the wrong products of its runs. -/
def Device.attn (d : Device) (e : Nat) (r : Run) (faults1 faults2 : List PeFault) : Device :=
  let j := d.attnJob e r faults1
  let (h1, h2) := (j.all, (d.attnJob e { r with pos := {} } faults2).all)
  let plan := r.attnPlan h1 (d.attnRows r)
  match d.admitted e r plan (fun x tile => x.attnLost e r tile) with
  | (false, d) => d
  | (true, x) =>
    let x := x.modEng e (fun g => { g with op := { g.op with attnEmpty := satAdd g.op.attnEmpty j.gone } })
    let old := (x.eng e).acc
    x.arrayCommand e r plan j.vecSteps (attnRun h1 old) (attnRun h2 old) (fun x => x.putAttn e r j h1)
      (fun x => x.putAttn e r j h2)

/-- Vector steps of one head. -/
def AttnJob.headSteps (j : AttnJob) : Nat := 6 * ceilDiv (j.nq * j.nk) 256

/-- The instructions of an ATTN: for each head its scores, the softmax and its values. -/
def AttnJob.issues (j : AttnJob) (hs : List AttnHead) : List Issue :=
  (List.range hs.length).flatMap (fun h =>
    match hs[h]? with
    | some x => x.score.issues ++ blockIssues { kind := kindVOP, job := 2 * h + 1 } j.headSteps 0 ++ x.value.issues
    | none => [])

def Device.attnIssues (d : Device) (e : Nat) (r : Run) : List Issue :=
  let j := d.attnJob e r []
  j.issues j.all

def execAttn (t : Nat) (engine : ArrayOn) (s : State) : Host.Outcome State Fault Refusal :=
  s.command t engine.engine (isOp opATTN) (·.attnIssues) (fun d e r => d.attn e r engine.faults1 engine.faults2)

end Sys2Proof.Machine
end

