-- ==== Sys2Proof/Machine/Csi.lean ====
section
/-! DEFINITION. Pixel formats of CSI-2 (Tables 12.8 and 13.1): code widths, line bytes, and the packing of a line
(R528, R585). The packing is the CSI-2 standard's; the spec does not reproduce it (PRESUMED, log 6). -/
namespace Sys2Proof.Machine

/-- The code width b of a data type; 0 for one that carries no pixels. -/
def dtBits (dt : Nat) : Nat :=
  match dt with
  | 0x1E => 8 | 0x1F => 10 | 0x24 => 8 | 0x2A => 8 | 0x2B => 10 | 0x2C => 12 | 0x2D => 14 | 0x2E => 16 | 0x2F => 20
  | 0x80 => 8 | 0x81 => 16 | _ => 0

def isYuv (dt : Nat) : Bool := dt = 0x1E || dt = 0x1F

/-- Values of a line of W pixels, in order of transmission. -/
def lineValues (dt w : Nat) : Nat := if dt = 0x24 then 3 * w else if isYuv dt then 2 * w else w

/-- Values that are packed together. -/
def groupValues (b : Nat) : Nat := if b = 10 ∨ b = 14 then 4 else if b = 12 ∨ b = 20 then 2 else 1

/-- Bytes of a line. -/
def lineBytes (dt w : Nat) : Nat :=
  let b := dtBits dt
  let g := groupValues b
  ceilDiv (lineValues dt w) g * g * b / 8

/-- Values of 8 to 14 bits: the upper byte of every value in turn, then the remaining low bits as one little-endian string. -/
def packLow (b : Nat) (vals : List Nat) : List Byte :=
  let r := b % 8
  vals.map (fun v => BitVec.ofNat 8 (v / 2 ^ r)) ++
    leBytes (r * vals.length / 8) (vals.foldr (fun v n => v % 2 ^ r + n * 2 ^ r) 0)

def unpackLow (b n : Nat) (bs : List Byte) : List Nat :=
  let r := b % 8
  let low := leNat ((bs.drop n).take (r * n / 8))
  (List.range n).map (fun i => field bs i 1 * 2 ^ r + low / 2 ^ (r * i) % 2 ^ r)

/-- One group. A 16-bit value goes high byte first; a 20-bit one as two 10-bit words, the high one first, packed as RAW10's. -/
def packGroup (b : Nat) (vals : List Nat) : List Byte :=
  if b = 16 then vals.flatMap (fun v => [BitVec.ofNat 8 (v / 256), BitVec.ofNat 8 v])
  else if b = 20 then packLow 10 (vals.flatMap (fun v => [v / 1024, v % 1024]))
  else packLow b vals

def unpackGroup (b n : Nat) (bs : List Byte) : List Nat :=
  if b = 16 then (List.range n).map (fun i => field bs (2 * i) 1 * 256 + field bs (2 * i + 1) 1)
  else if b = 20 then
    let w := unpackLow 10 (2 * n) bs
    (List.range n).map (fun i => w.getD (2 * i) 0 * 1024 + w.getD (2 * i + 1) 0)
  else unpackLow b n bs

/-- A list cut into pieces of n. -/
def cutEvery {α : Type} (n : Nat) : (fuel : Nat) → List α → List (List α)
  | 0, _ => []
  | fuel + 1, l => if l.isEmpty then [] else l.take n :: cutEvery n fuel (l.drop n)

/-- A line's values, in order of transmission, packed; a last group is made up with zeros. -/
def packValues (dt : Nat) (vals : List Nat) : List Byte :=
  let b := dtBits dt
  let g := groupValues b
  (cutEvery g vals.length vals).flatMap (fun c =>
    packGroup b ((c ++ List.replicate (g - c.length) 0).map (· % 2 ^ b)))

/-- The values of a line, in order of transmission. -/
def unpackValues (dt w : Nat) (bs : List Byte) : List Nat :=
  let b := dtBits dt
  let g := groupValues b
  ((cutEvery (g * b / 8) bs.length bs).flatMap (unpackGroup b g)).take (lineValues dt w)

/-- A line from its channels: one for RAW; R, G, B; or Y, U, V with U and V of every second pixel. RGB888 sends B, G, R
and YUV422 sends U, Y, V, Y. -/
def packLine (dt w : Nat) (chans : List (List Nat)) : List Byte :=
  let c (k : Nat) : List Nat := chans.getD k []
  let vals :=
    if dt = 0x24 then (List.range w).flatMap (fun x => [(c 2).getD x 0, (c 1).getD x 0, (c 0).getD x 0])
    else if isYuv dt then (List.range (w / 2)).flatMap (fun i =>
      [(c 1).getD i 0, (c 0).getD (2 * i) 0, (c 2).getD i 0, (c 0).getD (2 * i + 1) 0])
    else c 0
  packValues dt vals

/-- The channels of a packed line, as `packLine` takes them. -/
def unpackLine (dt w : Nat) (bs : List Byte) : List (List Nat) :=
  let v := unpackValues dt w bs
  let pick (step o n : Nat) : List Nat := (List.range n).map (fun i => v.getD (step * i + o) 0)
  if dt = 0x24 then [pick 3 2 w, pick 3 1 w, pick 3 0 w]
  else if isYuv dt then [pick 2 1 w, pick 4 0 (w / 2), pick 4 2 (w / 2)]
  else [v]

/-! ### Packet headers and CRC (R522, R523) -/

/-- ECC columns of the 26 header bits: Data Identifier, 16-bit field, VC[3:2] (PRESUMED, log 6). -/
def eccColumns : List Nat :=
  [0x07, 0x0B, 0x0D, 0x0E, 0x13, 0x15, 0x16, 0x19, 0x1A, 0x1C, 0x23, 0x25, 0x26] ++
    [0x29, 0x2A, 0x2C, 0x31, 0x32, 0x34, 0x38, 0x1F, 0x2F, 0x37, 0x3B, 0x3D, 0x3E]

/-- The 6 ECC bits of a 26-bit header. -/
def eccOf (v : Nat) : Nat :=
  (List.range 26).foldl (fun e i => if bit v i then e ^^^ eccColumns.getD i 0 else e) 0

/-- One step of the packet CRC (x¹⁶ + x¹² + x⁵ + 1, least significant bit first; PRESUMED, log 6). -/
def csiCrcByte (c : BitVec 16) (b : Byte) : BitVec 16 :=
  (List.range 8).foldl (fun (c : BitVec 16) _ => if c.getLsbD 0 then (c >>> 1) ^^^ 0x8408 else c >>> 1)
    (c ^^^ b.setWidth 16)

def csiCrc (bs : List Byte) : Nat := (bs.foldl csiCrcByte 0xFFFF).toNat

/-- The header of a packet: Data Identifier, field, ECC byte with VC[3:2]. -/
def packetHeader (vc dt value : Nat) : List Byte :=
  let v := vc % 4 * 64 + dt % 64 + value % 2 ^ 16 * 2 ^ 8 + vc / 4 % 4 * 2 ^ 24
  leBytes 3 v ++ leBytes 1 (eccOf v + vc / 4 % 4 * 64)

/-- A header after its ECC: the 26 bits, and whether one was corrected; none when two or more are wrong. -/
def eccCheck (h : List Byte) : Option (Nat × Bool) :=
  let v := field h 0 3 + field h 3 1 / 64 * 2 ^ 24
  let syn := eccOf v ^^^ (field h 3 1 % 64)
  if syn = 0 then some (v, false)
  else
    match eccColumns.findIdx? (fun c => c = syn) with
    | some i => some (v ^^^ 2 ^ i, true)
    | none => if (List.range 6).any (fun i => syn = 2 ^ i) then some (v, true) else none

/-- R522: the short packet that a port sends, with its header ECC. -/
def outShort (vc dt data : Nat) : OutPacket :=
  { vc := vc, dt := dt, data := data % 65536, payload := [], ecc := field (packetHeader vc dt data) 3 1, crc := none }

/-- R522: the long packet that a port sends, with its header ECC and its CRC. -/
def outLong (vc dt : Nat) (payload : List Byte) : OutPacket :=
  { vc := vc, dt := dt, data := payload.length, payload := payload, ecc := field (packetHeader vc dt payload.length) 3 1,
    crc := some (csiCrc payload) }

end Sys2Proof.Machine
end

