-- ==== Sys2Proof/Machine/ImageParse.lean ====
section
/-! DEFINITION. The configuration image (R638): header, directory, and the sections as records, each with the ranges and
reserved fields of its own table (Tables 6.1, 6.10, 7.5, 7.11, 9.1, 10.1 to 10.7, 11.2, 12.6, 13.1, 13.2, 14.3, 14.4, 15.3 to
15.5). -/
namespace Sys2Proof.Machine

/-! ### Shared shapes -/

/-- Bytes [o, o + n) are 0. -/
def zeroAt (b : List Byte) (o n : Nat) : Bool := ((b.drop o).take n).all (· = 0)

def allDistinct : List Nat → Bool
  | [] => true
  | x :: xs => !xs.contains x && allDistinct xs

/-- Records of `n` bytes; a remainder is dropped, and `wholeRecords` refuses it. -/
def recordsOf (n : Nat) (b : List Byte) : List (List Byte) :=
  (List.range (b.length / n)).map (fun i => (b.drop (n * i)).take n)

def wholeRecords (n : Nat) (b : List Byte) : Bool := b.length % n = 0

/-- Two regions (start, bytes) that share a byte. -/
def regionsMeet (a b : Nat × Nat) : Bool := decide (a.1 < b.1 + b.2) && decide (b.1 < a.1 + a.2)

def disjointFrom (a : Nat × Nat) (l : List (Nat × Nat)) : Bool := l.all (fun b => !regionsMeet a b)

def allDisjoint : List (Nat × Nat) → Bool
  | [] => true
  | a :: l => disjointFrom a l && allDisjoint l

/-- A region lies in stack DRAM outside the seal region. -/
def inDram (a n : Nat) : Bool := decide (a + n ≤ dramEnd)

/-- A region lies in the Well. -/
def inWell (a n : Nat) : Bool := decide (wellBase ≤ a) && decide (a + n ≤ wellBase + wellBytes)

def tileAligned (a : Nat) : Bool := a % tileBytes = 0

/-- An FP32 code that is finite and at least 0. -/
def fpNonNeg (v : Nat) : Bool := decide (v < 0x7F800000) || v = 0x80000000

/-! ### Header and directory (Tables 15.3, 15.4) -/

structure ImgHead where
  nsect : Nat
  flags : Nat
  sigOffset : Nat
  sigBytes : Nat
  ringN : Nat
  landBase : Nat
  recBase : Nat
  recBytes : Nat
  deriving DecidableEq, Repr

structure SectEntry where
  type : Nat
  index : Nat
  offset : Nat
  bytes : Nat
  dest : Nat
  digest : List Byte
  deriving DecidableEq, Repr

def imgHeadOf (h : List Byte) : ImgHead :=
  { nsect := field h 10 2, flags := field h 12 4, sigOffset := field h 16 4, sigBytes := field h 20 4,
    ringN := field h 24 1, landBase := field h 32 6, recBase := field h 40 6, recBytes := field h 48 4 }

/-- "PZ616IMG". -/
def magicImg : Nat := 0x474D493631365A50
/-- "PZ616FAC". -/
def magicFac : Nat := 0x4341463631365A50
/-- "PZ616PKG". -/
def magicPkg : Nat := 0x474B503631365A50

/-- Ranges and reserved fields of Table 15.3. -/
def imgHeadOk (h : List Byte) : Bool :=
  let x := imgHeadOf h
  field h 0 8 = magicImg && field h 8 2 = 1 && decide (1 ≤ x.nsect ∧ x.nsect ≤ 1024) && decide (x.flags < 8) &&
    x.sigOffset % 4096 = 0 && decide (1 ≤ x.ringN ∧ x.ringN ≤ 4) && zeroAt h 25 7 && zeroAt h 38 2 && zeroAt h 46 2 &&
    zeroAt h 52 12 && zeroAt h 128 128 && tileAligned x.recBase && tileAligned x.recBytes &&
    inDram x.recBase x.recBytes && (!(x.flags / 2 = 0) || x.recBytes = 0) && tileAligned x.landBase &&
    inWell x.landBase 65536

def sectEntryOf (e : List Byte) : SectEntry :=
  { type := field e 0 2, index := field e 2 2, offset := field e 8 4, bytes := field e 12 4, dest := field e 16 6,
    digest := (e.drop 32).take 32 }

/-- Ranges and reserved fields of Table 15.4. -/
def sectEntryOk (e : List Byte) : Bool :=
  let x := sectEntryOf e
  zeroAt e 4 4 && zeroAt e 22 10 && x.offset % 64 = 0 && decide (1 ≤ x.bytes)

/-- Where a type's DEST may lie (Table 15.5). -/
inductive DestKind where
  | none | dram | dramOrWell
  deriving DecidableEq, Repr

/-- Table 15.5: DEST, whether INDEX is 0, and how many sections an image may hold. -/
def sectType (t : Nat) : Option (DestKind × Bool × Nat × Nat) :=
  match t with
  | 0x0001 => some (.dram, true, 1, 1)
  | 0x0002 => some (.none, true, 1, 1)
  | 0x0003 => some (.none, true, 1, 1)
  | 0x0010 => some (.none, false, 7, 7)
  | 0x0011 => some (.none, false, 0, 7)
  | 0x0020 => some (.dram, false, 0, 64)
  | 0x0021 => some (.dramOrWell, false, 0, 1024)
  | 0x0022 => some (.dramOrWell, false, 0, 1024)
  | 0x0030 => some (.dram, true, 0, 1)
  | 0x0031 => some (.none, true, 0, 1)
  | 0x0032 => some (.none, true, 0, 1)
  | 0x0033 => some (.none, true, 0, 1)
  | 0x0034 => some (.none, true, 0, 1)
  | 0x0035 => some (.none, true, 0, 1)
  | 0x0036 => some (.none, true, 0, 1)
  | 0x0037 => some (.none, true, 0, 1)
  | 0x0039 => some (.none, true, 0, 1)
  | 0x003A => some (.none, true, 0, 1)
  | 0x003B => some (.none, true, 0, 1)
  | 0x003C => some (.dram, true, 1, 1)
  | 0x00FF => some (.none, false, 0, 1024)
  | _ => none

def sectTypes : List Nat :=
  [0x01, 0x02, 0x03, 0x10, 0x11, 0x20, 0x21, 0x22, 0x30, 0x31, 0x32] ++
    [0x33, 0x34, 0x35, 0x36, 0x37, 0x39, 0x3A, 0x3B, 0x3C, 0xFF]

/-- A section that is copied to its DEST. -/
def SectEntry.loaded (x : SectEntry) : Bool :=
  match sectType x.type with
  | some (k, _) => k ≠ .none
  | none => false

/-- One section against Table 15.5 and R639. -/
def SectEntry.ok (x : SectEntry) : Bool :=
  match sectType x.type with
  | none => false
  | some (k, idx0, _) =>
    (!idx0 || x.index = 0) &&
      (match k with
        | .none => x.dest = 0
        | .dram => tileAligned x.dest && inDram x.dest x.bytes
        | .dramOrWell => tileAligned x.dest && (inDram x.dest x.bytes || inWell x.dest x.bytes)) &&
      (!(x.type = 0x10 || x.type = 0x11) || decide (x.index ≤ 6)) && (x.type ≠ 0x20 || decide (x.index ≤ 63))

/-- Sections in ascending OFFSET without overlap from `lo`. -/
def ascendingFrom (lo : Nat) : List SectEntry → Bool
  | [] => true
  | x :: l => decide (lo ≤ x.offset) && ascendingFrom (x.offset + x.bytes) l

/-- R639 with the counts of Table 15.5. -/
def directoryOk (h : ImgHead) (dir : List SectEntry) : Bool :=
  let ends := dir.foldl (fun n x => max n (x.offset + x.bytes)) (256 + 64 * h.nsect)
  dir.all SectEntry.ok && ascendingFrom (256 + 64 * h.nsect) dir && decide (ends ≤ h.sigOffset) &&
    allDisjoint ((dir.filter SectEntry.loaded).map (fun x => (x.dest, x.bytes))) &&
    sectTypes.all (fun t =>
      let n := (dir.filter (fun x => x.type = t)).length
      match sectType t with
      | some (_, _, lo, hi) => decide (lo ≤ n ∧ n ≤ hi)
      | none => true) &&
    [0x10, 0x11, 0x20].all (fun t => allDistinct ((dir.filter (fun x => x.type = t)).map (·.index)))

/-! ### Itineraries (Tables 10.1 to 10.7) -/

def entryOfBytes (b : List Byte) : Entry :=
  let w0 := field b 0 4
  let w1 := field b 4 4
  let w2 := field b 8 4
  let w3 := field b 12 4
  { offset := bits w0 19 0, ctx := bits w0 25 20, bestEffort := bit w0 26, target := bits w0 28 27, saveOk := bit w0 29,
    units := BitVec.ofNat 6 (bits w1 5 0), stream := bits w1 10 6, convoy := bit w1 11, bind := bits w1 13 12,
    slot := bits w1 23 14 + 1024 * bits w3 31 20, group := bits w1 28 24, budget := bits w2 15 0,
    launch := bits w2 28 16, deadline := bits w3 19 0 }

def entryShape (b : List Byte) : Bool :=
  let x := entryOfBytes b
  bits (field b 0 4) 31 30 = 0 && bits (field b 4 4) 31 29 = 0 && bits (field b 8 4) 31 29 = 0 && decide (x.target ≤ 2) &&
    (x.bind ≠ 0 || x.slot = 0) && (x.target ≠ 1 || decide (x.units.toNat ≤ 6)) && (!x.convoy || decide (x.stream ≤ 15))

def launchOfBytes (b : List Byte) : LaunchDesc :=
  { addr := field b 0 6, record := field b 8 6, credits := field b 16 2, yieldWait := field b 18 2, row0 := field b 20 2,
    rows := field b 22 2 }

def launchShape (b : List Byte) : Bool :=
  let x := launchOfBytes b
  zeroAt b 6 2 && zeroAt b 14 2 && zeroAt b 24 8 && x.addr % 64 = 0 && x.record % 16 = 0 && decide (x.credits ≤ 256) &&
    decide (x.yieldWait ≤ 1000) && decide (x.rows ≤ 8192)

def partOfBytes (b : List Byte) : PartRec :=
  { part := field b 0 1, engines := BitVec.ofNat 6 (field b 1 1), credits := field b 2 2, wayTiles := field b 4 2,
    save := field b 6 1 = 1, beSlice := field b 8 4 }

def partShape (b : List Byte) : Bool :=
  let x := partOfBytes b
  decide (x.part ≤ 7) && decide (field b 1 1 < 64) && decide (x.credits ≤ 256) && decide (x.wayTiles ≤ 256) &&
    decide (field b 6 1 ≤ 1) && zeroAt b 7 1 && zeroAt b 12 4 && decide (50 ≤ x.beSlice ∧ x.beSlice ≤ 100000)

def ctxOfBytes (b : List Byte) : CtxRec :=
  { ctx := field b 0 1, part := field b 1 1, tuning := bit (field b 2 1) 0, compositor := bit (field b 2 1) 1,
    saveF := field b 4 2, saveBase := field b 6 6 }

def CtxRec.saveArea (x : CtxRec) : Nat × Nat := (x.saveBase, 606208 + tileBytes * x.saveF)

def ctxShape (b : List Byte) : Bool :=
  let x := ctxOfBytes b
  decide (x.ctx ≤ 63) && decide (x.part ≤ 7) && decide (field b 2 1 < 4) && zeroAt b 3 1 && zeroAt b 12 4 &&
    decide (1 ≤ x.saveF ∧ x.saveF ≤ 1536) && tileAligned x.saveBase && inDram x.saveBase x.saveArea.2

def convoyOfBytes (b : List Byte) : ConvoyRec :=
  { convoy := field b 0 1, streams := (List.range (field b 1 1)).map (fun i => field b (2 + i) 1) }

def convoyShape (b : List Byte) : Bool :=
  let x := convoyOfBytes b
  let n := field b 1 1
  decide (x.convoy ≤ 15) && decide (2 ≤ n ∧ n ≤ 8) && x.streams.all (fun s => decide (s ≤ 31)) && allDistinct x.streams &&
    ((b.drop (2 + n)).take (8 - n)).all (· = 0xFF) && zeroAt b 10 6

def markOfBytes (b : List Byte) : Mark := { lcEntry := field b 0 2, beEntry := field b 2 2, step := field b 4 4 }

/-- The counts of a header: NPART, NCTX, NCONV, NENTRY, NLAUNCH, NMARK. -/
def itinCounts (b : List Byte) : List Nat :=
  [field b 12 1, field b 13 1, field b 14 1, field b 8 2, field b 10 2, field b 16 4]

def itinSizes : List Nat := [16, 16, 16, 16, 32, 8]

/-- The bytes of the records of kind `k`. -/
def itinPart (b : List Byte) (k : Nat) : List (List Byte) :=
  let lens := List.zipWith (· * ·) (itinCounts b) itinSizes
  let start := 64 + (lens.take k).foldl (· + ·) 0
  recordsOf (itinSizes.getD k 16) ((b.drop start).take (lens.getD k 0))

def itinOfBytes (b : List Byte) : Itin :=
  { index := field b 2 1, lockstep := bit (field b 3 1) 0, cycleNs := field b 4 4, groups0 := word (field b 20 4),
    parts := (itinPart b 0).map partOfBytes, ctxs := (itinPart b 1).map ctxOfBytes,
    convoys := (itinPart b 2).map convoyOfBytes, entries := (itinPart b 3).map entryOfBytes,
    launches := (itinPart b 4).map launchOfBytes, marks := (itinPart b 5).map markOfBytes }

/-- Entries in ascending OFFSET. -/
def risingOffsets : List Entry → Bool
  | [] => true
  | [_] => true
  | a :: b :: l => decide (a.offset ≤ b.offset) && risingOffsets (b :: l)

/-- Ranges of Tables 10.1 to 10.7 and the section's length. -/
def itinShape (index : Nat) (b : List Byte) : Bool :=
  let counts := itinCounts b
  let within (k lo hi : Nat) : Bool := decide (lo ≤ counts.getD k 0 ∧ counts.getD k 0 ≤ hi)
  decide (64 ≤ b.length) && field b 0 2 = 1 && field b 2 1 = index && decide (index ≤ 6) && decide (field b 3 1 < 2) &&
    decide (100000 ≤ field b 4 4 ∧ field b 4 4 ≤ 1000000000) && within 0 1 8 && within 1 1 64 && within 2 0 16 &&
    within 3 1 32768 && within 4 1 8192 && within 5 0 65536 && zeroAt b 15 1 && zeroAt b 24 40 &&
    b.length = 64 + (List.zipWith (· * ·) counts itinSizes).foldl (· + ·) 0 &&
    (itinPart b 0).all partShape && (itinPart b 1).all ctxShape && (itinPart b 2).all convoyShape &&
    (itinPart b 3).all entryShape && (itinPart b 4).all launchShape

/-- One engine is named. -/
def oneEngine (u : BitVec 6) : Bool := ((List.range 6).filter (fun e => u.getLsbD e)).length = 1

/-- The rules of R435 over one itinerary alone. -/
def Itin.ok (i : Itin) : Bool :=
  let part (c : Nat) : Option PartRec :=
    (i.ctxs.find? (fun r => r.ctx = c)).bind (fun r => i.parts.find? (fun p => p.part = r.part))
  let entryOk (e : Entry) : Bool :=
    (match part e.ctx, i.launches[e.launch]? with
      | some p, some l =>
        (e.target = 1 || (e.units ≠ 0 && e.units &&& ~~~p.engines = 0)) &&
          (e.target ≠ 0 || inDram l.record 16 || inWell l.record 16) && (e.target ≠ 1 || l.record = 0)
      | _, _ => false) &&
      decide (1000 * e.offset < i.cycleNs) &&
      (e.target ≠ 0 || e.bestEffort || (e.budget ≠ 0 && e.deadline ≠ 0)) && (!e.bestEffort || e.budget = 0) &&
      (e.target ≠ 1 || e.budget = 0) && (!i.lockstep || e.target = 1 || oneEngine e.units) &&
      (e.target ≠ 2 || i.lockstep) && (e.bind = 0 || !e.convoy || i.convoys.any (fun c => c.convoy = e.stream)) &&
      (e.bind = 0 || e.convoy || !i.convoys.any (fun c => c.streams.contains e.stream))
  let markOk (m : Mark) : Bool :=
    match i.entries[m.lcEntry]?, i.entries[m.beEntry]? with
    | some a, some b => a.target ≠ 1 && b.target ≠ 1 && !a.bestEffort && b.bestEffort && b.saveOk && oneEngine a.units && a.units = b.units
    | _, _ => false
  let masks := i.parts.map (·.engines)
  allDistinct (i.parts.map (·.part)) && allDistinct (i.ctxs.map (·.ctx)) && allDistinct (i.convoys.map (·.convoy)) &&
    (List.range 6).all (fun e => decide ((masks.filter (fun m => m.getLsbD e)).length ≤ 1)) &&
    i.ctxs.all (fun c => i.parts.any (fun p => p.part = c.part)) && i.parts.all (fun p => decide (p.credits ≤ p.wayTiles)) &&
    i.entries.all entryOk && risingOffsets i.entries && i.marks.all markOk &&
    decide ((i.ctxs.filter (·.compositor)).length ≤ 1) && allDisjoint (i.ctxs.map CtxRec.saveArea) &&
    allDistinct (i.convoys.flatMap (·.streams)) &&
    (i.index = 0 || (i.parts.all (fun p => !p.engines.getLsbD (i.index - 1)) &&
      i.entries.all (fun e => e.target = 1 || !e.units.getLsbD (i.index - 1))))

/-! ### Slot tables (Table 11.2) -/

def slotEntryOf (b : List Byte) : SlotEntry :=
  { req := field b 0 1, revoke := bit (field b 1 1) 0, alt := bit (field b 1 1) 1, count := field b 2 2,
    entry := field b 4 2 }

def slotEntryShape (b : List Byte) : Bool := decide (field b 1 1 < 4) && decide (1 ≤ field b 2 2) && zeroAt b 6 2

/-- Instances of an arbiter kind; the spec numbers no fabric router outputs. -/
def arbKindOk (kind inst : Nat) : Bool :=
  match kind with
  | 0 => true
  | 1 => decide (inst < 32)
  | 2 => decide (inst < 128)
  | 3 => inst = 0
  | 4 => inst = 0
  | 5 => inst = 0
  | 6 => decide (inst < 7)
  | _ => false

/-- `n` tables from the start of the bytes; none where a range breaks or the bytes do not end with the last. -/
def slotTablesOf : (n : Nat) → List Byte → Option (List SlotTable)
  | 0, b => if b.isEmpty then some [] else none
  | n + 1, b =>
    let a := field b 0 2
    let k := field b 4 4
    let body := (b.drop 16).take (8 * k)
    let rows := recordsOf 8 body
    if b.length < 16 + 8 * k ∨ !zeroAt b 2 2 ∨ !zeroAt b 8 8 ∨ k = 0 ∨ 16777216 < k ∨ !rows.all slotEntryShape ∨
        !arbKindOk (a / 4096) (a % 4096) then none
    else
      (slotTablesOf n (b.drop (16 + 8 * k))).map (fun l =>
        { kind := a / 4096, inst := a % 4096, entries := rows.map slotEntryOf } :: l)

def slotSection (index : Nat) (b : List Byte) : Option (List SlotTable) :=
  if b.length < 16 ∨ field b 0 2 ≠ 1 ∨ field b 2 1 ≠ index ∨ !zeroAt b 3 1 ∨ !zeroAt b 8 8 ∨ b.length < field b 4 4 then none
  else slotTablesOf (field b 4 4) (b.drop 16)

/-- R483: a table for every arbiter that the spec numbers, and for at least one router output. -/
def slotComplete (l : List SlotTable) : Bool :=
  let has (kind inst : Nat) : Bool := l.any (fun t => t.kind = kind && t.inst = inst)
  l.any (fun t => t.kind = 0) && (List.range 32).all (has 1) && (List.range 128).all (has 2) && has 3 0 && has 4 0 &&
    has 5 0 && (List.range 7).all (has 6) && allDistinct (l.map (fun t => t.kind * 4096 + t.inst))

/-! ### Model packages (Table 6.10) -/

def packageOf (dest : Nat) (b : List Byte) : Package :=
  { package := field b 10 1, dest := dest, w := field b 11 1, t := field b 12 2, bank0Offset := field b 16 4,
    bank0Bytes := field b 20 4, initOffset := field b 24 4, initBytes := field b 28 4, stateBytes := field b 32 4,
    rowBytes := field b 36 4, digest := [] }

def packageShape (index : Nat) (b : List Byte) : Bool :=
  let x := packageOf 0 b
  let inside (o n : Nat) : Bool := o % 64 = 0 && decide (256 ≤ o ∧ o + n ≤ b.length)
  decide (256 ≤ b.length) && field b 0 8 = magicPkg && field b 8 2 = 1 && x.package = index && decide (1 ≤ x.w ∧ x.w ≤ 8) &&
    decide (1 ≤ x.t ∧ x.t ≤ 8192) && decide (x.w * x.t ≤ 32768) && zeroAt b 14 2 && zeroAt b 40 216 &&
    inside x.bank0Offset x.bank0Bytes && decide (1 ≤ x.bank0Bytes) && decide (x.initBytes ≤ x.stateBytes) &&
    (if x.initOffset = 0 then x.initBytes = 0 else inside x.initOffset x.initBytes)

/-! ### Stream state blocks (Table 6.1, R730 over one block) -/

/-- The thirteen tensor numbers of a block. -/
def ssbTensors (b : List Byte) : List Nat :=
  [64, 66, 96, 98, 128, 130, 160, 162, 32, 34, 48, 50, 52].map (fun o => field b o 2)

def ssbShape (b : List Byte) : Bool :=
  let g := field b 2 1
  let r := field b 11 1
  let repro := field b 192 6
  let pairZero (o : Nat) : Bool := zeroAt b (o + 4) 4 && zeroAt b (o + 14) 2 && zeroAt b (o + 22) 10
  decide (field b 0 1 ≤ 31) && decide (field b 1 1 ≤ 63) && decide (1 ≤ g ∧ g ≤ 4) && decide (field b 3 1 < g) &&
    (r = 0 || decide (g + 1 ≤ r)) && allDistinct (ssbTensors b) && repro % 64 = 0 &&
    (inDram repro 64 || inWell repro 64) && zeroAt b 54 10 && [64, 96, 128, 160].all pairZero && zeroAt b 198 2 &&
    zeroAt b 208 48

/-! ### Raster records and layer declarations -/

def rasterOfBytes (b : List Byte) : RasterRec :=
  { stream := field b 0 1, kind := field b 1 1, order := field b 2 1, fMax := field b 3 1, flushEngine := field b 4 1,
    width := field b 8 2, height := field b 10 2, binBase := field b 12 4, quota := field b 16 4, geoBytes := field b 20 4,
    geoBase := #v[field b 24 6, field b 30 6], flushBase := #v[field b 36 6, field b 42 6] }

/-- Table 7.5 and the rules of R303 over one record. -/
def rasterShape (b : List Byte) : Bool :=
  let x := rasterOfBytes b
  let tiles := ceilDiv x.width 32 * ceilDiv x.height 32
  decide (x.stream ≤ 31) && decide (x.kind ≤ 1) && decide (x.order ≤ 2) && decide (x.fMax ≤ 4) &&
    (x.kind = 0 || x.fMax = 0) && decide (x.flushEngine ≤ 5) && zeroAt b 5 3 && zeroAt b 48 16 &&
    decide (1 ≤ x.width ∧ x.width ≤ 8192) && decide (1 ≤ x.height ∧ x.height ≤ 8192) &&
    decide (ceilDiv tiles 16 + 1 ≤ x.quota) &&
    x.geoBase.toList.all (fun a => tileAligned a && inDram a x.geoBytes) &&
    (if x.fMax = 0 then x.flushBase.toList.all (· = 0)
     else x.flushBase.toList.all (fun a => a ≠ 0 && tileAligned a && inDram a (roundUp (tiles * 17408) tileBytes)))

/-- The geometry buffers and flush stores of a record, as regions. -/
def RasterRec.regions (x : RasterRec) : List (Nat × Nat) :=
  let tiles := ceilDiv x.width 32 * ceilDiv x.height 32
  x.geoBase.toList.map (fun a => (a, x.geoBytes)) ++
    (if x.fMax = 0 then [] else x.flushBase.toList.map (fun a => (a, roundUp (tiles * 17408) tileBytes)))

def layerOfBytes (b : List Byte) : LayerDecl :=
  { stream := field b 0 1, layer := field b 1 1, blend := field b 2 1, x := field b 4 2, y := field b 6 2, w := field b 8 2,
    h := field b 10 2, entry := field b 12 2, tensor := field b 14 2 }

def layerShape (b : List Byte) : Bool :=
  let x := layerOfBytes b
  decide (x.stream ≤ 31) && decide (1 ≤ x.layer ∧ x.layer ≤ 15) && decide (x.blend ≤ 3) && zeroAt b 3 1 &&
    decide (1 ≤ x.w ∧ x.w ≤ 8192) && decide (1 ≤ x.h ∧ x.h ≤ 8192)

/-! ### Tuning records (Table 9.1, and R397 over one record) -/

def tuneOfBytes (b : List Byte) : TuneRec :=
  { stream := field b 0 1, enable := bit (field b 1 1) 0, policy := bits (field b 1 1) 2 1, refEvery := field b 2 1,
    boxes := field b 3 1, w64 := field b 4 1, w128 := field b 5 1, w256 := field b 6 1, valMod := field b 7 1,
    capacity := field b 8 2, refLimit := field b 10 2, adoptSteps := field b 12 4, tseed := BitVec.ofNat 64 (field b 24 8),
    lr := word (field b 32 4), b1 := word (field b 36 4), b2 := word (field b 40 4), eps2 := word (field b 44 4),
    wd := word (field b 48 4), margin := word (field b 52 4), replayBase := field b 56 6, slotTiles := field b 62 2,
    stateBase := field b 64 6, bank1Base := field b 72 6, bank2Base := field b 80 6, holdBase := field b 88 6,
    eHold := field b 96 2, eCut := field b 98 2, eTrain := field b 100 2, eExport := field b 102 2, eEval := field b 104 2 }

def tuneShape (b : List Byte) : Bool :=
  let x := tuneOfBytes b
  let open01 (w : Word) : Bool := decide (0 < w.toNat ∧ w.toNat < fpOne)
  decide (x.stream ≤ 31) && decide (field b 1 1 < 8) && decide (1 ≤ x.refEvery) && decide (1 ≤ x.boxes ∧ x.boxes ≤ 64) &&
    x.w64 + x.w128 + x.w256 = 255 && x.valMod ≠ 1 && (x.policy ≠ 2 || x.valMod ≠ 0) && x.capacity % 4 = 0 &&
    decide (16 ≤ x.capacity ∧ x.capacity ≤ 4096) && decide (1 ≤ x.refLimit ∧ x.refLimit ≤ 1000) &&
    decide (1 ≤ x.adoptSteps) && zeroAt b 16 8 && open01 x.b1 && open01 x.b2 &&
    decide (0 < x.eps2.toNat ∧ x.eps2.toNat ≤ 0x7F800000) && (decide (x.wd.toNat ≤ 0x7F800000) || x.wd = 0x80000000) &&
    (decide (x.margin.toNat < fpOne) || x.margin = 0x80000000) && decide (1 ≤ x.slotTiles ∧ x.slotTiles ≤ 64) &&
    zeroAt b 70 2 && zeroAt b 78 2 && zeroAt b 86 2 && zeroAt b 94 2 && zeroAt b 106 22 &&
    [x.replayBase, x.stateBase, x.bank1Base, x.bank2Base, x.holdBase].all (fun a => tileAligned a && inDram a tileBytes)

/-- The regions of a record with a package whose bank 0 has `bank` bytes and hold buffers of `hold` bytes each. The spec states
no size of the optimiser state: two copies of three FP32 values a weight, of at most 4 deployed bytes each, take at least 6 times
the bank (log 18). -/
def TuneRec.regions (x : TuneRec) (bank hold : Nat) : List (Nat × Nat) :=
  [(x.replayBase, 32768 + x.capacity * x.slotTiles * tileBytes), (x.stateBase, 6 * bank), (x.bank1Base, bank),
    (x.bank2Base, bank), (x.holdBase, 2 * hold)]

/-! ### Sensor profiles and port records (Tables 13.1, 13.2) -/

def profileOfBytes (b : List Byte) : Profile :=
  { profile := field b 0 1, dt := field b 1 1, lsLe := bit (field b 2 1) 0, cfa := BitVec.ofNat 8 (field b 3 1),
    width := field b 4 2, height := field b 6 2, lineNs := field b 8 4, frameLines := field b 12 2, embBytes := field b 14 2,
    white := field b 16 4, black := field b 20 4, kShot := word (field b 24 4), read2 := word (field b 28 4),
    lbLines := field b 32 2, wmark := field b 34 2, embStatic := (b.drop 64).take 64 }

def profileShape (b : List Byte) : Bool :=
  let x := profileOfBytes b
  let dims (n : Nat) : Bool := decide (16 ≤ n ∧ n ≤ 8192)
  decide (x.profile ≤ 31) && (x.dt = 0x1E || x.dt = 0x1F || x.dt = 0x24 || decide (0x2A ≤ x.dt ∧ x.dt ≤ 0x2F)) &&
    decide (field b 2 1 < 2) && dims x.width && dims x.height && x.width % inputWidthUnit x.dt = 0 &&
    decide (1000 ≤ x.lineNs ∧ x.lineNs ≤ 1000000) && decide (x.height + 3 ≤ x.frameLines) && x.embBytes % 4 = 0 &&
    decide (256 ≤ x.embBytes ∧ x.embBytes ≤ 16384) && decide (x.white < 2 ^ dtBits x.dt) && decide (x.black < x.white) &&
    fpNonNeg x.kShot.toNat && fpNonNeg x.read2.toNat && x.lbLines % 64 = 0 && decide (128 ≤ x.lbLines ∧ x.lbLines ≤ 1024) &&
    decide (1 ≤ x.wmark ∧ x.wmark < x.lbLines) && zeroAt b 36 28

def portOfBytes (b : List Byte) : PortRec :=
  { stream := field b 0 1, port := field b 1 1, vc := field b 2 1, profile := field b 3 1, fsOffset := field b 4 4,
    noiseSeed := BitVec.ofNat 64 (field b 8 8), lbBase := field b 16 6, laUs := field b 24 4, lgUs := field b 28 4 }

def portShape (b : List Byte) : Bool :=
  let x := portOfBytes b
  decide (x.stream ≤ 31) && decide (x.port ≤ 15) && decide (x.vc ≤ 31) && decide (x.profile ≤ 31) && zeroAt b 22 2 &&
    tileAligned x.lbBase

/-! ### Stream input records (Table 12.6) -/

def inputOfBytes (b : List Byte) : InputRec :=
  { stream := field b 0 1, lane := field b 1 1, vc := field b 2 1, resim := field b 3 1 = 1, format := field b 4 1,
    channels := field b 5 1, compMask := BitVec.ofNat 16 (field b 6 2), width := field b 8 2, height := field b 10 2,
    rxBase := #v[field b 12 6, field b 18 6], rxBytes := field b 24 4, refBase := field b 28 6 }

def inputShape (b : List Byte) : Bool :=
  let x := inputOfBytes b
  let planar := x.format = 0x80 || x.format = 0x81
  let fmtOk := planar || x.format = 0x1E || x.format = 0x1F || x.format = 0x24 || decide (0x2A ≤ x.format ∧ x.format ≤ 0x2F)
  decide (x.stream ≤ 31) && decide (x.lane ≤ 23) && decide (x.vc ≤ 30) && decide (field b 3 1 ≤ 1) && fmtOk &&
    (if planar then decide (1 ≤ x.channels ∧ x.channels ≤ 8) else x.channels = 0) && decide (field b 6 2 < 1024) &&
    decide (1 ≤ x.width ∧ x.width ≤ 8192) && decide (1 ≤ x.height ∧ x.height ≤ 8192) &&
    x.rxBase.toList.all (fun a => tileAligned a && inWell a x.rxBytes) &&
    decide (inputBytes (inputPlanes x.format x.channels x.width x.height) ≤ x.rxBytes) && zeroAt b 34 30 &&
    inDram x.refBase 1

/-! ### Producer ranges and shadow records (Tables 14.3, 14.4) -/

def rangeOfBytes (b : List Byte) : RangeRec :=
  { base := field b 0 6, entry := field b 6 2, tiles := field b 8 4, lrs := bits (field b 12 3) 19 0,
    index := bits (field b 15 1) 2 0, recompute := bit (field b 15 1) 3, imageBacked := bit (field b 15 1) 4,
    norOffset := field b 16 6 }

def RangeRec.region (x : RangeRec) : Nat × Nat := (x.base, x.tiles * tileBytes)

def rangeShape (b : List Byte) : Bool :=
  let x := rangeOfBytes b
  let n := x.tiles * tileBytes
  tileAligned x.base && decide (1 ≤ x.tiles) && bits (field b 12 3) 23 20 = 0 && bits (field b 15 1) 7 5 = 0 &&
    decide (x.index ≤ 6) && (x.imageBacked || x.norOffset = 0) && zeroAt b 22 2 &&
    (match regionOf x.base with
      | .dram => inDram x.base n
      | .well => inWell x.base n
      | .scratch e => decide (x.base + n ≤ scratchBase e + scratchBytes)
      | _ => false)

def shadowOfBytes (b : List Byte) : ShadowRec :=
  { entry := field b 0 2, n := field b 2 2, engine := field b 4 1, blocking := bit (field b 5 1) 0, index := field b 6 1 }

def shadowShape (b : List Byte) : Bool :=
  let x := shadowOfBytes b
  decide (1 ≤ x.n) && decide (x.engine ≤ 5) && decide (field b 5 1 < 2) && decide (x.index ≤ 6) && zeroAt b 7 1

/-! ### Lanes (Table 12.1) and meshes -/

/-- The default assignment of Table 12.1: LO0 to LO23, then LI0 to LI23. -/
def defaultRoles (ringN : Nat) : List Byte :=
  let ots : List Byte := if 1 < ringN then [0x30, 0x30, 0x31, 0x31] else [0, 0, 0, 0]
  (List.range 16).map (fun p => BitVec.ofNat 8 (0x10 + p)) ++ ots ++ [0x40, 0, 0, 0] ++ List.replicate 16 0x20 ++ ots ++
    [0x41, 0, 0, 0]

/-- R509, R510: each lane's role is one that its lane may carry. -/
def rolesOk (ringN : Nat) (r : List Byte) : Bool :=
  let at_ (n : Nat) : Nat := (r.getD n 0).toNat
  let isPort (v : Nat) : Bool := decide (0x10 ≤ v ∧ v ≤ 0x1F)
  let ots (n role : Nat) : Bool := at_ n = (if 1 < ringN then role else 0)
  let upward (base role : Nat) : Bool := (List.range 3).all (fun i => at_ (base + i + 1) ≠ role || at_ (base + i) = role)
  r.length = 48 && (List.range 16).all (fun n => at_ n = 0 || isPort (at_ n)) &&
    [21, 22, 23].all (fun n => at_ n = 0 || at_ n = 0x40 || isPort (at_ n)) && (at_ 20 = 0 || at_ 20 = 0x40) &&
    (List.range 16).all (fun n => at_ (24 + n) = 0 || at_ (24 + n) = 0x20) &&
    [45, 46, 47].all (fun n => at_ n = 0 || at_ n = 0x41 || at_ n = 0x20) && (at_ 44 = 0 || at_ 44 = 0x41) &&
    [16, 17, 40, 41].all (fun n => ots n 0x30) && [18, 19, 42, 43].all (fun n => ots n 0x31) && upward 20 0x40 &&
    upward 44 0x41

/-- R386: bits [31:20] of every word of a mesh are the sign extension of bit 19. -/
def meshOk (b : List Byte) : Bool :=
  (recordsOf 4 b).all (fun w =>
    let v := field w 0 4
    v / 2 ^ 19 = 0 || v / 2 ^ 19 = 2 ^ 13 - 1)

/-! ### A section on its own -/

/-- The checks of one section that need no other (order 9 of Table 15.8). -/
def sectionShape (ringN : Nat) (x : SectEntry) (b : List Byte) : Bool :=
  let table (n limit : Nat) (shape : List Byte → Bool) : Bool :=
    wholeRecords n b && decide (b.length / n ≤ limit) && (recordsOf n b).all shape
  match x.type with
  | 0x0003 => wholeRecords 8 b
  | 0x0010 => itinShape x.index b && (itinOfBytes b).ok
  | 0x0011 => (slotSection x.index b).isSome
  | 0x0020 => packageShape x.index b
  | 0x0022 => meshOk b
  | 0x0030 => table 256 32 ssbShape && allDistinct ((recordsOf 256 b).map (fun r => field r 0 1))
  | 0x0031 =>
    table 64 64 rasterShape && allDistinct ((recordsOf 64 b).map (fun r => field r 0 2)) &&
      allDisjoint ((recordsOf 64 b).flatMap (fun r => (rasterOfBytes r).regions)) &&
      allDisjoint ((recordsOf 64 b).map (fun r => ((rasterOfBytes r).binBase, 2 * (rasterOfBytes r).quota)))
  | 0x0032 =>
    table 16 256 layerShape && allDistinct ((recordsOf 16 b).map (fun r => field r 0 2 + 2 ^ 16 * field r 12 2)) &&
      (List.range 32).all (fun s => decide (((recordsOf 16 b).filter (fun r => field r 0 1 = s)).length ≤ 16))
  | 0x0033 => table 128 32 tuneShape && allDistinct ((recordsOf 128 b).map (fun r => field r 0 1))
  | 0x0034 => table 128 32 profileShape && allDistinct ((recordsOf 128 b).map (fun r => field r 0 1))
  | 0x0035 => table 32 32 portShape && allDistinct ((recordsOf 32 b).map (fun r => field r 0 1))
  | 0x0036 =>
    table 64 32 inputShape && allDistinct ((recordsOf 64 b).map (fun r => field r 0 1)) &&
      allDistinct ((recordsOf 64 b).map (fun r => field r 1 2))
  | 0x0037 => rolesOk ringN b
  | 0x0039 =>
    table 24 4096 rangeShape && allDisjoint ((recordsOf 24 b).map (fun r => (rangeOfBytes r).region))
  | 0x003A => table 8 256 shadowShape
  | 0x003B => b.length = 36
  | _ => true

end Sys2Proof.Machine
end

