-- ==== Sys2Proof/Machine/ImageOps.lean ====
section
/-! DEFINITION. POOL (R234 to R237), CROPRESIZE (R238 to R245) and REPROJECT (R290, R737). -/
namespace Sys2Proof.Machine

/-- A code in the destination's format under the header's rounding and saturation. -/
def outCode (c : List Byte) (t : Desc) (v : Num) (ch y x : Nat) : Nat :=
  let idx := (ch * t.height + y) * t.width + x
  convert t.fmt (elemRound (cmdSr c) (cmdSeed c) t.tensorId idx) (cmdSat c t.fmt) v

/-! ### POOL -/

/-- The samples of a window in tap order, as FP32. -/
def poolSamples (k : Win) (t : Desc) (w : List (Nat × Byte)) (ch y x : Nat) : List Nat :=
  (List.range (k.kh * k.kw)).filterMap (fun i =>
    match k.tap (k.vy y (i / k.kw)) (k.vx x (i % k.kw)) with
    | .none => none
    | .const => some k.padConst
    | .at r q _ => some (t.fp32 w ch r q))

/-- R235 to R237. -/
def poolValue (kind : Nat) (samples : List Nat) : Nat :=
  match samples with
  | [] => 0
  | v :: vs =>
    match kind with
    | 0 => vs.foldl fpMax v
    | 2 => vs.foldl fpMin v
    | _ => fpMul ((v :: vs).foldl fpAdd 0) (fpRcp (fpOfInt (v :: vs).length))

/-- The window of a POOL. -/
def Run.poolWin (r : Run) : Win :=
  let t := descAt r.descs r.cmd 16
  winOf r.cmd t.height t.width

/-- What a POOL reads and writes. -/
def Run.poolPlan (r : Run) : Plan :=
  let t := descAt r.descs r.cmd
  let k := r.poolWin
  Plan.of ((t 16).rowSpans false k.inputRows ++ (t 16).scaleSpans false k.inputRows ++
    (t 17).rowSpans true ((List.range k.orows).map (k.orow0 + ·)))

/-- Table 4.16: a step per 256 outputs and tap. -/
def Run.poolSteps (r : Run) : Nat :=
  let k := r.poolWin
  ceilDiv (k.orows * k.ow * (descAt r.descs r.cmd 16).channels) 256 * k.kh * k.kw

/-- The outputs of a POOL as FP32, from the memory `w` of its input. -/
def Run.poolResult (r : Run) (w : List (Nat × Byte)) (ch y x : Nat) : Nat :=
  poolValue (field r.cmd 18 1) (poolSamples r.poolWin (descAt r.descs r.cmd 16) w ch y x)

/-- The output rows of a POOL written with results `val`. -/
def Device.putPool (d : Device) (e : Nat) (r : Run) (val : Nat → Nat → Nat → Nat) : Device :=
  let o := descAt r.descs r.cmd 17
  d.putRows (physAddr e) o r.poolWin.orow0 r.poolWin.orows (fun ch y x => outCode r.cmd o (fpNum (val ch y x)) ch y x)

def Device.pool (d : Device) (e : Nat) (r : Run) : Device :=
  let w := d.tensorWindow e (descAt r.descs r.cmd 16)
  d.simple e r r.poolPlan r.poolSteps (fun x => x.putPool e r (r.poolResult w))

def Device.poolIssues (_ : Device) (e : Nat) (r : Run) : List Issue := r.poolPlan.issues kindVOP e r.poolSteps

def execPool (t : Nat) (engine : Fin 6) (s : State) : Host.Outcome State Fault Refusal :=
  s.command t engine (isOp opPOOL) (·.poolIssues) (fun d e r => d.pool e r)

/-! ### Bilinear taps -/

/-- A tap of nonzero weight: its weight and its place, outside the source or not. -/
structure Bilin where
  weight : Nat
  y : Int
  x : Int
  deriving DecidableEq, Repr

/-- The four taps of a position at (ix, fx) and (iy, fy), with `unit` the weight of one: those of nonzero weight. -/
def bilinTaps (unit : Nat) (iy ix : Int) (fy fx : Nat) : List Bilin :=
  ([(0, 0), (0, 1), (1, 0), (1, 1)] : List (Nat × Nat)).filterMap (fun (dy, dx) =>
    let wy := if dy = 0 then unit - fy else fy
    let wx := if dx = 0 then unit - fx else fx
    if wy * wx = 0 then none else some { weight := wy * wx, y := iy + dy, x := ix + dx })

/-! ### CROPRESIZE -/

/-- A box entry's edges (Table 5.7), in 1/64 pixel. -/
structure Box where
  x0 : Nat
  y0 : Nat
  x1 : Nat
  y1 : Nat
  deriving DecidableEq, Repr

def boxOf (w : List (Nat × Byte)) (a : Nat) : Box :=
  let f (o : Nat) : Nat := leNat ((List.range 3).map (fun i => memGet w (a + o + i)))
  { x0 := f 0, y0 := f 4, x1 := f 8, y1 := f 12 }

def Box.zeroArea (b : Box) : Bool := decide (b.x1 ≤ b.x0) || decide (b.y1 ≤ b.y0)
def Box.inverted (b : Box) : Bool := decide (b.x1 < b.x0) || decide (b.y1 < b.y0)

/-- R239: the index and fraction of output position u of n. -/
def cropCoord (n u lo hi : Nat) : Int × Nat :=
  let bw : Int := (hi : Int) - lo
  let num : Int := 2 * n * lo + (2 * u + 1) * bw - 64 * n
  let s : Int := (2 * num) / (n : Int)
  (s / 256, (s % 256).toNat)

/-- The taps of output position (v, u) of a box. -/
def Box.taps (b : Box) (ow oh v u : Nat) : List Bilin :=
  let (ix, fx) := cropCoord ow u b.x0 b.x1
  let (iy, fy) := cropCoord oh v b.y0 b.y1
  bilinTaps 256 iy ix fy fx

def Bilin.inside (t : Bilin) (h w : Nat) : Bool :=
  decide (0 ≤ t.y) && decide (t.y < h) && decide (0 ≤ t.x) && decide (t.x < w)

/-- R240 to R243: an output element. -/
def cropValue (t : Desc) (w : List (Nat × Byte)) (outside : Num) (b : Box) (ow oh ch v u : Nat) : Num :=
  if b.zeroArea then outside
  else numScale (-16) (exactTotal ((b.taps ow oh v u).map (fun q =>
    let s := if q.inside t.height t.width then t.num w ch q.y.toNat q.x.toNat else outside
    numMul (.fin false q.weight 0) s)))

/-- Output positions of a box with an outside tap (R241). -/
def Box.outsides (b : Box) (t : Desc) (ow oh : Nat) : Nat :=
  if b.zeroArea then 0
  else (List.range oh).foldl (fun n v => (List.range ow).foldl (fun n u =>
    if (b.taps ow oh v u).any (fun q => !q.inside t.height t.width) then n + 1 else n) n) 0

/-- FLAGS of a box (R243, R245). -/
def Box.flags (b : Box) (t : Desc) (ow oh : Nat) : Nat :=
  if b.zeroArea then 1 + 2 * boolNat b.inverted else 4 * boolNat (decide (0 < b.outsides t ow oh))

/-- The box list of a CROPRESIZE, from memory as it stands in `d`. -/
def Device.cropBoxes (d : Device) (e : Nat) (r : Run) : List Box :=
  let n := field r.cmd 20 2
  let a := (descAt r.descs r.cmd 18).base
  let w := d.view e a (boxBytes n)
  (List.range n).map (fun i => boxOf w (a + 16 * i))

/-- What a CROPRESIZE reads and writes: the box list, the taps inside the source, the outputs and every box's FLAGS. -/
def Run.cropPlan (r : Run) (boxes : List Box) : Plan :=
  let c := r.cmd
  let t := descAt r.descs c
  let (n, ow, oh) := (field c 20 2, field c 22 2, field c 24 2)
  let reads := boxes.flatMap (fun b => if b.zeroArea then [] else
    (List.range oh).flatMap (fun v => (List.range ow).flatMap (fun u =>
      ((b.taps ow oh v u).filter (fun q => q.inside (t 16).height (t 16).width)).flatMap (fun q =>
        (List.range (t 16).channels).map (fun ch => (t 16).elemSpan ch q.y.toNat q.x.toNat)))))
  let flagSpans := (List.range n).map (fun i => ({ addr := (t 18).base + 16 * i + 15, len := 1, store := true } : Span))
  Plan.of ({ addr := (t 18).base, len := boxBytes n, store := false } :: reads ++ (t 17).allSpans true ++ flagSpans)

/-- Table 4.16: 8 steps a box and 3 per 256 outputs. -/
def Run.cropSteps (r : Run) : Nat :=
  let (n, ow, oh) := (field r.cmd 20 2, field r.cmd 22 2, field r.cmd 24 2)
  8 * n + 3 * ceilDiv (n * ow * oh * (descAt r.descs r.cmd 16).channels) 256

/-- The exact outputs of a CROPRESIZE, from the memory `w` of its input: channel ch of box i is output channel
i × channels + ch. -/
def Run.cropResult (r : Run) (w : List (Nat × Byte)) (boxes : List Box) (ch v u : Nat) : Num :=
  let t := descAt r.descs r.cmd 16
  cropValue t w (fpNum (field r.cmd 26 4))
    (boxes.getD (ch / t.channels) { x0 := 0, y0 := 0, x1 := 0, y1 := 0 }) (field r.cmd 22 2) (field r.cmd 24 2)
    (ch % t.channels) v u

/-- The outputs `val` of a CROPRESIZE and the FLAGS of its boxes written. -/
def Device.putCrop (d : Device) (e : Nat) (r : Run) (boxes : List Box) (val : Nat → Nat → Nat → Num) : Device :=
  let t := descAt r.descs r.cmd
  let o := t 17
  let d := d.putRows (physAddr e) o 0 o.height (fun ch v u => outCode r.cmd o (val ch v u) ch v u)
  (List.range (field r.cmd 20 2)).foldl (fun d i =>
    let b := boxes.getD i { x0 := 0, y0 := 0, x1 := 0, y1 := 0 }
    d.write (physAddr e ((t 18).base + 16 * i + 15)) [BitVec.ofNat 8 (b.flags (t 16) (field r.cmd 22 2) (field r.cmd 24 2))]) d

def Device.cropResize (d : Device) (e : Nat) (r : Run) : Device :=
  let boxes := d.cropBoxes e r
  let src := descAt r.descs r.cmd 16
  let w := d.tensorWindow e src
  d.simple e r (r.cropPlan boxes) r.cropSteps (fun x =>
    (x.modEng e (fun g => { g with op := { g.op with
      cropZero := satAdd g.op.cropZero (boxes.filter (·.zeroArea)).length
      cropOutside := satAdd g.op.cropOutside
        (boxes.foldl (fun k b => k + b.outsides src (field r.cmd 22 2) (field r.cmd 24 2)) 0) } })).putCrop e r boxes
      (r.cropResult w boxes))

def Device.cropIssues (d : Device) (e : Nat) (r : Run) : List Issue := (r.cropPlan (d.cropBoxes e r)).issues kindVOP e r.cropSteps

def execCropresize (t : Nat) (engine : Fin 6) (s : State) : Host.Outcome State Fault Refusal :=
  s.command t engine (isOp opCROPRESIZE) (·.cropIssues) (fun d e r => d.cropResize e r)

/-! ### REPROJECT -/

/-- R290: the taps of an output pixel, their indices clamped to the image. -/
def reprojTaps (dist : Nat) (motion : Nat) (h w y x : Nat) : List Bilin :=
  let mx := signedOf 16 motion
  let my := signedOf 16 (motion / 2 ^ 16)
  let sx : Int := 32 * x - dist * mx
  let sy : Int := 32 * y - dist * my
  (bilinTaps 32 (sy / 32) (sx / 32) (sy % 32).toNat (sx % 32).toNat).map (fun q =>
    { q with y := max 0 (min ((h : Int) - 1) q.y), x := max 0 (min ((w : Int) - 1) q.x) })

/-- R290: the distance of a re-projection's slot from its stream's anchor. -/
def Device.reprojDist (d : Device) (r : Run) : Nat := (r.slot + 2 ^ 32 - d.ssbField (r.streams.headD 0) 20 4) % 2 ^ 32

/-- R290: the taps of pixel (y, x) of a re-projection over `dist` slots, from the memory `wm` of its motion. -/
def Run.reprojAt (r : Run) (dist : Nat) (wm : List (Nat × Byte)) (y x : Nat) : List Bilin :=
  let t := descAt r.descs r.cmd
  reprojTaps dist ((t 17).code wm 0 (y / 4) (x / 4)) (t 16).height (t 16).width y x

/-- What a re-projection of the rows of `l` reads and writes. -/
def Run.reprojPlan (r : Run) (taps : Nat → Nat → List Bilin) (l : LaunchDesc) : Plan :=
  let t := descAt r.descs r.cmd
  let rows := (List.range l.rows).map (l.row0 + ·)
  Plan.of (rows.flatMap (fun y => (List.range (t 16).width).flatMap (fun x =>
      (t 17).elemSpan 0 (y / 4) (x / 4) :: (taps y x).flatMap (fun q =>
        (List.range (t 16).channels).map (fun ch => (t 16).elemSpan ch q.y.toNat q.x.toNat)))) ++ (t 18).rowSpans true rows)

/-- Table 4.16: 4 steps per 256 outputs. -/
def Run.reprojSteps (r : Run) (l : LaunchDesc) : Nat :=
  let o := descAt r.descs r.cmd 18
  4 * ceilDiv (l.rows * o.width * o.channels) 256

/-- R290: the exact output before its one conversion, from the memory `w` of the image. -/
def Run.reprojResult (r : Run) (w : List (Nat × Byte)) (taps : Nat → Nat → List Bilin) (ch y x : Nat) : Num :=
  numScale (-10) (exactTotal ((taps y x).map (fun q =>
    numMul (.fin false q.weight 0) ((descAt r.descs r.cmd 16).num w ch q.y.toNat q.x.toNat))))

/-- The rows of `l` written with outputs `val`. -/
def Device.putReproj (d : Device) (e : Nat) (r : Run) (l : LaunchDesc) (val : Nat → Nat → Nat → Num) : Device :=
  let o := descAt r.descs r.cmd 18
  d.putRows (physAddr e) o l.row0 l.rows (fun ch y x => convert o.fmt .rne true (val ch y x))

def Device.reprojectRows (d : Device) (e : Nat) (r : Run) : Device :=
  match d.serveOf r.due with
  | none => d
  | some v =>
    let t := descAt r.descs r.cmd
    let w := d.tensorWindow e (t 16)
    let wm := d.tensorWindow e (t 17)
    let taps := r.reprojAt (d.reprojDist r) wm
    d.simple e r (r.reprojPlan taps v.launch) (r.reprojSteps v.launch)
      (fun x => x.putReproj e r v.launch (r.reprojResult w taps))

def Device.reprojIssues (d : Device) (e : Nat) (r : Run) : List Issue :=
  match d.serveOf r.due with
  | none => []
  | some v =>
    let taps := r.reprojAt (d.reprojDist r) (d.tensorWindow e (descAt r.descs r.cmd 17))
    (r.reprojPlan taps v.launch).issues kindVOP e (r.reprojSteps v.launch)

def execReproject (t : Nat) (engine : Fin 6) (s : State) : Host.Outcome State Fault Refusal :=
  s.command t engine (isOp opREPROJECT) (·.reprojIssues) (fun d e r => d.reprojectRows e r)

end Sys2Proof.Machine
end

