-- ==== Sys2Proof/Machine/Vision.lean ====
section
/-! DEFINITION. The vision units (chapter 8): jobs with their checks (Table 8.4), waits (R359), bands (R360) and
commits (R361), and the three kinds of job. -/
namespace Sys2Proof.Machine

/-! ### Checks (Table 8.4) -/

/-- UNIT of the job that a unit runs: 0 flow, 1 stereo, 2 remap. -/
def unitKind (u : Nat) : Nat := if u < 2 then 0 else if u = 2 then 1 else 2

/-- Where the payload names a descriptor: offset and whether the job's mode leaves it at 0xFF. -/
def jobIndices (job : List Byte) : List (Nat × Bool) :=
  let mode := field job 3 1
  match field job 2 1 with
  | 0 => [(32, false), (33, false), (34, mode = 0), (35, false), (36, false), (37, mode = 1)]
  | 1 => [(32, false), (33, false), (34, false), (35, false), (36, false)]
  | _ => [(32, false), (33, false), (34, false)]

/-- Reserved bytes of the payload. -/
def jobReserved (kind : Nat) : List Nat :=
  match kind with
  | 0 => 39 :: (List.range 20).map (44 + ·)
  | 1 => (List.range 18).map (46 + ·)
  | _ => 35 :: (List.range 8).map (56 + ·)

/-- Order 1. -/
def jobHeaderOk (u : Nat) (job : List Byte) : Bool :=
  field job 0 2 = 1 && field job 2 1 = unitKind u && decide (field job 3 1 ≤ 1) &&
    decide (1 ≤ field job 10 1 ∧ field job 10 1 ≤ 8) && field job 11 1 = 0 &&
    (jobReserved (unitKind u)).all (fun o => field job o 1 = 0)

/-- Order 2. -/
def jobIndicesOk (job : List Byte) (raws : List (List Byte)) : Bool :=
  (jobIndices job).all (fun i => if i.2 then field job i.1 1 = 0xFF else decide (field job i.1 1 < raws.length)) &&
    raws.all (fun b => !bit (field b 8 1) 7 && field b 9 1 / 4 = 0 && field b 28 4 = 0)

/-- Order 3, for one descriptor. -/
def jobDescOk (t : Desc) : Bool :=
  t.base % 64 = 0 && inOneRegion t.base t.span && t.layout = 0 && t.comp = 0 && t.layoutOk

/-- Order 3: where the work buffer lies (R376, R381). -/
def jobWorkPlaced (job : List Byte) (descs : List Desc) : Bool :=
  let t := descAt descs job
  match field job 2 1, field job 3 1 with
  | 0, 0 => inOneRegion (t 37).base (t 37).workBytes
  | 1, _ => regionOf (t 36).base = .dram && inOneRegion (t 36).base (t 36).workBytes
  | _, _ => true

def planeOf (t : Desc) (fmt : Nat) : Bool := t.fmt = fmt && t.channels = 1

/-- Order 4. -/
def jobFormatsOk (job : List Byte) (descs : List Desc) : Bool :=
  let t := descAt descs job
  match field job 2 1 with
  | 0 => planeOf (t 32) 1 && planeOf (t 33) 1 && planeOf (t 35) 14 && planeOf (t 36) 1 &&
      (field job 3 1 = 0 || planeOf (t 34) 14)
  | 1 => planeOf (t 32) 1 && planeOf (t 33) 1 && planeOf (t 34) 14 && planeOf (t 35) 1
  | _ => (t 32).fmt = (t 33).fmt && [1, 11, 12, 13].contains (t 32).fmt && (t 32).channels = (t 33).channels &&
      decide (1 ≤ (t 32).channels ∧ (t 32).channels ≤ 4) && (t 34).fmt = 14 && (t 34).channels = 2

/-- R376: bytes that the levels need. -/
def pyramidBytes : (n w h : Nat) → Nat
  | 0, _, _ => 0
  | n + 1, w, h => 6 * roundUp (ceilDiv w 2) 64 * ceilDiv h 2 + pyramidBytes n (ceilDiv w 2) (ceilDiv h 2)

/-- Order 5. -/
def jobExtentsOk (job : List Byte) (descs : List Desc) : Bool :=
  let t := descAt descs job
  let size (a : Desc) (lo : Nat) : Bool := decide (lo ≤ a.width ∧ a.width ≤ 8192 ∧ lo ≤ a.height ∧ a.height ≤ 8192)
  let same (a b : Desc) : Bool := a.width = b.width && a.height = b.height
  match field job 2 1 with
  | 0 =>
    size (t 32) 16 && same (t 32) (t 33) && same (t 32) (t 35) && same (t 32) (t 36) &&
      (if field job 3 1 = 0 then decide (pyramidBytes 4 (t 32).width (t 32).height ≤ (t 37).workBytes)
       else (predShift (t 32) (t 34)).isSome && decide (field job 40 2 + field job 42 2 ≤ (t 32).height))
  | 1 =>
    size (t 32) 16 && same (t 32) (t 33) && same (t 32) (t 34) && same (t 32) (t 35) &&
      (decide (3 < field job 37 1) ||
        decide ((t 32).width * (t 32).height * disparities job * 3 / 2 ≤ (t 36).workBytes))
  | _ =>
    size (t 32) 1 && size (t 33) 1 && (t 34).width = ceilDiv (t 33).width 16 + 1 &&
      (t 34).height = ceilDiv (t 33).height 16 + 1 && decide (field job 36 2 + field job 38 2 ≤ (t 33).height)

/-- Order 6. -/
def jobFieldsOk (job : List Byte) : Bool :=
  let f := field job
  let flagOk (o : Nat) : Bool := decide (f o 2 ≤ 1023) || f o 2 = 0xFFFF
  let bandRows := f 30 2
  flagOk 12 && flagOk 18 && (f 18 2 = 0xFFFF || f 20 1 ≠ 0) && (f 21 1 = 0 || decide (f 22 2 ≤ 1023)) &&
    (if hasBands job then bandRows % 8 = 0 && decide (8 ≤ bandRows ∧ bandRows ≤ 64) else bandRows = 0) &&
    (match f 2 1 with
      | 0 => decide (f 38 1 ≤ 216) && (f 3 1 = 1 || (f 40 2 = 0 && f 42 2 = 0))
      | 1 =>
        decide (f 37 1 ≤ 3) && (decide (f 37 1 = 3) == decide (f 3 1 = 1)) &&
          decide (f 38 2 + disparities job - 1 ≤ 2046) && decide (1 ≤ f 40 1 ∧ f 40 1 ≤ 62 ∧ f 40 1 < f 41 1) &&
          decide (f 42 1 ≤ 100) && decide (f 43 1 ≤ 3) && decide (f 44 2 ≤ 2536)
      | _ => decide (1 ≤ f 38 2 ∧ f 38 2 ≤ 8192))

/-- R358: the first failed check from order 2, with its status. -/
def jobFails (job : List Byte) (raws : List (List Byte)) (descs : List Desc) : Option (Nat × Status) :=
  if !jobIndicesOk job raws then some (2, .unsupported)
  else if !descs.all jobDescOk || !jobWorkPlaced job descs then some (3, .unsupported)
  else if !jobFormatsOk job descs then some (4, .unsupported)
  else if !jobExtentsOk job descs then some (5, .badDimensions)
  else if !jobFieldsOk job then some (6, .unsupported)
  else none

/-! ### Reads -/

/-- R606 for a vision job. -/
def Device.recomputeVision (d : Device) (u : Nat) (r : VRun) (p : Ended) (tile : Nat) : Device :=
  let d := (d.modSeal (fun x => { x with recomputes := satInc x.recomputes })).repeated
  let d := d.stopVision u .sealFail 0 (some tile)
  let prod := d.relaunchOf p
  let cons : Due := { r.launch.due with at_ := d.now, relaunch := true, producer := false, tile := some tile }
  (d.modItn (fun i => { i with waiting := i.waiting ++ [prod, cons] })).relaunchVision

/-- Rung 3 for the job of a unit (Table 14.2). -/
def Device.lastRungVision (d : Device) (u tile : Nat) (r : VRun) : Device :=
  (d.rung3 tile r.launch.ctx).failVision u .sealFail 0 (some tile)

/-- R364: the check of one tile that a job reads; whether the job goes on. -/
def Device.readTileVision (d : Device) (u : Nat) (r : VRun) (tile : Nat) : Bool × Device :=
  if r.launch.due.tile = some tile ∧ !d.passes tile then (false, (d.failAgain tile).lastRungVision u tile r)
  else match d.verify tile with
  | (.ok, d) => (true, d)
  | (.refetched, d) => (true, d)
  | (.failed, d) =>
      let d := d.rung2 tile r.launch.ctx
      match d.rangeOf tile with
      | none => (false, d.lastRungVision u tile r)
      | some g =>
        if !d.beforeLrs g then (false, d.lastRungVision u tile r)
        else if g.imageBacked then
          (false, d.modSealSt (fun x => { x with reloads := x.reloads ++ [(tile, some (6 + u), false)] }))
        else
          match g.recompute, d.itn.ended.find? (fun x => x.index = d.itn.active && x.entry = g.entry) with
          | true, some p => (false, d.recomputeVision u r p tile)
          | _, _ => (false, d.lastRungVision u tile r)

def Device.readTilesVision (d : Device) (u : Nat) (r : VRun) (tiles : List Nat) : Bool × Device :=
  tiles.foldl (fun s t => if s.1 then s.2.readTileVision u r t else s) (true, d)

/-! ### The start of a job -/

/-- A job that is not run and has no record (R361); its context is torn down by the access (R59). -/
def Device.refuseVision (d : Device) (u : Nat) (l : VLaunch) (job : List Byte) (addr : Nat) : Device :=
  let d := d.modUnit u (fun x => { x with lastStatus := word (statusCode .unsupported + l.ctx * 256) })
  (((d.noteEnd l.due .unsupported).endRelaunch l.due .unsupported).loseJob l.due job .unsupported).accessFault l.ctx l.due.entry addr

/-- R364, R606: a read of a job's record or descriptors by its unit: an image-backed tile reloads within the read (log 11), and any
other that fails ends or relaunches the job. -/
def Device.readHead (d : Device) (u : Nat) (r : VRun) (a n : Nat) : Option (List Byte) × Device :=
  let tiles := tilesOf a n
  let (ok, d) := tiles.foldl (fun (s : Bool × Device) t =>
    if !s.1 then s
    else if (s.2.rangeOf t).any (·.imageBacked) then
      match s.2.verifyRead t r.launch.ctx with
      | (true, d) => (true, d)
      | (false, d) => (false, d.failVision u .sealFail)
    else s.2.readTileVision u r t) (true, d)
  let d := (d.countFill (partTiles a n)).charge r.launch.ctx (tiles.foldl (fun u t => u.add (bytesUse t tileBytes)) {})
  (if ok then some (d.peek a n) else none, d)

/-- The checks of a job that stands in the unit, after its record has been read. -/
def Device.checkVision (d : Device) (u : Nat) (l : VLaunch) (v : Serve) (job : List Byte) : Device :=
  let run (descs : List Desc) : VRun := { launch := l, job := job, descs := descs, waitStart := d.now, satisfied := false }
  let d := d.modUnit u (fun x => { x with run := some (run []) })
  let n := field job 10 1
  let a := field job 4 6
  if !jobHeaderOk u job then d.failVision u .unsupported 1
  else if !inOneRegion a (32 * n) then d.accessFault l.ctx l.due.entry (firstOutside a)
  else
    match d.readHead u (run []) a (32 * n) with
    | (none, d) => d
    | (some db, d) =>
      let raws := (List.range n).map (fun i => (db.drop (32 * i)).take 32)
      let descs := (raws.map descOf).map (rebind (d.bindRowsOf l.due v []))
      match jobFails job raws descs with
      | some (order, st) => d.failVision u st order
      | none => d.modUnit u (fun x => { x with run := some (run descs) })

/-- R357 to R362: the first queued launch of a unit starts. -/
def Device.startVision (d : Device) (u : Nat) (l : VLaunch) (v : Serve) : Device :=
  let d := d.modUnit u (fun x => { x with queue := x.queue.drop 1 })
  let d := (d.modItn (fun i => { i with launches := satInc i.launches })).noteBegan l.due
  let d := if l.due.tile.isSome then d.repeated else d
  let d := d.modCtx l.ctx (fun c => { c with lastEntry := l.due.entry })
  let d := { d with toll := { d.toll with acct := vmod d.toll.acct l.ctx (fun a =>
    { a with launches := satInc a.launches }) } }
  if !inOneRegion l.addr 64 then d.refuseVision u l [] l.addr
  else
    let head : VRun := { launch := l, job := [], descs := [], waitStart := d.now, satisfied := false }
    match (d.modUnit u (fun x => { x with run := some head })).readHead u head l.addr 64 with
    | (none, d) => d
    | (some job, d) =>
      let d := d.modUnit u (fun x => { x with run := none })
      if (visionRecordAddr job).isNone then d.refuseVision u l job (field job 24 6)
      else d.checkVision u l v job

/-- Class of a vision launch. -/
def Device.visionBe (d : Device) (l : VLaunch) : Bool :=
  match d.serveOf l.due with
  | some v => v.entry.bestEffort
  | none => false

def execVisionJobStart (t : Nat) (unit : Fin 7) (s : State) : Host.Outcome State Fault Refusal :=
  .next (s.runI t fun d => d.whenRunning fun d =>
    let x := d.unit unit.val
    match x.queue with
    | [] => d
    | l :: _ =>
      match d.serveOf l.due with
      | none => d
      | some v =>
        d.guard (x.run.isNone && !x.stalled && !d.heldCtx l.ctx (d.visionBe l) && !d.pendingStream v && !d.pastDeadline l.due v)
          (fun d => d.startVision unit.val l v))

/-- R359: the wait of a job expires, once its limit has passed: a signal of that very instant still satisfies it. -/
def execVisionWaitExpiry (t : Nat) (unit : Fin 7) (s : State) : Host.Outcome State Fault Refusal :=
  .next (s.runI t fun d => d.whenRunning fun d =>
    match (d.unit unit.val).run with
    | none => d
    | some r =>
      let limit := field r.job 16 2
      d.guard (!r.satisfied && limit != 0 && decide (r.waitStart + 1000 * limit < d.now))
        (fun d => d.failVision unit.val .timeout))

/-! ### Charges, bands and the commit -/

/-- FALLBACK of Table 13.4: some row that the job reaches came from a fallback. -/
def Device.reachedFallback (d : Device) (r : VRun) (s n : Nat) : Bool :=
  let src := descAt r.descs r.job 32
  let mesh := descAt r.descs r.job 34
  let w := d.plainWindow mesh
  let ys := (meshRows r.job).flatMap (fun j => (List.range mesh.width).map (fun i => meshValue (mesh.code w 1 j i)))
  let (lo, hi) := remapReach (field r.job 3 1 = 1) src.height ys
  (d.slot s n).backRows.any (fun b => decide (b.1 ≤ hi) && decide (lo < b.1 + b.2))

/-- R572: the landing of a committed remap job bound to its stream's stripe. -/
def Device.landRemap (d : Device) (u : Nat) (r : VRun) (v : Serve) : Device :=
  if field r.job 2 1 = 2 ∧ v.bind = some .stripe then
    let s := v.streams.headD 0
    d.land (6 + u)
      { producer := s, slotIdx := 0, stream := s, layer := 0, status := .ok, fallback := d.reachedFallback r s v.slot,
        frame := v.slot, row0 := field r.job 36 2, rows := field r.job 38 2, entry := r.launch.due.entry, decl := 0xFFFF,
        desc := descAt r.descs r.job 33, at_ := d.now }
  else d

/-- DONE_FLAG of any kind of job. -/
def doneFlagAny (job : List Byte) : Option Nat := if 1023 < field job 18 2 then none else some (field job 18 2)

/-- R361: the commit event, its DONE signal, and what follows the end of the launch. -/
def Device.commitVision (d : Device) (u : Nat) (r : VRun) (pixels : Nat) : Device :=
  let l := r.launch
  let d := match visionRecordAddr r.job with
    | some a => d.write a (visionRecordBytes .ok u pixels (d.now / 1000) l.due.count)
    | none => d
  let d := (d.noteEnd l.due .ok).modUnit u (fun x =>
    { x with run := none, jobs := satInc x.jobs, pixels := x.pixels + pixels,
             lastStatus := word (statusCode .ok + l.ctx * 256) })
  let d := match doneFlagAny r.job with
    | some f => d.signalFlag f (field r.job 20 1)
    | none => d
  match d.serveOf l.due with
  | none => d
  | some v =>
    let d := d.landRemap u r v
    let d := d.countLate l.due v
    (d.releaseMarks l.due.entry).endRelaunch l.due .ok

/-- The meaning of a job command: the unit's job of that kind runs when nothing holds it. -/
def State.visionJob (s : State) (t u : Nat) (body : Device → VRun → Device) : Host.Outcome State Fault Refusal :=
  .next (s.runI t fun d => d.whenRunning fun d =>
    match (d.unit u).run with
    | none => d
    | some r =>
      d.guard (r.satisfied && !d.heldCtx r.launch.ctx (d.visionBe r.launch) &&
        !d.sealSt.reloads.any (fun x => x.2.1 = some (6 + u))) (fun d => body d r))

/-- A job whose reads all pass: charged, its outputs written by `f`, committed. -/
def Device.runVision (d : Device) (u : Nat) (r : VRun) (spans : List Span) (pixels : Nat) (f : Device → Device) : Device :=
  match d.readTilesVision u r (spanTiles 0 (spans.filter (fun s => !s.store))) with
  | (false, d) => d
  | (true, d) => (f (d.chargeVision r spans pixels)).commitVision u r pixels

/-- A flow job (R366 to R376); a pyramid job leaves free bytes in its work buffer. -/
def Device.flow (d : Device) (u : Nat) (r : VRun) : Device :=
  let outs := d.flowOuts r
  d.runVision u r (d.flowSpans r) r.flowPixels (fun x =>
    ((x.freeSpans 0 r.flowWork).putJobRows r r.flowRows (Device.putFlowRow r outs)).countFlow u outs.toList)

def execFlowJob (t : Nat) (unit : Fin 2) (s : State) : Host.Outcome State Fault Refusal :=
  s.visionJob t unit.val (fun d r => d.flow unit.val r)

/-- R380 to R384: the forward pass writes its sums to WORK and the backward pass reads them (log 16). -/
def Device.stereo (d : Device) (u : Nat) (r : VRun) : Device :=
  let t := descAt r.descs r.job
  match d.readTilesVision u r (spanTiles 0 r.stereoInputs) with
  | (false, d) => d
  | (true, d) =>
    let cost := d.stereoCosts r
    let bytes := r.stereoBytes cost
    let outs := r.stereoOuts cost
    let sums (store : Bool) : Span := { addr := (t 36).base, len := bytes.length, store := store }
    let d := d.write (t 36).base bytes
    match d.readTilesVision u r (spanTiles 0 [sums false]) with
    | (false, d) => d
    | (true, d) =>
      let pixels := (t 32).width * (t 32).height
      let d := d.chargeVision r (r.stereoInputs ++ sums true :: sums false ::
        ((t 34).allSpans true ++ (t 35).allSpans true)) pixels
      let d := (List.range (t 32).height).foldl (Device.putStereoRow r outs) d
      (d.countStereo u outs.toList).commitVision u r pixels

def execStereoJob (t : Nat) (s : State) : Host.Outcome State Fault Refusal := s.visionJob t 2 (fun d r => d.stereo 2 r)

def Device.remap (d : Device) (u : Nat) (r : VRun) : Device :=
  let sw := d.plainWindow (descAt r.descs r.job 32)
  let mw := d.plainWindow (descAt r.descs r.job 34)
  d.runVision u r (r.remapSpans mw) (field r.job 38 2 * (descAt r.descs r.job 33).width) (fun x =>
    (x.putJobRows r r.remapRows (Device.putRemapRow r (r.remapCode sw mw))).modUnit u (fun y =>
      { y with countA := satAdd y.countA (r.remapOutside mw) }))

def execRemapJob (t : Nat) (unit : Fin 4) (s : State) : Host.Outcome State Fault Refusal :=
  s.visionJob t (3 + unit.val) (fun d r => d.remap (3 + unit.val) r)

end Sys2Proof.Machine
end

