-- ==== Sys2Proof/Machine/Serai.lean ====
section
/-! DEFINITION. The Serai (chapter 13): which layer-0 landing is drained (R576), which layers are present (R348, R349,
R578), and the composition of rows (R574 to R579). -/
namespace Sys2Proof.Machine

/-! ### Layers -/

/-- R348: the declarations of a stream in order of composition, with their numbers. -/
def Device.layersOf (d : Device) (s : Nat) : List (Nat × LayerDecl) :=
  let all := ((List.range d.image.layers.length).zip d.image.layers).filter (fun p => p.2.stream = s)
  sortBy (fun (a b : Nat × LayerDecl) => decide (a.2.layer < b.2.layer) ||
    (a.2.layer = b.2.layer && decide (a.2.entry < b.2.entry))) all

/-- The formats of R574. -/
def seraiFmt (t : Desc) : Bool := [11, 12, 13].contains t.fmt && t.layout = 0 && t.comp = 0

/-- R574 for a layer's landing. -/
def LayerDecl.fits (y : LayerDecl) (t : Desc) : Bool :=
  seraiFmt t && t.channels = 4 && t.width = y.w && t.height = y.h

/-- The landing of declaration i for slot n. -/
def Device.layerLanding (d : Device) (i n : Nat) : Option Landing :=
  d.serai.landings.find? (fun l => l.producer = 32 + i && l.frame = n)

/-- R349: whether declaration i takes part in slot n, when composing of its region starts now; in lockstep mode timing
leaves no layer out (R578). -/
def Device.layerPresent (d : Device) (i n : Nat) (y : LayerDecl) : Bool :=
  match d.layerLanding i n with
  | some l => committed l.status && y.fits l.desc && (d.ctl.lockstep || decide (l.at_ < d.now))
  | none => false

/-- A layer left out of the slot (R578). -/
def Device.layerAbsent (d : Device) (s n i : Nat) : Device :=
  let d := d.modSerai (fun r => { r with absent := satInc r.absent })
  (d.modSlot s n (fun x => { x with layers := (i, false) :: x.layers.filter (fun p => p.1 ≠ i) })).degrade s n 7

/-- The layers whose region holds row y are settled as composing reaches them. -/
def Device.settleLayers (d : Device) (s n y : Nat) : Device :=
  (d.layersOf s).foldl (fun (d : Device) (p : Nat × LayerDecl) =>
    if decide (p.2.y ≤ y) && decide (y < p.2.y + p.2.h) && !(d.slot s n).layers.any (fun q => q.1 = p.1) then
      if d.layerPresent p.1 n p.2 then d.modSlot s n (fun x => { x with layers := (p.1, true) :: x.layers })
      else d.layerAbsent s n p.1
    else d) d

/-! ### Blends (Table 13.5) -/

def blendOne (mode d s a : Nat) : Nat :=
  match mode with
  | 0 => fpFma d (fpSub fpOne a) s
  | 1 => fpMul d s
  | 2 => fpAdd d s
  | _ => s

/-- Rows of an image that a composed row reads: row y of every plane. -/
def Desc.rowTiles (t : Desc) (y : Nat) : List Nat := spanTiles 0 (t.rowSpans false [y])

/-- The end of the addresses from `a` on that the Serai may read; 0 where it may not read `a`: unmapped, the seal region, or
the local window, which is an alias for engines only (R59, R733). -/
def seraiEnd (a : Nat) : Nat :=
  match regionOf a with
  | .dram => dramEnd
  | .well => wellBase + wellBytes
  | .scratch n => scratchBase n.val + scratchBytes
  | _ => 0

/-- A run that the Serai may not read. -/
def Span.strays (s : Span) : Bool := decide (s.len ≠ 0) && decide (seraiEnd s.addr < s.addr + s.len)

/-- R59: an access by the Serai is not performed; it acts for no context, so none is torn down (log 61). -/
def Device.seraiFault (d : Device) (addr : Nat) : Device :=
  { d with ctl := { d.ctl with faultAddr := addr, faultCtx := (Config.noContext addr).val } }

/-- A read by the Serai pass: its runs checked, then the seals of its tiles, charged to the device meter. -/
def Device.seraiRead (d : Device) (spans : List Span) : Bool × Device :=
  match spans.find? Span.strays with
  | some s => (false, d.seraiFault (max s.addr (seraiEnd s.addr)))
  | none =>
    let (ok, d) := d.verifyAll 0 (spanTiles 0 spans)
    let d := d.countFill (fillTiles 0 inWellOrDram spans)
    (ok, d.chargeDevice (spanUse 0 inWellOrDram spans))

/-- R577: a present layer over the pixels of row y. -/
def Device.blendLayer (d : Device) (y : Nat) (p : LayerDecl) (l : Landing) (row : List (List Word)) : List (List Word) :=
  let t := l.desc
  let w := d.plainWindow t
  let v (c x : Nat) : Nat := t.fp32 w c (y - p.y) (x - p.x)
  ((List.range row.length).zip row).map (fun q =>
    let x := q.1
    if p.x ≤ x ∧ x < p.x + p.w then
      ((List.range 3).zip q.2).map (fun c => word (blendOne p.blend c.2.toNat (v c.1 x) (v 3 x)))
    else q.2)

/-- The layers of a row in their order; one whose rows fail their seals (Table 14.2) or may not be read (R59) is left
out. -/
def Device.blendRow (d : Device) (s n y : Nat) (row : List (List Word)) : List (List Word) × Nat × Device :=
  (d.layersOf s).foldl (fun (acc : List (List Word) × Nat × Device) (p : Nat × LayerDecl) =>
    let (row, k, d) := acc
    if decide (p.2.y ≤ y) && decide (y < p.2.y + p.2.h) && (d.slot s n).layers.contains (p.1, true) then
      match d.layerLanding p.1 n with
      | none => (row, k, d)
      | some l =>
        match d.seraiRead (l.desc.rowSpans false [y - p.2.y]) with
        | (true, d) => (d.blendLayer y p.2 l row, k + p.2.w, d)
        | (false, d) => (row, k, d.layerAbsent s n p.1)
    else acc) (row, 0, d)

/-- R575: the layer landings whose region ends with row y are freed. -/
def Device.freeLayers (d : Device) (s n y : Nat) : Device :=
  (d.layersOf s).foldl (fun (d : Device) (p : Nat × LayerDecl) =>
    if y + 1 = p.2.y + p.2.h then
      match d.layerLanding p.1 n with
      | some l => d.freeLanding l
      | none => d
    else d) d

/-! ### Rows -/

/-- One row of a layer-0 landing: composed, unless its tiles fail or may not be read (R59, R577, R579). -/
def Device.composeRow (d : Device) (l : Landing) (y : Nat) : Device :=
  let t := l.desc
  match d.seraiRead (t.rowSpans false [y]) with
  | (false, d) => d
  | (true, d) =>
    let (s, n) := (l.stream, l.frame)
    let d := d.settleLayers s n y
    let w := d.plainWindow t
    let base := (List.range t.width).map (fun x => (List.range 3).map (fun c => word (t.fp32 w c y x)))
    let (row, k, d) := d.blendRow s n y base
    let d := d.modSerai (fun r =>
      { r with composed := r.composed ++ [(s, n, y, row)], pixelLayers := r.pixelLayers + t.width + k })
    d.freeLayers s n y

/-- R574 for a layer-0 landing. -/
def Device.landingFits (d : Device) (l : Landing) : Bool :=
  match d.profileOf l.stream with
  | some p => seraiFmt l.desc && l.desc.channels = 3 && l.desc.width = p.width && committed l.status
  | none => false

/-- R575: a landing is drained and its slot freed; its record is read from the Well first. -/
def Device.drain (d : Device) (l : Landing) : Device :=
  let d := d.modSerai (fun r => { r with lastProducer := l.producer })
  let (ok, d) := d.seraiRead [{ addr := d.image.landBase + (2 * l.producer + l.slotIdx.val) * 64, len := 64, store := false }]
  let d :=
    if ok && d.landingFits l then
      (List.range l.rows).foldl (fun d i => if l.row0 + i < l.desc.height then d.composeRow l (l.row0 + i) else d) d
    else d
  (d.freeLanding l).retireCheck

/-! ### The drain order (R576) -/

/-- The layer-0 landing drained next in free mode, and whether its instant was shared. -/
def Device.freeDrain (d : Device) : Option (Landing × Bool) :=
  let all := d.serai.landings.filter (fun l => l.layer = 0)
  match sortBy (fun (a b : Landing) => decide (a.at_ < b.at_) || (a.at_ = b.at_ && decide (a.producer < b.producer))) all with
  | [] => none
  | [l] => some (l, false)
  | l :: m :: _ => some (l, l.at_ = m.at_)

/-- The landing that a slot-table entry names. -/
def Device.entryLanding (d : Device) (x : SlotEntry) : Option Landing :=
  let all := d.serai.landings.filter (fun l => l.entry = x.entry)
  (all.find? (fun l => l.producer % 256 = x.req)).or
    (sortBy (fun (a b : Landing) => decide (a.producer < b.producer)) all).head?

/-- R576, R578: every layer whose region meets the rows of a layer-0 landing is settled, has its landing, or is void: its
entries in the table are all passed. -/
def Device.setLanded (d : Device) (entries : List SlotEntry) (l : Landing) : Bool :=
  (d.layersOf l.stream).all (fun p =>
    decide (p.2.y + p.2.h ≤ l.row0) || decide (l.row0 + l.rows ≤ p.2.y) ||
      (d.slot l.stream l.frame).layers.any (fun q => q.1 = p.1) || (d.layerLanding p.1 l.frame).isSome ||
      (entries.filter (fun x => x.entry = p.2.entry)).all d.slotVoid)

/-- Lockstep: entries from the present one, which has `served` handshakes behind it; void entries and landed layers are passed,
a landed layer 0 whose declared set is complete is the one drained, and an entry whose landing is missing is waited for. The
place reached and its handshakes come first; an entry drains COUNT landings (R484). -/
def Device.tableDrain (d : Device) (entries : List SlotEntry) : (fuel : Nat) → Nat → Nat → (Nat × Nat) × Option Landing
  | 0, pos, served => ((pos, served), none)
  | fuel + 1, pos, served =>
    match entries[pos]? with
    | none => ((pos, served), none)
    | some x =>
      let next := (pos + 1) % entries.length
      if d.slotVoid x then d.tableDrain entries fuel next 0
      else
        match d.entryLanding x with
        | none => ((pos, served), none)
        | some l =>
          if l.layer ≠ 0 then d.tableDrain entries fuel next 0
          else if !d.setLanded entries l then ((pos, served), none)
          else (if served + 1 < x.count then (pos, served + 1) else (next, 0), some l)

def execLayer0Drain (t : Nat) (s : State) : Host.Outcome State Fault Refusal :=
  .next (s.runI t fun d => d.whenRunning fun d =>
    match d.ctl.lockstep, d.slotTable .serai with
    | true, some tab =>
      let a := d.arb .serai
      let (at_, l) := d.tableDrain tab.entries (tab.entries.length + 1) a.tablePos a.served
      let d := d.setArb { a with tablePos := at_.1, served := at_.2 }
      match l with
      | some l => d.drain l
      | none => d
    | _, _ =>
      match d.freeDrain with
      | none => d
      | some (l, tie) =>
        let d := if tie && !d.ctl.lockstep then d.modSerai (fun r => { r with freeChoice := satInc r.freeChoice }) else d
        d.drain l)

end Sys2Proof.Machine
end

