-- ==== Sys2Proof/Machine/ScanOut.lean ====
section
/-! DEFINITION. Stage 5, the line ring and the emission FIFO (R560 to R563), sensor emulation (R581 to R585), line slots
and their packets (R556 to R559), URGENT (R565), underrun (R568) and the embedded-data lines (R586, R502 to R504). -/
namespace Sys2Proof.Machine

/-! ### Ports and the line buffer -/

/-- Port records of a port, the lower virtual channel first (R559). -/
def Device.portStreams (d : Device) (p : Nat) : List PortRec :=
  sortBy (fun (a b : PortRec) => decide (a.vc < b.vc)) (d.image.ports.filter (fun r => r.port = p))

def Profile.lineLen (p : Profile) : Nat := lineBytes p.dt p.width
/-- R560: the pitch P of a ring line. -/
def Profile.ringPitch (p : Profile) : Nat := roundUp p.lineLen 64

/-- R561: d, the image lines that the FIFO holds of each stream on the port. -/
def Device.fifoDepth (d : Device) (port : Nat) (p : Profile) : Nat :=
  min 4 (98304 / (max 1 (d.portStreams port).length * p.ringPitch))

/-- The next image line due of a stream, as slot and row, from its port's place. -/
def Scan.nextDue (x : Scan) (h : Nat) : Nat × Nat :=
  if x.nextLine ≤ 1 then (x.slot, 0) else if x.nextLine ≤ h then (x.slot, x.nextLine - 1) else (x.slot + 1, 0)

/-- How many image lines are due before row r of slot n; none when it has been emitted. -/
def Scan.ahead (x : Scan) (h n r : Nat) : Option Nat :=
  let (n0, r0) := x.nextDue h
  if n * h + r < n0 * h + r0 then none else some (n * h + r - (n0 * h + r0))

/-- The key of a line in the emission FIFO. -/
def lineKey (n r : Nat) : Nat := n * 65536 + r

/-- R24, R585: every image code of the slot is 0. -/
def Device.codeZero (d : Device) (s n : Nat) : Bool := (d.slot s n).causes.getLsbD 9

/-- A stream's ring address of sensor row r (R560). -/
def ringAddr (r : PortRec) (p : Profile) (row : Nat) : Nat := r.lbBase + row % p.lbLines * p.ringPitch

/-! ### Sensor emulation -/

/-- ZSCALE (R583). -/
def zScale : Nat := 0x37DDB3D7

/-- R582: the code of channel value c. -/
def sensorCode (p : Profile) (key c k x y : Nat) : Nat :=
  let span := fpOfInt ((p.white : Int) - p.black)
  let s := if fpLt 0 c then fpMin (fpMul c span) span else 0
  let v := fpFma s p.kShot.toNat p.read2.toNat
  let sigma := if fpLt 0 v then fpMul v (fpRsqrt v) else 0
  let r : Nat := mix64 key (0xF010 ||| k) (y * 65536 + x)
  let n : Nat := r % 65536 + r / 65536 % 65536 + r / 2 ^ 32 % 65536 + r / 2 ^ 48
  let z := fpMul (fpOfInt ((n : Int) - 131070)) zScale
  let q := fpAdd (fpFma sigma z s) (fpOfInt p.black)
  (toInt 0 ((2 ^ dtBits p.dt - 1 : Nat) : Int) .rne (fpNum q)).toNat

/-- R582: the key of a stream's slot. -/
def noiseKey (r : PortRec) (n : Nat) : Nat := (r.noiseSeed ^^^ BitVec.ofNat 64 (n % 2 ^ 32 * 2 ^ 32) ^^^ BitVec.ofNat 64 r.stream).toNat

/-- R581: the channel of a RAW pixel; W is a mix of the three. -/
def rawChannel (p : Profile) (x y : Nat) (px : List Word) : Nat :=
  let c (k : Nat) : Nat := (px.getD k 0).toNat
  match p.cfa.toNat / 2 ^ (2 * (2 * (y % 2) + x % 2)) % 4 with
  | 3 => fpFma 0x3F000000 (c 1) (fpFma 0x3E800000 (c 0) (fpMul 0x3E800000 (c 2)))
  | k => c k

/-- R584: the luma code, and a chroma component before the pair is averaged. -/
def lumaCode (r g b : Nat) : Nat := (54 * r + 183 * g + 19 * b + 128) / 256
def chromaCode (bits : Nat) (kr kg kb : Int) (r g b : Nat) : Nat :=
  let v : Int := (kr * r + kg * g + kb * b + 128) / 256 + (2 ^ (bits - 1) : Nat)
  (max 0 (min ((2 ^ bits - 1 : Nat) : Int) v)).toNat

/-- R581 to R585: a composed row as the channels of its packed line. -/
def emulateRow (r : PortRec) (p : Profile) (n y : Nat) (row : List (List Word)) : List (List Nat) :=
  let key := noiseKey r n
  let px (x : Nat) : List Word := row.getD x []
  let cols := List.range p.width
  if p.dt ≠ 0x24 ∧ !isYuv p.dt then
    [cols.map (fun x => sensorCode p key (rawChannel p x y (px x)) 0 x y)]
  else
    let ch (k : Nat) : List Nat := cols.map (fun x => sensorCode p key ((px x).getD k 0).toNat k x y)
    let (rr, gg, bb) := (ch 0, ch 1, ch 2)
    if p.dt = 0x24 then [rr, gg, bb]
    else
      let at_ (l : List Nat) (x : Nat) : Nat := l.getD x 0
      let b := dtBits p.dt
      let pair (kr kg kb : Int) : List Nat := (List.range (p.width / 2)).map (fun i =>
        let u (x : Nat) : Nat := chromaCode b kr kg kb (at_ rr x) (at_ gg x) (at_ bb x)
        (u (2 * i) + u (2 * i + 1) + 1) / 2)
      [cols.map (fun x => lumaCode (at_ rr x) (at_ gg x) (at_ bb x)), pair (-29) (-99) 128, pair 128 (-116) (-12)]

/-! ### Stage 5 and the ring -/

/-- R562: a composed row that stage 5 can take now: it has left already, or its place in the ring is free. -/
def Device.stage5Room (d : Device) (r : PortRec) (p : Profile) (n y : Nat) : Bool :=
  match (d.port r.port).ahead p.height n y with
  | none => true
  | some _ =>
    let (n0, r0) := (d.port r.port).nextDue p.height
    decide (y < p.lbLines) || (n = n0 && decide (y < r0 + p.lbLines))

/-- R568: the channels of a line whose every pixel is the last one emitted. -/
def repeatLine (dt w : Nat) (px : Option (List Nat)) : List Byte :=
  let c (k : Nat) : Nat := (px.getD []).getD k 0
  let chans :=
    if dt = 0x24 then [List.replicate w (c 0), List.replicate w (c 1), List.replicate w (c 2)]
    else if isYuv dt then [List.replicate w (c 0), List.replicate (w / 2) (c 1), List.replicate (w / 2) (c 2)]
    else [List.replicate w (c 0)]
  packLine dt w chans

/-- R562, R563, R569: one composed row through stage 5. -/
def Device.stage5 (d : Device) (r : PortRec) (p : Profile) (n y : Nat) (row : List (List Word)) : Device :=
  match (d.port r.port).ahead p.height n y with
  | none => d
  | some k =>
    -- R585: a slot under R24 has every image code 0
    let line := if d.codeZero r.stream n then repeatLine p.dt p.width none else packLine p.dt p.width (emulateRow r p n y row)
    let d := d.write (ringAddr r p y) line
    let d := d.chargeDevice (bytesUse (ringAddr r p y) line.length)
    let d := d.modSlot r.stream n (fun x => { x with rows := if x.rows.contains y then x.rows else y :: x.rows })
    if k < d.fifoDepth r.port p then
      d.modStrm r.stream (fun x => { x with fifo := (lineKey n y, line) :: x.fifo.filter (fun f => f.1 ≠ lineKey n y) })
    else d

def execStage5LineWrite (t : Nat) (stream : Fin 32) (s : State) : Host.Outcome State Fault Refusal :=
  .next (s.runI t fun d => d.whenRunning fun d =>
    match d.portRec stream.val, d.profileOf stream.val with
    | some r, some p =>
      match d.serai.composed.find? (fun c => c.1 = r.stream && d.stage5Room r p c.2.1 c.2.2.1) with
      | none => d
      | some c =>
        let d := d.modSerai (fun x => { x with composed := removeFirst (fun q => q = c) x.composed })
        if p.height ≤ c.2.2.1 then d else d.stage5 r p c.2.1 c.2.2.1 c.2.2.2
    | _, _ => d)

/-- The first complete line among the next d due that stands in the ring only (R562). -/
def Device.ringLine (d : Device) (r : PortRec) (p : Profile) : Option (Nat × Nat) :=
  let (n0, r0) := (d.port r.port).nextDue p.height
  ((List.range (d.fifoDepth r.port p)).map (fun k => (n0 + (r0 + k) / p.height, (r0 + k) % p.height))).find? (fun c =>
    (d.slot r.stream c.1).rows.contains c.2 && !(d.strm r.stream).fifo.any (fun f => f.1 = lineKey c.1 c.2))

/-- R562, R564: a line moved from the ring into the FIFO; one whose tiles fail is not complete (Table 14.2). -/
def Device.ringMove (d : Device) (r : PortRec) (p : Profile) (n y : Nat) : Device :=
  match d.readChecked 0 (ringAddr r p y) p.lineLen with
  | (some line, d) => d.modStrm r.stream (fun x => { x with fifo := (lineKey n y, line) :: x.fifo })
  | (none, d) => d.modSlot r.stream n (fun x => { x with rows := x.rows.filter (· ≠ y) })

def execRingToFifoMove (t : Nat) (stream : Fin 32) (s : State) : Host.Outcome State Fault Refusal :=
  .next (s.runI t fun d => d.whenRunning fun d =>
    match d.portRec stream.val, d.profileOf stream.val with
    | some r, some p =>
      match d.ringLine r p with
      | some (n, y) => d.ringMove r p n y
      | none => d
    | _, _ => d)

/-! ### Provenance and embedded data -/

/-- The anchor in use of a slot, with d(n), as known now (R286); none before the first accepted anchor (R504). -/
def Device.anchorInUse (d : Device) (s n : Nat) : Option (Nat × Anchor) :=
  if d.codeZero s n then none
  else
    let x := d.slot s n
    match x.dist, x.used with
    | some k, some a => some (k, a)
    | _, _ => (d.strm s).inUse.map (fun a => (d.distance s n, a))

def zeros32 : List Byte := List.replicate 32 0

/-- R502: I_n, at the end of slot n. -/
def Device.inputDigestOf (d : Device) (s n : Nat) : List Byte :=
  let x := d.slot s n
  let base := if x.cold then zeros32 else (d.strm s).inputDigest
  shake ([0x50, 0x5A, 0x49, 0x4E] ++ base ++ x.anchorDigest.getD zeros32 ++ x.guideDigest.getD zeros32 ++
    x.overlayDigest.getD zeros32)

/-- Table 11.4. -/
def Device.provMessage (d : Device) (r : PortRec) (n : Nat) (input : List Byte) : List Byte :=
  let x := d.slot r.stream n
  [0x50, 0x5A, 0x50, 0x52, 0x4F, 0x56, 0x30, 0x31] ++ d.image.programDigest ++ x.weights ++ input ++
    leBytes 8 d.ctl.runSeed.toNat ++ leBytes 8 r.noiseSeed.toNat ++
    leBytes 8 (((d.tuneRec r.stream).map (·.tseed.toNat)).getD 0) ++ leBytes 1 d.ctl.chips ++
    leBytes 1 (boolNat x.lockstep) ++ leBytes 1 r.stream ++ [0] ++ leBytes 4 n

/-- Table 11.5. -/
def Device.provRecord (d : Device) (s n : Nat) (digest : List Byte) : List Byte :=
  let x := d.slot s n
  let (dist, tag) := match d.anchorInUse s n with
    | some (k, a) => (k, a.tag)
    | none => (0, 0)
  let flags := boolNat (decide (0 < dist)) + 2 * boolNat (x.causes != 0) + 4 * boolNat x.lockstep +
    8 * boolNat (d.fcNonzero != 0) + 16 * boolNat d.ctl.replay + 32 * boolNat (d.slotBank s n != 0)
  digest ++ leBytes 4 n ++ leBytes 1 flags ++ leBytes 1 d.ctl.chips ++ leBytes 1 s ++ [0] ++ leBytes 4 tag ++
    leBytes 2 (min dist 65535) ++ [0, 0]

/-- Table 13.6, for the line slot that starts `emit` ns after T0. -/
def Device.embLine (d : Device) (r : PortRec) (p : Profile) (n line emit : Nat) (digest : List Byte) : List Byte :=
  let s := r.stream
  let x := d.slot s n
  let start := d.frameStart s n
  let pps := match d.ctl.pps with
    | some c => ((start : Int) - c) % (2 ^ 64 : Nat)
    | none => (2 ^ 64 - 1 : Nat)
  let (render, pose, user) := match d.anchorInUse s n with
    | some (_, a) => (a.renderTime, a.pose, a.user)
    | none => (List.replicate 8 0, List.replicate 28 0, List.replicate 64 0)
  leBytes 2 1 ++ leBytes 1 line ++ leBytes 1 r.port ++ leBytes 2 p.width ++ leBytes 2 p.height ++
    leBytes 8 (start - d.t0) ++ leBytes 8 emit ++ leBytes 8 pps.toNat ++ d.provRecord s n digest ++
    leBytes 4 x.causes.toNat ++ leBytes 4 (if line = 0 then 0 else x.underLines) ++ render ++ pose ++ leBytes 4 0 ++
    user ++ p.embStatic ++ List.replicate (p.embBytes - 256) 0

/-! ### Line slots -/

/-- The transmit lane of a stream port (R510). -/
def Device.portLane (d : Device) (p : Nat) : Option Nat :=
  (List.range 24).find? (fun n => (d.lanes.tx[n]?.map (·.role)) = some (BitVec.ofNat 8 (0x10 + p)))

/-- The port's lane is in RUN; in TRAIN it carries no frame (R518). -/
def Device.portRuns (d : Device) (p : Nat) : Bool := (d.portLane p).any d.laneRuns

/-- A packet joins those of the port's line slot, and leaves as one frame of the port's lane; none leaves while the lane trains. -/
def Device.send (d : Device) (p : Nat) (x : OutPacket) : Device :=
  match d.portLane p with
  | none => d
  | some n => d.guard (d.laneRuns n) fun d => (d.countFrame n).modPort p (fun y => { y with sent := y.sent ++ [x] })

def Device.sendShort (d : Device) (r : PortRec) (dt data : Nat) : Device :=
  d.send r.port (outShort r.vc dt data)

def Device.sendLong (d : Device) (r : PortRec) (dt : Nat) (bs : List Byte) : Device :=
  d.send r.port (outLong r.vc dt bs)

/-- R38, R587: slot n's frame start: the leading line, with what is in force then. Every slot of a stream that takes
no anchors comes before a first accepted anchor (R24, R504). -/
def Device.frameStartSlot (d : Device) (r : PortRec) (p : Profile) (n : Nat) : Device :=
  let s := r.stream
  let d := if d.hasSsb s then d else d.degrade s n 9
  let weights := (d.strm s).treg.weights
  let mode := d.ctl.lockstep
  let d := d.modSlot s n (fun x => { x with weights := weights, lockstep := mode })
  (d.sendShort r 0x00 n).sendLong r 0x12 (d.embLine r p n 0 (d.frameStart s n - d.t0) zeros32)

/-- Occupancy at the start of the line slot of row y: complete lines due later (R565). -/
def Device.occupancy (d : Device) (s n y h : Nat) : Nat :=
  if d.codeZero s n then h - 1 - y else ((d.slot s n).rows.filter (fun k => decide (y < k) && decide (k < h))).length

/-- R566: at the onset, the requests made for the stream's stripes count as expired. -/
def Device.expireRequests (d : Device) (s : Nat) : Device :=
  if d.ctl.lockstep then d
  else
    d.itn.waiting.foldl (fun (d : Device) x =>
      match d.serveOf x with
      | none => d
      | some v =>
        if v.bind = some .stripe ∧ v.streams.contains s then
          match d.itn.asked.find? (fun a => a.1 = x) with
          | some a => d.modEng a.2 (fun y => { y with request := y.request.map (fun q => (q.1, 0)) })
          | none => d
        else d) d

/-- R565: URGENT at an image line slot. -/
def Device.urgency (d : Device) (r : PortRec) (p : Profile) (n y : Nat) : Device :=
  let s := r.stream
  let occ := d.occupancy s n y p.height
  let low := (d.portStreams r.port).head?.map (·.stream) = some s
  let d := d.modPort r.port (fun x =>
    if low then { x with occA := if y = 0 then occ else min x.occA occ }
    else { x with occB := if y = 0 then occ else min x.occB occ })
  let lacking := decide (occ < p.height - 1 - y)
  if (d.strm s).urgent then
    if p.wmark ≤ occ ∨ !lacking then d.modStrm s (fun x => { x with urgent := false }) else d
  else if occ < p.wmark ∧ lacking then
    let free := !d.ctl.lockstep
    let d := d.modStrm s (fun x => { x with urgent := true })
    let d := d.modPort r.port (fun x =>
      { x with urgentCount := satInc x.urgentCount, freeChoice := if free then satInc x.freeChoice else x.freeChoice })
    d.expireRequests s
  else d

/-- R37, R570: an underrun of a line. -/
def Device.underrunLine (d : Device) (r : PortRec) (n : Nat) : Device :=
  let s := r.stream
  let first := !(d.slot s n).underRaised
  let d := d.modPort r.port (fun x => { x with underrun := satInc x.underrun, freeChoice := satInc x.freeChoice })
  let d := d.modSlot s n (fun x => { x with underLines := x.underLines + 1, underRaised := true })
  let d := if first then d.event .underrun s r.port n else d
  d.degrade s n 6

/-- The bytes of the image line of sensor row y, with what an incomplete line does. -/
def Device.imageLine (d : Device) (r : PortRec) (p : Profile) (n y : Nat) : List Byte × Device :=
  let s := r.stream
  if d.codeZero s n then (repeatLine p.dt p.width none, d)
  else
    let ready (d : Device) : Option (List Byte) := ((d.strm s).fifo.find? (fun f => f.1 = lineKey n y)).map (·.2)
    let d := if (ready d).isNone && (d.slot s n).rows.contains y then d.ringMove r p n y else d
    match ready d with
    | some line => (line, d)
    | none => (repeatLine p.dt p.width (d.strm s).lastPixel, d.underrunLine r n)

/-- Last pixel of a line, by channel. -/
def lastPixelOf (dt w : Nat) (bs : List Byte) : List Nat := (unpackLine dt w bs).map (fun c => c.getLastD 0)

/-- Line slots 1 to HEIGHT of Table 13.3. -/
def Device.imageSlot (d : Device) (r : PortRec) (p : Profile) (n j : Nat) : Device :=
  let s := r.stream
  let y := j - 1
  let (line, d) := d.imageLine r p n y
  let d := d.modStrm s (fun x =>
    { x with lastPixel := some (lastPixelOf p.dt p.width line), fifo := x.fifo.filter (fun f => f.1 ≠ lineKey n y) })
  let d := if p.lsLe then d.sendShort r 0x02 j else d
  let d := d.sendLong r p.dt line
  let d := if p.lsLe then d.sendShort r 0x03 j else d
  d.urgency r p n y

/-- A launch serves slot n of the stream, without a blocking shadow record. -/
def Device.serves (d : Device) (s n : Nat) (x : Due) : Bool :=
  !(d.shadowRecOf x).any (·.blocking) &&
    (match d.serveOf x with
      | some v => v.bind.isSome && v.streams.contains s && v.slot = n
      | none => false)

/-- A signature of such a launch or of its shadow. -/
def Device.servesSig (d : Device) (s n : Nat) (g : ShadowSig) : Bool := d.serves s n (Due.named g.index g.entry g.count d.now)

/-- R614, R616: the comparisons of the slot whose launches have both ended are made by its trailing line. -/
def Device.compareLeft (s n : Nat) : (fuel : Nat) → Device → Device
  | 0, d => d
  | fuel + 1, d =>
    match d.shadowPair (d.servesSig s n) with
    | none => d
    | some (p, q) => Device.compareLeft s n fuel (d.comparePair p q)

/-- R616: shadow launches of non-blocking records that serve the slot stop, running, kept or waiting, and no comparison is left to
be made: a shadow whose primary has not ended makes none. -/
def Device.stopShadows (d : Device) (s n : Nat) : Device :=
  let mine (d : Device) (x : Due) : Bool := x.shadow && d.serves s n x
  let d := (List.range 6).foldl (fun (d : Device) e =>
    match (d.eng e).run with
    | some r => if mine d r.due then d.endRun e .aborted else d
    | none => d) d
  let d := (List.range 64).foldl (fun (d : Device) c =>
    match (d.ctx c).kept with
    | some r =>
      if mine d r.due then (d.dropKept c).endLaunch ((((d.ctx c).keptOn).map (·.val)).getD 0) r .aborted false else d
    | none => d) d
  let d := (d.allDues.filter (mine d)).foldl (fun (d : Device) x =>
    let d := d.modItn (fun i => { i with waiting := i.waiting.filter (· ≠ x) })
    let d := { d with ctxs := d.ctxs.map (fun (c : Ctx) => { c with ready := c.ready.filter (· ≠ x) }) }
    d.skipShadow x) d
  d.modSealSt (fun y =>
    { y with
      shadowSkips := satAdd y.shadowSkips (y.sigs.filter (fun g => g.shadow && d.servesSig s n g)).length
      sigs := y.sigs.filter (fun g => !d.servesSig s n g) })

/-- R626, R627: what the slot counts as. -/
def Device.countSlot (d : Device) (s n : Nat) : Device :=
  let x := d.slot s n
  let excused := (x.causes &&& ~~~0x1A0F#13 &&& ~~~0x500#13) == 0 && (x.ownCauses &&& 0x500#13) == 0
  d.modSealSt (fun y =>
    { y with
      sched := y.sched + 1,
      excused := if x.causes != 0 && excused then y.excused + 1 else y.excused,
      lost := if x.causes != 0 && !excused then y.lost + 1 else y.lost })

/-- Line slot HEIGHT + 1: the trailing line, with everything that the slot settles. -/
def Device.trailSlot (d : Device) (r : PortRec) (p : Profile) (n emit : Nat) : Device :=
  let s := r.stream
  let low := (d.portStreams r.port).head?.map (·.stream) = some s
  let d := (Device.compareLeft s n d.sealSt.sigs.length d).stopShadows s n
  let d := d.modStrm s (fun x => { x with urgent := false })
  let input := d.inputDigestOf s n
  let digest := shake (d.provMessage r n input)
  let line := d.embLine r p n 1 emit digest
  let causes := (d.slot s n).causes
  let d := d.modSlot s n (fun x => { x with inputDigest := input })
  let d := d.modStrm s (fun x => { x with inputDigest := input, provFrame := n % 2 ^ 32, provDigest := digest })
  let bad := causes != 0
  let d := d.modPort r.port (fun x =>
    { x with
      lastCauses := word (causes.toNat + (if low then 0 else 2 ^ 31)),
      degradedA := if low && bad then satInc x.degradedA else x.degradedA,
      degradedB := if !low && bad then satInc x.degradedB else x.degradedB })
  (d.sendLong r 0x12 line).countSlot s n

/-- Line slot HEIGHT + 2: the Frame End; the slot has been emitted. -/
def Device.frameEndSlot (d : Device) (r : PortRec) (n : Nat) : Device :=
  let low := (d.portStreams r.port).head?.map (·.stream) = some r.stream
  let d := d.sendShort r 0x01 n
  d.modPort r.port (fun x =>
    if low then { x with framesA := satInc x.framesA, occMinA := x.occA }
    else { x with framesB := satInc x.framesB, occMinB := x.occB })

/-- Table 13.3 for one stream of the port. -/
def Device.lineSlot (d : Device) (r : PortRec) (p : Profile) (n j : Nat) : Device :=
  if j = 0 then d.frameStartSlot r p n
  else if j ≤ p.height then d.imageSlot r p n j
  else if j = p.height + 1 then d.trailSlot r p n (d.frameStart r.stream n - d.t0 + j * p.lineNs)
  else if j = p.height + 2 then d.frameEndSlot r n
  else d

/-- R556: the port's next line slot starts. -/
def Device.startLineSlot (d : Device) (port : Nat) (p : Profile) : Device :=
  let x := d.port port
  let (n, j) := (x.slot, x.nextLine)
  let d := d.modPort port (fun x =>
    { x with
      running := true, sent := [], nextLine := if j + 1 < p.frameLines then j + 1 else 0,
      slot := if j + 1 < p.frameLines then n else n + 1 })
  (d.portStreams port).foldl (fun (d : Device) r =>
    match d.profileOf r.stream with
    | some p => d.lineSlot r p n j
    | none => d) d

def execLineSlotStart (t : Nat) (port : Fin 16) (s : State) : Host.Outcome State Fault Refusal :=
  .next (s.runI t fun d => d.whenRunning fun d =>
    match (d.portStreams port.val).head? with
    | none => d
    | some r =>
      match d.profileOf r.stream with
      | none => d
      | some p =>
        let x := d.port port.val
        d.guard (decide (d.frameStart r.stream x.slot + x.nextLine * p.lineNs ≤ d.now))
          (fun d => d.startLineSlot port.val p))

end Sys2Proof.Machine
end

