-- ==== Sys2Proof/Machine/Integrity.lean ====
section
/-! DEFINITION. Reloads of image-backed tiles (R606), shadow comparisons (R614, R615), the scrubber (R617, R618), the
decay of error scores (R620) and rejoin (R623 to R625). -/
namespace Sys2Proof.Machine

/-! ### Reloads -/

/-- What the scrubber leaves failing (R618). -/
def Device.scrubFail (d : Device) (tile : Nat) : Device :=
  let d := d.modSealSt (fun x => { x with scrubFails := satInc x.scrubFails })
  (d.lastFail tile 1 0 true).event .sealFailure (domainOf tile) 1 (tile / tileBytes)

/-- The repeated read of a tile after its reload, for the unit that waits. -/
def Device.afterReload (d : Device) (tile : Nat) (unit : Option Nat) (scrub : Bool) : Device :=
  if scrub then
    if d.sealed tile then d.modSealSt (fun x => { x with scrubRepairs := satInc x.scrubRepairs }) else d.scrubFail tile
  else if d.passes tile then d
  else
    let d := d.failAgain tile
    match unit with
    | none => d
    | some k =>
      if k < 6 then
        match (d.eng k).run with
        | some r => d.lastRung k tile r
        | none => d
      else
        match (d.unit (k - 6)).run with
        | some r => d.lastRungVision (k - 6) tile r
        | none => d

/-- The reload of a tile from the NOR ends. -/
def execTileReloadComplete (t : Nat) (tile : Nat) (s : State) : Host.Outcome State Fault Refusal :=
  .next (s.runI t fun d => d.whenRunning fun d =>
    let mine := d.sealSt.reloads.filter (fun x => x.1 = tile)
    d.guard (!mine.isEmpty) fun d =>
      let d := d.modSealSt (fun x => { x with reloads := x.reloads.filter (fun y => y.1 ≠ tile) })
      let d := (d.reload tile).2
      (mine.foldl (fun (d : Device) x => d.afterReload tile x.2.1 x.2.2) d).retireCheck)

/-! ### Shadows -/

/-- R614: both launches have ended. -/
def execShadowComparison (t : Nat) (entry : Nat) (s : State) : Host.Outcome State Fault Refusal :=
  .next (s.runI t fun d => d.whenRunning fun d =>
    match d.shadowPair (fun x => x.entry = entry) with
    | none => d
    | some (p, q) => d.comparePair p q)

/-! ### The scrubber -/

/-- DRAM tiles of a pass (R617). -/
def scrubTiles : Nat := 786048

/-- The check of a tile by the scrubber. -/
def Device.scrubTile (d : Device) (tile : Nat) : Device :=
  let d := d.chargeDevice { dram := tileBytes }
  if d.passes tile then d
  else
    let d := ((d.failAgain tile).countFail (domainOf tile)).chargeDevice { dram := tileBytes }
    if d.sealed tile then d
    else if d.image.ranges.any (fun r => r.imageBacked && r.holds tile) then
      d.modSealSt (fun x => { x with reloads := x.reloads ++ [(tile, none, true)] })
    else d.scrubFail tile

/-- R617: check k falls at T0 + 760 × k µs. -/
def execScrubCheck (t : Nat) (s : State) : Host.Outcome State Fault Refusal :=
  .next (s.runI t fun d => d.whenRunning fun d =>
    let x := d.sealSt
    let k := x.scrubPasses * scrubTiles + x.scrubPos
    d.guard (x.scrubEn && decide (d.t0 + 760000 * k ≤ d.now)) fun d =>
      let d := d.scrubTile (x.scrubPos * tileBytes)
      d.modSealSt (fun y =>
        if x.scrubPos + 1 < scrubTiles then { y with scrubPos := x.scrubPos + 1 }
        else { y with scrubPos := 0, scrubPasses := satInc y.scrubPasses }))

/-! ### Scores and rejoin -/

/-- R620: every score falls by 1 at T0 + 60 × k s. -/
def execErrorScoreDecay (t : Nat) (s : State) : Host.Outcome State Fault Refusal :=
  .next (s.runI t fun d => d.whenRunning fun d =>
    d.guard (decide (d.t0 + 60000000000 * (d.sealSt.decays + 1) ≤ d.now)) fun d =>
      let d := d.modSealSt (fun x => { x with decays := x.decays + 1 })
      { d with ne := d.ne.map (fun x => { x with score := x.score - 1 }) })

/-- Order 1 of Table 14.6. -/
def Device.startRejoin (d : Device) (e : Nat) : Device :=
  let x := d.eng e
  if x.retired ∧ x.rejoin = .none then d.modEng e (fun y => { y with rejoin := .testing }) else d

/-- Order 4 of Table 14.6 and R596: the generation of the engine's scratch rises. -/
def Device.raiseGen (d : Device) (e : Nat) : Device := d.modSeal (fun r => { r with genScr := vmod r.genScr e (· + 1) })

/-- R623: the hold after a retirement or a failed rejoin has passed. -/
def execRejoinAutoStart (t : Nat) (engine : Fin 6) (s : State) : Host.Outcome State Fault Refusal :=
  .next (s.runI t fun d => d.whenRunning fun d =>
    let x := d.eng engine.val
    let ctl := d.sealSt.rejoinCtl.toNat
    d.guard (bit ctl 0 && x.retired && !x.asleep && decide (x.retiredAt + 1000000000 * bits ctl 15 8 ≤ d.now))
      (fun d => d.startRejoin engine.val))

/-- R623: a request; a sleeping engine rejoins only through a mode change (R622). -/
def Device.rejoinRequest (d : Device) (engines : BitVec 6) : Device :=
  (List.range 6).foldl (fun (d : Device) e =>
    if engines.getLsbD e && !(d.eng e).asleep then d.startRejoin e else d) d

def execSealRejoinReq (t : Nat) (engines : BitVec 6) (s : State) : Host.Outcome State Fault Refusal :=
  .next (s.runI t fun d => d.whenRunning fun d => d.rejoinRequest engines)

/-- Order 5 of Table 14.6: scratch zero-filled and sealed in its new generation. -/
def Device.refillScratch (d : Device) (e : Nat) : Device :=
  let lo := scratchBase e
  let own (a : Nat) : Bool := decide (lo ≤ a) && decide (a < lo + scratchBytes)
  let gen := d.sealRegs.gen (2 + e)
  { d with store := { d.store with
    mem := d.store.mem.filter (fun c => !own c.1), seals := d.store.seals.filter (fun c => !own c.1),
    fillScr := vset d.store.fillScr e gen, glitches := d.store.glitches.filter (fun a => !own a) } }

/-- R625: soft repair covers what BIST found, and logic is sound. -/
def sparesCover (f : RejoinFacts) : Bool :=
  decide (f.bankRows ≤ 48) && decide (f.weightRows ≤ 16) && decide (f.accRows ≤ 16) && f.logicOk

/-- Order 5 of Table 14.6: no mismatch, with the write signature that the image expects. -/
def Device.selfTestOk (d : Device) (f : RejoinFacts) : Bool :=
  f.testsOk && d.image.selfTest.all (fun p => f.signature = Config.selfTestExpected (d.peek p.1 p.2))

/-- R624, R625: the end of a rejoin's tests. What spares do not cover ends the rejoin before order 4, a mismatch at order 5 after
it. -/
def execRejoinComplete (t : Nat) (engine : Fin 6) (facts : RejoinFacts) (s : State) : Host.Outcome State Fault Refusal :=
  .next (s.runI t fun d => d.whenRunning fun d =>
    let e := engine.val
    d.guard ((d.eng e).rejoin = .testing) fun d =>
      let fail (d : Device) : Device :=
        (d.modEng e (fun x => { x with rejoin := .none, retiredAt := d.now })).modSealSt
          (fun x => { x with rejoinFails := satInc x.rejoinFails })
      if !sparesCover facts then fail d
      else if d.selfTestOk facts then
        ((d.raiseGen e).refillScratch e).modEng e (fun x => { x with rejoin := .awaiting d.now, acc := [] })
      else fail (d.raiseGen e))

end Sys2Proof.Machine
end

