-- ==== Sys2Proof/Machine/ImageChecks.lean ====
section
/-! DEFINITION. The CONFIG_REJECTED rules that concern more than one section (order 10 of Table 15.8): R63, R346, R347, R386,
R397, R435, R436, R438, R448, R481, R483, R509, R510, R525, R553, R557, R558, R574, R611, R641, R730. -/
namespace Sys2Proof.Machine

/-- The directory index of a section; 0x3FF for none. -/
def sectAt (dir : List SectEntry) (type index : Nat) : Nat :=
  (dir.findIdx? (fun x => x.type = type && x.index = index)).getD 0x3FF

/-- The section that is loaded over an address. -/
def sectOver (dir : List SectEntry) (a : Nat) : Nat :=
  (dir.findIdx? (fun x => x.loaded && decide (x.dest ≤ a) && decide (a < x.dest + x.bytes))).getD 0x3FF

/-- The lowest directory index among failed checks. -/
def firstOffender (l : List (Nat × Bool)) : Option Nat :=
  (l.filter (fun x => !x.2)).foldl (fun best x => match best with
    | none => some x.1
    | some b => some (min b x.1)) none

/-! ### Regions (R63, R397, R435) -/

/-- What names a region. -/
inductive RegionKind where
  /-- Named by the image and allowed to share bytes with others of its kind. -/
  | plain
  /-- A region of the Well. -/
  | well
  /-- A raster record's bin regions, within the bin partition. -/
  | bin
  /-- The bin partition, at the Well's base (log 13). -/
  | binPart
  /-- A context's save area; the areas of one context in several itineraries are one. -/
  | save (ctx : Nat)
  | tuning
  deriving DecidableEq, Repr

structure ImgRegion where
  sect : Nat
  kind : RegionKind
  span : Nat × Nat
  deriving DecidableEq, Repr

/-- Kinds of regions that must not share a byte. -/
def mayNotMeet (a b : RegionKind) : Bool :=
  match a, b with
  | .save c, .save k => c != k
  | .save _, _ => true
  | _, .save _ => true
  | .tuning, _ => true
  | _, .tuning => true
  | .bin, .binPart => false
  | .binPart, .bin => false
  | .binPart, _ => true
  | _, .binPart => true
  | .bin, .bin => true
  | .bin, .well => true
  | .well, .bin => true
  | .well, .well => true
  | _, _ => false

def conflicts (a b : ImgRegion) : Bool :=
  mayNotMeet a.kind b.kind && a.span.2 != 0 && b.span.2 != 0 && regionsMeet a.span b.span

/-- Every region clear of those before it and after it: one verdict a region. -/
def regionChecks : List ImgRegion → List ImgRegion → List (Nat × Bool)
  | _, [] => []
  | before, a :: after =>
    (a.sect, !(before.any (conflicts a)) && !(after.any (conflicts a))) :: regionChecks (a :: before) after

/-- The bank-0 bytes of a stream's package. -/
def Device.bankBytes (d : Device) (s : Nat) : Nat := ((d.package (d.ssbModel s)).map Package.bank0Bytes).getD 0

/-- The raster viewport of a stream. -/
def Device.rasterDims (d : Device) (s : Nat) : Option (Nat × Nat) :=
  (d.image.rasters.find? (fun g => g.stream = s && g.kind = 0)).map (fun g => (g.width, g.height))

/-- Its pixels, and the bytes of its LMOT buffer (R289); the spec gives the LOUT and AFEAT buffers no size: they count as one
FP16 channel of the viewport and as 64 bytes (log 18). -/
def Device.rasterPixels (d : Device) (s : Nat) : Nat := ((d.rasterDims s).map (fun g => g.1 * g.2)).getD 0
def Device.lmotBytes (d : Device) (s : Nat) : Nat := ((d.rasterDims s).map (fun g => 4 * (ceilDiv g.1 4 * ceilDiv g.2 4))).getD 0

/-- The regions that the image names outside the tuning records. -/
def Device.plainRegions (d : Device) (dir : List SectEntry) : List ImgRegion :=
  let at_ := sectAt dir
  let image := d.image
  let mem (a : Nat) : RegionKind := if wellBase ≤ a then .well else .plain
  image.loads.map (fun x => { sect := x.1, kind := mem x.2.1, span := x.2 }) ++
    (image.rasters.map (fun r => { sect := at_ 0x31 0, kind := .bin, span := (wellBase + 256 * r.binBase, 512 * r.quota) })) ++
    [{ sect := 0x3FF, kind := .well, span := (image.landBase, 65536) },
      { sect := 0x3FF, kind := .plain, span := (image.recBase, image.recBytes) }] ++
    (image.itins.flatMap (fun i => i.ctxs.map (fun c =>
      { sect := at_ 0x10 i.index, kind := .save c.ctx, span := c.saveArea }))) ++
    (image.rasters.flatMap (fun r => r.regions.map (fun g => { sect := at_ 0x31 0, kind := .plain, span := g }))) ++
    (image.inputs.flatMap (fun r =>
      r.rxBase.toList.map (fun a => { sect := at_ 0x36 0, kind := .well, span := (a, r.rxBytes) }))) ++
    (image.ports.filterMap (fun r => (image.profiles.find? (fun p => p.profile = r.profile)).map (fun p =>
      { sect := at_ 0x35 0, kind := .plain, span := (r.lbBase, roundUp (p.lbLines * p.ringPitch) tileBytes) }))) ++
    (image.ssbs.flatMap (fun x =>
      let b := d.peek x.2 256
      let cap := field b 200 4
      let st := field b 204 4
      let px := d.rasterPixels x.1
      let lmot := d.lmotBytes x.1
      [(field b 36 6, cap), (field b 42 6, cap), (field b 72 6, st), (field b 80 6, st), (field b 104 6, 64), (field b 112 6, 64),
        (field b 136 6, 2 * px), (field b 144 6, 2 * px), (field b 168 6, lmot), (field b 176 6, lmot)].map (fun g =>
        { sect := at_ 0x30 0, kind := .plain, span := g }))) ++
    (image.inputs.filterMap (fun r =>
      if r.refBase = 0 then none
      else (d.rasterDims r.stream).map (fun g =>
        { sect := at_ 0x36 0, kind := .plain, span := (r.refBase, inputBytes (inputPlanes 0x24 0 g.1 g.2)) })))

/-- The bin partition, which every other region keeps out of (Table 2.7). -/
def Device.binRegion (d : Device) : ImgRegion := { sect := 0x3FF, kind := .binPart, span := (wellBase, d.well.binSize * 2 ^ 20) }

/-- The bytes of a hold buffer: the unpacked anchor planes and the LMOT buffer, each from a tile boundary (log 18). -/
def Device.holdBytes (d : Device) (s : Nat) : Nat :=
  match d.inputRec s with
  | some i => roundUp (inputBytes (inputPlanes i.format i.channels i.width i.height) - 16384) tileBytes +
      roundUp (d.lmotBytes s) tileBytes
  | none => tileBytes

def Device.tuneSpans (d : Device) (r : TuneRec) : List (Nat × Nat) := r.regions (d.bankBytes r.stream) (d.holdBytes r.stream)

def Device.tuneRegions (d : Device) (dir : List SectEntry) : List ImgRegion :=
  d.image.tunes.flatMap (fun r => (d.tuneSpans r).map (fun g => { sect := sectAt dir 0x33 0, kind := .tuning, span := g }))

/-- R63: the Well's regions fit it. -/
def Device.wellFits (d : Device) : Bool :=
  d.image.itins.all (fun i =>
    decide (d.well.binSize * 2 ^ 20 + 65536 + (i.parts.map (fun p => p.wayTiles * tileBytes)).foldl (· + ·) 0 ≤ wellBytes))

/-! ### Itineraries -/

/-- The streams that an itinerary's entry is bound to. -/
def boundStreams (i : Itin) (e : Entry) : List Nat :=
  if e.bind = 0 then []
  else if e.convoy then ((i.convoys.find? (fun c => c.convoy = e.stream)).map (·.streams)).getD [] else [e.stream]

/-- R435, R438: bound entries name streams with a block and a port record, and j is below 2 × S. -/
def Device.bindsOk (d : Device) (i : Itin) : Bool :=
  i.entries.all (fun e =>
    (boundStreams i e).all (fun s =>
      d.hasSsb s && (d.portRec s).isSome && d.period s != 0 && decide (e.slot < 2 * (i.cycleNs / d.period s))))

/-- R436. -/
def Device.gridOk (d : Device) (i : Itin) : Bool :=
  d.image.ports.all (fun r => d.period r.stream != 0 && i.cycleNs % d.period r.stream = 0) &&
    d.image.ssbs.all (fun x => (d.portRec x.1).isNone || i.cycleNs % (d.ssbG x.1 * d.period x.1) = 0)

/-- R448. -/
def Device.convoysOk (d : Device) (i : Itin) : Bool :=
  let raster (s : Nat) : Option (Nat × Nat) :=
    (d.image.rasters.find? (fun r => r.stream = s && r.kind = 0)).map (fun r => (r.width, r.height))
  i.convoys.all (fun c =>
    match c.streams with
    | [] => true
    | a :: l => l.all (fun s =>
        d.hasSsb s && d.hasSsb a && d.ssbModel s = d.ssbModel a && d.ssbG s = d.ssbG a && d.ssbPhase s = d.ssbPhase a &&
          d.period s = d.period a && raster s = raster a))

def TuneRec.entries (r : TuneRec) : List Nat := [r.eHold, r.eCut, r.eTrain, r.eExport, r.eEval]

/-- R398, R435: the contexts with TUNING set are the tuning contexts, and the tuning entries have their classes. -/
def Device.tuningContexts (d : Device) (i : Itin) : Bool :=
  let ctxOf (e : Nat) : Option Nat := (i.entries[e]?).map (·.ctx)
  let used := d.image.tunes.flatMap (fun r => r.entries.map ctxOf)
  let classOk (r : TuneRec) : Bool := (r.entries.zip [false, true, true, true, true]).all (fun x =>
    (i.entries[x.1]?).any (fun e => e.bestEffort = x.2))
  let same (r : TuneRec) : Bool := r.entries.all (fun e => ctxOf e = ctxOf r.eHold)
  d.image.tunes.all (fun r => classOk r && same r) &&
    i.ctxs.all (fun c => c.tuning = used.contains (some c.ctx))

/-- R483. -/
def Device.tablesOk (d : Device) (i : Itin) : Bool :=
  match d.image.slotTables.find? (fun x => x.1 = i.index) with
  | none => !i.lockstep
  | some (_, l) =>
    (!i.lockstep || slotComplete l) &&
      l.all (fun t => t.entries.all (fun e => e.entry = 0xFFFF || decide (e.entry < i.entries.length)))

/-! ### Streams -/

/-- R730 against the packages and the input records. -/
def Device.ssbsOk (d : Device) : Bool :=
  d.image.ssbs.all (fun x =>
    let s := x.1
    match d.package (d.ssbModel s) with
    | none => false
    | some p => d.ssbW s = p.w && d.ssbT s = p.t && d.canHold s p && decide (p.w * p.t ≤ 32768))

/-- R397: a package that a tuning stream runs serves no other stream. -/
def Device.packageAlone (d : Device) (s package : Nat) : Bool :=
  d.image.ssbs.all (fun x => x.1 = s || d.ssbModel x.1 ≠ package ||
    !((d.tuneRec s).isSome || (d.tuneRec x.1).isSome))

/-- R397 against the rest of the image. -/
def Device.tunesOk (d : Device) : Bool :=
  let starts := (d.image.itins.find? (fun i => i.index = 0)).any (·.lockstep)
  d.image.tunes.all (fun r =>
    d.hasSsb r.stream && !d.isResim r.stream && d.packageAlone r.stream (d.ssbModel r.stream) &&
      !(d.image.certification && r.enable) && (r.policy = 0 || !starts) && (d.tuneSpans r).all (fun g => inDram g.1 g.2))

/-- R525. -/
def Device.inputsOk (d : Device) : Bool :=
  d.image.inputs.all (fun r =>
    d.hasSsb r.stream && (d.lanes.rx[r.lane]?.map (·.role)) = some 0x20 &&
      (r.refBase = 0 || (d.tuneRec r.stream).isSome) && tileAligned r.refBase)

/-- R303: bin regions lie in the bin partition; R346: an overlay record's viewport is its stream's sensor size. -/
def Device.rastersOk (d : Device) : Bool :=
  d.image.rasters.all (fun r => decide (r.binBase + 2 * r.quota ≤ d.well.binSize * 4096)) &&
    d.image.rasters.all (fun r => r.kind = 0 ||
      (d.profileOf r.stream).all (fun p => r.width = p.width && r.height = p.height))

/-- R347: a layer's region lies in its stream's sensor image. -/
def Device.layersOk (d : Device) : Bool :=
  d.image.layers.all (fun y =>
    match d.profileOf y.stream with
    | some p => decide (y.x + y.w ≤ p.width) && decide (y.y + y.h ≤ p.height)
    | none => false)

/-! ### Ports (R553, R554, R557, R558, R510) -/

/-- Blocks of a long packet and of the packets of an image line. -/
def longBlocks (n : Nat) : Nat := 2 + n / 8
def Profile.lineBlocks (p : Profile) : Nat := longBlocks p.lineLen + (if p.lsLe then 2 else 0)

/-- R557 for the streams of one port. -/
def slotBlocksOk (ps : List Profile) : Bool :=
  match ps with
  | [] => true
  | a :: _ =>
    let limit := a.lineNs * 2569 / 5445 - 1
    let sum (f : Profile → Nat) : Nat := (ps.map f).foldl (· + ·) 0
    decide (sum (fun p => 1 + longBlocks p.embBytes) ≤ limit) && decide (sum Profile.lineBlocks ≤ limit)

/-- R558 for the port records of one port. -/
def Device.stereoOk (d : Device) (rs : List PortRec) : Bool :=
  match rs with
  | [a, b] =>
    match d.profileOf a.stream, d.profileOf b.stream with
    | some p, some q => a.vc ≠ b.vc && p.lineNs = q.lineNs && p.frameLines = q.frameLines && p.height = q.height && a.fsOffset = b.fsOffset
    | _, _ => false
  | l => decide (l.length ≤ 1)

def Device.portsOk (d : Device) : Bool :=
  d.image.ports.all (fun r =>
    match d.profileOf r.stream with
    | none => false
    | some p =>
      let period := p.frameLines * p.lineNs
      let lead (us : Nat) : Bool := decide (100 ≤ us ∧ us * 1000 ≤ period)
      decide (r.fsOffset < period) && lead r.laUs && lead r.lgUs &&
        inDram r.lbBase (roundUp (p.lbLines * p.ringPitch) tileBytes)) &&
    (List.range 16).all (fun n =>
      let rs := d.image.ports.filter (fun r => r.port = n)
      d.stereoOk rs && slotBlocksOk (rs.filterMap (fun r => d.profileOf r.stream)) &&
        (rs.isEmpty || (d.lanes.tx.toList.filter (fun x => x.role = BitVec.ofNat 8 (0x10 + n))).length = 1))

/-! ### Integrity -/

/-- R611 for one record. -/
def Device.shadowRecOk (d : Device) (r : ShadowRec) : Bool :=
  match d.itinOf r.index with
  | none => false
  | some i =>
    match i.entries[r.entry]? with
    | none => false
    | some e =>
      match i.ctxs.find? (fun c => c.ctx = e.ctx) with
      | none => false
      | some c =>
        e.target = 0 && !e.units.getLsbD r.engine &&
          ((i.parts.find? (fun p => p.part = c.part)).any (fun p => p.engines.getLsbD r.engine)) &&
          ((i.launches[e.launch]?).any (fun l => l.credits = 0)) && (if r.blocking then c.tuning else e.bind = 2)

/-! ### Producers of the Serai (R574) -/

/-- The descriptors of a list or job in memory. -/
def Device.descsAt (d : Device) (a count : Nat) : List Desc :=
  (List.range count).map (fun i => descOf (d.peek (a + 32 * i) 32))

/-- A remap job of an entry bound to a stripe. -/
def Device.remapOutOk (d : Device) (e : Entry) (l : LaunchDesc) : Bool :=
  let job := d.peek l.addr 64
  if e.target ≠ 1 ∨ e.units.toNat < 3 ∨ e.bind ≠ 2 ∨ field job 2 1 ≠ 2 then true
  else
    let out := descAt (d.descsAt (field job 4 6) (field job 10 1)) job 33
    match d.profileOf e.stream with
    | some p => seraiFmt out && out.channels = 3 && out.width = p.width
    | none => true

/-- The lists of a compositor entry that declarations name. -/
def Device.layerOutOk (d : Device) (n : Nat) (l : LaunchDesc) : Bool :=
  let hdr := d.peek l.addr 64
  d.image.layers.all (fun y =>
    y.entry ≠ n || ((d.descsAt (field hdr 8 6) (field hdr 4 2)).filter (fun t => t.tensorId = y.tensor)).all y.fits)

def Device.producersOk (d : Device) (dir : List SectEntry) : List (Nat × Bool) :=
  d.image.itins.flatMap (fun i =>
    ((List.range i.entries.length).zip i.entries).filterMap (fun x =>
      match i.launches[x.2.launch]? with
      | none => none
      | some l =>
        let comp := (i.ctxs.find? (fun c => c.ctx = x.2.ctx)).any (·.compositor)
        if x.2.target = 1 then some (sectOver dir l.addr, d.remapOutOk x.2 l)
        else if comp then some (sectOver dir l.addr, d.layerOutOk x.1 l)
        else none))

/-! ### All of them -/

/-- Each rule with the section that breaks it. -/
def Device.imageChecks (d : Device) (dir : List SectEntry) : List (Nat × Bool) :=
  let at_ := sectAt dir
  let zero := d.image.itins.find? (fun i => i.index = 0)
  let same (i : Itin) : Bool := zero.any (fun z => z.cycleNs = i.cycleNs && z.lockstep = i.lockstep)
  d.image.itins.flatMap (fun i =>
      [(at_ 0x10 i.index, same i && d.bindsOk i && d.gridOk i && d.convoysOk i && d.tuningContexts i),
        (if d.image.slotTables.any (fun x => x.1 = i.index) then at_ 0x11 i.index else at_ 0x10 i.index, d.tablesOk i)]) ++
    [(at_ 0x30 0, d.ssbsOk), (at_ 0x31 0, d.rastersOk), (at_ 0x32 0, d.layersOk), (at_ 0x33 0, d.tunesOk),
      (at_ 0x35 0, d.portsOk), (at_ 0x36 0, d.inputsOk), (at_ 0x3A 0, d.image.shadows.all d.shadowRecOk),
      (0x3FF, d.wellFits), (0x3FF, !(d.image.record && d.image.replay))] ++
    regionChecks [d.binRegion] (d.plainRegions dir ++ d.tuneRegions dir) ++ d.producersOk dir

end Sys2Proof.Machine
end

