-- ==== Sys2Proof/Machine/Copy.lean ====
section
/-! DEFINITION. COPY within the device (R169, R738) and the fixed-rate forms FR2 and FR4 (R246 to R256). -/
namespace Sys2Proof.Machine

/-! ### FR2 and FR4 -/

/-- R249: a sample's code as the codec takes it, and back. -/
def frMap (fmt code : Nat) : Nat := if fmt = 0 then code ^^^ 0x80 else code

/-- The 64 samples of a block, row by row: sample (r, c) is element 8r + c. -/
abbrev FrBlock := List Nat

/-- R250: s of an FR2 block of range `m`. -/
def fr2Shift (m : Nat) : Nat := ((List.range 6).find? (fun s => decide (m ≤ 15 * 2 ^ s))).getD 5

/-- R250, R252: the 256-bit FR2 block. -/
def fr2Encode (u : FrBlock) : Nat :=
  let base := u.foldl min 255
  let s := fr2Shift (u.foldl max 0 - base)
  (List.range 64).foldl (fun v i =>
    let (r, c) := (i / 8, i % 8)
    let d := u.getD i 0 - base
    if r = 3 ∨ r = 7 then
      let q := min 7 ((d + 2 ^ s) / 2 ^ (s + 1))
      v + q * 2 ^ ((if r = 3 then 112 else 232) + 3 * c)
    else
      let q := min 15 ((d + (if s = 0 then 0 else 2 ^ (s - 1))) / 2 ^ s)
      v + q * 2 ^ (if r < 3 then 16 + 32 * r + 4 * c else 136 + 32 * (r - 4) + 4 * c))
    (base + s * 256)

/-- R251: sample i of an FR2 block. -/
def fr2Decode (v i : Nat) : Nat :=
  let (r, c) := (i / 8, i % 8)
  let base := v % 256
  let s := bits v 10 8
  if r = 3 ∨ r = 7 then
    let q := v / 2 ^ ((if r = 3 then 112 else 232) + 3 * c) % 8
    min 255 (base + q * 2 ^ (s + 1))
  else
    let q := v / 2 ^ (if r < 3 then 16 + 32 * r + 4 * c else 136 + 32 * (r - 4) + 4 * c) % 16
    min 255 (base + q * 2 ^ s)

/-- R253, R254: the 128-bit FR4 block. -/
def fr4Encode (u : FrBlock) : Nat :=
  let mean (i : Nat) : Nat :=
    let (r, c) := (2 * (i / 4), 2 * (i % 4))
    (u.getD (8 * r + c) 0 + u.getD (8 * r + c + 1) 0 + u.getD (8 * r + c + 8) 0 + u.getD (8 * r + c + 9) 0 + 2) / 4
  let ms := (List.range 16).map mean
  let base := ms.foldl min 255
  let s := if ms.foldl max 0 - base ≤ 127 then 0 else 1
  (List.range 16).foldl (fun v i => v + min 127 ((ms.getD i 0 - base + s) / 2 ^ s) * 2 ^ (16 + 7 * i)) (base + s * 256)

/-- R253: sample i of an FR4 block. -/
def fr4Decode (v i : Nat) : Nat :=
  let quad := 4 * (i / 16) + i % 8 / 2
  min 255 (v % 256 + v / 2 ^ (16 + 7 * quad) % 128 * 2 ^ bits v 10 8)

/-- Bytes of a block. -/
def frBytes (comp : Nat) : Nat := if comp = 1 then 32 else 16

def frEncode (comp : Nat) (u : FrBlock) : Nat := if comp = 1 then fr2Encode u else fr4Encode u
def frDecode (comp v i : Nat) : Nat := if comp = 1 then fr2Decode v i else fr4Decode v i

/-- R247: the address of block (by, bx) of plane c. -/
def Desc.blockAddr (t : Desc) (c b x : Nat) : Nat :=
  t.base + c * t.planeStride + b * t.rowPitch + x * frBytes t.comp

/-- R247, R251, R253: the code of sample (c, y, x) of a compressed tensor. -/
def Desc.frCode (t : Desc) (w : List (Nat × Byte)) (c y x : Nat) : Nat :=
  let a := t.blockAddr c (y / 8) (x / 8)
  let v := leNat ((List.range (frBytes t.comp)).map (fun i => memGet w (a + i)))
  frMap t.fmt (frDecode t.comp v (8 * (y % 8) + x % 8))

/-- Bytes from BASE that a compressed tensor spans. -/
def Desc.frSpan (t : Desc) : Nat :=
  (t.channels - 1) * t.planeStride + (ceilDiv t.height 8 - 1) * t.rowPitch + ceilDiv t.width 8 * frBytes t.comp

/-! ### The region -/

/-- R738. -/
structure Region3 where
  x0 : Nat
  y0 : Nat
  c0 : Nat
  w : Nat
  h : Nat
  c : Nat
  deriving DecidableEq, Repr

def regionOf3 (cmd : List Byte) (src : Desc) : Region3 :=
  let f := field cmd
  { x0 := f 20 2, y0 := f 22 2, c0 := f 24 2, w := copyExtent (f 26 2) (f 20 2) src.width,
    h := copyExtent (f 28 2) (f 22 2) src.height, c := copyExtent (f 30 2) (f 24 2) src.channels }

/-- The bytes of elements x0 … x0 + n − 1 of a row of the channel block or plane that holds channel c. -/
def Desc.runSpan (t : Desc) (store : Bool) (p y i0 n : Nat) : Span :=
  let (a, len) := putRange t p y i0 n
  { addr := a, len := len, store := store }

/-- Runs of the elements of a region of an uncompressed tensor, scales included. -/
def Desc.regionSpans (t : Desc) (store : Bool) (g : Region3) : List Span :=
  let p0 := g.c0 / t.cb
  let planes := (List.range (ceilDiv (g.c0 + g.c) t.cb - p0)).map (p0 + ·)
  let rows := (List.range g.h).map (g.y0 + ·)
  planes.flatMap (fun p => rows.map (fun y => t.runSpan store p y (g.x0 * t.cb) (g.w * t.cb))) ++
  (if isMx t.fmt then
    let b0 := g.c0 / 32
    ((List.range (ceilDiv (g.c0 + g.c) 32 - b0)).map (b0 + ·)).flatMap (fun b =>
      rows.map (fun y => { addr := t.scaleAddr b y g.x0, len := g.w, store := store }))
   else [])

/-- Runs of the blocks that a region touches. -/
def Desc.frSpans (t : Desc) (store : Bool) (g : Region3) : List Span :=
  let by0 := g.y0 / 8
  let bx0 := g.x0 / 8
  let nx := (g.x0 + g.w - 1) / 8 - bx0 + 1
  (List.range g.c).flatMap (fun c =>
    (List.range ((g.y0 + g.h - 1) / 8 - by0 + 1)).map (fun b =>
      { addr := t.blockAddr (g.c0 + c) (by0 + b) bx0, len := nx * frBytes t.comp, store := store }))

def Desc.spansOf (t : Desc) (store : Bool) (g : Region3) : List Span :=
  if t.comp = 0 then t.regionSpans store g else t.frSpans store g

/-! ### Elements -/

/-- Code of a source element, and its value. -/
def Desc.anyCode (t : Desc) (w : List (Nat × Byte)) (c y x : Nat) : Nat :=
  if t.comp = 0 then t.code w c y x else t.frCode w c y x

def Desc.anyNum (t : Desc) (w : List (Nat × Byte)) (c y x : Nat) : Num :=
  if t.comp = 0 then t.num w c y x else elemNum t.fmt (t.frCode w c y x)

/-- The code that element (c, y, x) of the destination takes: moved in the same format, converted otherwise
(R169). -/
def copyCode (cmd : List Byte) (src dst : Desc) (w : List (Nat × Byte)) (g : Region3) (c y x : Nat) : Nat :=
  let (sc, sy, sx) := (g.c0 + c, g.y0 + y, g.x0 + x)
  if src.fmt = dst.fmt then canonicalCode dst.fmt (src.anyCode w sc sy sx)
  else
    let idx := (c * dst.height + y) * dst.width + x
    convert dst.fmt (elemRound (cmdSr cmd) (cmdSeed cmd) dst.tensorId idx) (cmdSat cmd dst.fmt) (src.anyNum w sc sy sx)

/-- Where a source element's code lies, and its scale where the format changes. -/
def copyNeeds (src dst : Desc) (g : Region3) (c y x : Nat) : List (Nat × Nat) :=
  let (sc, sy, sx) := (g.c0 + c, g.y0 + y, g.x0 + x)
  if src.comp ≠ 0 then [(src.blockAddr sc (sy / 8) (sx / 8), frBytes src.comp)]
  else
    let code := putRange src (sc / src.cb) sy (sx * src.cb + sc % src.cb) 1
    if src.fmt ≠ dst.fmt ∧ isMx src.fmt then [code, (src.scaleAddr (sc / 32) sy sx, 1)] else [code]

/-- The samples of block (b, x) of a plane of the region, the last row and column repeated. -/
def Region3.blockAt (g : Region3) (b x : Nat) : List (Nat × Nat) :=
  (List.range 64).map (fun i => (min (8 * b + i / 8) (g.h - 1), min (8 * x + i % 8) (g.w - 1)))

/-- Where the source bytes of such a block lie. -/
def blockNeeds (src dst : Desc) (g : Region3) (c b x : Nat) : List (Nat × Nat) :=
  (g.blockAt b x).flatMap (fun p => copyNeeds src dst g c p.1 p.2)

/-- R248, R255: the blocks of a compressed destination whose source bytes `lands` takes. -/
def Device.putBlocks (d : Device) (reach : Nat → Nat) (src dst : Desc) (g : Region3) (code : Nat → Nat → Nat → Nat)
    (lands : List (Nat × Nat) → Bool) : Device :=
  let nb := frBytes dst.comp
  (List.range g.c).foldl (fun d c =>
    (List.range (ceilDiv g.h 8)).foldl (fun d b => (List.range (ceilDiv g.w 8)).foldl (fun d x =>
      if lands (blockNeeds src dst g c b x) then
        d.write (reach (dst.blockAddr c b x))
          (leBytes nb (frEncode dst.comp ((g.blockAt b x).map (fun p => frMap dst.fmt (code c p.1 p.2)))))
      else d) d) d) d

/-- Scales of an MX region: those of the source's blocks; free bytes for a block of the destination that
the region cuts, whose other elements keep their codes (log 28). -/
def Device.putScales (d : Device) (reach : Nat → Nat) (src dst : Desc) (w : List (Nat × Byte)) (g : Region3)
    (lands : List (Nat × Nat) → Bool) : Device :=
  (List.range (ceilDiv g.c 32)).foldl (fun d b => (List.range g.h).foldl (fun d y => (List.range g.w).foldl (fun d x =>
    let a := src.scaleAddr (g.c0 / 32 + b) (g.y0 + y) (g.x0 + x)
    if !lands [(a, 1)] then d
    else
      let (bs, d) :=
        if g.c0 % 32 = 0 ∧ (32 * b + 32 ≤ g.c ∨ dst.channels ≤ g.c) then ([memGet w a], d) else d.freeBytes 1
      d.write (reach (dst.scaleAddr b y x)) bs) d) d) d

/-- The elements of the region whose source bytes `lands` takes land in the destination; `w` is the memory that holds the
source. -/
def Device.putRegion (d : Device) (reach : Nat → Nat) (cmd : List Byte) (src dst : Desc) (w : List (Nat × Byte)) (g : Region3)
    (lands : List (Nat × Nat) → Bool) : Device :=
  let code := copyCode cmd src dst w g
  if dst.comp = 0 then
    let d := (List.range g.h).foldl (fun d y => d.putRowSome reach dst y g.c g.w (fun c x =>
      if lands (copyNeeds src dst g c y x) then some (code c y x) else none)) d
    if isMx dst.fmt then d.putScales reach src dst w g lands else d
  else d.putBlocks reach src dst g code lands

/-- Every source byte of the runs has been moved. -/
def RemoteCopy.covers (m : RemoteCopy) (runs : List (Nat × Nat)) : Bool :=
  runs.all (fun p => (List.range p.2).all (fun i =>
    m.data.any (fun q => decide (q.1 ≤ p.1 + i) && decide (p.1 + i < q.1 + q.2.length))))

/-- Part of a run list: `n` bytes from byte `k` on, the runs one after the other. -/
def cutSpans : List Span → Nat → Nat → List Span
  | [], _, _ => []
  | s :: l, k, n =>
    let mine := min (s.len - k) n
    (if mine = 0 then [] else [{ s with addr := s.addr + k, len := mine }]) ++ cutSpans l (k - s.len) (n - mine)

/-- The share of `total` that the first `k` of `n` bytes make. -/
def shareOf (total k n : Nat) : Nat := total * k / max 1 n

/-- Source memory with the moved bytes in it. -/
def RemoteCopy.window (m : RemoteCopy) (w : List (Nat × Byte)) : List (Nat × Byte) := m.data.foldl (fun mem p => memPut mem p.1 p.2) w

/-- Bytes of runs. -/
def spanBytes (l : List Span) : Nat := l.foldl (fun n s => n + s.len) 0

/-- The part of the destination's runs that the moves from `m` to `m'` are charged for: the share of the source (log 28). -/
def landedSpans (out : List Span) (m m' : RemoteCopy) : List Span :=
  let lo := shareOf (spanBytes out) m.movedBytes m.len
  cutSpans out lo (shareOf (spanBytes out) m'.movedBytes m'.len - lo)

/-- Blocks of a compressed destination that the COPY encodes with the source bytes that `lands` takes (R256). -/
def frLanded (src dst : Desc) (g : Region3) (lands : List (Nat × Nat) → Bool) : Nat :=
  if dst.comp = 0 then 0
  else ((List.range g.c).flatMap (fun c => (List.range (ceilDiv g.h 8)).flatMap (fun b => (List.range (ceilDiv g.w 8)).filter (fun x =>
    lands (blockNeeds src dst g c b x))))).length

/-- The destination's region (R738). -/
def Region3.landed (g : Region3) : Region3 := { g with x0 := 0, y0 := 0, c0 := 0 }

/-- Memory that a source tensor spans. -/
def Device.anyWindow (d : Device) (e : Nat) (t : Desc) : List (Nat × Byte) :=
  d.view e t.base (if t.comp = 0 then t.span else t.frSpan)

/-- The region of a COPY. -/
def Run.copyRegion (r : Run) : Region3 := regionOf3 r.cmd (descAt r.descs r.cmd 16)

/-- Runs that a COPY within the device reads and writes. -/
def Run.copySpans (r : Run) : List Span :=
  let t := descAt r.descs r.cmd
  (t 16).spansOf false r.copyRegion ++ (t 17).spansOf true r.copyRegion.landed

/-- The COPY stays inside its engine's scratch. -/
def Run.copyOwn (r : Run) (e : Nat) : Bool := r.copySpans.all (fun s => inOwnScratch e s.addr s.len)

def Run.copyPlan (r : Run) (e : Nat) : Plan := { spans := r.copySpans, loads := [], copy := true, port := !r.copyOwn e }

/-- Table 4.16: a COPY inside this engine's scratch takes the steps of its traffic; one through the fabric port
takes none. -/
def Run.copyUse (r : Run) (e : Nat) : Use :=
  let tr := (r.copyPlan e).traffic e
  { tr with emptySteps := if r.copyOwn e then ceilDiv tr.scratch 640 else 0 }

/-- The elements of a COPY whose source bytes `lands` takes, from source bytes `w`. -/
def Device.putCopy (d : Device) (e : Nat) (r : Run) (w : List (Nat × Byte)) (lands : List (Nat × Nat) → Bool) : Device :=
  let t := descAt r.descs r.cmd
  d.putRegion (physAddr e) r.cmd (t 16) (t 17) w r.copyRegion lands

/-- The blocks that it encodes are counted (R256). -/
def Device.countBlocks (d : Device) (e : Nat) (r : Run) (lands : List (Nat × Nat) → Bool) : Device :=
  let t := descAt r.descs r.cmd
  d.modEng e (fun x => { x with op := { x.op with frBlocks := satAdd x.op.frBlocks (frLanded (t 16) (t 17) r.copyRegion lands) } })

/-- Part of a COPY lands: the elements, blocks and scales whose source bytes have now all been moved. -/
def Device.landCopy (d : Device) (e : Nat) (r : Run) (w : List (Nat × Byte)) (lands : List (Nat × Nat) → Bool) : Device :=
  (d.countBlocks e r lands).landing e ((descAt r.descs r.cmd 17).spansOf true r.copyRegion.landed) (fun d => d.putCopy e r w lands)

/-- What a COPY has still to land: all but what had been moved when a full save stopped it (R191). -/
def Run.copyLeft (r : Run) (runs : List (Nat × Nat)) : Bool := !r.xfer.any (·.covers runs)

/-- The source of a COPY, with what had been moved before. -/
def Device.copySource (d : Device) (e : Nat) (r : Run) : List (Nat × Byte) :=
  let w := d.anyWindow e (descAt r.descs r.cmd 16)
  (r.xfer.map (·.window w)).getD w

def Device.copyLocal (d : Device) (e : Nat) (r : Run) : Device :=
  let w := d.copySource e r
  match d.admitted e r (r.copyPlan e) (fun d _ => d) with
  | (false, d) => d
  | (true, d) =>
    let d := d.countFill ((r.copyPlan e).fills e)
    let d := (d.spend e r.ctx (r.copyUse e)).countBlocks e r r.copyLeft
    -- a shadow launch's writes do not stay, and all of them join its signature (R613, R614)
    (d.writing e r.copySpans (fun d => d.putCopy e r w (fun runs => r.due.shadow || r.copyLeft runs))).completeCommand e

/-- The instructions of a COPY: transfers through the port, or inside the engine's scratch. -/
def Device.copyIssues (_ : Device) (e : Nat) (r : Run) : List Issue :=
  if field r.cmd 18 1 % 4 = 0 then
    let u := r.copyUse e
    blockIssues { kind := kindXFR } u.vecSteps u.emptySteps
  else [{ pos := { kind := kindXFR }, use := {} }]

end Sys2Proof.Machine
end

