-- ==== Sys2Proof/Machine/Otson.lean ====
section
/-! DEFINITION. The Otson link: frames and their forwarding (R539, R541), reads served and answered (R542), link credits
(R543), pair resets (R544); and COPY from a remote device with its requests and credits (R463 to R465). -/
namespace Sys2Proof.Machine

/-! ### Frames (Table 12.11) -/

structure OtsHead where
  type : Nat
  src : Nat
  dst : Nat
  epoch : Nat
  tag : Nat
  status : Nat
  hops : Nat
  addr : Nat
  len : Nat
  deriving DecidableEq, Repr

def OtsHead.bytes (h : OtsHead) : List Byte :=
  leBytes 1 h.type ++ leBytes 1 h.src ++ leBytes 1 h.dst ++ leBytes 1 h.epoch ++ leBytes 2 h.tag ++
    leBytes 1 h.status ++ leBytes 1 h.hops ++ leBytes 6 h.addr ++ leBytes 2 h.len

def otsHeadOf (b : List Byte) : OtsHead :=
  { type := field b 0 1, src := field b 1 1, dst := field b 2 1, epoch := field b 3 1, tag := field b 4 2,
    status := field b 6 1, hops := field b 7 1, addr := field b 8 6, len := field b 14 2 }

/-- R539: header, data and CRC-32. -/
def otsFrame (h : OtsHead) (data : List Byte) : List Byte :=
  let b := h.bytes ++ data
  b ++ leBytes 4 (crc32 b).toNat

def otsCrcOk (b : List Byte) : Bool :=
  decide (20 ≤ b.length) && field b (b.length - 4) 4 = (crc32 (b.take (b.length - 4))).toNat

def otsData (b : List Byte) : List Byte := (b.drop 16).take (b.length - 20)

/-- Ring position of this device, and the ring size. -/
def Device.ringPos (d : Device) : Nat := d.pins.addrSel.toNat
def Device.ringSize (d : Device) : Nat := d.image.ringN

def Device.modOts (d : Device) (f : Otson → Otson) : Device := { d with ots := f d.ots }
def Otson.pair (o : Otson) (east : Bool) : OtsPair := if east then o.east else o.west
def Otson.modPair (o : Otson) (east : Bool) (f : OtsPair → OtsPair) : Otson :=
  if east then { o with east := f o.east } else { o with west := f o.west }

/-- A frame joins the queue of a pair, with the pair's EPOCH. -/
def Device.otsSend (d : Device) (east : Bool) (h : OtsHead) (data : List Byte) : Device :=
  let h := { h with epoch := (d.ots.pair east).epoch.toNat }
  d.modOts (fun o => o.modPair east (fun p => { p with sendQ := p.sendQ ++ [otsFrame h data] }))

/-- Neighbour of a pair. -/
def Device.neighbour (d : Device) (east : Bool) : Nat :=
  let n := max 1 d.ringSize
  if east then (d.ringPos + 1) % n else (d.ringPos + n - 1) % n

/-! ### Requests of a COPY -/

/-- Contiguous runs joined in their order. -/
def joinRuns (l : List Span) : List (Nat × Nat) :=
  (l.foldl (fun (acc : List (Nat × Nat)) s => match acc with
    | [] => [(s.addr, s.len)]
    | (a, n) :: rest => if a + n = s.addr then (a, n + s.len) :: rest else (s.addr, s.len) :: (a, n) :: rest) []).reverse

/-- R463: pieces of at most 16 KiB. -/
def cutRun (a n : Nat) : List (Nat × Nat) :=
  (List.range (ceilDiv n tileBytes)).map (fun i => (a + i * tileBytes, min tileBytes (n - i * tileBytes)))

/-- The requests of a COPY, in order. -/
def Run.chunks (r : Run) : List (Nat × Nat) :=
  let src := descAt r.descs r.cmd 16
  (joinRuns (src.spansOf false (regionOf3 r.cmd src))).flatMap (fun s => cutRun s.1 s.2)

/-- The lowest credit of a partition's pool that no request holds. -/
def Device.freeCredit (d : Device) (p : Nat) : Nat :=
  ((List.range 256).find? (fun k => !d.ots.outstanding.any (fun r => r.part = p && r.credit = k))).getD 0

/-- R541: the direction towards ring position q + k. -/
def Device.eastFor (d : Device) (k : Nat) : Bool := decide (k ≤ d.ringSize / 2)

/-- One request is issued. -/
def Device.issueReq (d : Device) (e : Nat) (r : Run) (m : RemoteCopy) : Device :=
  let (a, n) := r.chunks.getD m.issued (0, 0)
  let k := field r.cmd 18 1 % 4
  let east := d.eastFor k
  let p := d.partOf r.ctx
  let credit := d.freeCredit p
  let dst := (d.ringPos + k) % max 1 d.ringSize
  let req : OutReq :=
    { part := p, credit := credit, engine := some (Fin.ofNat 6 e), ctx := r.ctx, due := r.due, issued := d.now, east := east,
      destPos := dst, addr := a, len := n, chunk := m.issued, live := true }
  let d := d.otsSend east
    { type := 1, src := d.ringPos, dst := dst, epoch := 0, tag := credit + p * 256, status := 0, hops := 0,
      addr := a, len := n } []
  let d := d.modOts (fun o => { o with outstanding := o.outstanding ++ [req] })
  let d := d.modCtx r.ctx (fun c => { c with creditsOut := c.creditsOut + 1 })
  d.modEng e (fun x => { x with run := some { r with remote := some { m with issued := m.issued + 1 } } })

/-- R463: as many requests as the launch's credits allow; a credit that has gone back to the pool is taken again
while the pool has one. -/
def Device.issueAll (e : Nat) : (fuel : Nat) → Device → Device
  | 0, d => d
  | fuel + 1, d =>
    match (d.eng e).run with
    | none => d
    | some r =>
      match r.remote with
      | none => d
      | some m =>
        let out := (d.ots.outstanding.filter (fun q => q.due = r.due && q.live)).length
        let p := d.partOf r.ctx
        if m.total ≤ m.issued then d
        else if out < r.credHeld then Device.issueAll e fuel (d.issueReq e r m)
        else if out < r.credits ∧ 0 < (d.part p).freeCredits then
          let d := d.modPart p (fun x => { x with freeCredits := x.freeCredits - 1 })
          let d := d.modCtx r.ctx (fun x => { x with creditsReserved := x.creditsReserved + 1 })
          Device.issueAll e fuel (d.issueReq e { r with credHeld := r.credHeld + 1 } m)
        else d

/-- R464: a moved response lands in the destination (log 28); its traffic is charged. -/
def Device.landResponse (d : Device) (e : Nat) (r : Run) (m m' : RemoteCopy) : Device :=
  let t := descAt r.descs r.cmd
  let out := (t 17).spansOf true r.copyRegion.landed
  let d := d.spend e r.ctx (spanUse e (fun _ => true) (landedSpans out m m'))
  d.landCopy e r (m'.window []) (fun runs => m'.covers runs && !m.covers runs)

/-- R464: an arrived response is moved out of the waystation into the destination, and its credit returns. Bytes that a
response does not bring land as 0 (log 28). -/
def Device.moveResponse (d : Device) (e : Nat) (r : Run) (m : RemoteCopy) (q : OutReq) : Device :=
  let got := ((d.ots.way.find? (fun w => w.1 = q.part && w.2.1 = q.credit)).map (·.2.2)).getD []
  let data := got.take q.len ++ List.replicate (q.len - got.length) 0
  let m' : RemoteCopy := { m with moved := m.moved + 1, data := m.data ++ [(q.addr, data)] }
  let d := d.modOts (fun o =>
    { o with outstanding := o.outstanding.filter (· ≠ q),
             way := o.way.filter (fun w => !(w.1 = q.part && w.2.1 = q.credit)) })
  let d := d.modPart q.part (fun x =>
    { x with freeCredits := x.freeCredits + 1, wayHeld := x.wayHeld.filter (· ≠ q.credit) })
  let d := d.modCtx q.ctx (fun x => { x with creditsReserved := x.creditsReserved - 1, creditsOut := x.creditsOut - 1 })
  let d := (d.countFill (if data.length < tileBytes then 1 else 0)).spend e r.ctx { well := tileBytes }
  (d.modEng e (fun x => { x with run := x.run.map (fun r =>
    { r with credHeld := r.credHeld - 1, remote := some m' }) })).landResponse e r m m'

/-- The last response has been moved: what the COPY wrote joins the signature, also a shadow launch's, whose writes do not
stay (R613); and the COPY completes. -/
def Device.finishRemote (d : Device) (e : Nat) (r : Run) (m : RemoteCopy) : Device :=
  let dst := descAt r.descs r.cmd 17
  let g := r.copyRegion
  let wrote := if r.due.shadow then d.putCopy e r (m.window []) (fun _ => true) else d
  let d := match ((wrote.sign e (dst.spansOf true g.landed)).eng e).run with
    | none => d
    | some r => d.modEng e (fun x => { x with run := some r })
  d.completeCommand e

/-- What an engine's COPY does with what has arrived; nothing while its launch is being saved, and nothing while a meter holds
its context (R453). -/
def Device.pumpRemote (e : Nat) : (fuel : Nat) → Device → Device
  | 0, d => d
  | fuel + 1, d =>
    match (d.eng e).run with
    | none => d
    | some r =>
      match r.remote with
      | none => d
      | some m =>
        if (d.eng e).pre = .saving ∨ d.heldCtx r.ctx (d.runsBe r) then d
        else if m.total ≤ m.moved then d.finishRemote e r m
        else
          match d.ots.outstanding.find? (fun q => q.due = r.due && q.live && d.arrived q) with
          | none => Device.issueAll e 256 d
          | some q => Device.pumpRemote e fuel (Device.issueAll e 256 (d.moveResponse e r m q))

def Device.pumpCopies (d : Device) : Device := (List.range 6).foldl (fun (d : Device) e => Device.pumpRemote e 1024 d) d

/-- A COPY with SRC_CHIP not 0 starts (R463). -/
def Device.copyRemote (d : Device) (e : Nat) (r : Run) : Device :=
  let c := r.cmd
  let t := descAt r.descs c
  let g := regionOf3 c (t 16)
  if r.credits = 0 then d.endRun e .noCredit
  else
    match badSpan e true r.footprint ((t 17).spansOf true g.landed) with
    | some s => d.accessFault r.ctx r.due.entry (s.faultAddr e true r.footprint)
    | none =>
      let m : RemoteCopy := { issued := 0, moved := 0, total := r.chunks.length, len := spanBytes ((t 16).spansOf false g), data := [] }
      let d := d.modEng e (fun x => { x with run := some { r with remote := some m } })
      Device.issueAll e 256 d

def execCopy (t : Nat) (engine : Fin 6) (s : State) : Host.Outcome State Fault Refusal :=
  s.command t engine (isOp opCOPY) (·.copyIssues)
    (fun d e r => if field r.cmd 18 1 % 4 = 0 then d.copyLocal e r else d.copyRemote e r)

/-! ### The end of a COPY by its link -/

/-- A launch that waits for a remote COPY ends, on its engine or kept. -/
def Device.endRemote (d : Device) (q : OutReq) (st : Status) : Device :=
  match (List.range 6).find? (fun e => (d.eng e).run.any (fun r => r.due = q.due && r.remote.isSome)) with
  | some e => if st = .sealFail then d.fallback e st else d.endRun e st
  | none =>
    let c := q.ctx
    match (d.ctx c).kept with
    | none => d
    | some r =>
      if r.due ≠ q.due ∨ r.remote.isNone then d
      else
        let e := (((d.ctx c).keptOn).map (·.val)).getD 0
        let d := d.dropKept c
        let v := d.serveOf r.due
        let d := d.endLaunch e r st false
        match v with
        | some v => if st = .sealFail then d.inPlace e r.due v else d
        | none => d

/-- A credit of a launch is no longer its own. -/
def Device.loseCredit (d : Device) (q : OutReq) : Device :=
  let drop (r : Run) : Run := if r.due = q.due then { r with credHeld := r.credHeld - 1 } else r
  let d : Device := { d with ne := d.ne.map (fun (x : Engine) => { x with run := x.run.map drop }) }
  d.modCtx q.ctx (fun x =>
    { x with creditsReserved := x.creditsReserved - 1, creditsOut := x.creditsOut - 1, kept := x.kept.map drop })

/-- R465: 2 ms without a response. -/
def execOtsonRequestTimeout (t : Nat) (part : Fin 8) (credit : BitVec 8) (s : State) :
    Host.Outcome State Fault Refusal :=
  .next (s.runI t fun d => d.whenRunning fun d =>
    match d.ots.outstanding.find? (fun q => q.part = part.val && q.credit = credit.toNat && q.live) with
    | none => d
    | some q =>
      d.guard (!d.arrived q && decide (q.issued + 2000000 ≤ d.now)) (fun d => (d.endRemote q .timeout).pumpCopies))

/-- R544: a pair resets. Its waiting frames go with it, and its lanes hold 64 credits again. -/
def Device.resetPair (d : Device) (east : Bool) : Device :=
  let mine := d.ots.outstanding.filter (fun q => q.east = east && !d.arrived q)
  let d := d.modOts (fun o =>
    ({ o with resets := satInc o.resets } : Otson).modPair east (fun p =>
      { p with epoch := p.epoch + 1, credits := Vector.replicate 2 64, owed := Vector.replicate 2 0, sendQ := [] }))
  -- the COPYs end; then every credit of the pair that is still out returns
  let d := (mine.filter (·.live)).foldl (fun (d : Device) q => d.endRemote q .timeout) d
  let out := d.ots.outstanding.filter (fun q => q.east = east && !d.arrived q)
  let d := out.foldl (fun (d : Device) q => d.modPart q.part (fun x => { x with freeCredits := x.freeCredits + 1 })) d
  (d.modOts (fun o => { o with outstanding := o.outstanding.filter (fun q => !out.contains q) })).pumpCopies

/-! ### Frames that arrive -/

/-- R543: the pair's receive lanes take the frames of the pair in turn; a frame passes the lane's landing buffer, and its credits
are owed to the sender from then on (log 65). -/
def Device.landFrame (d : Device) (east : Bool) (frame : List Byte) : Device :=
  d.modOts (fun o => o.modPair east (fun p =>
    { p with rxNext := p.rxNext + 1, owed := vmod p.owed p.rxNext.val (· + ceilDiv frame.length 512) }))

/-- R519: a frame of the pair can come by an ACTIVE lane of it. -/
def Device.otsHears (d : Device) (east : Bool) : Bool :=
  let base := if east then 16 else 18
  (d.ots.pair east).up || [base, base + 1].any (fun n => d.lanes.rx[n]?.any (fun x => x.state = .active))

/-- R539, R541: an intact frame for this device goes to `here`; another is forwarded or dropped. -/
def Device.otsReceive (d : Device) (east : Bool) (type : Nat) (frame : List Byte)
    (here : Device → OtsHead → List Byte → Device) : Device :=
  if !d.otsHears east then d
  else if !otsCrcOk frame then (d.landFrame east frame).modOts (fun o => { o with crcErrors := satInc o.crcErrors })
  else if !(d.ots.pair east).up ∨ field frame 0 1 ≠ type then d
  else
    let h := otsHeadOf frame
    let d := (d.landFrame east frame).modOts (fun o => { o with rxFrames := satInc o.rxFrames })
    if 2 < h.hops then d.modOts (fun o => { o with fwdDrops := satInc o.fwdDrops })
    else if h.dst = d.ringPos then here d h (otsData frame)
    else
      (d.modOts (fun o => { o with fwdFrames := satInc o.fwdFrames })).otsSend (!east) { h with hops := h.hops + 1 }
        (otsData frame)

/-- R542: a read is served from the Well or stack DRAM; its response goes back the way it came. -/
def Device.serveRead (d : Device) (east : Bool) (h : OtsHead) : Device :=
  let last := h.addr + h.len - 1
  let inside := decide (1 ≤ h.len ∧ h.len ≤ tileBytes) &&
    (match regionOf h.addr, regionOf last with
      | .dram, .dram => true
      | .well, .well => true
      | _, _ => false)
  let (st, data, d) : Status × List Byte × Device :=
    if !inside then (.unsupported, [], d)
    else
      match d.readChecked 0 h.addr h.len with
      | (some bs, d) => (.ok, bs, d)
      | (none, d) => (.sealFail, [], d)
  d.otsSend east
    { h with type := 2, src := d.ringPos, dst := h.src, status := statusCode st, hops := 0 } data

def execReadReq (t : Nat) (east : Bool) (frame : List Byte) (s : State) : Host.Outcome State Fault Refusal :=
  .next (s.runI t fun d => d.whenRunning fun d => d.otsReceive east 1 frame (fun d h _ => d.serveRead east h))

/-- The status with which a READ_RESP that is not OK ends its COPY: UNSUPPORTED or SEAL_FAIL (R542). DESIGN CHOICE: R542 gives
its serving device no other status; another code of Table 0.3 that ends a list without a commit ends it with that status, and any
code else with UNSUPPORTED (log 60). -/
def responseStatus (code : Nat) : Status :=
  match code with
  | 1 => .alreadyDone | 2 => .aborted | 3 => .sealFail | 4 => .checkFail | 5 => .timeout
  | 6 => .badDimensions | 7 => .deadlineMiss | 8 => .noCredit | 9 => .tornDown | 10 => .configRejected
  | _ => .unsupported

/-- R544: an EPOCH older than the pair's. -/
def olderEpoch (frame cur : Byte) : Bool := decide (128 ≤ (frame - cur).toNat)

/-- R464, R465: a response lands in the waystation tile of its credit. One that comes more than 2 ms after its request finds
the list ended with TIMEOUT, and returns the credit. -/
def Device.response (d : Device) (east : Bool) (h : OtsHead) (data : List Byte) : Device :=
  if olderEpoch (BitVec.ofNat 8 h.epoch) (d.ots.pair east).epoch then d
  else
    match d.ots.outstanding.find? (fun q => q.part = h.tag / 256 % 8 && q.credit = h.tag % 256 && !d.arrived q) with
    | none => d
    | some q =>
      let giveBack (d : Device) : Device :=
        (d.modOts (fun o => { o with outstanding := o.outstanding.filter (· ≠ q) })).modPart q.part
          (fun x => { x with freeCredits := x.freeCredits + 1 })
      if !q.live then (giveBack d).pumpCopies
      else if q.issued + 2000000 < d.now then (((giveBack d).loseCredit q).endRemote q .timeout).pumpCopies
      else if h.status ≠ 0 then
        (((giveBack d).loseCredit q).endRemote q (responseStatus h.status)).pumpCopies
      else
        let d := d.modOts (fun o => { o with way := o.way ++ [(q.part, q.credit, data)] })
        let d := (d.modPart q.part (fun x => { x with wayHeld := x.wayHeld ++ [q.credit] })).chargeDevice
          { well := data.length }
        d.pumpCopies

def execReadResp (t : Nat) (east : Bool) (frame : List Byte) (s : State) : Host.Outcome State Fault Refusal :=
  .next (s.runI t fun d => d.whenRunning fun d => d.otsReceive east 2 frame (fun d h data => d.response east h data))

def execOtsonResetFrame (t : Nat) (east : Bool) (frame : List Byte) (s : State) :
    Host.Outcome State Fault Refusal :=
  .next (s.runI t fun d => d.whenAlive fun d => d.otsReceive east 3 frame (fun d _ _ => d.resetPair east))

/-! ### Sending (R543) -/

/-- Transmit lane of a pair. -/
def otsLane (east : Bool) (i : Fin 2) : Nat := (if east then 16 else 18) + i.val

/-- The frame at the front of a pair's queue goes out when its lane is in RUN and has the credits for it. -/
def execOtsonFrameSend (t : Nat) (east : Bool) (s : State) : Host.Outcome State Fault Refusal :=
  .next (s.run t fun d => d.whenAlive fun d =>
    let p := d.ots.pair east
    match p.sendQ with
    | [] => d
    | f :: rest =>
      let need := ceilDiv f.length 512
      let have_ := vget p.credits p.nextLane.val 0
      let lane := otsLane east p.nextLane
      d.guard (p.up && d.laneRuns lane && decide (need ≤ have_)) fun d =>
        let d := d.modOts (fun o =>
          ({ o with txFrames := satInc o.txFrames } : Otson).modPair east (fun p =>
            { p with sendQ := rest, credits := vset p.credits p.nextLane.val (have_ - need), nextLane := p.nextLane + 1 }))
        d.countFrame lane)

end Sys2Proof.Machine
end

