-- ==== Sys2Proof/Machine/Toll.lean ====
section
/-! DEFINITION. Toll meters and their holds (R451 to R457), the rate check (R57), the thermal data of a toll period
(R720, R721), and how the device becomes inert at run time (R714, R722). -/
namespace Sys2Proof.Machine

/-! ### Becoming inert -/

/-- The device stops at run time: lasers off, every context held, no itinerary (R714, R722); a save under way stops
as in a teardown (Table 17.12). Memory, registers and the event queue stay. -/
def Device.goInert (d : Device) : Device :=
  let d := { d with phase := .inert, pins := { d.pins with lasersOn := false } }
  let d := { d with
    lanes := { d.lanes with tx := d.lanes.tx.map (fun (x : TxLane) => { x with state := .dark, since := d.now }) } }
  (List.range 6).foldl (fun (d : Device) e =>
    if (d.eng e).pre = .saving then d.modEng e (fun x => { x with pre := .idle, run := none, moving := none })
    else d) d

/-- A fatal condition of R714 or R722; of two that meet, only the first raises its event (Table 17.12). -/
def Device.fatal (d : Device) (arg : Nat) (first : Bool) : Device :=
  let d := if first then d.event .fatal arg 0 0 else d
  if d.phase = .inert then d else d.goInert

/-- Table 17.12: a trip detected at the instant of a clock loss gives the event of that loss ARG0 5. -/
def Device.tripWithLoss (d : Device) : Device :=
  let same (e : IbiEvent) : Bool := e.event = .fatal && e.arg0 = 4 && e.at_ = some d.now
  if d.therm.trip then d
  else { d with i3c := { d.i3c with queue := d.i3c.queue.map (fun (e : IbiEvent) => if same e then { e with arg0 := 5 } else e) } }

/-- R722: the trip. -/
def Device.thermalTrip (d : Device) : Device :=
  let d := d.tripWithLoss
  let first := !d.therm.trip && !d.therm.clkLost
  ({ d with therm := { d.therm with trip := true } } : Device).fatal 5 first

/-- R714: the reference clock is lost. -/
def Device.clockLost (d : Device) : Device :=
  let first := !d.therm.trip && !d.therm.clkLost
  ({ d with therm := { d.therm with clkLost := true } } : Device).fatal 4 first

/-! ### Readings (R720, R708) -/

/-- A signed 16-bit field (R727). -/
def signed16 (v : Nat) : Int := if v % 65536 < 32768 then (v % 65536 : Nat) else ((v % 65536 : Nat) : Int) - 65536


/-- The highest junction temperature so far, with a new one (R727). -/
def peakOf (p : Option Int) (t : Int) : Option Int := some (p.elim t (fun q => max q t))

/-- The highest of the sensors and its number; the lower number on a tie. -/
def hottest (v : Vector Int 16) : Nat × Int :=
  (List.range 16).foldl (fun (m : Nat × Int) i => if m.2 < vget v i 0 then (i, vget v i 0) else m) (0, vget v 0 0)

def Device.readSensors (d : Device) (r : Readings) : Device :=
  let h := hottest r.sensors
  { d with therm := { d.therm with
      sensors := r.sensors, hottest := h.1, tj := h.2, peak := peakOf d.therm.peak h.2,
      vddNe := r.vddNe, vddBd := r.vddBd } }

/-- R51, R52, R57: `count` steps in `ns` ns lie below the floor 0.92 × 1.6 × (1 + 2.6 (V − 0.75)) ×
(1 + 0.0009 (95 − T)) Gstep/s, with V in mV and T in 1/16 °C. -/
def belowFloor (count ns mv : Nat) (tj : Int) : Bool :=
  decide ((count : Int) * (1000 * 10000 * 160000) <
    1472 * (26 * (mv : Int) - 9500) * (173680 - 9 * tj) * ns)

/-! ### Meters -/

/-- TOLL_STATIC × 100 µs in fJ. -/
def Toll.staticEnergy (x : Toll) : Nat := x.static * 100000000

/-- R455: the device's energy budget of a period in fJ: meter 72's, or TOLL_CAP × 100 µs if that is less. -/
def Toll.energyBudget (x : Toll) : Nat :=
  min (vget (vget x.meters 72 .reset).budget 3 0 * 1000000) (x.cap * 10000000000)

/-- R453: the use of a quantity has reached its budget; 0xFFFF_FFFF never holds. -/
def Meter.reached (m : Meter) (q : Nat) : Bool :=
  let b := vget m.budget q 0
  b != satMax && decide ((if q = 3 then b * 1000000 else b) ≤ vget m.use q 0)

def Meter.full (m : Meter) : Bool := m.reached 0 || m.reached 1 || m.reached 2 || m.reached 3

/-- A new period begins for a meter: its uses become those of the last completed one. -/
def Meter.turn (m : Meter) : Meter := { m with last := m.use, use := Vector.replicate 4 0, held := false }

/-- Event 0x19 of a toll period waits to be raised. -/
def Device.capQueued (d : Device) (period : Nat) : Bool :=
  d.i3c.queue.any (fun e => e.event = .capActive && e.arg2 = period % 2 ^ 32)

/-- Event 0x19 of a toll period: one event, whose bits join while it is queued (Table 17.12). -/
def Device.capEvent (d : Device) (period a0 : Nat) : Device :=
  let i := period % 2 ^ 32
  let same (e : IbiEvent) : Bool := e.event = .capActive && e.arg2 = i
  let mine (x : Event × Nat × Nat × Nat) : Bool := x.1 = .capActive && x.2.2.2 = i
  if d.i3c.queue.any same then
    { d with i3c := { d.i3c with
        queue := d.i3c.queue.map (fun (e : IbiEvent) => if same e then { e with arg0 := e.arg0 ||| a0 } else e) } }
  else if d.i3c.fresh.any mine then
    { d with i3c := { d.i3c with
        fresh := d.i3c.fresh.map (fun x => if mine x then (x.1, x.2.1 ||| a0, x.2.2.1, x.2.2.2) else x) } }
  else d.event .capActive a0 0 period

/-- A context with a best-effort entry in the active itinerary. -/
def Device.bestEffortCtx (d : Device) (c : Nat) : Bool :=
  match d.active with
  | none => false
  | some i => i.entries.any (fun e => e.ctx = c && e.bestEffort)

/-- R453, R455, R721: the context is or was held in the running period. -/
def Device.heldNow (d : Device) (c : Nat) : Bool :=
  (d.ctx c).wasHeld || ((d.ctxRec c).isSome && (d.toll.deviceHeld || ((d.toll.beHeld || d.toll.thermHeld) && d.bestEffortCtx c)))

/-- TOLL_HELD of the running period. -/
def Device.heldMask (d : Device) : BitVec 64 :=
  BitVec.ofNat 64 ((List.range 64).foldl (fun s c => s + (if d.heldNow c then 2 ^ c else 0)) 0)

/-- The running period ends: the last uses, counts and holds are reported (R57, R451, Table 10.16). -/
def Device.endPeriod (d : Device) (r : Readings) : Device :=
  let d := d.chargeDeviceEnergy (r.acInstructions * vget d.toll.weights 7 0)
  let energy := vget (vget d.toll.meters 72 .reset).use 3 0
  let mask := d.heldMask
  let counts := d.ne.map (·.periodSteps)
  let low := (List.range 6).any (fun e => belowFloor (vget counts e 0) (vget r.busyNs e 0) r.vddNe d.therm.tj)
  let d := { d with
    toll := { d.toll with
      meters := d.toll.meters.map Meter.turn, heldLast := mask, lastDeviceHeld := d.toll.deviceHeld }
    therm := { d.therm with power := energy / 100000000 }
    ne := d.ne.map (fun (x : Engine) => { x with periodSteps := 0 })
    ctxs := d.ctxs.map (fun (c : Ctx) => { c with held := false, wasHeld := false })
    ctl := { d.ctl with stepsNe := counts, rateLow := d.ctl.rateLow || low } }
  if low then d.capEvent (d.toll.period - 1) 2 else d

/-- The period that starts: budgets anew, static energy, the thermal hold (R721). -/
def Device.beginPeriod (d : Device) : Device :=
  let hot := decide (signed16 d.therm.holdAt ≤ d.therm.tj)
  let hold := if hot then true else if d.therm.tj ≤ signed16 d.therm.holdAt - 32 then false else d.therm.hold
  let raise := hot && !d.toll.thermHeld
  let i := d.toll.period
  let d := { d with
    toll := { d.toll with deviceHeld := false, beHeld := false, thermHeld := hot, period := i + 1 }
    therm := { d.therm with
      hold := hold, holdPeriods := if hold then satInc d.therm.holdPeriods else d.therm.holdPeriods } }
  let d := d.chargeDeviceEnergy d.toll.staticEnergy
  if raise then d.capEvent i 4 else d

/-- R451: toll period i starts at T0 + 100,000 × i ns. -/
def execTollPeriodStart (t : Nat) (readings : Readings) (s : State) : Host.Outcome State Fault Refusal :=
  .next (s.runI t fun d => d.whenRunning fun d =>
    d.guard (decide (d.t0 + 100000 * d.toll.period ≤ d.now)) fun d =>
      let d := d.readSensors readings
      let d := if d.toll.period = 0 then d else d.endPeriod readings
      -- R453: the COPYs of contexts that were held go on
      let d := d.beginPeriod.pumpCopies
      if signed16 d.therm.tripAt ≤ d.therm.tj then d.thermalTrip else d)

/-- R455: the device meter's holds. -/
def Device.deviceMeter (d : Device) : Device :=
  let m := vget d.toll.meters 72 .reset
  let use := vget m.use 3 0
  let budget := d.toll.energyBudget
  let full := decide (budget ≤ use) || m.reached 0 || m.reached 1 || m.reached 2
  let be := decide (d.toll.bePct * budget ≤ 100 * use)
  let first := full && !d.toll.deviceHeld
  let d := { d with
    toll := { d.toll with
      beHeld := d.toll.beHeld || be || full, deviceHeld := d.toll.deviceHeld || full,
      capPeriods := if first then satInc d.toll.capPeriods else d.toll.capPeriods
      meters := vmod d.toll.meters 72 (fun (m : Meter) => { m with held := m.held || full }) } }
  -- Table 17.12: with a thermal hold in the same period both bits stand (log 15)
  if first && (!d.toll.lastDeviceHeld || d.capQueued (d.toll.period - 1)) then
    d.capEvent (d.toll.period - 1) (if d.toll.thermHeld then 5 else 1)
  else d

/-- R453: a meter whose use has reached a budget holds its activity until the next period. At the instant at which a
period starts the new budgets apply (Table 10.14). -/
def execMeterHold (t : Nat) (meter : Fin 73) (s : State) : Host.Outcome State Fault Refusal :=
  .next (s.runI t fun d => d.whenRunning fun d =>
    d.guard (d.toll.period ≠ 0 && decide (d.now < d.t0 + 100000 * d.toll.period)) fun d =>
      let n := meter.val
      if n = 72 then d.deviceMeter
      else
        d.guard (vget d.toll.meters n .reset).full fun d =>
          let d := { d with toll := { d.toll with
            meters := vmod d.toll.meters n (fun (m : Meter) => { m with held := true }) } }
          (List.range 64).foldl (fun (d : Device) c =>
            if n = c ∨ (64 ≤ n ∧ (d.ctxRec c).isSome ∧ d.partOf c = n - 64) then
              (d.modCtx c (fun (x : Ctx) => { x with held := true })).noteHeld c
            else d) d)

end Sys2Proof.Machine
end

