-- ==== Sys2Proof/Machine/ModeRec.lean ====
section
/-! DEFINITION. Mode-change records (Table 16.8), their checks (R475, R536, R698) and the list of accepted ones. -/
namespace Sys2Proof.Machine

/-- VALID bit `i` of a record. -/
def modeHas (b : List Byte) (i : Nat) : Bool := bit (field b 0 4) i

/-- Ranges and reserved bytes of Table 16.8; the unused bits of a field whose item is valid are 0 (log 19). -/
def modeShape (b : List Byte) : Bool :=
  let cap := field b 8 2
  let below (i o n : Nat) : Bool := !modeHas b i || decide (field b o 1 < n)
  let lane (o : Nat) : Bool := !modeHas b 9 || decide (field b o 1 % 128 < 24)
  decide (field b 0 4 < 1024) && field b 21 3 = 0 && ((b.drop 36).take 20).all (· = 0) &&
    (!modeHas b 1 || (decide (1 ≤ cap) && decide (cap ≤ 600))) && below 2 10 2 && below 3 11 2 && below 5 20 64 &&
    below 8 33 64 && lane 34 && lane 35

/-- R536, R698: an item with VALID bit 8 names a stream without an SSB or a package absent from the image. -/
def Device.modeAbsent (d : Device) (b : List Byte) : Bool :=
  modeHas b 8 && (!d.hasSsb (field b 32 1) || (d.package (field b 33 1)).isNone)

/-- R475: lockstep mode is asked for while the active itinerary has LOCKSTEP clear. -/
def Device.modeRefused (d : Device) (b : List Byte) : Bool :=
  modeHas b 2 && bit (field b 10 1) 0 && !(match d.active with
    | some i => i.lockstep
    | none => false)

/-- R536, R698: `t` is at most T0 + K × CYCLE_NS − 1,000 µs. -/
def Device.modeInTime (d : Device) (k t : Nat) : Bool := decide (t + 1000000 ≤ d.t0 + k * d.cycleNs)

/-- The status of an in-stream command container at its Frame End (R536). -/
def Device.commandStatus (d : Device) (k stamp : Nat) (b : List Byte) : Status :=
  if d.modeAbsent b ∨ d.modeRefused b then .unsupported
  else if d.modeInTime k stamp then .ok
  else .deadlineMiss

/-- An accepted change waits for its boundary. -/
def Device.acceptMode (d : Device) (m : PendingMode) : Device :=
  { d with req := { d.req with modes := d.req.modes ++ [m] } }

end Sys2Proof.Machine
end

