-- ==== Sys2Proof/Machine/Recording.lean ====
section
/-! DEFINITION. CSI-2 packet bodies (R522, R523: header, ECC and CRC, which the CSI-2 standard gives; PRESUMED, log 6),
and what the recorder takes of them (R497, R498). -/
namespace Sys2Proof.Machine

/-! ### Packets -/

/-- A CSI-2 packet as the receiver has it: a short packet with its data field, or a long one. -/
inductive Packet where
  | frameStart (data : Nat)
  | frameEnd (data : Nat)
  | short (dt data : Nat)
  | long (dt : Nat) (payload : List Byte) (crcOk : Bool)
  deriving DecidableEq, Repr

/-- The kind-0 frame body of a packet as it came. Header bits that came wrong and the CRC of a packet that failed its
check are not known: free bytes (log 4). -/
def Device.packetBody (d : Device) (head : PacketHead) (p : Packet) : List Byte × Device :=
  let vc := head.headerVc.toNat
  let hdr (dt v : Nat) (d : Device) : List Byte × Device :=
    if head.eccErrors = 0 then (packetHeader vc dt v, d) else d.freeBytes 4
  match p with
  | .frameStart v => hdr 0 v d
  | .frameEnd v => hdr 1 v d
  | .short dt v => hdr dt v d
  | .long dt payload ok =>
    let (h, d) := hdr dt payload.length d
    let (c, d) := if ok then (leBytes 2 (csiCrc payload), d) else d.freeBytes 2
    (h ++ payload ++ c, d)

/-! ### What is recorded -/

/-- R497, R545: the T0 record. -/
def Device.recordT0 (d : Device) : Device :=
  d.recordControl 1 0 (d.image.programDigest ++ leBytes 8 d.ctl.runSeed.toNat ++ leBytes 1 d.ctl.chips ++
    leBytes 1 d.ringPos ++ List.replicate 6 0 ++ leBytes 8 d.t0)

/-- A packet record of the stream and stamp on a higher lane moves one arrival index up. -/
def laterIndex (lane stream : Nat) (stamp : Int) (bs : List Byte) : List Byte :=
  if field bs 0 1 = 0 ∧ field bs 2 1 = stream ∧ lane < field bs 1 1 ∧ sfield bs 8 8 = stamp then
    let b := bs.take 4 ++ leBytes 4 (field bs 4 4 + 1) ++ (bs.take (bs.length - 4)).drop 8
    b ++ leBytes 4 (crc32 b).toNat
  else bs

/-- R546, Table 12.14: the arrival index of a packet, in ascending stamp and then ascending lane: the packets of the same stamp and
stream on higher lanes come after it, also those whose commands came first. -/
def Device.arrive (d : Device) (lane stream i stamp : Nat) : Nat × Device :=
  let same := if d.recorder.instant.1 = stamp then d.recorder.instant.2 else []
  let after := (same.filter (fun x => x.1 = i && decide (lane < x.2))).length
  let n := vget d.recorder.arrivals i 0
  let d := d.modRec (fun r =>
    { r with
      arrivals := vset r.arrivals i ((n + 1) % 2 ^ 32), instant := (stamp, (i, lane) :: same)
      ring := if after = 0 then r.ring else r.ring.map (fun x => (x.1, laterIndex lane stream ((stamp : Int) - d.t0) x.2)) })
  ((n + 2 ^ 32 - after) % 2 ^ 32, d)

/-- R497, R498: a packet is mirrored, or dropped whole when the ring is full. -/
def Device.recordPacket (d : Device) (lane stream : Nat) (head : PacketHead) (p : Packet) (stamp : Nat) : Device :=
  let i := if stream < 32 then stream else if stream = 0xFE then 32 else 33
  let (index, d) := d.arrive lane stream i stamp
  if !d.ctl.record then d
  else
    let (body, d) := d.packetBody head p
    let bad := match p with
      | .long _ _ ok => !ok
      | _ => false
    let flags := boolNat (head.eccErrors = 1) + 2 * boolNat bad
    let d := d.drainRing.putGap
    if d.recorder.gap ≠ 0 ∨ d.ringRoom < 28 + body.length then
      d.modRec (fun r => { r with gap := r.gap + 1 })
    else d.putRecord 0 lane stream flags index ((stamp : Int) - d.t0) body

end Sys2Proof.Machine
end

