-- ==== Sys2Proof/Machine/Rfe.lean ====
section
/-! DEFINITION. The raster front end (chapter 7): the receipt and the checks of a geometry set (R298 to R310), binning
(R322 to R327), partial renders (R336 to R342) and the switches between sets (R343, R344). -/
namespace Sys2Proof.Machine

/-! ### The set header (Table 7.6, checks 1 to 7) -/

/-- A failed check: status and order. -/
abbrev SetFail := Status × Nat

/-- All bytes of [o, o + n) are 0. -/
def zeroBytes (b : List Byte) (o n : Nat) : Bool := ((b.drop o).take n).all (· = 0)

/-- Checks 1 to 5 on a header against the raster records. -/
def headerCheck (d : Device) (h : List Byte) : Except SetFail RasterRec :=
  let f := field h
  if f 0 2 ≠ 1 ∨ 1 < f 3 1 ∨ 2 < f 24 1 ∨ 1000000000 < f 28 4 ∨ !zeroBytes h 25 3 ∨ !zeroBytes h 36 28 then
    .error (.unsupported, 1)
  else
    match d.rasterRec (f 2 1) (f 3 1) with
    | none => .error (.unsupported, 2)
    | some r =>
      if d.isResim (f 2 1) then .error (.unsupported, 2)
      else if f 24 1 ≠ r.order then .error (.unsupported, 3)
      else if f 8 2 ≠ r.width ∨ f 10 2 ≠ r.height then .error (.badDimensions, 4)
      else if !decide (1 ≤ f 12 4 ∧ f 12 4 ≤ 65536) ∨ 16777216 < f 16 4 ∨ !decide (1 ≤ f 20 4 ∧ f 20 4 ≤ 16777216) ∨
          r.geoBytes < triBase (f 20 4) + 12 * f 16 4 then .error (.badDimensions, 5)
      else .ok r

def RasterRec.index (r : RasterRec) (l : List RasterRec) : Nat := (l.findIdx? (fun x => x = r)).getD 0

/-- Checks 1 to 7: the record, its number and the slot. -/
def Device.setCheck (d : Device) (h : List Byte) : Except SetFail (RasterRec × Nat × Nat) :=
  match headerCheck d h with
  | .error e => .error e
  | .ok r =>
    let i := r.index d.image.rasters
    let buf := field h 4 4 % 2
    if d.rfe.sets.any (fun x => x.1.recIdx = i && x.1.buf.val = buf) then .error (.noCredit, 6)
    else
      match d.unwrap (field h 2 1) (field h 4 4) with
      | none => .error (.deadlineMiss, 7)
      | some n => if d.itn.t0.isSome ∧ d.frameStart r.stream n ≤ d.now then .error (.deadlineMiss, 7) else .ok (r, i, n)

/-- R305: a set that fails a check. -/
def Device.rejectSet (d : Device) (h : List Byte) (lane : Nat) (e : SetFail) : Device :=
  let (s, kind, frame) := (field h 2 1, field h 3 1, field h 4 4)
  let (bs, d) := d.freeBytes 1
  let d := d.modRfe (fun r =>
    { r with
      rejected := satInc r.rejected,
      lastReject := word (statusCode e.1 + s % 32 * 2 ^ 8 + kind % 2 * 2 ^ 13 + e.2 % 16 * 2 ^ 16) })
  let d := d.rejectInput
    { status := e.1, order := leNat bs, container := 1, stream := if s < 32 then some s else none, lane := lane,
      tag := frame }
  if kind = 0 ∧ s < 32 then
    match d.unwrap s frame with
    | some n => d.modSlot s n (fun x => { x with guideOk := if x.guideOk = some true then x.guideOk else some false })
    | none => d
  else d

/-- R306, R324, R326: a header that passes claims its buffer and clears its head table. -/
def Device.openSet (d : Device) (h : List Byte) (r : RasterRec) (i n : Nat) : Device :=
  let f := field h
  let buf : Fin 2 := Fin.ofNat 2 (f 4 4)
  let g : GeoSet :=
    { recIdx := i, buf := buf, stream := r.stream, kind := r.kind, slot := n, frame := f 4 4, width := f 8 2,
      height := f 10 2, order := f 24 1, tSpan := f 28 4, mScale := f 32 4, ndraw := f 12 4, ntri := f 16 4,
      nvert := f 20 4, phase := .receiving, tail := [], total := 64, draw := none, drawsDone := 0, vertsDone := 0 }
  let p : GeoProg :=
    { trisDone := 0, drawEnds := [], trailer := none, digest := [], nextTri := 0,
      nextBlock := r.block0 buf + r.headBlocks, partials := 0, denied := false, incomplete := false, fault := none,
      flush := none, flushAt := 0, accepted := false }
  let entry := leBytes 4 noBlock ++ leBytes 4 noBlock ++ leBytes 8 0
  let bytes := (List.replicate (r.tw * r.th) entry).flatten
  let d := d.write (r.headAddr buf 0) bytes
  (d.modRfe (fun x => { x with sets := x.sets ++ [(g, p)] })).chargeDevice { well := bytes.length }

/-! ### Receipt (checks 8 to 11) -/

inductive Fed where
  | more (d : Device) (x : SetRec)
  | wait
  | done (stamp : Nat)
  | fail (e : SetFail)

/-- A failure of check 9 or 10 stands until check 8 or a lower one of the two fails, or the trailer comes. -/
def GeoProg.fail (p : GeoProg) (order : Nat) : GeoProg :=
  { p with fault := match p.fault with
      | some e => if order < e.2 then some (.unsupported, order) else some e
      | none => some (.unsupported, order) }

/-- The next item of a set's bytes: a draw header, a vertex, an index triple, padding or the trailer. The checks apply in
the order of Table 7.6: the failures of checks 9 and 10 wait for what check 8 says of later draws. The last 16 bytes of a
container are its trailer, so that 16 bytes in a draw header's place wait for more. -/
def Device.feedStep (d : Device) (r : RasterRec) (x : SetRec) (stamp : Nat) : Fed :=
  let (g, p) := x
  let b := g.tail
  let drop (n : Nat) (g : GeoSet) : GeoSet := { g with tail := b.drop n }
  let geo := r.geoBaseOf g.buf
  match g.draw with
  | none =>
    if g.drawsDone < g.ndraw then
      if b.length ≤ 16 then .wait
      else
        let nv := field b 0 4
        let nt := field b 4 4
        if !decide (1 ≤ nv ∧ nv ≤ 65536) ∨ 16777216 < nt ∨ 2 < field b 8 1 ∨ !zeroBytes b 9 7 ∨
            g.nvert < g.vertsDone + nv ∨ g.ntri < p.trisDone + nt then .fail (.unsupported, 8)
        else
          let w : Draw :=
            { vertsLeft := nv, trisLeft := nt, padLeft := 2 * (nt % 2), nvert := nv, cull := field b 8 1,
              baseVert := g.vertsDone }
          .more d (drop 16 { g with draw := some w }, p)
    else if b.length < 16 then .wait
    else if let some e := p.fault then .fail e
    else if field b 0 4 ≠ g.frame ∨ field b 4 4 ≠ g.ntri ∨ field b 8 4 ≠ g.total ∨ g.vertsDone ≠ g.nvert ∨
        p.trisDone ≠ g.ntri then .fail (.badDimensions, 11)
    else .done stamp
  | some w =>
    if w.vertsLeft ≠ 0 then
      if b.length < 24 then .wait
      else
        let p := if !fpIsFinite (field b 12 4) || !fpIsFinite (field b 16 4) then p.fail 9 else p
        let d := (d.write (geo + 24 * g.vertsDone) (b.take 24)).chargeDevice { dram := 24 }
        .more d (drop 24 { g with vertsDone := g.vertsDone + 1, draw := some { w with vertsLeft := w.vertsLeft - 1 } }, p)
    else if w.trisLeft ≠ 0 then
      if b.length < 6 then .wait
      else
        let idx := [field b 0 2, field b 2 2, field b 4 2]
        if idx.any (fun i => w.nvert ≤ i) then
          .more d (drop 6 { g with draw := some { w with trisLeft := w.trisLeft - 1 } },
            { p.fail 10 with trisDone := p.trisDone + 1 })
        else
          let v (k : Nat) : Nat := w.baseVert + idx.getD k 0
          let bytes := leBytes 4 (v 0 + w.cull * 2 ^ 24) ++ leBytes 4 (v 1) ++ leBytes 4 (v 2)
          let d := (d.write (geo + triBase g.nvert + 12 * p.trisDone) bytes).chargeDevice { dram := 12 }
          .more d (drop 6 { g with draw := some { w with trisLeft := w.trisLeft - 1 } },
            { p with trisDone := p.trisDone + 1 })
    else if w.padLeft ≠ 0 then
      if b.length < w.padLeft then .wait
      else .more d (drop w.padLeft { g with draw := some { w with padLeft := 0 } }, p)
    else
      .more d ({ g with draw := none, drawsDone := g.drawsDone + 1 }, { p with drawEnds := p.drawEnds ++ [p.trisDone] })

/-- R309: an accepted set whose triangles are all binned or marked closes. -/
def SetRec.close (x : SetRec) : SetRec :=
  if x.2.accepted && x.2.flush.isNone && decide (x.1.ntri ≤ x.2.nextTri) then ({ x.1 with phase := .closed }, x.2) else x

/-- R308: a set not accepted at D_G is discarded; its container, when open still, carries on to its Frame End. -/
def Device.discardLate (d : Device) (x : SetRec) : Device :=
  let mine (c : Container) : Bool :=
    c.dt = some 0x31 && field c.header 2 1 = x.1.stream && field c.header 3 1 = x.1.kind && field c.header 4 4 = x.1.frame
  let (x, d) := d.haltFlush x
  let d := (d.dropSet x).modRfe (fun r => { r with late := satInc r.late })
  { d with lanes := { d.lanes with
      open_ := d.lanes.open_.map (fun c => if mine c then { c with opened := false } else c) } }

/-- D_G(n) has passed. -/
def Device.guideLate (d : Device) (s n : Nat) : Bool := d.itn.t0.isSome && decide (d.guideTime s n < (d.now : Int))

/-- R307, R308: the trailer has come; on time, the set is accepted, and else it is discarded. -/
def Device.trailerIn (d : Device) (x : SetRec) (stamp : Nat) (digest : List Byte) : Device :=
  let (g, p) := x
  let p := { p with trailer := some stamp, digest := digest }
  -- R23: a set of a slot that has started is never used; its container counts as a rejected input at its Frame End
  if d.itn.t0.isNone ∨ ((stamp : Int) ≤ d.guideTime g.stream g.slot ∧ stamp < d.frameStart g.stream g.slot) then
    let d := d.modRfe (fun r => { r with accepted := satInc r.accepted })
    let d := d.modSlot g.stream g.slot (fun y =>
      if g.kind = 0 then { y with guideOk := some true, guideDigest := some digest }
      else { y with overlayDigest := some digest })
    (d.putSet (SetRec.close ({ g with phase := .accepted, tail := [] }, { p with accepted := true }))).releaseSets
  else d.discardLate (g, p)

/-- A failure at checks 8 to 11 discards all that the set has written. -/
def Device.failSet (d : Device) (h : List Byte) (lane : Nat) (x : SetRec) (e : SetFail) : Device :=
  let (x, d) := d.haltFlush x
  (d.dropSet x).rejectSet h lane e

/-- The parse of what has arrived. -/
def Device.feed (h : List Byte) (lane stamp : Nat) (digest : List Byte) (r : RasterRec) :
    (fuel : Nat) → Device → SetRec → Device
  | 0, d, x => d.putSet x
  | fuel + 1, d, x =>
    match d.feedStep r x stamp with
    | .more d x => Device.feed h lane stamp digest r fuel d x
    | .wait => d.putSet x
    | .done s => d.trailerIn x s digest
    | .fail e => d.failSet h lane x e

/-- The set that a container with header `h` fills, while it stands. -/
def Device.feedSet (d : Device) (h : List Byte) : Option SetRec :=
  d.rfe.sets.find? (fun x => x.1.stream = field h 2 1 && x.1.kind = field h 3 1 && x.1.frame = field h 4 4 &&
    x.1.phase ≠ .closed)

/-- Bytes of a set after its header, with the stamp of their packet and the digest of the container so far; bytes
beyond the trailer break TOTAL_BYTES. -/
def Device.feedBytes (d : Device) (h : List Byte) (lane stamp : Nat) (digest bytes : List Byte) : Device :=
  match d.feedSet h with
  | none => d
  | some x =>
    match d.image.rasters[x.1.recIdx]? with
    | none => d
    | some r =>
      if bytes.isEmpty then d
      else if x.2.trailer.isSome then d.failSet h lane x (.badDimensions, 11)
      else
        let g := { x.1 with tail := x.1.tail ++ bytes, total := x.1.total + bytes.length }
        -- every item takes at least one step of the loop, and a draw closes with one more
        Device.feed h lane stamp digest r (2 * g.tail.length + 4) d (g, x.2)

/-- The first packet of a geometry container: checks 1 to 7, then the bytes that follow the header. The answer says
whether the checks passed and whether a set stands open: one that comes after D_G is discarded (R308). -/
def Device.feedHeader (d : Device) (lane stamp : Nat) (digest bytes : List Byte) : Bool × Bool × Device :=
  let h := bytes.take 64
  match d.setCheck h with
  | .error e => (false, false, d.rejectSet h lane e)
  | .ok (r, i, n) =>
    if d.guideLate r.stream n then (true, false, d.modRfe (fun x => { x with late := satInc x.late }))
    else (true, true, (d.openSet h r i n).feedBytes h lane stamp digest (bytes.drop 64))

/-- R23: the slot that a set names has started. -/
def Device.setPassed (d : Device) (h : List Byte) : Bool :=
  match d.unwrap (field h 2 1) (field h 4 4) with
  | none => true
  | some n => decide (d.frameStart (field h 2 1) n ≤ d.now)

/-- R23, R308: a set that was discarded at D_G and ends after its slot's frame start is a rejected input. -/
def Device.rejectPassed (d : Device) (h : List Byte) (lane : Nat) : Device :=
  let (bs, d) := d.freeBytes 1
  d.rejectInput
    { status := .deadlineMiss, order := leNat bs, container := 1, stream := some (field h 2 1), lane := lane,
      tag := field h 4 4 }

/-- The container ends before its trailer: the set's bytes are not those of a set (check 11), unless a lower check failed. -/
def Device.feedEnd (d : Device) (h : List Byte) (lane : Nat) : Device :=
  match d.feedSet h with
  | none => d
  | some x => if x.2.trailer.isNone then d.failSet h lane x (x.2.fault.getD (.badDimensions, 11)) else d

/-- A container that is rejected takes its set with it, unless the set is accepted. -/
def Device.feedLost (d : Device) (h : List Byte) : Device :=
  match d.feedSet h with
  | none => d
  | some x =>
    if x.2.accepted then d
    else
      let (x, d) := d.haltFlush x
      (d.dropSet x).modSlot x.1.stream x.1.slot (fun y =>
        if x.1.kind = 0 && y.guideOk ≠ some true then { y with guideOk := some false } else y)

/-! ### The guide decision (R307, R308) -/

/-- The next slot whose guide is decided, once its D_G has come. -/
def Device.guideSlot (d : Device) (s : Nat) : Option Nat :=
  let n := (d.strm s).guided
  if d.period s = 0 ∨ (d.now : Int) < d.guideTime s n then none else some n

def execGuideDecisionTime (t : Nat) (stream : Fin 32) (s : State) : Host.Outcome State Fault Refusal :=
  .next (s.runI t fun d => d.whenRunning fun d =>
    let st := stream.val
    let late := d.rfe.sets.filter (fun x => x.1.stream = st && !x.2.accepted && decide (d.guideTime st x.1.slot ≤ d.now))
    let d := late.foldl Device.discardLate d
    match d.rasterRec st 0, d.guideSlot st with
    | some _, some n =>
      let d := d.modStrm st (fun x => { x with guided := n + 1 })
      let y := d.slot st n
      if y.guideOk = some true ∨ d.isResim st then d
      else d.degrade st n (if y.guideOk = some false then 3 else 2)
    | _, _ => d)

/-! ### Binning (R322 to R326) -/

/-- R322: the pixels of a box along one axis: ⌈(min − 128) / 256⌉ to ⌊(max − 128) / 256⌋, clamped. -/
def boxRange (vals : List Int) (ext : Nat) : Option (Nat × Nat) :=
  let lo := vals.foldl min (vals.headD 0)
  let hi := vals.foldl max (vals.headD 0)
  let first := max 0 (-((128 - lo) / 256))
  let last := min ((ext : Int) - 1) ((hi - 128) / 256)
  if last < first then none else some (first.toNat, last.toNat)

/-- The tiles of a triangle's box, in ascending ty, then tx. -/
def Tri.tiles (t : Tri) (r : RasterRec) : List Nat :=
  let vs := [t.v0, t.v1, t.v2]
  match boxRange (vs.flatMap (fun v => [v.x0, v.x1])) r.width, boxRange (vs.flatMap (fun v => [v.y0, v.y1])) r.height with
  | some (x0, x1), some (y0, y1) =>
    (List.range (y1 / 32 - y0 / 32 + 1)).flatMap (fun j =>
      (List.range (x1 / 32 - x0 / 32 + 1)).map (fun i => (y0 / 32 + j) * r.tw + x0 / 32 + i))
  | _, _ => []

/-- R325: a tile whose list takes a new block with its next entry. -/
def Device.needsBlock (d : Device) (r : RasterRec) (buf : Fin 2) (tile : Nat) : Bool :=
  let (_, last, _, _) := d.head r buf tile
  last = noBlock || field (d.peek (blockAddr last + 4) 4) 0 4 = 62

/-- One entry of triangle `n` at the end of a tile's list. -/
def Device.binEntry (d : Device) (r : RasterRec) (buf : Fin 2) (next n tile : Nat) : Nat × Device :=
  let (first, last, count, flags) := d.head r buf tile
  if d.needsBlock r buf tile then
    let block := leBytes 4 noBlock ++ leBytes 4 1 ++ leBytes 4 n ++ List.replicate 244 0xFF
    let d := (d.write (blockAddr next) block).chargeDevice { well := 256 }
    let d := if last = noBlock then d else (d.write (blockAddr last) (leBytes 4 next)).chargeDevice { well := 4 }
    (next + 1, d.putHead r buf tile (if first = noBlock then next else first) next (count + 1) flags)
  else
    let used := field (d.peek (blockAddr last + 4) 4) 0 4
    let d := d.write (blockAddr last + 4) (leBytes 4 (used + 1))
    let d := (d.write (blockAddr last + 8 + 4 * used) (leBytes 4 n)).chargeDevice { well := 8 }
    (next, d.putHead r buf tile first last (count + 1) flags)

/-- R336: INCOMPLETE in every tile of a box. -/
def Device.markTiles (d : Device) (r : RasterRec) (buf : Fin 2) (tiles : List Nat) : Device :=
  tiles.foldl (fun d t =>
    let (first, last, count, flags) := d.head r buf t
    d.putHead r buf t first last count (withBit flags 1 true)) d

/-- R336, R339: the engine of a set's partial render, when it may have one. -/
def Device.partialOn (d : Device) (r : RasterRec) (x : SetRec) : Option Nat :=
  if r.fMax ≤ x.2.partials ∨ x.1.kind = 1 then none
  else
    match d.flushTo x with
    | none => none
    | some e => if d.flushAllowed e x.1.stream x.1.slot d.now then some e else none

/-- A triangle that is set up and taken: it counts since the last switch point and in RFE_TRIS. One whose partial render is
still to run is taken again after it and counts then. -/
def Device.taken (d : Device) : Device :=
  d.modRfe (fun y => { y with served := y.served + 1, tris := (y.tris + 1) % 2 ^ 64 })

/-- Triangle N overflows (Table 7.9 order 1, R336). -/
def Device.overflow (d : Device) (r : RasterRec) (x : SetRec) (tiles : List Nat) : Device :=
  let (g, p) := x
  match d.partialOn r x with
  | some e =>
    let d := d.event .partialRender g.stream 0 g.frame
    let d := d.modRfe (fun y => { y with partials := satInc y.partials })
    d.putSet (g, { p with partials := p.partials + 1, flush := some (e, false, 0), flushAt := d.now })
  | none =>
    let d := d.taken.event .partialRender g.stream 1 g.frame
    let d := d.modRfe (fun y => { y with denied := satInc y.denied })
    let d := d.markTiles r g.buf tiles
    d.putSet (SetRec.close (g, { p with denied := true, incomplete := true, nextTri := p.nextTri + 1 }))

/-- R325: the next triangle of a set, wholly or not at all. -/
def Device.binNext (d : Device) (r : RasterRec) (x : SetRec) : Device :=
  let (g, p) := x
  let tri := d.triangle (r.geoBaseOf g.buf) g.nvert p.nextTri
  let tiles := tri.tiles r
  let step (q : GeoProg) : GeoProg := { q with nextTri := q.nextTri + 1 }
  if tiles.isEmpty then
    (d.taken.modRfe (fun y => { y with offscreen := satInc y.offscreen })).putSet (SetRec.close (g, step p))
  else if p.denied then (d.taken.markTiles r g.buf tiles).putSet (SetRec.close (g, step p))
  else
    let free := r.block0 g.buf + r.quota - p.nextBlock
    if free < (tiles.filter (d.needsBlock r g.buf)).length then d.overflow r x tiles
    else
      let (next, d) := tiles.foldl (fun (acc : Nat × Device) tile => acc.2.binEntry r g.buf acc.1 p.nextTri tile)
        (p.nextBlock, d.taken)
      d.putSet (SetRec.close (g, step { p with nextBlock := next }))

/-! ### Set switches (R343, R344) -/

/-- A set with a triangle to bin that no flush suspends and no check has failed. -/
def SetRec.pending (x : SetRec) : Bool :=
  x.1.phase ≠ .closed && x.2.flush.isNone && x.2.fault.isNone && decide (x.2.nextTri < x.2.trisDone)

/-- R344: overlay sets first, then the earliest D_G, then the lower stream. -/
def Device.setBefore (d : Device) (a b : SetRec) : Bool :=
  let key (x : SetRec) : Int := d.guideTime x.1.stream x.1.slot
  if a.1.kind ≠ b.1.kind then decide (b.1.kind < a.1.kind)
  else if key a ≠ key b then decide (key a < key b)
  else decide (a.1.stream < b.1.stream)

/-- R343: a draw boundary, or 4,096 triangles since the last switch point. -/
def Rfe.switchPoint (r : Rfe) (x : SetRec) : Bool :=
  decide (4096 ≤ r.served) || x.2.drawEnds.contains x.2.nextTri || x.2.nextTri = 0

/-- The set that goes on without a switch: it waits for its next triangle if that has not come. -/
def Device.keepsServing (d : Device) : Option SetRec :=
  match d.rfe.serving with
  | none => none
  | some (i, b) =>
    (d.rfe.sets.find? (fun x => x.1.recIdx = i && x.1.buf = b)).bind (fun x =>
      if x.2.flush.isSome || x.1.phase = .closed || d.rfe.switchPoint x then none else some x)

/-- R344, R484: the place in the RFE's slot table of the entry that a switch point takes in lockstep mode, with the stretches
between switch points that it has granted already: the next entry that is not void once COUNT of them are. -/
def Device.rfeEntry (d : Device) (tab : SlotTable) : Option (Nat × Nat × SlotEntry) :=
  let n := tab.entries.length
  let (pos, done) := d.rfe.slot
  let full := match tab.entries[pos]? with
    | some x => decide (x.count ≤ done)
    | none => true
  match d.tableNext tab n (if full then (pos + 1) % max 1 n else pos % max 1 n) with
  | some (q, x) => some (q, if !full && q = pos then done else 0, x)
  | none => none

/-- The set that a switch point takes among those with a triangle to bin, and whether the switch was a free choice. In lockstep
mode REQ names the raster record (log 57). -/
def Device.nextSet (d : Device) (all : List SetRec) : Option (SetRec × Bool × (Nat × Nat)) :=
  let all := sortBy d.setBefore all
  if d.ctl.lockstep then
    match (d.slotTable .rfePort).bind d.rfeEntry with
    | none => none
    | some (pos, done, y) => (all.find? (fun x => x.1.recIdx = y.req)).map (fun x => (x, false, (pos, done + 1)))
  else
    all.head?.map (fun x =>
      (x, decide (2 ≤ all.length) && decide (d.rfe.serving ≠ some (x.1.recIdx, x.1.buf)), d.rfe.slot))

def execTriangleBinning (t : Nat) (s : State) : Host.Outcome State Fault Refusal :=
  .next (s.runI t fun d => d.whenRunning fun d =>
    let bin (d : Device) (x : SetRec) : Device :=
      match d.image.rasters[x.1.recIdx]? with
      | none => d
      | some r => d.binNext r x
    match d.keepsServing with
    | some x => if x.pending then bin d x else d
    | none =>
      match d.nextSet (d.rfe.sets.filter SetRec.pending) with
      | none => d
      | some (x, choice, slot) =>
        bin (d.modRfe (fun y =>
          { y with
            serving := some (x.1.recIdx, x.1.buf), served := 0, slot := slot,
            freeChoice := if choice then satInc y.freeChoice else y.freeChoice })) x)

/-! ### Flush jobs (Table 7.9) -/

/-- R338, R339: the flush job of a set that can start on engine `e` now. -/
def Device.flushReady (d : Device) (e : Nat) (x : SetRec) : Bool := d.engineIdle e && d.flushDue e x

def execFlushJobStart (t : Nat) (engine : Fin 6) (s : State) : Host.Outcome State Fault Refusal :=
  .next (s.runI t fun d => d.whenRunning fun d =>
    let e := engine.val
    match (sortBy d.setBefore d.rfe.sets).find? (d.flushReady e) with
    | none => d
    | some x => d.beginFlush e x)

/-- Orders 5 to 7: the last record is sealed. -/
def execFlushJobEnd (t : Nat) (engine : Fin 6) (s : State) : Host.Outcome State Fault Refusal :=
  .next (s.runI t fun d => d.whenRunning fun d =>
    match d.flushSet engine.val with
    | none => d
    | some x => (d.flushAll engine.val x).retireCheck)

end Sys2Proof.Machine
end

