-- ==== Sys2Proof/Machine/SaveImage.lean ====
section
/-! DEFINITION. The save image of a context (R160, R187, Tables 4.6 and 4.18): its bytes, laid from the run that a full save
keeps, and whole tiles of memory moved with their seals. -/
namespace Sys2Proof.Machine

/-! ### Whole tiles -/

/-- Whole tiles replaced by listed bytes, with their seals in the tile's generation. -/
def Device.putTiles (d : Device) (a n : Nat) (listed : List (Nat × Byte)) : Device :=
  let len := n * tileBytes
  let mem := d.store.mem.filter (fun c => c.1 < a) ++ (listed ++ d.store.mem.filter (fun c => a + len ≤ c.1))
  let st := { d.store with mem := mem }
  let st := (List.range n).foldl (fun st i =>
    let tile := a + i * tileBytes
    sealPut st tile (sealOf mem tile (d.sealRegs.gen (domainOf tile)))) st
  { d with store := st }

/-- Whole tiles copied from `src` to `dst`. -/
def Device.copyTiles (d : Device) (src dst n : Nat) : Device :=
  d.putTiles dst n ((memWindow d.store.mem src (n * tileBytes)).map (fun c => (c.1 - src + dst, c.2)))

def signedField (bits : Nat) (v : Int) : Nat := (v % (2 ^ bits : Nat)).toNat

/-- Table 4.3. -/
def accBytes (c : Acc) : List Byte :=
  leBytes 16 (c.a.toNat + signedField 10 c.ef * 2 ^ 64 + signedField 10 c.et * 2 ^ 74 + min c.n (2 ^ 24 - 1) * 2 ^ 84 +
    boolNat c.nan * 2 ^ 108 + boolNat c.pinf * 2 ^ 109 + boolNat c.ninf * 2 ^ 110 + boolNat c.mode * 2 ^ 111)

/-! ### Instruction-level state (Table 4.6) -/

/-- Word `i` of VR0 to VR31 and of the other state that no command names (R147). -/
def laneWord (l : Option (Nat × Nat)) (i : Nat) : Word :=
  match l with
  | none => 0
  | some (e, steps) => Config.laneWord e steps i

/-- Lane `lane` of vector register `reg` of an engine, as an FP32 code. -/
def Engine.vr (x : Engine) (reg : Fin 32) (lane : Fin 256) : Word := laneWord x.lanes (256 * reg.val + lane.val)

/-- Words `i0`, `i0 + 1`, … as bytes. -/
def laneBytes (l : Option (Nat × Nat)) (i0 n : Nat) : List Byte :=
  (List.range n).flatMap (fun i => leBytes 4 (laneWord l (i0 + i)).toNat)

/-- Exactly `n` bytes, zeros after those given. -/
def padTo (n : Nat) (b : List Byte) : List Byte := (b ++ List.replicate n 0).take n

/-- Bytes of a decoded descriptor of the cache: the tensors in use, at most 8. -/
def Run.cacheBytes (r : Run) : List Byte :=
  let named := (descFields r.cmd).filter (fun f => !(f.2 && isNone r.cmd f.1))
  (named.take 8).flatMap (fun f => (descAt r.descs r.cmd f.1).bytes)

def Pos.bytes (p : Pos) : List Byte :=
  leBytes 1 p.kind ++ leBytes 1 p.half ++ leBytes 2 p.group ++ leBytes 2 p.set ++ leBytes 2 p.chunk ++ leBytes 2 p.slot ++
    leBytes 2 p.vector ++ leBytes 1 p.digit ++ leBytes 1 p.job ++ leBytes 2 p.issued

def WeightSrc.record (w : WeightSrc) : List Byte :=
  leBytes 6 w.addr ++ leBytes 4 w.bytes ++ leBytes 1 w.fmt ++ [0] ++ leBytes 2 w.slots ++ leBytes 2 w.set ++ leBytes 6 w.scaleAddr

/-- The XFR record of a COPY: its destination, its bytes and those that have moved (R78). -/
def RemoteCopy.bytes (m : RemoteCopy) (t : Desc) : List Byte := leBytes 6 t.base ++ [0, 0] ++ leBytes 4 m.len ++ leBytes 4 m.movedBytes

/-- The wait record: the flag or semaphore of a WAIT or acquire that has been withdrawn, which the restore issues again. -/
def Run.waitBytes (r : Run) : List Byte :=
  let c := r.cmd
  if !r.inCmd then []
  else if cmdOp c = opWAIT then leBytes 2 (field c 16 2) ++ leBytes 2 (field c 18 2) ++ leBytes 8 r.waitedAt ++ leBytes 4 (field c 20 4)
  else if cmdOp c = opSEM then leBytes 2 (field c 16 1) ++ [0, 0] ++ leBytes 8 r.waitedAt
  else []

/-- The field that names the tensor which a command's drain or vector unit writes (Table 4.12), for the opcodes that round. -/
def outField (op : Nat) : Option Nat :=
  match op with
  | 1 => some 17 | 2 => some 18 | 3 => some 19 | 4 => some 17 | 5 => some 17 | 7 => some 20 | 8 => some 17 | 12 => some 18
  | _ => none

/-- Number of the tensor that the command at hand writes (Table 4.6 rounding record). -/
def Run.outTensor (r : Run) : Nat := ((outField (cmdOp r.cmd)).map (fun o => (descAt r.descs r.cmd o).tensorId)).getD 0

/-- The records of Table 4.6 in their order. DESIGN CHOICE: the places of the fields inside a record (log 24). -/
def Run.stateBytes (r : Run) (l : Option (Nat × Nat)) (arith : BitVec 3) : List Byte :=
  let c := r.cmd
  padTo 16 (leBytes 6 r.addr ++ leBytes 2 r.idx ++ leBytes 4 r.due.count ++ leBytes 1 r.ctx) ++
  padTo 64 c ++ padTo 256 r.cacheBytes ++ padTo 16 r.pos.bytes ++
  laneBytes l 16384 6 ++ laneBytes l 16390 128 ++
  padTo 32 ((r.weights.map (·.record)).getD []) ++
  padTo 128 (((r.remote.or r.xfer).map (·.bytes (descAt r.descs c 17))).getD []) ++
  padTo 16 r.waitBytes ++
  padTo 8 (leBytes 1 (boolNat r.fused) ++ [0] ++ leBytes 2 r.groupAt) ++
  padTo 16 (leBytes 8 (cmdSeed c) ++ leBytes 2 r.outTensor ++
    leBytes 1 (boolNat (cmdSr c)) ++ leBytes 1 (boolNat (cmdSat c (cmdOutFmt c)))) ++
  padTo 32 (leBytes 1 (boolNat r.degraded) ++ leBytes 1 arith.toNat ++ [0, 0] ++ leBytes 8 r.steps)

/-- The image of the list of engine `e`: the header, the records of Table 4.6, the check state and VR0 to VR31, the
accumulator file and the first F tiles of scratch. -/
def Device.writeImage (d : Device) (e : Nat) (r : Run) (base f : Nat) : Device :=
  let x := d.eng e
  let steps := (vget d.toll.acct r.ctx
    { steps := 0, engineNs := 0, bytes := 0, energy := 0, launches := 0, his := Vector.replicate 4 0 }).steps
  let header := leBytes 2 1 ++ leBytes 1 r.ctx ++ leBytes 1 e ++ leBytes 2 f ++ [0, 0] ++
    leBytes 8 x.saveStart ++ leBytes 8 steps ++ leBytes 4 (imageBytes f)
  let d := d.putTiles base 37 []
  let d := d.write base header
  let d := d.write (base + 0x1000) (r.stateBytes x.lanes x.regs.arithStatus)
  let d := d.write (base + 0x4000) (laneBytes x.lanes 8192 8192)
  let d := d.write (base + 0xC000) (laneBytes x.lanes 0 8192)
  let d := x.acc.foldl (fun d y => d.write (base + 0x14000 + (256 * y.1 + y.2.1) * 16) (accBytes y.2.2)) d
  d.copyTiles (scratchBase e) (base + 0x94000) f

/-- R452: a full save or a restore moves the image and the scratch in it for its context. -/
def imageUse (f : Nat) : Use := { dram := imageBytes f, scratch := tileBytes * f }

/-- µs, saturating at 0xFFFF. -/
def saveUs (d : Device) (since : Nat) : Nat := min 0xFFFF ((d.now - since) / 1000)

end Sys2Proof.Machine
end

