-- ==== Sys2Proof/Machine/Resume.lean ====
section
/-! DEFINITION. How a yielded or saved context goes on (R190, R191, R460, R461), its remote COPY with what has
arrived meanwhile (R464). -/
namespace Sys2Proof.Machine

/-- R445: a context is selected to be served: a free choice where two or more are ready. -/
def Device.selectBe (d : Device) (c : Nat) : Device :=
  let p := d.partOf c
  let d := if !d.ctl.lockstep && decide (2 ≤ (d.readyCtxs p).length) then d.itnFreeChoice else d
  d.modPart p (fun y => { y with beServed := c })

/-- The kept list goes on at its command and its expansion position. -/
def Device.resumeRun (d : Device) (e c : Nat) (r : Run) (acc : List (Nat × Nat × Acc)) : Device :=
  let slice := ((d.partRec (d.partOf c)).map (·.beSlice)).getD 0
  let d := d.modCtx c (fun y => { y with kept := none, keptOn := none, keptSaved := false, keptAcc := [], byMark := false, mode := y.mode.next .running })
  let d := d.modEng e (fun y =>
    { y with run := some { r with started := d.now }, pre := .running, moving := none, request := none, acc := acc,
             regs := { y.regs with listAddr := r.addr },
             slice := if d.ctl.lockstep || !r.bestEffort then none else some (c, d.now + 1000 * slice) })
  match d.entryOf r.due.index r.due.entry with
  | some ent => d.noteAffinity ent e
  | none => d

/-- It goes on, with what has arrived for its remote COPY. -/
def Device.resume (d : Device) (e c : Nat) (r : Run) (acc : List (Nat × Nat × Acc)) : Device :=
  Device.pumpRemote e 1024 (d.resumeRun e c r acc)

/-- R190: a saved context starts to be restored, every image tile checked; a yielded one resumes at once. -/
def execRestore (t : Nat) (engine : Fin 6) (ctx : Fin 64) (s : State) : Host.Outcome State Fault Refusal :=
  .next (s.runI t fun d => d.whenRunning fun d =>
    let e := engine.val
    let c := ctx.val
    d.guard (d.mayResume e c) fun d =>
      match (d.ctx c).kept, d.ctxRec c with
      | some r, some cr =>
        let d := d.selectBe c
        if !(d.ctx c).keptSaved then d.resume e c r []
        else
          let tiles := tilesOf cr.saveBase (imageBytes cr.saveF)
          let (bad, d) := tiles.foldl (fun (acc : Option Nat × Device) tile =>
            match acc.1 with
            | some _ => acc
            | none =>
              match acc.2.verify tile with
              | (.failed, d) => (some tile, d)
              | (_, d) => (none, d)) (none, d)
          match bad with
          | some tile =>
            let d := d.charge c (tilesUse (tiles.filter (fun x => decide (x ≤ tile))))
            let d := (d.rung2 tile c).rung3 tile c
            d.teardown c 3 r.due.entry
          | none =>
            d.modEng e (fun y => { y with pre := .restoring, moving := some c, saveStart := d.now })
      | _, _ => d)

/-- R188: the weight set of the weight source record is fetched again, with its steps where it lies in scratch (R141). -/
def Device.reloadWeights (d : Device) (e : Nat) (r : Run) : Device :=
  match r.weights with
  | none => d
  | some w =>
    let d := if inOwnScratch e w.addr 1 then d.emptySteps e r.ctx (ceilDiv w.bytes 640) else d
    d.charge r.ctx (bytesUse (physAddr e w.addr) w.bytes)

/-- R191: the restored context continues at its expansion position; its scratch lies at the same offsets of this engine. -/
def execRestoreComplete (t : Nat) (engine : Fin 6) (s : State) : Host.Outcome State Fault Refusal :=
  .next (s.runI t fun d => d.whenRunning fun d =>
    let e := engine.val
    match (d.eng e).pre, (d.eng e).moving with
    | .restoring, some c =>
      match (d.ctx c).kept, d.ctxRec c with
      | some r, some cr =>
        let d := d.copyTiles (cr.saveBase + 0x94000) (scratchBase e) cr.saveF
        let d := d.charge c (imageUse cr.saveF)
        let (acc, lanes) := ((d.ctx c).keptAcc, (d.ctx c).keptLanes)
        let d := d.modEng e (fun y =>
          { y with lanes := lanes,
                   regs := { y.regs with restores := satInc y.regs.restores, lastRestoreUs := saveUs d y.saveStart }.addRange d.now r.lateFlags })
        Device.pumpRemote e 1024 ((d.resumeRun e c { r with lateFlags := 0 } acc).reloadWeights e r)
      | _, _ => d
    | _, _ => d)

end Sys2Proof.Machine
end

