-- ==== Sys2Proof/Machine/Streams.lean ====
section
/-! DEFINITION. The decision time of a slot: the selection of its anchor and the causes that it settles (R42, R284 to
R286, Table 1.2, R24). -/
namespace Sys2Proof.Machine

/-- The next slot to decide, once its decision time has come; slots whose time lies before T0 are decided first. -/
def Device.decidedSlot (d : Device) (s : Nat) : Option Nat :=
  let m := (d.strm s).decided
  if d.period s = 0 ∨ (d.now : Int) < d.decisionTime s m then none else some m

/-- R284: the accepted anchor with the largest tag at most m whose stamp is at most D(m). -/
def Device.usableAnchor (d : Device) (s m : Nat) : Option Anchor :=
  let x := d.strm s
  let all := x.inUse.toList ++ x.held
  (all.filter (fun a => decide (a.tag ≤ m) && decide ((a.stamp : Int) ≤ d.decisionTime s m))).foldl
    (fun best a => match best with
      | none => some a
      | some b => if b.tag < a.tag then some a else some b) none

/-- An encode entry of the slot whose group is enabled. -/
def Device.encodeEntry (d : Device) (s m : Nat) : Bool :=
  match d.active with
  | none => false
  | some i =>
    let per := d.slotsPerCycle s
    i.entries.any (fun e =>
      e.bind = 1 && (i.streamsOf e).contains s && d.itn.groupEn.getLsbD e.group && per != 0 && decide (e.slot ≤ m) &&
        (m - e.slot) % per = 0)

/-- An encode list that waits or runs encodes the anchor. -/
def Device.encoding (d : Device) (s tag : Nat) : Bool :=
  let mine (x : Due) : Bool := x.anchors.any (fun a => a.1 = s && a.2.tag = tag)
  d.allDues.any mine || d.allRuns.any (fun r => mine r.due)

/-- The selection at D(m) and what it settles of the slot. -/
def Device.select (d : Device) (s m : Nat) : Device :=
  let sel := d.usableAnchor s m
  let d := d.modSlot s m (fun y => { y with anchor := sel })
  let d := d.modStrm s (fun x =>
    { x with
      selected := sel, decided := m + 1,
      held := match sel with
        | some a => x.held.filter (fun b => decide (a.tag ≤ b.tag) || d.encoding s b.tag)
        | none => x.held })
  let absent := d.anchorAligned s m && (sel.map (·.tag)) ≠ some m
  let d := if absent then d.degrade s m (if (d.slot s m).anchorBad then 1 else 0) else d
  let d := if d.noMotion s m then d.degrade s m 12 else d
  if d.noAnchor s m then d.degrade s m 9
  else if (d.newerAnchor s m).isSome && d.encodeEntry s m then d
  else d.settleDistance s m

/-- What a selection and the causes that it settled left of the slot is undone, at the instant at which they arose. -/
def Device.unselect (d : Device) (s m : Nat) : Device :=
  let keep : BitVec 13 := ~~~(0x1A03 : BitVec 13)
  let before := (d.slot s (m - 1)).dist
  let d := d.modSlot s m (fun x =>
    { x with causes := x.causes &&& keep, ownCauses := x.ownCauses &&& keep, raised := x.causes &&& keep ≠ 0, dist := none, used := none })
  let d := d.modStrm s (fun x => { x with decided := m, lastD := if m = 0 then x.lastD else before.getD x.lastD })
  if (d.slot s m).raised then d
  else
    { d with i3c := { d.i3c with fresh := d.i3c.fresh.filter (fun e =>
        !(e.1 = .streamDegraded && e.2.1 = s && e.2.2.2 = m % 2 ^ 32)) } }

/-- R33, Table 12.14: an anchor whose Frame End has the stamp of a decision time is on time, also when the decision's command came
first: the slot is selected again, unless a list of it has been launched meanwhile. -/
def Device.reselect (d : Device) (s stamp : Nat) : Device :=
  let m := (d.strm s).decided - 1
  let used := (d.allDues ++ d.allRuns.map (·.due)).any (fun x =>
    (d.serveOf x).any (fun v => v.bind.isSome && v.streams.contains s && v.slot = m))
  if (d.strm s).decided = 0 ∨ !d.hasSsb s ∨ (stamp : Int) ≠ d.decisionTime s m ∨ stamp ≠ d.now ∨ used then d
  else (d.unselect s m).select s m

def execAnchorSelection (t : Nat) (stream : Fin 32) (s : State) : Host.Outcome State Fault Refusal :=
  .next (s.runI t fun d => d.whenRunning fun d =>
    let st := stream.val
    match d.decidedSlot st with
    | none => d
    | some m => if d.hasSsb st then d.select st m else d)

end Sys2Proof.Machine
end

