-- ==== Sys2Proof/Machine/Containers.lean ====
section
/-! DEFINITION. Containers (R526 to R536) and their validation (Table 12.10): headers, payload packets with their
compression (R529 to R531), unpacking (R533), rejections (R538) and what a Frame End does. -/
namespace Sys2Proof.Machine

/-! ### Fixed-rate sizes and PZ-L1 -/

/-- Formats of PZ-L1 with their code widths (R530). -/
def l1Bits (fmt : Nat) : Nat :=
  match fmt with
  | 0x2A => 8 | 0x80 => 8 | 0x2B => 10 | 0x2C => 12 | 0x2D => 14 | 0x2E => 16 | _ => 0

/-- Table 12.9: compression codes and their formats; code 0 serves every format of Table 12.8. -/
def compAllowed (comp fmt w : Nat) : Bool :=
  if comp = 0 then dtBits fmt != 0
  else if comp ≤ 2 then fmt = 0x2B
  else if comp ≤ 4 then fmt = 0x2C
  else if comp ≤ 6 then fmt = 0x2C && w % 4 = 0
  else if comp ≤ 8 then fmt = 0x80
  else comp = 9 && l1Bits fmt != 0

/-- A planar format of Table 12.8. -/
def isPlanar (fmt : Nat) : Bool := fmt = 0x80 || fmt = 0x81

/-- Planes that a packet unit counts: CHANNELS of a planar format, 1 of a packed one. -/
def unitPlanes (fmt channels : Nat) : Nat := if isPlanar fmt then channels else 1

/-- Payload packets of a container (R528, R529). -/
def packetCount (fmt comp channels h : Nat) : Nat :=
  (if comp = 7 ∨ comp = 8 then ceilDiv h 8 else h) * unitPlanes fmt channels

/-- Bytes of a fixed-rate payload packet (Tables 12.8, 12.9). -/
def packetSize (fmt comp w : Nat) : Nat :=
  if comp = 0 then lineBytes fmt w
  else if comp ≤ 4 then w
  else if comp ≤ 6 then 5 * w / 4
  else if comp = 7 then ceilDiv w 8 * 32
  else ceilDiv w 8 * 16

/-- R531: the bounds of a PZ-L1 packet. -/
def l1Bounds (w : Nat) : Nat × Nat :=
  let g := ceilDiv w 32
  (ceilDiv (4 * g + w) 8, ceilDiv (4 * g + 40 * w) 8)

/-- A payload packet's length is right. -/
def lengthOk (fmt comp w n : Nat) : Bool :=
  if comp = 9 then decide ((l1Bounds w).1 ≤ n) && decide (n ≤ (l1Bounds w).2) else n = packetSize fmt comp w

/-- PAYLOAD_BYTES of a header is right. -/
def payloadOk (fmt comp channels w h n : Nat) : Bool :=
  let k := packetCount fmt comp channels h
  if comp = 9 then decide (k * (l1Bounds w).1 ≤ n) && decide (n ≤ k * (l1Bounds w).2) else n = k * packetSize fmt comp w

/-- The run of 1 bits from `pos`, at most `fuel`. -/
def onesFrom (v pos : Nat) : (fuel : Nat) → Nat
  | 0 => 0
  | fuel + 1 => if bit v pos then 1 + onesFrom v (pos + 1) fuel else 0

/-- R530: one sample from bit `pos`: its value and the next bit. -/
def l1Sample (b v k pred pos : Nat) : Nat × Nat :=
  let q := onesFrom v pos 24
  let (z, next) :=
    if q = 24 then (v / 2 ^ (pos + 24) % 2 ^ b, pos + 24 + b)
    else (q * 2 ^ k + v / 2 ^ (pos + q + 1) % 2 ^ k, pos + q + 1 + k)
  let r : Int := if z % 2 = 1 then -(((z + 1) / 2 : Nat) : Int) else ((z / 2 : Nat) : Int)
  (((pred : Int) + r).emod (2 ^ b : Nat) |>.toNat, next)

/-- R530: the samples of a line; i counts them, k is the parameter of the group. -/
def l1Line (b v : Nat) : (n i k pred pos : Nat) → List Nat × Nat
  | 0, _, _, _, pos => ([], pos)
  | n + 1, i, k, pred, pos =>
    let (k, pos) := if i % 32 = 0 then (v / 2 ^ pos % 16, pos + 4) else (k, pos)
    let (s, pos) := l1Sample b v k pred pos
    let (rest, fin) := l1Line b v n (i + 1) k s pos
    (s :: rest, fin)

/-- R531: the decoding ends within the packet's last byte, and the padding bits are 0. -/
def l1Decode (b w : Nat) (bs : List Byte) : Option (List Nat) :=
  let v := leNat bs
  let (s, pos) := l1Line b v w 0 0 (2 ^ (b - 1)) 0
  if ceilDiv pos 8 = bs.length ∧ v / 2 ^ pos = 0 then some s else none

/-! ### RAW compression (R529; the schemes are the CSI-2 standard's, PRESUMED, log 6) -/

/-- A scheme: bits of a sample and of a code, the step of its uncompressed codes, and its DPCM rows: the bits of the row's tag, the
tag, the step and the smallest difference. -/
structure RawScheme where
  sample : Nat
  code : Nat
  pcm : Nat
  rows : List (Nat × Nat × Nat × Nat)
  deriving DecidableEq, Repr

def raw10to8 : RawScheme :=
  { sample := 10, code := 8, pcm := 8, rows := [(2, 0b00, 1, 0), (3, 0b010, 2, 32), (3, 0b011, 4, 64)] }
def raw12to8 : RawScheme :=
  { sample := 12, code := 8, pcm := 32
    rows := [(4, 0b0000, 1, 0), (3, 0b011, 2, 8), (3, 0b010, 4, 40), (3, 0b001, 8, 104), (4, 0b0001, 16, 232)] }
def raw12to10 : RawScheme :=
  { sample := 12, code := 10, pcm := 8, rows := [(2, 0b00, 1, 0), (3, 0b010, 2, 128), (3, 0b011, 4, 256)] }

/-- One sample from its code and its prediction; each step decodes to its middle. -/
def RawScheme.sampleOf (k : RawScheme) (c : Nat) (pred : Option Nat) : Nat :=
  let top := 2 ^ k.sample - 1
  match pred with
  | none => min top (c * 2 ^ (k.sample - k.code) + 2 ^ (k.sample - k.code) / 2)
  | some p =>
    if c / 2 ^ (k.code - 1) = 1 then
      let v := k.pcm * (c % 2 ^ (k.code - 1))
      min top (if p < v then v + k.pcm / 2 - 1 else v + k.pcm / 2)
    else
      match k.rows.find? (fun r => c / 2 ^ (k.code - r.1) = r.2.1) with
      | none => p
      | some (n, _, step, base) =>
        let v := step * (c % 2 ^ (k.code - n - 1)) + base + (step / 2 - 1)
        if c / 2 ^ (k.code - n - 1) % 2 = 1 then p - v else min top (p + v)

/-- The prediction from the samples so far, the last one first: predictor 1 takes the sample two before; predictor 2 goes with the
slope of the last samples. -/
def rawPredict (two : Bool) (prev : List Nat) : Option Nat :=
  let goes (a b c : Nat) : Bool := (decide (a ≤ b) && decide (b ≤ c)) || (decide (b ≤ a) && decide (c ≤ b))
  match two, prev with
  | false, _ :: b :: _ => some b
  | false, _ => none
  | true, [] => none
  | true, [a] => some a
  | true, [_, b] => some b
  | true, [a, b, c] => some (if goes a b c then a else b)
  | true, a :: b :: c :: e :: _ =>
    if goes a b c then some a
    else if (decide (a ≤ c) && decide (b ≤ e)) || (decide (c ≤ a) && decide (e ≤ b)) then some b
    else some ((b + e + 1) / 2)

def RawScheme.line (k : RawScheme) (two : Bool) : (codes prev : List Nat) → List Nat
  | [], prev => prev.reverse
  | c :: rest, prev => RawScheme.line k two rest (k.sampleOf c (rawPredict two prev) :: prev)

/-- A compressed line under COMP 1 to 6: codes of 8 bits a byte each, codes of 10 bits packed as RAW10's. -/
def rawDecompress (comp w : Nat) (payload : List Byte) : List Nat :=
  let two := comp % 2 = 0
  if comp ≤ 2 then raw10to8.line two ((payload.take w).map (·.toNat)) []
  else if comp ≤ 4 then raw12to8.line two ((payload.take w).map (·.toNat)) []
  else raw12to10.line two (unpackValues 0x2B w payload) []

/-! ### Headers (Table 12.7) -/

def hdrFormat (h : List Byte) : Nat := field h 12 1
def hdrComp (h : List Byte) : Nat := field h 13 1
def hdrChannels (h : List Byte) : Nat := field h 14 1
def hdrWidth (h : List Byte) : Nat := field h 8 2
def hdrHeight (h : List Byte) : Nat := field h 10 2
def hdrTag (h : List Byte) : Nat := field h 4 4
def hdrPayload (h : List Byte) : Nat := field h 16 4

/-- The tag of a container: FRAME of an image or a set, K of a command. -/
def Container.tag (c : Container) : Nat := field c.header 4 4

/-- Planes of an image as its header gives it. -/
def hdrPlanes (h : List Byte) : List PlaneShape :=
  inputPlanes (hdrFormat h) (hdrChannels h) (hdrWidth h) (hdrHeight h)

/-- Number of the container kind in Table 12.15. -/
def containerKind (dt : Option Nat) : Nat :=
  match dt with
  | some 0x31 => 1 | some 0x32 => 2 | some 0x33 => 3 | _ => 0

/-! ### The open containers -/

def Device.modLanes (d : Device) (f : Lanes → Lanes) : Device := { d with lanes := f d.lanes }

def Device.openAt (d : Device) (lane vc : Nat) : Option Container :=
  d.lanes.open_.find? (fun c => c.lane.val = lane && c.vc = vc)

def Device.putContainer (d : Device) (c : Container) : Device :=
  d.modLanes (fun l => { l with open_ := c :: l.open_.filter (fun x => !(x.lane = c.lane && x.vc = c.vc)) })

def Device.dropContainer (d : Device) (lane vc : Nat) : Device :=
  d.modLanes (fun l => { l with open_ := l.open_.filter (fun x => !(x.lane.val = lane && x.vc = vc)) })

/-- The input record of a lane and VC. -/
def Device.inputAt (d : Device) (lane vc : Nat) : Option InputRec :=
  d.image.inputs.find? (fun r => r.lane = lane && r.vc = vc)

/-- A stream that tunes, suspended or not (R403). -/
def Device.tuningEnabled (d : Device) (s : Nat) : Bool := (d.tuneRec s).any (·.enable)

/-- R538, R403: a rejected container or packet is counted; a reference of a tuning stream is a reference drop. -/
def Device.countReject (d : Device) (stream : Option Nat) (dt : Option Nat) (st : Status) (order lane tag : Nat) : Device :=
  match dt, stream with
  | some 0x32, some s =>
    if d.tuningEnabled s then d.refDrop s
    else d.rejectInput { status := st, order := order, container := 2, stream := stream, lane := lane, tag := tag }
  | _, _ =>
    d.rejectInput
      { status := st, order := order, container := containerKind dt, stream := stream, lane := lane, tag := tag }

/-- What a rejected container leaves: an anchor's slot follows Table 1.2, a geometry set goes with it. -/
def Device.loseContainer (d : Device) (c : Container) : Device :=
  match c.stream, c.dt with
  | some s, some 0x30 =>
    if c.header.isEmpty then d
    else
      match d.unwrap s c.tag with
      | some n => d.modSlot s n (fun y => { y with anchorBad := true })
      | none => d
  | some s, some 0x31 =>
    let d := if c.opened then d.feedLost c.header else d
    if c.header.isEmpty ∨ field c.header 3 1 ≠ 0 then d
    else
      match d.unwrap s c.tag with
      | some n => d.modSlot s n (fun y =>
          if y.guideOk = some true then y else { y with guideOk := some false })
      | none => d
  | _, _ => d

/-- A container is rejected: its buffer is free, and its later packets are ignored until its Frame End. -/
def Device.rejectContainer (d : Device) (c : Container) (st : Status) (order : Nat) : Device :=
  let d := d.putContainer { c with dead := true, buf := none, bytes := [] }
  (d.loseContainer c).countReject c.stream c.dt st order c.lane.val c.tag

/-- Every open container that `p` picks is rejected. -/
def Device.rejectAll (d : Device) (p : Container → Bool) (st : Status) (order : Nat) : Device :=
  let d := (d.lanes.open_.filter (fun c => p c && !c.dead)).foldl (fun (d : Device) c => d.rejectContainer c st order) d
  d.modLanes (fun l => { l with open_ := l.open_.filter (fun c => !p c) })

/-! ### Image headers (orders 6 to 9) -/

/-- R283: the lower-numbered receive buffer that no held anchor and no open container has. -/
def Device.freeBuffer (d : Device) (s : Nat) : Option (Fin 2) :=
  let used (b : Fin 2) : Bool := (d.strm s).held.any (fun a => a.buf = b) ||
    d.lanes.open_.any (fun c => c.stream = some s && c.dt = some 0x30 && c.buf = some b)
  [0, 1].find? (fun b => !used b)

/-- Order 6 for an anchor or a reference. -/
def Device.headerShape (d : Device) (r : InputRec) (ref : Bool) (fs : Nat) (h : List Byte) : Bool :=
  let fmt := hdrFormat h
  let ch := hdrChannels h
  h.length = 128 && field h 0 2 = 1 && field h 2 1 = r.stream && field h 3 1 = boolNat ref && field h 15 1 = 0 &&
    field h 20 4 = 0 && field h 60 4 = 0 && dtBits fmt != 0 &&
    (if isPlanar fmt then decide (1 ≤ ch) && decide (ch ≤ 8) else ch = 0) &&
    compAllowed (hdrComp h) fmt (hdrWidth h) && r.compMask.getLsbD (hdrComp h) && fs = hdrTag h % 2 ^ 16 &&
    (if ref then (fmt = 0x24 || (fmt = 0x80 && ch = 3)) && (hdrComp h = 0 || hdrComp h = 9) && d.tuningEnabled r.stream
     else fmt = r.format && ch = r.channels)

/-- Order 7: the dimensions and PAYLOAD_BYTES. -/
def Device.headerDims (d : Device) (r : InputRec) (ref : Bool) (h : List Byte) : Bool :=
  let w := hdrWidth h
  let hh := hdrHeight h
  let size := if ref then
      match d.rasterRec r.stream 0 with
      | some g => decide (w = g.width) && decide (hh = g.height) && decide (256 ≤ w) && decide (256 ≤ hh)
      | none => false
    else w = r.width && hh = r.height
  decide (1 ≤ w ∧ w ≤ 8192) && decide (1 ≤ hh ∧ hh ≤ 8192) && size && w % inputWidthUnit (hdrFormat h) = 0 &&
    payloadOk (hdrFormat h) (hdrComp h) (hdrChannels h) w hh (hdrPayload h)

/-- R23, R282: the frame start of slot n is at or before the stamp. -/
def Device.slotPassed (d : Device) (s n stamp : Nat) : Bool := d.itn.t0.isSome && decide (d.frameStart s n ≤ stamp)

/-- Order 8 for an anchor. -/
def Device.anchorTag (d : Device) (s tag stamp : Nat) : Option Status :=
  match d.unwrap s tag with
  | none => some .deadlineMiss
  | some n => if !d.anchorAligned s n then some .unsupported else if d.slotPassed s n stamp then some .deadlineMiss else none

/-- The hold that a reference serves (R403). -/
def Device.holdFor (d : Device) (s tag stamp : Nat) : Option Hold :=
  match d.unwrap s tag with
  | none => none
  | some n =>
    if (d.tune s).suspended then none
    else (d.tune s).holds.find? (fun h => h.slot = n && decide (stamp ≤ h.expiry))

/-- Orders 6 to 9 on the header of an image container: the failure, or the buffer that an anchor claims. -/
def Device.checkHeader (d : Device) (r : InputRec) (c : Container) (ref : Bool) (stamp : Nat) (h : List Byte) :
    Except (Status × Nat) (Option (Fin 2)) :=
  let s := r.stream
  if !d.headerShape r ref c.fsData h then .error (.unsupported, 6)
  else if !d.headerDims r ref h then .error (.badDimensions, 7)
  else if ref then
    -- R403: a stream that does not tune takes no reference; the hold is asked for at the Frame End
    if d.tuningEnabled s then .ok none else .error (.unsupported, 6)
  else
    match d.anchorTag s (hdrTag h) stamp with
    | some st => .error (st, 8)
    | none =>
      match d.freeBuffer s with
      | none => .error (.noCredit, 9)
      | some b => .ok (some b)

/-! ### Unpacking (R533) -/

/-- Where an image is unpacked. -/
def Container.base (c : Container) (r : InputRec) : Nat :=
  match c.buf with
  | some b => vget r.rxBase b.val 0
  | none => r.refBase

/-- Table 12.8: the unpacked value of a code of a format. -/
def unpackedValue (fmt v : Nat) : Nat :=
  match fmt with
  | 0x1F => toFloat fmtFP16 .rne false (intNum v 0)
  | 0x2B => toFloat fmtFP16 .rne false (intNum v 0)
  | 0x2C => fpOfInt v
  | 0x2D => fpOfInt v
  | 0x2E => fpOfInt v
  | 0x2F => fpOfInt v
  | _ => v

/-- The lanes' write of a row; it acts for no context (R452). -/
def Device.laneWrite (d : Device) (a : Nat) (bs : List Byte) : Device :=
  (d.write a bs).chargeDevice (bytesUse a bs.length)

/-- One row of one plane. -/
def Device.putInputRow (d : Device) (base : Nat) (h : List Byte) (p y : Nat) (vals : List Nat) : Device :=
  let planes := hdrPlanes h
  match planes[p]? with
  | none => d
  | some q =>
    d.laneWrite (base + 16384 + p * inputStride planes + y * q.pitch)
      ((vals.take q.width).flatMap (fun v => leBytes q.elem (unpackedValue (hdrFormat h) v)))

/-- The rows of a packet: plane, row and values; none when its PZ-L1 string is not exact. -/
def packetRows (h : List Byte) (i : Nat) (payload : List Byte) : Option (List (Nat × Nat × List Nat)) :=
  let fmt := hdrFormat h
  let comp := hdrComp h
  let w := hdrWidth h
  let n := max 1 (unitPlanes fmt (hdrChannels h))
  let (y, p) := (i / n, i % n)
  if comp = 0 then
    let ch := unpackLine fmt w payload
    some (if isPlanar fmt then [(p, y, ch.getD 0 [])]
      else (List.range ch.length).map (fun k => (k, y, ch.getD k [])))
  else if comp ≤ 6 then some [(0, y, rawDecompress comp w payload)]
  else if comp ≤ 8 then
    let bb := if comp = 7 then 32 else 16
    let code := comp - 6
    let blocks := (List.range (ceilDiv w 8)).map (fun b => field payload (b * bb) bb)
    some (((List.range 8).filter (fun r => 8 * y + r < hdrHeight h)).map (fun r =>
      (p, 8 * y + r, (List.range w).map (fun x => frDecode code (blocks.getD (x / 8) 0) (8 * r + x % 8)))))
  else (l1Decode (l1Bits fmt) w payload).map (fun v => [(p, y, v)])

/-- The image lines that a packet carries (R404). -/
def packetLines (h : List Byte) (i : Nat) : List Nat := [i / max 1 (unitPlanes (hdrFormat h) (hdrChannels h))]

def Device.putLines (d : Device) (base : Nat) (h : List Byte) (rows : List (Nat × Nat × List Nat)) : Device :=
  rows.foldl (fun (d : Device) x => d.putInputRow base h x.1 x.2.1 x.2.2) d

/-- Rows of a packet that did not decode (a reference with a CRC failure, R404): their bytes are open (log 4). -/
def Device.freeRows (d : Device) (base : Nat) (h : List Byte) (i : Nat) : Device :=
  let n := max 1 (unitPlanes (hdrFormat h) (hdrChannels h))
  let planes := hdrPlanes h
  match planes[i % n]? with
  | none => d
  | some q =>
    let (bs, d) := d.freeBytes (q.width * q.elem)
    d.laneWrite (base + 16384 + i % n * inputStride planes + i / n * q.pitch) bs

/-! ### Long packets -/

/-- The first packet of an image container: its header (orders 6 to 10). -/
def Device.imageHeader (d : Device) (r : InputRec) (c : Container) (stamp : Nat) (h : List Byte) (crcOk : Bool) :
    Device :=
  let ref := c.dt = some 0x32
  let c := { c with header := h, bytes := h }
  match d.checkHeader r c ref stamp h with
  | .error (st, order) => d.rejectContainer c st order
  | .ok buf =>
    let c := { c with buf := buf }
    let d := (d.putContainer c).laneWrite (c.base r) h
    if crcOk || ref then d else d.rejectContainer c .checkFail 10

/-- Order 10 for a payload packet of an image container. -/
def Device.imagePayload (d : Device) (r : InputRec) (c : Container) (payload : List Byte) (crcOk : Bool) : Device :=
  let h := c.header
  let ref := c.dt = some 0x32
  let i := c.packets
  let lines := if crcOk then [] else packetLines h i
  let c' := { c with packets := i + 1, bytes := c.bytes ++ payload, badLines := c.badLines ++ lines }
  if !crcOk && !ref then d.rejectContainer c .checkFail 10
  else if packetCount (hdrFormat h) (hdrComp h) (hdrChannels h) (hdrHeight h) ≤ i ∨
      !lengthOk (hdrFormat h) (hdrComp h) (hdrWidth h) payload.length then d.rejectContainer c .badDimensions 10
  else
    match packetRows h i payload with
    | some rows => (d.putLines (c.base r) h rows).putContainer c'
    | none => if crcOk then d.rejectContainer c .badDimensions 10 else (d.freeRows (c.base r) h i).putContainer c'

/-- A packet of a geometry container (R534): orders 6 and 10, then the set checks. -/
def Device.geometryPacket (d : Device) (s : Nat) (c : Container) (stamp : Nat) (payload : List Byte) (crcOk : Bool) :
    Device :=
  let bytes := c.bytes ++ payload
  if c.packets = 0 then
    let c := { c with header := payload.take 64, bytes := bytes, packets := 1 }
    if payload.length < 64 ∨ field payload 2 1 ≠ s ∨ c.fsData ≠ field payload 4 4 % 2 ^ 16 then
      d.rejectContainer c .unsupported 6
    else if !crcOk then d.rejectContainer c .checkFail 10
    else
      let (ok, stands, d) := d.feedHeader c.lane.val stamp (shake bytes) payload
      if ok then d.putContainer { c with opened := stands } else d.putContainer { c with dead := true, bytes := [] }
  else if !crcOk then d.rejectContainer c .checkFail 10
  else if payload.isEmpty then d.rejectContainer c .badDimensions 10
  else if !c.opened then d.putContainer { c with bytes := bytes, packets := c.packets + 1 }
  else
    let d := d.feedBytes c.header c.lane.val stamp (shake bytes) payload
    let stands := (d.openAt c.lane.val c.vc).any (·.opened)
    d.putContainer { c with bytes := bytes, packets := c.packets + 1, opened := stands }

/-- The packet of a command container (R535). -/
def Device.commandPacket (d : Device) (c : Container) (payload : List Byte) (crcOk : Bool) : Device :=
  if c.packets ≠ 0 then d.rejectContainer c .badDimensions 10
  else
    let c := { c with header := payload, bytes := payload, packets := 1 }
    if field payload 0 2 ≠ 1 ∨ field payload 2 2 ≠ 0 ∨ c.fsData ≠ field payload 4 4 % 2 ^ 16 ∨
        !modeShape (payload.drop 8) then d.rejectContainer c .unsupported 6
    else if !crcOk then d.rejectContainer c .checkFail 10
    else if payload.length ≠ 64 then d.rejectContainer c .badDimensions 10
    else d.putContainer c

/-- R526: a long packet joins the open container of its VC. -/
def Device.longPacket (d : Device) (lane vc stamp dt : Nat) (payload : List Byte) (crcOk : Bool) : Device :=
  let stream := if vc = 31 then none else (d.inputAt lane vc).map (·.stream)
  match d.openAt lane vc with
  | none => d.countReject stream (some dt) .unsupported 5 lane 0
  | some c =>
    if c.dead then d
    else if c.dt.any (· ≠ dt) then d.rejectContainer c .unsupported 5
    else
      let c := { c with dt := some dt }
      if dt = 0x33 then d.commandPacket c payload crcOk
      else
        match d.inputAt lane vc with
        | none => d
        | some r =>
          if dt = 0x31 then d.geometryPacket r.stream c stamp payload crcOk
          else if c.header.isEmpty then d.imageHeader r c stamp payload crcOk
          else d.imagePayload r c payload crcOk

/-! ### Frame Start and Frame End -/

/-- A Frame Start opens a container; one that is open is rejected (order 5). -/
def Device.frameStartIn (d : Device) (lane : Fin 24) (vc stamp data : Nat) : Device :=
  let d := match d.openAt lane.val vc with
    | some c => if c.dead then d else d.rejectContainer c .unsupported 5
    | none => d
  d.putContainer
    { lane := lane, vc := vc, stream := if vc = 31 then none else (d.inputAt lane.val vc).map (·.stream), fsData := data,
      openedAt := stamp, dt := none, bytes := [], packets := 0, header := [], buf := none, opened := false, badLines := [],
      dead := false }

/-- Containers of a stream that pass order 11. -/
def Device.countAccept (d : Device) (s : Nat) : Device :=
  d.modLanes (fun l => { l with inAccept := vmod l.inAccept s satInc })

/-- R22, R42, R282: a complete anchor is accepted, unless its slot has started or its tag is taken. -/
def Device.acceptAnchor (d : Device) (s : Nat) (c : Container) (stamp : Nat) : Device :=
  let reject (st : Status) (order : Nat) (d : Device) : Device :=
    d.rejectInput { status := st, order := order, container := 0, stream := some s, lane := c.lane.val, tag := c.tag }
  match d.unwrap s c.tag, c.buf with
  | some n, some b =>
    let x := d.strm s
    if d.slotPassed s n stamp then reject .deadlineMiss 8 (d.loseContainer c)
    else if x.tags.contains n ∨ x.held.any (fun a => a.tag = n) ∨ x.inUse.any (fun a => a.tag = n) then
      reject .alreadyDone 11 d
    else
      let h := c.header
      let a : Anchor :=
        { tag := n, stamp := stamp, buf := b, digest := shake c.bytes, renderTime := (h.drop 24).take 8,
          pose := (h.drop 32).take 28, user := (h.drop 64).take 64 }
      (d.modStrm s (fun y =>
        { y with held := y.held ++ [a], everAccepted := true, tags := (n :: y.tags).take 4 })).reselect s stamp
  | _, _ => d

/-- R403: a complete reference joins its hold, or is dropped. -/
def Device.acceptReference (d : Device) (s : Nat) (c : Container) (stamp : Nat) : Device :=
  let d := d.expireHolds s stamp
  match d.holdFor s c.tag stamp with
  | none => d.refDrop s
  | some h =>
    d.modTune s (fun x => { x with holds := x.holds.map (fun y =>
      if y.slot = h.slot then { y with reference := some (stamp, c.badLines) } else y) })

/-- R536, R501: a command is accepted for its boundary; in replay the recorded mode changes stand for it (log 17). -/
def Device.acceptCommand (d : Device) (c : Container) (stamp : Nat) : Device :=
  let body := c.header.drop 8
  match d.commandStatus c.tag stamp body with
  | .ok =>
    if d.ctl.replay then d
    else d.acceptMode { k := c.tag, fromI3c := false, order := (stamp, c.lane.val), body := body }
  | st =>
    d.rejectInput { status := st, order := 11, container := 3, stream := none, lane := c.lane.val, tag := c.tag }

/-- Order 11: every expected packet has come. -/
def Container.complete (c : Container) : Bool :=
  let h := c.header
  match c.dt with
  | none => false
  | some 0x31 => c.packets != 0
  | some 0x33 => c.packets = 1
  | some _ =>
    c.packets = packetCount (hdrFormat h) (hdrComp h) (hdrChannels h) (hdrHeight h) &&
      c.bytes.length = 128 + hdrPayload h

/-- A Frame End closes the container of its VC (order 11; its field is not checked for a geometry container). -/
def Device.frameEndIn (d : Device) (lane vc stamp data : Nat) : Device :=
  match d.openAt lane vc with
  | none => d
  | some c =>
    if c.dead then d.dropContainer lane vc
    else if !c.complete then (d.rejectContainer c .badDimensions 11).dropContainer lane vc
    else if c.dt ≠ some 0x31 ∧ data ≠ c.fsData then (d.rejectContainer c .unsupported 11).dropContainer lane vc
    else
      let d := d.dropContainer lane vc
      match c.stream, c.dt with
      | some s, some 0x30 => (d.countAccept s).acceptAnchor s c stamp
      | some s, some 0x32 => (d.countAccept s).acceptReference s c stamp
      | some s, some 0x31 =>
        if !c.opened then if d.setPassed c.header then d.rejectPassed c.header c.lane.val else d.countAccept s
        else
        let ended := d.feedEnd c.header c.lane.val
        let whole := ended.rfe.sets.any (fun x => x.1.stream = s && x.1.kind = field c.header 3 1 &&
          x.1.frame = c.tag && x.2.trailer.isSome)
        if whole then ended.countAccept s else ended
      | _, some 0x33 => d.acceptCommand c stamp
      | _, _ => d

/-! ### Packets (orders 2 to 5) -/

/-- Order 2: the header's ECC and VC; its discard rejects a container open on the VC, which only orders from 3 on would count
(R538). -/
def Device.headerOk (d : Device) (lane : Nat) (head : PacketHead) : Bool × Device :=
  let vc := head.frameVc.toNat
  if 2 ≤ head.eccErrors ∨ head.headerVc.toNat ≠ vc % 16 then
    let d := d.modLanes (fun l => { l with rx := vmod l.rx lane (fun x => { x with eccDisc := min 0xFFFF (x.eccDisc + 1) }) })
    match d.openAt lane vc with
    | some c => (false, if c.dead then d else (d.putContainer { c with dead := true, buf := none, bytes := [] }).loseContainer c)
    | none => (false, d)
  else if head.eccErrors = 1 then
    (true, d.modLanes (fun l => { l with rx := vmod l.rx lane (fun x => { x with eccCorr := min 0xFFFF (x.eccCorr + 1) }) }))
  else (true, d)

/-- Order 4: the data types of Table 12.5 that a VC may carry. -/
def typeAllowed (vc dt : Nat) : Bool := if vc = 31 then dt = 0x33 else dt = 0x30 || dt = 0x31 || dt = 0x32

/-- Order 5: a container that has been open for 100 ms when a packet of its VC comes is rejected first. -/
def Device.expireOpen (d : Device) (lane vc stamp : Nat) : Device :=
  match d.openAt lane vc with
  | none => d
  | some c => if !c.dead ∧ c.openedAt + 100000000 ≤ stamp then d.rejectContainer c .timeout 5 else d

/-- A packet from order 2 on, with the time-base stamp that it carries (R499, R517). -/
def Device.packetIn (d : Device) (lane : Fin 24) (stamp : Nat) (head : PacketHead) (p : Packet) : Device :=
  let vc := head.frameVc.toNat
  match d.headerOk lane.val head with
  | (false, d) => d
  | (true, d) =>
    let known := vc = 31 || (d.inputAt lane.val vc).isSome
    let reject (order : Nat) (dt : Option Nat) (d : Device) : Device :=
      d.countReject (if vc = 31 then none else (d.inputAt lane.val vc).map (·.stream)) dt .unsupported order lane.val 0
    match p with
    | .frameStart data => if known then (d.expireOpen lane.val vc stamp).frameStartIn lane vc stamp data else reject 3 none d
    | .frameEnd data => if known then (d.expireOpen lane.val vc stamp).frameEndIn lane.val vc stamp data else reject 3 none d
    | .short dt _ =>
      -- Line Start and Line End are ignored (Table 12.5)
      if !known then reject 3 none d else if dt = 2 ∨ dt = 3 then d else reject 4 none d
    | .long dt payload ok =>
      let d := if ok then d
        else d.modLanes (fun l => { l with rx := vmod l.rx lane.val (fun x => { x with crc := satInc x.crc }) })
      if !known then reject 3 (some dt) d
      else if !typeAllowed vc dt then reject 4 (some dt) d
      else (d.expireOpen lane.val vc stamp).longPacket lane.val vc stamp dt payload ok

end Sys2Proof.Machine
end

