-- ==== Sys2Proof/Machine/LightLanes.lean ====
section
/-! DEFINITION. The light lanes: transmit and receive states (R518 to R521), packets of the render feeds (R526, R537),
HELLO and the chip count (R540), replay (R499, R500, R547). -/
namespace Sys2Proof.Machine

/-! ### Lanes -/

def Device.txLane (d : Device) (n : Nat) : TxLane :=
  vget d.lanes.tx n { state := .dark, since := 0, role := 0, frames := 0 }

def Device.rxLane (d : Device) (n : Nat) : RxLane :=
  vget d.lanes.rx n
    { state := .dark, role := 0, corr := 0, uncorr := 0, eccCorr := 0, eccDisc := 0, crc := 0, loss := 0, frameErr := 0,
      farTx := 0, farRx := 0 }

def Device.modRx (d : Device) (n : Nat) (f : RxLane → RxLane) : Device :=
  d.modLanes (fun l => { l with rx := vmod l.rx n f })

def Device.modTx (d : Device) (n : Nat) (f : TxLane → TxLane) : Device :=
  d.modLanes (fun l => { l with tx := vmod l.tx n f })

def isOtson (role : Byte) : Bool := role = 0x30 || role = 0x31

/-- R521: both directions of both lanes of a pair are ACTIVE. -/
def Device.pairSees (d : Device) (east : Bool) : Bool :=
  let base := if east then 16 else 18
  [base, base + 1].all (fun n =>
    isOtson (d.rxLane n).role && (d.rxLane n).state = .active && (d.rxLane n).farRx = 3 && (d.txLane n).state ≠ .dark)

/-- HELLO to both neighbours' side of a pair (R539, R540). -/
def Device.sendHello (d : Device) (east : Bool) : Device :=
  d.otsSend east
    { type := 0, src := d.ringPos, dst := d.neighbour east, epoch := 0, tag := 0, status := 0, hops := 0, addr := 0,
      len := 64 }
    (leBytes 1 d.ringSize ++ leBytes 1 d.ringPos ++ List.replicate 30 0 ++ d.image.programDigest)

/-- R544: a lane of a pair leaves ACTIVE: the pair resets and is down. -/
def Device.pairLost (d : Device) (east : Bool) : Device :=
  (d.resetPair east).modOts (fun o => o.modPair east (fun p => { p with up := false }))

/-- A pair comes up with 64 credits for each lane and sends HELLO; one whose lanes leave ACTIVE resets and is down
(R521, R540, R543, R544). -/
def Device.refreshPair (d : Device) (east : Bool) : Device :=
  let up := (d.ots.pair east).up
  let sees := d.pairSees east
  if sees ∧ !up then
    (d.modOts (fun o => o.modPair east (fun p =>
      { p with up := true, credits := Vector.replicate 2 64, nextLane := 0, rxNext := 0, owed := Vector.replicate 2 0 }))).sendHello east
  else if !sees ∧ up then d.pairLost east
  else d

def Device.refreshPairs (d : Device) : Device := (d.refreshPair true).refreshPair false

/-- Table 12.4. -/
def execLightPresent (t : Nat) (lane : Fin 24) (s : State) : Host.Outcome State Fault Refusal :=
  .next (s.runI t fun d => d.whenAlive fun d =>
    d.guard ((d.rxLane lane.val).state = .dark) (fun d => d.modRx lane.val (fun x => { x with state := .cwSearch })))

def execCodewordLock (t : Nat) (lane : Fin 24) (s : State) : Host.Outcome State Fault Refusal :=
  .next (s.runI t fun d => d.whenAlive fun d =>
    d.guard ((d.rxLane lane.val).state = .cwSearch) (fun d => d.modRx lane.val (fun x => { x with state := .sfSearch })))

def execSuperframeLock (t : Nat) (lane : Fin 24) (s : State) : Host.Outcome State Fault Refusal :=
  .next (s.runI t fun d => d.whenAlive fun d =>
    d.guard ((d.rxLane lane.val).state = .sfSearch)
      (fun d => (d.modRx lane.val (fun x => { x with state := .active })).refreshPairs))

/-- R520: the loss is counted and the open containers of the lane are rejected with CHECK_FAIL; R544: a pair whose lane leaves
ACTIVE resets, also one that was not up. -/
def Device.loseActive (d : Device) (lane : Nat) (next : RxState) : Device :=
  let d := d.modRx lane (fun x => { x with state := next, loss := satInc x.loss, farRx := 0 })
  let d := if isOtson (d.rxLane lane).role then d.pairLost (decide (lane < 18)) else d
  (d.rejectAll (fun c => c.lane.val = lane) .checkFail 5).refreshPairs

/-- R516, Table 12.4: the uncorrectable codewords behind a LOSS_OF_ACTIVE that no received frame has brought to the count: none
of them for a loss by superframes, up to 8 for one by codewords; which, the command leaves open: a free value (log 65). -/
def Device.countLost (d : Device) (lane : Nat) : Device :=
  let (bs, d) := d.freeBytes 1
  d.modRx lane (fun x => { x with uncorr := satAdd x.uncorr (leNat bs % 9) })

def execLossOfActive (t : Nat) (lane : Fin 24) (s : State) : Host.Outcome State Fault Refusal :=
  .next (s.runI t fun d => d.whenAlive fun d =>
    d.guard ((d.rxLane lane.val).state = .active)
      (fun d => (if (d.rxLane lane.val).role = 0 then d else d.countLost lane.val).loseActive lane.val .cwSearch))

def execLossOfLight (t : Nat) (lane : Fin 24) (s : State) : Host.Outcome State Fault Refusal :=
  .next (s.runI t fun d => d.whenAlive fun d =>
    if (d.rxLane lane.val).state = .active then d.loseActive lane.val .dark
    else d.modRx lane.val (fun x => { x with state := .dark }))

/-- R543: credits come from byte 7 of an ALIGN block received on a lane; the lane's own ALIGN block, which leaves once a
superframe as well, returns what is owed, at most 255 (DESIGN CHOICE, log 65: at the instant of the received one). -/
def OtsPair.align (p : OtsPair) (i : Nat) (credits : Byte) : OtsPair :=
  let back := min 255 (vget p.owed i 0)
  { p with
    credits := vmod p.credits i (· + credits.toNat), owed := vmod p.owed i (· - back),
    returned := vset p.returned i (BitVec.ofNat 8 back) }

/-- Table 12.2: the far side's states; on an Otson lane also the credits that go back and forth (R543). -/
def execAlignBlock (t : Nat) (lane : Fin 24) (farTx farRx : BitVec 3) (credits : Byte) (s : State) :
    Host.Outcome State Fault Refusal :=
  .next (s.runI t fun d => d.whenAlive fun d =>
    let n := lane.val
    d.guard ((d.rxLane n).state = .active) fun d =>
      if !isOtson (d.rxLane n).role then d.modRx n (fun x => { x with farTx := farTx })
      else
        let east := n < 18
        let left := (d.rxLane n).farRx = 3 && farRx ≠ 3
        let d := d.modRx n (fun x => { x with farTx := farTx, farRx := farRx })
        let d := (if left then d.pairLost east else d).refreshPairs
        if (d.ots.pair east).up then
          d.modOts (fun o => o.modPair east (fun p => p.align (n % 2) credits))
        else d)

/-! ### Packets of the render feeds -/

/-- R546: STREAM of a recorder record. -/
def Device.recordStream (d : Device) (lane : Nat) (head : PacketHead) : Nat :=
  if head.frameVc = 31 then 0xFE
  else
    match d.inputAt lane head.frameVc.toNat with
    | some r => r.stream
    | none => 0xFF

/-- Order 1, and the count of codewords and frames that fail (R514, R516, Table 12.3). -/
def Device.frameOk (d : Device) (lane : Nat) (head : PacketHead) : Bool × Device :=
  let d := d.modRx lane (fun x => { x with corr := satAdd x.corr head.corr, uncorr := satAdd x.uncorr head.uncorr })
  if !head.blocksOk ∨ 3 ≤ head.kind.toNat then (false, d.modRx lane (fun x => { x with frameErr := satInc x.frameErr }))
  else (head.uncorr = 0 && head.kind = 0, d)

/-- A frame of kinds 0 to 2 or a reserved kind, with its blocks and codewords, that a lane receives. Frames are accepted only in
ACTIVE (R519), a spare lane's bytes are ignored (R510), and every other lane counts the codewords and the frames that it discards
(R514 to R516); a frame that an Otson or replay lane takes comes by a command of its own, and one that it discards by this one
(log 65). A render feed takes the packet of a kind-0 frame: in replay it is discarded and counted (R499); while RECORD is set it
is mirrored (R497). -/
def Device.receive (d : Device) (lane : Fin 24) (head : PacketHead) (p : Packet) : Device :=
  let x := d.rxLane lane.val
  if x.state ≠ .active ∨ x.role = 0 then d
  else
    match d.frameOk lane.val head with
    | (false, d) => d
    | (true, d) =>
      if x.role ≠ 0x20 then d
      else if d.ctl.replay then d.modLanes (fun l => { l with rejected := satInc l.rejected })
      else
        let d := if d.phase = .running then d.recordPacket lane.val (d.recordStream lane.val head) head p d.now else d
        d.packetIn lane d.now head p

/-- Packets come once the configuration lock has passed. -/
def Device.whenLocked (d : Device) (f : Device → Device) : Device :=
  if d.phase = .running ∨ d.phase = .awaitChips then f d else d

def execFrameStartPacket (t : Nat) (lane : Fin 24) (head : PacketHead) (data : BitVec 16) (s : State) :
    Host.Outcome State Fault Refusal :=
  .next (s.runI t fun d => d.whenLocked fun d => d.receive lane head (.frameStart data.toNat))

/-- A packet of a data type: below 0x10 a short one, whose data field the first two payload bytes give (Table 12.5). -/
def packetOf (dt : Nat) (payload : List Byte) (crcOk : Bool) : Packet :=
  match dt with
  | 0 => .frameStart (field payload 0 2)
  | 1 => .frameEnd (field payload 0 2)
  | dt => if dt < 0x10 then .short dt (field payload 0 2) else .long dt payload crcOk

def execLongPacket (t : Nat) (lane : Fin 24) (head : PacketHead) (dt : BitVec 6) (payload : List Byte) (crcOk : Bool)
    (s : State) : Host.Outcome State Fault Refusal :=
  .next (s.runI t fun d => d.whenLocked fun d =>
    d.guard (decide (payload.length < 65536)) (fun d => d.receive lane head (packetOf dt.toNat payload crcOk)))

def execFrameEndPacket (t : Nat) (lane : Fin 24) (head : PacketHead) (data : BitVec 16) (s : State) :
    Host.Outcome State Fault Refusal :=
  .next (s.runI t fun d => d.whenLocked fun d => d.receive lane head (.frameEnd data.toNat))

/-- Order 5: a container open for 100 ms. -/
def execContainerTimeout (t : Nat) (lane : Fin 24) (vc : BitVec 5) (s : State) : Host.Outcome State Fault Refusal :=
  .next (s.runI t fun d => d.whenLocked fun d =>
    match d.openAt lane.val vc.toNat with
    | none => d
    | some c => d.guard (!c.dead && decide (c.openedAt + 100000000 ≤ d.now)) (fun d => d.rejectContainer c .timeout 5))

/-! ### Replay -/

/-- A record that the replay ring cannot hold, or a gap record, counts as a gap met (R492, R547). -/
def Device.gapMet (d : Device) : Device := d.controlChoice

/-- Table 12.12: the record is whole and its CRC-32 agrees. -/
def replayWhole (b : List Byte) : Bool :=
  decide (28 ≤ b.length) && field b 16 4 = b.length - 28 && field b (b.length - 4) 4 = (crc32 (b.take (b.length - 4))).toNat

/-- R547: the instant at which a replayed packet is released. -/
def Device.releaseAt (d : Device) (x : ReplayRec) : Nat := d.t0 + x.stamp.toNat

/-- The stamp that a replayed packet carries (R499). -/
def Device.replayStamp (d : Device) (x : ReplayRec) : Nat := ((d.t0 : Int) + x.stamp).toNat

/-- A recorded body as a packet, with the frame's VC of its stream (R522, R523). -/
def Device.replayPacket (d : Device) (x : ReplayRec) : PacketHead × Packet :=
  let h := x.body.take 4
  let (v, errs) : Nat × Nat := match eccCheck h with
    | some (v, fixed) => (v, boolNat fixed)
    | none => (field h 0 3, 2)
  let vc4 := v / 64 % 4 + v / 2 ^ 24 % 4 * 4
  let frameVc := if x.stream = 0xFE then 31
    else match d.image.inputs.find? (fun r => r.stream = x.stream) with
      | some r => r.vc
      | none => vc4
  let head : PacketHead :=
    { kind := 0, blocksOk := true, uncorr := 0, corr := 0, eccErrors := errs, frameVc := BitVec.ofNat 5 frameVc,
      headerVc := BitVec.ofNat 4 vc4 }
  let value := v / 2 ^ 8 % 2 ^ 16
  let payload := (x.body.drop 4).take (x.body.length - 6)
  let p : Packet := match v % 64 with
    | 0 => .frameStart value
    | 1 => .frameEnd value
    | dt => if dt < 0x10 then .short dt value else .long dt payload (field x.body (x.body.length - 2) 2 = csiCrc payload)
  (head, p)

/-- A packet meets the input path with its recorded stamp; one that was not there at its release time is counted (R499, R500). -/
def Device.meetReplayed (d : Device) (x : ReplayRec) : Device :=
  let d := if d.releaseAt x < x.arrived then
      { d with ctl := { d.ctl with replayLate := satInc d.ctl.replayLate, controlFree := satInc d.ctl.controlFree } }
    else d
  if x.lane < 24 ∧ 4 ≤ x.body.length then
    let hp := d.replayPacket x
    d.packetIn (Fin.ofNat 24 x.lane) (d.replayStamp x) hp.1 hp.2
  else d

/-- No packet of its stream with a lower arrival index is held (R499). -/
def Device.replayFirst (d : Device) (x : ReplayRec) : Bool :=
  !d.recorder.replay.any (fun y => y.stream = x.stream && decide (y.index < x.index))

/-- A whole record on a replay lane takes its place in the replay ring: a packet until its release, a mode change until its
boundary, any other only while it is met (R547, log 65). A packet that comes after its release time is released at once, unless one
of its stream must go first (R500). -/
def Device.takeRecord (d : Device) (b : List Byte) : Device :=
  let body := (b.drop 24).take (field b 16 4)
  if d.image.recBytes < d.recorder.replayUsed + b.length then
    (d.modRec (fun r => { r with drops := satInc r.drops })).gapMet
  else
    match field b 0 1 with
    | 0 =>
      let x : ReplayRec :=
        { lane := field b 1 1, stream := field b 2 1, flags := b.getD 3 0, index := field b 4 4, stamp := sfield b 8 8,
          seq := field b 20 4, body := body, arrived := d.now }
      if d.phase = .running ∧ d.releaseAt x < d.now ∧ d.replayFirst x then d.meetReplayed x
      else d.modRec (fun r => { r with replay := r.replay ++ [x], replayUsed := r.replayUsed + b.length })
    | 1 =>
      d.modRec (fun r =>
        { r with t0Seen := true, mismatch := r.mismatch || decide (body.take 32 ≠ d.image.programDigest) })
    | 2 =>
      if d.phase = .running ∧ field b 4 4 ≤ d.itn.k then d
      else d.modRec (fun r => { r with replayMode := r.replayMode ++ [(field b 4 4, body)], replayUsed := r.replayUsed + b.length })
    | 4 => d.gapMet
    | _ => d

def execReplayRecordArrival (t : Nat) (lane : Fin 24) (record : List Byte) (s : State) :
    Host.Outcome State Fault Refusal :=
  .next (s.runI t fun d => d.whenLocked fun d =>
    let x := d.rxLane lane.val
    d.guard (d.ctl.replay && x.state = .active && x.role = 0x41 && replayWhole record) (fun d => d.takeRecord record))

/-- R499, R500: a packet leaves the replay ring in its stream's order, with its recorded stamp. -/
def execReplayedPacketRelease (t : Nat) (seq : Nat) (s : State) : Host.Outcome State Fault Refusal :=
  .next (s.runI t fun d => d.whenRunning fun d =>
    match d.recorder.replay.find? (fun x => x.seq = seq) with
    | none => d
    | some x =>
      d.guard (d.ctl.replay && d.replayFirst x && decide (d.releaseAt x ≤ d.now)) fun d =>
        (d.modRec (fun r =>
          { r with replay := r.replay.filter (fun y => y.seq ≠ seq), replayUsed := r.replayUsed - (28 + x.body.length) })).meetReplayed x)

end Sys2Proof.Machine
end

