-- ==== Sys2Proof/Machine/Xmss.lean ====
section
/-! DEFINITION. XMSS and XMSS^MT with SHAKE256 and 32-byte nodes, as R645 names them: SP 800-208 over RFC 8391, whose text the
spec does not reproduce (PRESUMED, log 5). A key's seeds are SK_SEED, SK_PRF and PUB_SEED, 32 bytes each (Table 15.8a). -/
namespace Sys2Proof.Machine

/-! ### Bytes -/

/-- Most significant byte first. -/
def beBytes (n v : Nat) : List Byte := (leBytes n v).reverse
def beNat (bs : List Byte) : Nat := bs.foldl (fun v b => 256 * v + b.toNat) 0

def mixBytes (a b : List Byte) : List Byte := List.zipWith (· ^^^ ·) a b

/-! ### The keyed hashes and their addresses -/

/-- An address: layer, tree, kind of use (0 one-time key, 1 L-tree, 2 hash tree), and the four words of that use. -/
structure XAddr where
  layer : Nat
  tree : Nat
  use : Nat
  w1 : Nat
  w2 : Nat
  w3 : Nat
  w4 : Nat
  deriving DecidableEq, Repr

def XAddr.bytes (a : XAddr) : List Byte :=
  beBytes 4 a.layer ++ beBytes 8 a.tree ++ beBytes 4 a.use ++ beBytes 4 a.w1 ++ beBytes 4 a.w2 ++ beBytes 4 a.w3 ++ beBytes 4 a.w4

/-- The hash of a purpose: 0 chains, 1 tree nodes, 2 messages, 3 pseudorandom values, 4 secret keys. -/
def keyedHash (purpose : Nat) (key m : List Byte) : List Byte := shake (beBytes 32 purpose ++ key ++ m)

/-- The key or mask that the public seed gives at an address. -/
def seedAt (seed : List Byte) (a : XAddr) (w4 : Nat) : List Byte := keyedHash 3 seed { a with w4 := w4 }.bytes

/-- A node from its two children. -/
def joinNodes (seed : List Byte) (a : XAddr) (l r : List Byte) : List Byte :=
  keyedHash 1 (seedAt seed a 0) (mixBytes l (seedAt seed a 1) ++ mixBytes r (seedAt seed a 2))

/-! ### One-time keys: 67 chains of 15 steps -/

/-- `n` steps of a chain from its step `first`. -/
def chainOn (seed : List Byte) (a : XAddr) (first n : Nat) (x : List Byte) : List Byte :=
  (List.range n).foldl (fun x i =>
    let b := { a with w3 := first + i }
    keyedHash 0 (seedAt seed b 0) (mixBytes x (seedAt seed b 1))) x

/-- The digits of a 32-byte message: 64 of its own and 3 of the checksum. -/
def chainDigits (m : List Byte) : List Nat :=
  let own := m.flatMap (fun b => [b.toNat / 16, b.toNat % 16])
  let sum := (own.map (fun d => 15 - d)).foldl (· + ·) 0
  own ++ [sum / 256 % 16, sum / 16 % 16, sum % 16]

/-- Each chain of a one-time key at `a`, from what `f` gives for its number. -/
def chains (a : XAddr) (f : XAddr → Nat → List Byte) : List (List Byte) := (List.range 67).map (fun i => f { a with w2 := i } i)

def chainSecret (seeds : List Byte) (a : XAddr) : List Byte := keyedHash 4 (seeds.take 32) (seeds.drop 64 ++ a.bytes)

/-- One level of an L-tree. -/
def foldPairs (seed : List Byte) (a : XAddr) : (i : Nat) → List (List Byte) → List (List Byte)
  | i, l :: r :: rest => joinNodes seed { a with w3 := i } l r :: foldPairs seed a (i + 1) rest
  | _, rest => rest

/-- A leaf from the ends of its chains, over at most `fuel` levels. -/
def foldChains (seed : List Byte) (a : XAddr) : (fuel : Nat) → List (List Byte) → List Byte
  | 0, l => l.headD []
  | fuel + 1, l => if l.length ≤ 1 then l.headD [] else foldChains seed { a with w2 := a.w2 + 1 } fuel (foldPairs seed a 0 l)

/-- The leaf of a one-time public key. -/
def leafOf (seed : List Byte) (layer tree leaf : Nat) (ends : List (List Byte)) : List Byte :=
  foldChains seed { layer := layer, tree := tree, use := 1, w1 := leaf, w2 := 0, w3 := 0, w4 := 0 } 7 ends

def oneTime (layer tree leaf : Nat) : XAddr := { layer := layer, tree := tree, use := 0, w1 := leaf, w2 := 0, w3 := 0, w4 := 0 }

/-! ### Trees -/

/-- Node j at a height of the single tree of a key. -/
def xmssNode (seeds : List Byte) : (height j : Nat) → List Byte
  | 0, j => leafOf (seeds.drop 64) 0 0 j (chains (oneTime 0 0 j) (fun a _ => chainOn (seeds.drop 64) a 0 15 (chainSecret seeds a)))
  | h + 1, j =>
    joinNodes (seeds.drop 64) { layer := 0, tree := 0, use := 2, w1 := 0, w2 := h, w3 := j, w4 := 0 }
      (xmssNode seeds h (2 * j)) (xmssNode seeds h (2 * j + 1))

/-- The root that a leaf at `leaf` and its path give. -/
def climb (seed : List Byte) (layer tree leaf : Nat) (path : List (List Byte)) (node : List Byte) : List Byte :=
  path.zipIdx.foldl (fun x (p, k) =>
    let a : XAddr := { layer := layer, tree := tree, use := 2, w1 := 0, w2 := k, w3 := leaf / 2 ^ (k + 1), w4 := 0 }
    if leaf / 2 ^ k % 2 = 0 then joinNodes seed a x p else joinNodes seed a p x) node

/-- 32-byte pieces. -/
def pieces (n : Nat) (bs : List Byte) : List (List Byte) := (List.range n).map (fun i => (bs.drop (32 * i)).take 32)

/-- The root of a tree from a one-time signature of `m` and the path of its leaf. -/
def rootFrom (seed : List Byte) (layer tree leaf : Nat) (m : List Byte) (sig path : List (List Byte)) : List Byte :=
  let digits := chainDigits m
  let ends := chains (oneTime layer tree leaf) (fun a i => chainOn seed a (digits.getD i 0) (15 - digits.getD i 0) (sig.getD i []))
  climb seed layer tree leaf path (leafOf seed layer tree leaf ends)

/-! ### Parameter sets (Table 15.6) -/

/-- A parameter set: its OID, the height of all its trees, their layers, and the bytes of a leaf's index. -/
structure XSet where
  oid : Nat
  height : Nat
  layers : Nat
  idxBytes : Nat
  deriving DecidableEq, Repr

def xmssSet (alg : Nat) : Option XSet :=
  match alg with
  | 0x01 => some { oid := 0x10, height := 10, layers := 1, idxBytes := 4 }
  | 0x02 => some { oid := 0x11, height := 16, layers := 1, idxBytes := 4 }
  | 0x03 => some { oid := 0x12, height := 20, layers := 1, idxBytes := 4 }
  | 0x11 => some { oid := 0x29, height := 20, layers := 2, idxBytes := 3 }
  | 0x12 => some { oid := 0x2C, height := 40, layers := 4, idxBytes := 5 }
  | _ => none

/-- Bytes of a signature. -/
def XSet.sigBytes (x : XSet) : Nat := x.idxBytes + 32 + x.layers * 67 * 32 + x.height * 32

/-- Signature bytes of a parameter set (Table 15.6). -/
def sigBytesOf (alg : Nat) : Option Nat := (xmssSet alg).map XSet.sigBytes

/-! ### Keys and signatures -/

/-- The 68-byte public key of the seeds, in a set of one layer. -/
def xmssPublicKey (alg : Nat) (seeds : List Byte) : List Byte :=
  match xmssSet alg with
  | some x => beBytes 4 x.oid ++ xmssNode seeds x.height 0 ++ seeds.drop 64
  | none => []

/-- What of a message is signed: its hash under the signature's random value, the root and the leaf's index. -/
def xmssDigest (r root : List Byte) (idx : Nat) (msg : List Byte) : List Byte := keyedHash 2 (r ++ root ++ beBytes 32 idx) msg

/-- The signature of `msg` with a leaf of a key of one layer. -/
def xmssSign (alg : Nat) (seeds : List Byte) (leaf : Nat) (msg : List Byte) : List Byte :=
  match xmssSet alg with
  | none => []
  | some x =>
    let r := keyedHash 3 ((seeds.drop 32).take 32) (beBytes 32 leaf)
    let digits := chainDigits (xmssDigest r (xmssNode seeds x.height 0) leaf msg)
    let sig := chains (oneTime 0 0 leaf) (fun a i => chainOn (seeds.drop 64) a 0 (digits.getD i 0) (chainSecret seeds a))
    let path := (List.range x.height).map (fun k => xmssNode seeds k (leaf / 2 ^ k ^^^ 1))
    beBytes x.idxBytes leaf ++ r ++ sig.flatten ++ path.flatten

/-- Whether a signature verifies under a public key, which carries the OID of its set. -/
def xmssVerify (alg : Nat) (pk msg sig : List Byte) : Bool :=
  match xmssSet alg with
  | none => false
  | some x =>
    let root := (pk.drop 4).take 32
    let seed := pk.drop 36
    let idx := beNat (sig.take x.idxBytes)
    let per := x.height / x.layers
    let body := sig.drop (x.idxBytes + 32)
    let step (s : List Byte × Nat) (j : Nat) : List Byte × Nat :=
      let part := body.drop (j * (67 + per) * 32)
      (rootFrom seed j (s.2 / 2 ^ per) (s.2 % 2 ^ per) s.1 (pieces 67 part) (pieces per (part.drop (67 * 32))), s.2 / 2 ^ per)
    pk.length = 68 && pk.take 4 = beBytes 4 x.oid && sig.length = x.sigBytes && decide (idx < 2 ^ x.height) &&
      ((List.range x.layers).foldl step (xmssDigest ((sig.drop x.idxBytes).take 32) root idx msg, idx)).1 = root

end Sys2Proof.Machine
end

