-- ==== Sys2Proof/Machine/Trust.lean ====
section
/-! DEFINITION. Identity and attestation (chapter 15): derived keys, the journal of reserved leaves, session keys and the
attestation exchange. -/
namespace Sys2Proof.Machine

/-- The bytes of a text. -/
def asciiOf (s : String) : List Byte := s.toList.map (fun c => BitVec.ofNat 8 c.toNat)

/-- Bytes cut or filled with zeros to a length. -/
def fitTo (n : Nat) (bs : List Byte) : List Byte := (bs ++ List.replicate (n - bs.length) 0).take n

def Device.modTrust (d : Device) (f : Trust → Trust) : Device := { d with trust := f d.trust }
def Device.modAttest (d : Device) (f : Attest → Attest) : Device := { d with attest := f d.attest }

/-! ### Derived keys (R652, Table 15.8a) -/

def deriveKey (secret label : List Byte) (n : Nat) : List Byte := shake256 n (asciiOf "PZKD" ++ secret ++ label)

def Trust.idSeeds (r : Trust) : List Byte := deriveKey r.secret (asciiOf "IDSEED") 96
def Trust.journalKey (r : Trust) : List Byte := deriveKey r.secret (asciiOf "JOURNAL") 32
def Trust.repairKey (r : Trust) : List Byte := deriveKey r.secret (asciiOf "REPAIR") 32
def Trust.sessionSeeds (r : Trust) (leaf : Nat) : List Byte :=
  deriveKey r.secret (asciiOf "SESSION" ++ leBytes 4 leaf) 96

/-! ### The journal (R659 to R663) -/

def slotAddr (slot : Nat) : Nat := 0x30000 + 0x1000 * slot
def positionAddr (slot pos : Nat) : Nat := slotAddr slot + 128 * pos

/-- R659: a record is valid when VALID reads "OKAY" and its tag matches. -/
def journalValid (key b : List Byte) : Bool :=
  (b.drop 124).take 4 = asciiOf "OKAY" && (b.drop 32).take 32 = shake (key ++ b.take 32)

/-- A valid record: slot, position, SEQ and BLOCK. -/
structure JournalRec where
  slot : Nat
  pos : Nat
  seq : Nat
  block : Nat
  deriving DecidableEq, Repr

def Device.journalRecs (d : Device) : List JournalRec :=
  let key := d.trust.journalKey
  (List.range 64).filterMap (fun i =>
    let b := d.norRead (positionAddr (i / 32) (i % 32)) 128
    if journalValid key b then some { slot := i / 32, pos := i % 32, seq := field b 8 8, block := field b 16 4 } else none)

/-- R660: the valid record with the highest SEQ. -/
def Device.journalTop (d : Device) : Option JournalRec :=
  d.journalRecs.foldl (fun (acc : Option JournalRec) x =>
    match acc with
    | some y => if y.seq < x.seq then some x else some y
    | none => some x) none

def erased (bs : List Byte) : Bool := bs.all (· = 0xFF)

/-- R661: the first position of a slot from which everything reads 0xFF. -/
def Device.writable (d : Device) (slot : Nat) : Option Nat :=
  (List.range 32).find? (fun p => erased (d.norRead (positionAddr slot p) (4096 - 128 * p)))

def Device.eraseSlot (d : Device) (slot : Nat) : Device := d.norWrite (slotAddr slot) (List.replicate 4096 0xFF)

/-- Table 15.10, without VALID. -/
def Device.journalBytes (d : Device) (seq block reason : Nat) : List Byte :=
  let head := asciiOf "PZJR" ++ [0, 0, 0, 0] ++ leBytes 8 seq ++ leBytes 4 block ++ leBytes 1 reason ++ [0, 0, 0] ++
    d.attest.deviceId
  head ++ shake (d.trust.journalKey ++ head)

/-- A background erase that runs completes first (Table 15.13). -/
def Device.finishErase (d : Device) : Device :=
  match d.attest.eraseSlot with
  | some k => (d.eraseSlot k.val).modAttest (fun a => { a with eraseSlot := none })
  | none => d

/-- R661: whether the next program of the NOR reads back wrong (log 45). -/
def Device.nextProgram (d : Device) : Bool × Device :=
  match d.attest.programs with
  | [] => (false, d)
  | x :: rest => (x, d.modAttest (fun a => { a with programs := rest }))

/-- R661: a record is programmed and read back, and then VALID. A program that reads back wrong leaves free bytes and VALID
erased. -/
def Device.program (d : Device) (slot pos : Nat) (bs : List Byte) : Bool × Device :=
  let a := positionAddr slot pos
  let (bad, d) := d.nextProgram
  if bad then
    let (junk, d) := d.freeBytes 64
    (false, d.norWrite a junk)
  else (true, (d.norWrite a bs).norWrite (a + 124) (asciiOf "OKAY"))

/-- R660, R661: the slot and position of the next record, and whether its slot is erased for it. -/
def Device.journalPlace (d : Device) : (Nat × Nat × Bool) × Device :=
  let d := d.finishErase
  let slot := match d.journalTop with
    | some x => 1 - x.slot
    | none => 0
  match d.writable slot with
  | some p => ((slot, p, false), d)
  | none => ((slot, 0, true), d.eraseSlot slot)

/-- R660: the SEQ of the next record. -/
def Device.nextSeq (d : Device) : Nat := (d.journalTop.map (·.seq)).getD 0 + 1

/-- R661 to R663: a block is reserved, after one erase and one retry where its program reads back wrong; past block 65,535 the
identity is exhausted instead. -/
def Device.reserve (d : Device) (block reason : Nat) : Device :=
  if 65535 < block then d.modTrust (fun r => { r with exhausted := true, usable := false })
  else
    let seq := d.nextSeq
    let ((slot, pos, wiped), d) := d.journalPlace
    let bs := d.journalBytes seq block reason
    let (ok, d) := d.program slot pos bs
    let (pos, wiped) := if ok then (pos, wiped) else (0, true)
    let (ok, d) := if ok then (ok, d) else (d.eraseSlot slot).program slot 0 bs
    let d : Device := { d with boot := { d.boot with slotErased := d.boot.slotErased || (reason = 0 && wiped) } }
    if !ok then d.modTrust (fun r => { r with journalFail := true, usable := false })
    else
      let d := d.modTrust (fun r => { r with block := some block, nextLeaf := 16 * block, journalSeq := seq })
      let d : Device := { d with boot := { d.boot with journalSlot := slot, journalPos := pos } }
      if (d.writable (1 - slot)).isNone then d.modAttest (fun a => { a with eraseSlot := some (Fin.ofNat 2 (1 - slot)) }) else d

/-- R662. -/
def execBackgroundSlotErase (t : Nat) (s : State) : Host.Outcome State Fault Refusal :=
  .next (s.runI t fun d => d.whenAlive Device.finishErase)

/-! ### The identity tree (R654) -/

/-- Index in the cache of node j of height h. -/
def treeIndex (h j : Nat) : Nat := 2 ^ 11 - 2 ^ (21 - h) + j

def Device.treeNode (d : Device) (h j : Nat) : List Byte := d.norRead (0x20000 + 32 * treeIndex h j) 32

/-- ID_CERT's SUBJECT: its 4-byte OID, root and public seed. -/
def subjectOf (cert : List Byte) : List Byte := (cert.drop 56).take 68

/-- A node of the identity tree (R654). -/
@[irreducible] def identityNode (seeds : List Byte) (h j : Nat) : List Byte := xmssNode seeds h j

/-- The path of a leaf's height-10 subtree agrees with the cache and with ID_CERT. -/
def Device.treePath (d : Device) (leaf : Nat) : Bool :=
  let seeds := d.trust.idSeeds
  let same (h j : Nat) : Bool := d.treeNode h j = fitTo 32 (identityNode seeds h j)
  let sub := leaf / 1024
  (List.range 11).all (fun i =>
    let j := sub / 2 ^ i
    same (10 + i) j && (i = 10 || same (10 + i) (j ^^^ 1))) &&
    ((subjectOf d.attest.idCert).drop 4).take 32 = fitTo 32 (identityNode seeds 20 0)

/-! ### Session keys (R664, R665) -/

/-- Table 15.7 for KIND 3. -/
def Device.sessionBody (d : Device) (leaf : Nat) (seeds : List Byte) : List Byte :=
  let idPk := subjectOf d.attest.idCert
  fitTo 192 (asciiOf "PZKC" ++ leBytes 2 1 ++ [3, 0x01, 0x03] ++ List.replicate 7 0 ++ leBytes 8 0 ++ shake idPk ++
    fitTo 68 (xmssPublicKey 0x01 seeds) ++ d.attest.deviceId ++ leBytes 4 leaf ++ d.image.programDigest)

/-- R663: the next leaf of the reserved block; a block used up makes the next one be reserved first. -/
def Device.nextBlock (d : Device) : Device :=
  match d.trust.block with
  | some b => if d.trust.nextLeaf < 16 * b + 16 then d else d.reserve (b + 1) 1
  | none => d

/-- A session key made with the next identity leaf; none when the identity is not usable after all. -/
def Device.makeKey (d : Device) : Option SessionKey × Device :=
  let d := d.nextBlock
  if !d.trust.usable then (none, d)
  else
    let leaf := d.trust.nextLeaf
    let d := d.modTrust (fun r => { r with nextLeaf := leaf + 1 })
    if !d.treePath leaf then (none, d.modTrust (fun r => { r with treeFail := true, usable := false }))
    else
      let seeds := d.trust.sessionSeeds leaf
      let body := d.sessionBody leaf seeds
      let cert := body ++ fitTo 2820 (xmssSign 0x03 d.trust.idSeeds leaf body)
      (some { leaf := leaf, next := 0, seeds := seeds, certificate := cert, released := false },
        d.modTrust (fun r => { r with sessions := satInc r.sessions }))

/-- Leaves of a session key. -/
def sessionLeaves : Nat := 1024

/-- R665: the prepared key becomes current when the current one has no leaf left. -/
def Device.rollover (d : Device) : Device :=
  match d.trust.session, d.trust.prepared with
  | some cur, some next =>
    if cur.next < sessionLeaves then d
    else
      let d := d.modTrust (fun r => { r with session := some next, prepared := none })
      (d.modAttest (fun a => { a with rollovers := satInc a.rollovers })).event .keyRollover 0 0 next.leaf
  | _, _ => d

def execSessionKeyPreparation (t : Nat) (s : State) : Host.Outcome State Fault Refusal :=
  .next (s.runI t fun d => d.whenLocked fun d =>
    d.guard (d.trust.preparing && d.trust.prepared.isNone) fun d =>
      let (key, d) := d.makeKey
      (d.modTrust (fun r => { r with prepared := key, preparing := false })).rollover)

/-! ### The exchange (R666 to R668) -/

/-- START: the challenge is copied; a START during an exchange is ignored. -/
def Device.startExchange (d : Device) (ctl : Word) : Device :=
  if ctl.getLsbD 0 && d.attest.busy.isNone then
    d.modAttest (fun a => { a with busy := some (a.chal.toList, ctl.getLsbD 1), ready := false })
  else d

def execAttestationStart (t : Nat) (ctl : Word) (s : State) : Host.Outcome State Fault Refusal :=
  .next (s.runI t fun d => d.whenLocked fun d => d.startExchange ctl)

/-- R667: whether the exchange advances the key. -/
def Device.advances (d : Device) (v : Nat) : Bool :=
  match d.trust.session with
  | some k => decide (k.leaf < v) || (v = k.leaf && !k.released)
  | none => false

def Device.advance (d : Device) (v : Nat) : Device :=
  let b := (d.trust.block.map (· + 1)).getD 0
  let d := d.reserve (max b (v / 16 + 1)) 2
  if !d.trust.usable then d
  else
    let (key, d) := d.makeKey
    let d := d.modTrust (fun r => { r with session := key, prepared := none, preparing := false })
    d.modAttest (fun a => { a with advances := satInc a.advances })

/-- Table 15.12. -/
def Device.quote (d : Device) (nonce : List Byte) (k : SessionKey) : List Byte :=
  let weights := (List.range 32).flatMap (fun s => if d.hasSsb s then (d.strm s).treg.weights else List.replicate 32 0)
  let banks := (List.range 32).any (fun s => (d.strm s).treg.bank != 0)
  let mode := boolNat d.ctl.lockstep + 2 * boolNat d.ctl.replay + 4 * boolNat d.ctl.record +
    8 * boolNat d.image.certification + 16 * boolNat banks
  let retired := ((List.range 6).map (fun e => if (d.eng e).retired then 2 ^ e else 0)).foldl (· + ·) 0
  fitTo 256 (asciiOf "PZQUOTE1" ++ nonce ++ fitTo 32 d.image.programDigest ++ shake weights ++ d.attest.deviceId ++
    leBytes 4 k.leaf ++ leBytes 2 k.next ++ leBytes 1 mode ++ leBytes 1 d.ctl.chips ++ leBytes 8 d.now ++
    leBytes 8 (d.itn.t0.getD 0) ++ leBytes 4 d.fcNonzero ++ leBytes 4 (d.sealSt.lost % 2 ^ 32) ++ leBytes 4 retired)

/-- Table 15.11. -/
def Device.responseBytes (d : Device) (nonce : List Byte) (k : SessionKey) : List Byte :=
  let q := d.quote nonce k
  asciiOf "PZAR" ++ leBytes 2 1 ++ leBytes 2 0 ++ leBytes 4 21024 ++ leBytes 4 0 ++ q ++
    fitTo 2500 (xmssSign 0x01 k.seeds k.next q) ++ fitTo 3012 k.certificate ++ fitTo 5155 d.attest.idCert ++
    fitTo 10085 d.attest.mfgCert

/-- The exchange ends with a status; a refused one has no response. -/
def Device.endExchange (d : Device) (st : Status) : Device :=
  (d.modTrust (fun r => { r with lastStatus := st })).modAttest (fun a => { a with busy := none })

/-- R668: the response under the next leaf of a session key. -/
def Device.respond (d : Device) (chal : List Word) (k : SessionKey) : Device :=
  let nonce := (chal.take 8).flatMap (fun w => leBytes 4 w.toNat)
  let bytes := d.responseBytes nonce k
  let d := d.modAttest (fun a => { a with response := bytes, ready := true, attests := satInc a.attests })
  let left := sessionLeaves - (k.next + 1)
  let d := d.modTrust (fun r =>
    { r with session := some { k with next := k.next + 1, released := true },
             preparing := r.preparing || (left = 64 && r.prepared.isNone) })
  (d.endExchange .ok).rollover

/-- R667, R668: the answer. An exchange whose session key has no leaf left waits for the prepared key, which becomes current
first (Table 15.13). -/
def Device.answer (d : Device) (chal : List Word) (useLast : Bool) : Device :=
  let v := (chal.getD 8 0).toNat
  if !d.trust.usable then d.endExchange .unsupported
  else if d.trust.session.any (fun k => decide (sessionLeaves ≤ k.next)) then d
  else
    let d := if useLast && d.advances v then d.advance v else d
    match d.trust.session with
    | some k => if d.trust.usable then d.respond chal k else d.endExchange .unsupported
    | none => d.endExchange .unsupported

def execAttestationResponse (t : Nat) (s : State) : Host.Outcome State Fault Refusal :=
  .next (s.runI t fun d => d.whenLocked fun d =>
    match d.attest.busy with
    | some (chal, useLast) => d.answer chal useLast
    | none => d)

end Sys2Proof.Machine
end

