-- ==== Sys2Proof/Machine/RegValues.lean ====
section
/-! DEFINITION. What every register of the map reads as (chapters 2 to 17), block by block, and the latches of its _LO
registers. Offsets are those of the I3C map (Table 16.11). -/
namespace Sys2Proof.Machine

/-! ### Reading helpers -/

/-- Index of offset `o` in a table of `count` registers from `base`, `stride` bytes apart. -/
def tableIdx (o base stride count : Nat) : Option Nat :=
  if base ≤ o ∧ (o - base) % stride = 0 ∧ (o - base) / stride < count then some ((o - base) / stride) else none

/-- A row of a table of structures: its index, and the offset within the row. -/
def tableRow (o base stride count : Nat) : Option (Nat × Nat) :=
  if base ≤ o ∧ (o - base) / stride < count then some ((o - base) / stride, (o - base) % stride) else none

def lo32 (n : Nat) : Nat := n % 2 ^ 32
def hi32 (n : Nat) : Nat := n / 2 ^ 32 % 2 ^ 32
def cap16 (n : Nat) : Nat := min n 0xFFFF
def cap32 (n : Nat) : Nat := min n satMax

/-- A mask of the numbers below `n` that satisfy `p`. -/
def maskOf (n : Nat) (p : Nat → Bool) : Nat := (List.range n).foldl (fun s i => s + boolNat (p i) * 2 ^ i) 0

/-- 16-bit two's complement. -/
def temp16 (v : Int) : Nat := (v % 65536).toNat

/-- Word `i` of bytes. -/
def wordAt (bs : List Byte) (i : Nat) : Nat := field bs (4 * i) 4

/-! ### CTL (Tables 2.8, 11.8 and 16.12) -/

def Device.ringFailed (d : Device) : Bool := d.ots.ringFail

/-- CTL_SUMMARY. -/
def Device.summary (d : Device) : Nat :=
  let flags : List Bool :=
    [d.ctl.locked, d.phase = .inert, d.phase = .running, d.ctl.lockstep, d.ctl.record, d.ctl.replay,
     d.ne.any (fun e => e.retired && !e.asleep), d.ne.any (·.asleep), d.fcNonzero != 0, d.toll.lastDeviceHeld,
     d.ctl.rateLow, d.trust.usable, d.ringFailed, !d.req.modes.isEmpty, d.i3c.lost != 0, d.sealSt.lost % 2 ^ 32 != 0]
  maskOf 16 (fun i => flags.getD i false)

/-- CTL_MODE_PENDING. -/
def Device.modePending (d : Device) : Nat :=
  match d.req.modes with
  | [] => 0
  | m :: ms => min 31 (ms.length + 1) + (ms.foldl (fun k x => min k x.k) m.k) % 2 ^ 24 * 256

/-- CTL_IBI_PENDING. -/
def Device.ibiPending (d : Device) : Nat :=
  let head := (d.i3c.queue.head?.map (fun e => eventCode e.event)).getD 0
  d.i3c.queue.length + head * 2 ^ 8 + d.i3c.seq % 256 * 2 ^ 16

/-- R508: the record that a read of CTL_PROV_DIGESTi, or with `i` 8 of CTL_PROV_FRAME, returns. DESIGN CHOICE (log 64): the reads
that share a record are those within a frame period of the first, until one of the nine registers is read again. -/
def Device.provShared (d : Device) (i : Nat) : ProvLatch :=
  let s := d.ctl.provSel.toNat
  let x := d.strm s
  let new : ProvLatch := { at_ := d.now, seen := [], frame := x.provFrame, digest := x.provDigest }
  match d.ctl.prov with
  | some l => if !l.seen.contains i && decide (d.now ≤ l.at_ + d.period s) then l else new
  | none => new

def Device.ctlValue (d : Device) (o : Nat) : Nat :=
  match o with
  | 0x000 => boolNat d.ctl.lockstep + 2 * boolNat d.ctl.rateLow + 4 * boolNat d.ctl.locked
  | 0x010 => lo32 d.now
  | 0x014 => d.ctl.timeHi.toNat
  | 0x018 => lo32 (d.ctl.pps.getD 0)
  | 0x01C => hi32 (d.ctl.pps.getD 0)
  | 0x040 => lo32 d.ctl.faultAddr
  | 0x044 => d.ctl.faultAddr / 2 ^ 32 % 2 ^ 16 + d.ctl.faultCtx % 64 * 2 ^ 16
  | 0x100 => boolNat d.ctl.lockstep + 2 * boolNat d.ctl.replay + 4 * boolNat d.ctl.record + d.ctl.chips % 8 * 16
  | 0x104 => d.fcNonzero
  | 0x108 => d.ctl.fabricFree
  | 0x10C => d.ctl.controlFree
  | 0x110 => d.ctl.replayLate
  | 0x114 => d.recorder.gaps
  | 0x118 => d.ctl.recoveryEvents
  | 0x11C => d.ctl.provSel.toNat
  | 0x120 => lo32 d.ctl.runSeed.toNat
  | 0x124 => hi32 d.ctl.runSeed.toNat
  | 0x128 => (d.provShared 8).frame
  | 0x200 => d.summary
  | 0x204 => 0x061600A1 + 2 ^ 8 * boolNat Config.orderedXS + d.pins.addrSel.toNat * 2 ^ 10
  | 0x208 => d.i3c.last.toNat
  | 0x20C => d.i3c.mask.toNat
  | 0x210 => d.ibiPending
  | 0x214 => d.i3c.lost
  | 0x218 => d.modePending
  | 0x21C => d.req.skips
  | 0x224 => d.req.result.toNat
  | 0x228 => d.req.arg.toNat
  | 0x22C => d.req.count
  | _ =>
    match tableIdx o 0x20 4 6, tableIdx o 0x140 4 8, tableIdx o 0x160 4 8, tableIdx o 0x300 4 16 with
    | some n, _, _, _ => cap32 (vget d.ctl.stepsNe n 0)
    | _, some i, _, _ => wordAt d.image.programDigest i
    | _, _, some i, _ => wordAt (d.provShared i).digest i
    | _, _, _, some i => (vget d.req.area i 0).toNat
    | _, _, _, _ => 0

/-! ### BOOT and TRUST (Tables 15.14 and 15.15) -/

def Device.bootValue (d : Device) (o : Nat) : Nat :=
  let b := d.boot
  match o with
  | 0x00 =>
    b.order % 16 + boolNat d.ctl.locked * 16 + boolNat (d.phase = .inert) * 32 + statusCode b.status * 2 ^ 8 +
      b.failIndex % 2 ^ 10 * 2 ^ 16
  | 0x04 => b.cause
  | 0x08 => lo32 b.lockUs
  | 0x0C => lo32 b.imageBytes
  | 0x10 => cap16 b.sramRepaired + cap16 b.dramRepaired * 2 ^ 16
  | 0x14 => b.unrepaired.toNat
  | 0x18 => b.journalSlot % 2 + b.journalPos % 32 * 2 + boolNat b.slotErased * 64
  | _ => 0

def Device.trustStatus (d : Device) : Nat :=
  let r := d.trust
  let flags : List Bool :=
    [r.usable, r.puffail, r.treeFail, r.journalFail, r.noFactory, r.exhausted, r.noRepair, r.session.isSome, r.preparing,
     d.attest.busy.isSome, d.attest.ready]
  maskOf 11 (fun i => flags.getD i false) + statusCode r.lastStatus * 2 ^ 16

def Device.trustValue (d : Device) (o : Nat) : Nat :=
  let r := d.trust
  match o with
  | 0x00 => d.trustStatus
  | 0x04 => wordAt d.attest.deviceId 0
  | 0x08 => wordAt d.attest.deviceId 1
  | 0x0C => (r.session.map (·.leaf)).getD 0
  | 0x10 => r.block.getD 0
  | 0x14 => match r.block with
    | some b => 1048576 - 16 * (b + 1)
    | none => 0
  | 0x18 => (r.session.map (fun k => sessionLeaves - k.next)).getD 0 + cap16 r.sessions * 2 ^ 16
  | 0x1C => d.attest.attests
  | 0x20 => d.attest.rollovers
  | 0x24 => d.attest.advances
  | 0x28 => lo32 r.journalSeq
  | 0x2C => r.journalSeqHi.toNat
  | _ =>
    match tableIdx o 0x8000 4 5256 with
    | some i => wordAt d.attest.response i
    | none => 0

/-! ### THERM (Table 17.11), WELL (Table 2.9) and STK -/

def Device.thermValue (d : Device) (o : Nat) : Nat :=
  let x := d.therm
  match o with
  | 0x00 => boolNat x.hold + 2 * boolNat x.trip + 4 * boolNat x.clkLost + x.hottest % 16 * 2 ^ 8
  | 0x04 => temp16 x.tj
  | 0x08 => temp16 (x.peak.getD 0)
  | 0x0C => x.holdAt
  | 0x10 => x.tripAt
  | 0x14 => x.vddNe % 2 ^ 16
  | 0x18 => x.vddBd % 2 ^ 16
  | 0x1C => lo32 x.power
  | 0x20 => x.holdPeriods
  | 0x24 => x.ppsIgnored
  | _ =>
    match tableIdx o 0x40 4 16 with
    | some i => temp16 (vget x.sensors i 0)
    | none => 0

def Device.wellValue (d : Device) (o : Nat) : Nat :=
  match o with
  | 0x00 => d.well.binSize
  | 0x10 => d.well.semErrors
  | 0x14 => d.well.freeChoice
  | _ =>
    match tableIdx o 0x1000 4 1024, tableIdx o 0x2000 4 256 with
    | some f, _ => (d.flag f).toNat
    | _, some m =>
      let x := d.sem m
      x.count % 16 + boolNat x.ceiling * 16 + x.holders.length % 16 * 2 ^ 8
    | _, _ => 0

def Device.stkValue (d : Device) (o : Nat) : Nat := if o = 0x10 then d.stk.freeChoice else 0

/-! ### SEAL (Table 14.8) -/

def Device.sealValue (d : Device) (o : Nat) : Nat :=
  let r := d.sealRegs
  let x := d.sealSt
  match o with
  | 0x00 =>
    boolNat (x.scrubEn && d.phase = .running) + maskOf 6 (fun e => (d.eng e).rejoin != .none) * 2 ^ 8 +
      maskOf 6 (fun e => (d.eng e).asleep) * 2 ^ 16
  | 0x04 => r.genDram
  | 0x08 => r.genWell
  | 0x40 => r.failsDram
  | 0x44 => r.failsWell
  | 0x80 => r.refetchOk
  | 0x84 => r.recomputes
  | 0x88 => r.fallbacks
  | 0x8C => r.fillTiles
  | 0x90 => r.lastFail
  | 0x94 => r.lastFailHiLatch.toNat
  | 0xA0 => boolNat x.scrubEn
  | 0xA4 => x.scrubPos
  | 0xA8 => cap32 x.scrubPasses
  | 0xAC => x.scrubFails
  | 0xB0 => x.scrubRepairs
  | 0xC0 => x.shadowRuns
  | 0xC4 => x.shadowMismatch
  | 0xC8 => x.shadowSkips
  | 0x120 => x.retireThresh
  | 0x124 => x.rejoinCtl.toNat
  | 0x12C => x.rejoinFails
  | 0x130 => x.retirements
  | 0x140 => lo32 x.sched
  | 0x144 => (vget x.his 0 0).toNat
  | 0x148 => lo32 x.lost
  | 0x14C => (vget x.his 1 0).toNat
  | 0x150 => lo32 x.excused
  | 0x154 => (vget x.his 2 0).toNat
  | _ =>
    match tableIdx o 0x10 4 6, tableIdx o 0x50 4 6, tableIdx o 0x100 4 6 with
    | some n, _, _ => vget r.genScr n 0
    | _, some n, _ => vget r.failsScr n 0
    | _, _, some n => cap16 (d.eng n).score
    | _, _, _ => 0

/-! ### ITN (Tables 6.8, 9.6 and 10.15) -/

def ctxCode : CtxMode → Nat
  | .idle => 0 | .queued => 1 | .running => 2 | .yielded => 3 | .saved => 4 | .quarantined => 5

def Device.ctxStatus (d : Device) (c : Nat) : Nat :=
  let x := d.ctx c
  ctxCode (d.modeOf c) + boolNat (d.heldNow c) * 8 + boolNat (d.raised c) * 16 +
    maskOf 6 (fun e => (d.eng e).run.any (fun r => r.ctx = c)) * 2 ^ 5 + x.lastEntry % 2 ^ 16 * 2 ^ 16

/-- ITN_PART_BE. -/
def Device.partBe (d : Device) (p : Nat) : Nat :=
  let served := (List.range 6).findSome? (fun e =>
    match (d.eng e).slice with
    | some (c, _) => if d.partOf c = p then some c else none
    | none => none)
  let ready := min 255 (d.readyCtxs p).length * 2 ^ 8
  match served with
  | some c => c + 64 + ready
  | none => ready

/-- ITN_GEN of a stream; a stream without a state block reads 0. -/
def Device.genValue (d : Device) (s o : Nat) : Nat :=
  let x := d.strm s
  if !d.hasSsb s then 0
  else
    match o with
    | 0x00 =>
      d.ssbV s % 16 + d.ssbH s % 16 * 2 ^ 4 + d.ssbEvalid s * 2 ^ 8 + boolNat (d.ssbFlag s flagCold) * 2 ^ 16 +
        boolNat (d.ssbFlag s flagActive) * 2 ^ 17 + boolNat (d.ssbFlag s flagAf) * 2 ^ 18 +
        boolNat (d.ssbFlag s flagLo) * 2 ^ 19 + boolNat (d.ssbFlag s flagPending) * 2 ^ 20 + min 255 x.lastD * 2 ^ 21
    | 0x04 => d.ssbAnchorTag s
    | 0x08 => d.ssbField s 16 4
    | 0x0C => x.late
    | 0x10 => x.abandons
    | 0x14 => x.resyncs
    | 0x18 => d.ssbField s 24 4
    | 0x1C => x.appendsHi.toNat
    | _ => 0

/-- ITN_TUNE of a stream. -/
def Device.tuneValue (d : Device) (s o : Nat) : Nat :=
  let x := (d.strm s).tune
  let r := (d.strm s).treg
  match o with
  | 0x00 =>
    boolNat ((d.tuneRec s).any (·.enable)) + boolNat x.suspended * 2 + min 7 x.queue.length * 4 + boolNat x.low * 32 +
      boolNat (x.cand.any (fun c => c.readyAt.isSome)) * 64 + r.bank.val * 2 ^ 7 + x.epoch % 2 ^ 16 * 2 ^ 16
  | 0x04 => lo32 x.steps
  | 0x08 => lo32 x.samples
  | 0x0C => r.skipped
  | 0x10 => r.refsCut
  | 0x14 => r.refDrops
  | 0x18 => r.lows
  | 0x1C => r.dropped
  | 0x20 => r.lastCand % 2 ^ 16 + ((x.cand.filter (fun c => c.readyAt.isSome)).map (fun c => c.c)).getD 0 % 2 ^ 16 * 2 ^ 16
  | 0x24 => r.adopts
  | 0x28 => r.refused
  | 0x2C => r.missed
  | _ =>
    match tableIdx o 0x40 4 8 with
    | some i => wordAt r.weights i
    | none => 0

def Device.itnValue (d : Device) (o : Nat) : Nat :=
  let i := d.itn
  match o with
  | 0x00 =>
    boolNat (d.phase = .running) + boolNat (d.active.any (·.lockstep)) * 2 + i.active % 8 * 4 +
      maskOf 6 (fun e => (d.eng e).retired) * 2 ^ 8
  | 0x04 => lo32 d.cycleNs
  | 0x08 => i.cycles
  | 0x0C => lo32 (i.t0.getD 0)
  | 0x10 => i.t0Hi.toNat
  | 0x14 => i.groupEn.toNat
  | 0x18 => i.launches
  | 0x1C => i.deadlineSkips
  | 0x20 => i.lateEnds
  | 0x24 => i.overruns
  | 0x28 => i.noCredit
  | 0x2C => i.teardowns
  | 0x30 => i.semWatchdog
  | 0x34 => i.switches
  | 0x38 => i.freeChoice
  | 0x3C => i.lastTeardown.toNat
  | _ =>
    match tableRow o 0x4000 0x10 64, tableRow o 0x6000 0x10 8, tableRow o 0x8000 0x20 32, tableRow o 0x9000 0x80 32 with
    | some (c, 0), _, _, _ => d.ctxStatus c
    | some (c, 4), _, _, _ => (d.ctx c).creditsReserved % 512 + (d.ctx c).creditsOut % 512 * 2 ^ 16
    | _, some (p, 0), _, _ =>
      (d.part p).freeCredits % 512 + (d.ots.way.filter (fun w => w.1 = p)).length % 512 * 2 ^ 16
    | _, some (p, 4), _, _ => d.partBe p
    | _, _, some (s, k), _ => d.genValue s k
    | _, _, _, some (s, k) => d.tuneValue s k
    | _, _, _, _ => 0

/-! ### TOLL (Table 10.16); energy is kept in fJ -/

def Device.acctOf (d : Device) (c : Nat) : Acct :=
  vget d.toll.acct c { steps := 0, engineNs := 0, bytes := 0, energy := 0, launches := 0, his := Vector.replicate 4 0 }

/-- The four 64-bit totals of a context: steps, µs, bytes, µJ. -/
def Acct.total (a : Acct) (k : Nat) : Nat :=
  match k with
  | 0 => a.steps
  | 1 => a.engineNs / 1000
  | 2 => a.bytes
  | _ => a.energy / 1000000000

def Device.meterValue (d : Device) (m k : Nat) : Nat :=
  let x := vget d.toll.meters m .reset
  match k with
  | 0x00 => vget x.budget 0 0
  | 0x04 => vget x.budget 1 0
  | 0x08 => vget x.budget 2 0
  | 0x0C => vget x.budget 3 0
  | 0x10 => cap32 (vget x.last 0 0)
  | 0x14 => cap32 (vget x.last 1 0)
  | 0x18 => cap32 (vget x.last 2 0)
  | 0x1C => cap32 (vget x.last 3 0 / 1000000)
  | _ => 0

/-- R457: a total of a context; its engine time takes in the lists that run. -/
def Device.acctTotal (d : Device) (c k : Nat) : Nat :=
  let a := d.acctOf c
  let runs := d.ne.toList.filterMap (fun e => (e.run.filter (fun r => r.ctx = c)).map (fun r => d.now - r.started))
  { a with engineNs := a.engineNs + runs.foldl (· + ·) 0 }.total k

def Device.acctValue (d : Device) (c k : Nat) : Nat :=
  let a := d.acctOf c
  if k = 0x20 then a.launches
  else if k % 8 = 0 ∧ k < 0x20 then lo32 (d.acctTotal c (k / 8))
  else if k % 8 = 4 ∧ k < 0x20 then (vget a.his (k / 8) 0).toNat
  else 0

def Device.tollValue (d : Device) (o : Nat) : Nat :=
  let x := d.toll
  match o with
  | 0x00 => boolNat x.deviceHeld + 2 * boolNat x.beHeld
  | 0x04 => x.cap
  | 0x08 => x.bePct
  | 0x0C => x.capPeriods
  | 0x10 => lo32 x.heldLast.toNat
  | 0x14 => hi32 x.heldLast.toNat
  | 0x18 => x.static
  | _ =>
    match tableIdx o 0x100 4 8, tableRow o 0x1000 0x20 73, tableRow o 0x4000 0x40 64 with
    | some j, _, _ => vget x.weights j 0
    | _, some (m, k), _ => d.meterValue m k
    | _, _, some (c, k) => d.acctValue c k
    | _, _, _ => 0

/-! ### SERAI, RFE, LANE and OTS (Tables 13.9, 7.12, 12.15 and 12.16) -/

def Device.seraiValue (d : Device) (o : Nat) : Nat :=
  let x := d.serai
  match o with
  | 0x00 => boolNat (!x.landings.isEmpty) + x.lastProducer % 512 * 2
  | 0x04 => x.landed
  | 0x08 => x.stalls
  | 0x0C => x.absent
  | 0x10 => x.freeChoice
  | 0x14 => lo32 d.image.landBase
  | 0x18 => d.image.landBase / 2 ^ 32 % 2 ^ 16
  | 0x1C => cap32 (x.pixelLayers / 65536)
  | _ => 0

/-- Bin blocks in use: the head tables and the blocks taken of every set. -/
def Device.binBlocks (d : Device) : Nat :=
  (d.rfe.sets.map (fun (x : SetRec) =>
    match d.image.rasters[x.1.recIdx]? with
    | some r => x.2.nextBlock - r.block0 x.1.buf
    | none => 0)).foldl (· + ·) 0

/-- RFE_REC of a raster record. -/
def Device.rfeRec (d : Device) (i : Nat) : Nat :=
  let one (b : Fin 2) : Nat × Nat × Nat :=
    match d.rfe.sets.find? (fun x => x.1.recIdx = i && x.1.buf = b) with
    | none => (0, 0, 0)
    | some x =>
      ((match x.1.phase with
        | .receiving => 1
        | .accepted => 2
        | .closed => 3), min 7 x.2.partials, boolNat x.2.incomplete)
  let (s0, p0, i0) := one 0
  let (s1, p1, i1) := one 1
  s0 + s1 * 4 + p0 * 2 ^ 4 + p1 * 2 ^ 7 + i0 * 2 ^ 10 + i1 * 2 ^ 11

def Device.rfeValue (d : Device) (o : Nat) : Nat :=
  let r := d.rfe
  match o with
  | 0x00 =>
    let served := match r.serving with
      | some (rec_, buf) => r.sets.find? (fun (x : SetRec) => x.1.recIdx = rec_ && x.1.buf = buf && x.1.phase ≠ SetPhase.closed)
      | none => none
    boolNat served.isSome + boolNat (r.sets.any (fun x => x.2.flush.isSome)) * 2 +
      (match served with
        | some x => x.1.stream % 32 * 2 ^ 8 + x.1.kind % 2 * 2 ^ 13
        | none => 0)
  | 0x04 => r.accepted
  | 0x08 => r.rejected
  | 0x0C => r.late
  | 0x10 => r.partials
  | 0x14 => r.denied
  | 0x18 => r.offscreen
  | 0x1C => r.lastReject.toNat
  | 0x20 => lo32 r.tris
  | 0x24 => r.trisHi.toNat
  | 0x28 => r.freeChoice
  | 0x2C => d.binBlocks
  | _ =>
    match tableIdx o 0x1000 4 64 with
    | some i => d.rfeRec i
    | none => 0

def rxCode : RxState → Nat
  | .dark => 0 | .cwSearch => 1 | .sfSearch => 2 | .active => 3

def txCode : TxState → Nat
  | .dark => 0 | .train => 1 | .run => 2

def RxLane.value (x : RxLane) (k : Nat) : Nat :=
  match k with
  | 0x00 => rxCode x.state + x.role.toNat * 2 ^ 8
  | 0x04 => x.corr
  | 0x08 => x.uncorr
  | 0x0C => cap16 x.eccCorr + cap16 x.eccDisc * 2 ^ 16
  | 0x10 => x.crc
  | 0x14 => x.loss
  | 0x18 => x.frameErr
  | _ => 0

def TxLane.value (x : TxLane) (k : Nat) : Nat :=
  match k with
  | 0x0 => txCode x.state + x.role.toNat * 2 ^ 8
  | 0x4 => x.frames
  | _ => 0

def Device.laneValue (d : Device) (o : Nat) : Nat :=
  match o with
  | 0x00 => maskOf 24 (fun n => (d.rxLane n).state = .active)
  | 0x04 => maskOf 24 (fun n => (d.txLane n).state = .run)
  | 0x10 => d.lanes.rejected
  | 0x14 => d.lanes.lastReject.toNat
  | 0x20 => d.recorder.records
  | 0x24 => boolNat d.recorder.mismatch + 2 * boolNat d.recorder.t0Seen
  | 0x28 => d.recorder.drops
  | _ =>
    match tableRow o 0x1000 0x20 24, tableRow o 0x2000 0x10 24, tableRow o 0x4000 0x10 32 with
    | some (n, k), _, _ => (d.rxLane n).value k
    | _, some (n, k), _ => (d.drainRing.txLane n).value k
    | _, _, some (s, 0) => vget d.lanes.inAccept s 0
    | _, _, some (s, 4) => vget d.lanes.inReject s 0
    | _, _, _ => 0

def Device.otsValue (d : Device) (o : Nat) : Nat :=
  let x := d.ots
  match o with
  | 0x00 =>
    d.image.ringN % 8 + d.pins.addrSel.toNat * 2 ^ 4 + d.ctl.chips % 8 * 2 ^ 8 + boolNat x.ringFail * 2 ^ 11 +
      boolNat x.east.up * 2 ^ 12 + boolNat x.west.up * 2 ^ 13
  | 0x04 => x.east.epoch.toNat + x.west.epoch.toNat * 2 ^ 8
  | 0x08 => x.txFrames
  | 0x0C => x.rxFrames
  | 0x10 => x.crcErrors
  | 0x14 => x.fwdFrames
  | 0x18 => x.fwdDrops
  | 0x1C => x.resets
  | _ => 0

/-! ### NE and TRU (Tables 3.6, 4.20, 5.9, 6.9 and 7.13) -/

def Device.neStatus (d : Device) (e : Nat) : Nat :=
  let x := d.eng e
  let fixed := boolNat (x.pre = .saving) * 4 + boolNat (x.pre = .restoring) * 8 + boolNat x.retired * 16
  match x.run with
  | some r => 1 + boolNat r.fused * 2 + fixed + r.ctx % 64 * 2 ^ 8 + r.idx % 2 ^ 16 * 2 ^ 16
  | none => fixed

def Device.neValue (d : Device) (e o : Nat) : Nat :=
  let x := d.eng e
  let r := x.regs
  match o with
  | 0x000 => d.neStatus e
  | 0x008 => lo32 r.listAddr
  | 0x00C => r.listAddr / 2 ^ 32 % 2 ^ 16
  | 0x010 => lo32 x.steps
  | 0x014 => r.stepsHi.toNat
  | 0x018 => r.lastStatus.toNat
  | 0x01C => r.decodeInfo.toNat
  | 0x020 => r.cmdsDone
  | 0x024 => r.bankStalls
  | 0x028 => r.yields
  | 0x02C => r.fullSaves
  | 0x030 => r.restores
  | 0x034 => cap16 r.lastSaveUs + cap16 r.lastRestoreUs * 2 ^ 16
  | 0x038 => r.teardowns
  | 0x03C => r.freeChoice
  | 0xE00 => r.arithStatus.toNat
  | 0xE04 => r.rangeFlags
  | 0xE08 => r.checkFails
  | 0xE0C => r.checkUncovered
  | 0xE10 => boolNat r.checkEn
  | 0xF00 => x.op.padSkips
  | 0xF04 => x.op.cropOutside
  | 0xF08 => x.op.cropZero
  | 0xF0C => x.op.mapInfo.toNat
  | 0xF10 => x.op.frBlocks
  | 0xF20 => x.op.attnEmpty
  | 0xF24 => x.op.bindInfo.toNat
  | _ => 0

/-- The RASTER_TILE that an engine has under way. -/
def Device.rastering (d : Device) (e : Nat) : Bool :=
  (d.eng e).run.any (fun r => r.inCmd && (r.cmds[r.idx]?).any (fun c => cmdOp c = opRASTER))

/-- TRU_STATUS but for the tile index of work under way. -/
def Device.truStatus (d : Device) (e : Nat) : Nat :=
  match d.flushSet e with
  | some x => 3 + (d.streamCtx x.1.stream).getD 0 % 64 * 2 ^ 8
  | none => if d.rastering e then 1 + (((d.eng e).run.map (·.ctx)).getD 0) % 64 * 2 ^ 8 else 0

/-- The tiles among which the TRU's index lies while it works: the first, and how many follow from it. -/
def Device.truTiles (d : Device) (e : Nat) : Nat × Nat :=
  match d.flushSet e with
  | some x =>
    let done := match x.2.flush with
      | some (_, _, n) => n
      | none => 0
    (done, ((d.image.rasters[x.1.recIdx]?).map (fun r => (d.flushList r x.1.buf).length)).getD 0 - done)
  | none =>
    match (d.eng e).run with
    | some r => (r.pos.chunk, field r.cmd 20 2 * field r.cmd 22 2 - r.pos.chunk)
    | none => (0, 0)

def Device.truValue (d : Device) (e o : Nat) : Nat :=
  let t := (d.eng e).tru
  match o with
  | 0x00 => d.truStatus e
  | 0x04 => t.tiles
  | 0x08 => t.entries
  | 0x0C => t.reloads
  | 0x10 => t.flushTiles
  | 0x14 => t.motSat
  | 0x18 => t.culled
  | _ => 0

/-! ### Vision units and scan-out (Tables 8.9, 8.10 and 13.8) -/

/-- Status of a vision unit without the phase and row of a job under way. -/
def Device.visionStatus (d : Device) (u : Nat) : Nat :=
  let v := d.unit u
  min 7 v.queue.length * 4 +
    (match v.run with
      | some r => 1 + boolNat (!r.satisfied) * 2 + r.launch.ctx % 64 * 2 ^ 8
      | none => 0)

def Device.visionValue (d : Device) (u o : Nat) : Nat :=
  let v := d.unit u
  match o with
  | 0x00 => d.visionStatus u
  | 0x04 => v.jobs
  | 0x08 => v.lastStatus.toNat
  | 0x0C => lo32 v.pixels
  | 0x10 => v.pixelsHi.toNat
  | 0x14 => v.freeChoice
  | 0x18 => v.teardowns
  | 0x40 => v.countA
  | 0x44 => if u < 3 then v.countB else 0
  | _ => 0

def Device.scanStatus (d : Device) (p : Nat) : Nat :=
  let x := d.port p
  let streams := d.portStreams p
  let urgent (i : Nat) : Bool := (streams[i]?).any (fun r => (d.strm r.stream).urgent)
  let lines := match streams.head?.bind (fun r => d.profileOf r.stream) with
    | some y => y.frameLines
    | none => 0
  let line := if !x.running then 0 else if x.nextLine = 0 then lines - 1 else x.nextLine - 1
  boolNat x.running + boolNat (streams.length = 2) * 2 + boolNat (urgent 0) * 4 + boolNat (urgent 1) * 8 +
    line % 2 ^ 17 * 2 ^ 4

def Device.scanValue (d : Device) (p o : Nat) : Nat :=
  let x := d.port p
  match o with
  | 0x00 => d.scanStatus p
  | 0x04 => x.underrun
  | 0x08 => x.framesA
  | 0x0C => x.framesB
  | 0x10 => x.freeChoice
  | 0x14 => x.urgentCount
  | 0x18 => x.degradedA
  | 0x1C => x.degradedB
  | 0x20 => cap16 x.occMinA + cap16 x.occMinB * 2 ^ 16
  | 0x24 => x.lastCauses.toNat
  | _ => 0

/-! ### The whole map (Table 16.11) -/

/-- Vision unit of a register block: FLOW0, FLOW1, STEREO0, REMAP0 to REMAP3. -/
def blockVision (block : Nat) : Option Nat :=
  if block = 0x20 ∨ block = 0x21 then some (block - 0x20)
  else if block = 0x22 then some 2
  else if 0x24 ≤ block ∧ block < 0x28 then some (block - 0x21)
  else none

/-- The value of the register at an offset; reserved offsets read 0 (R12), write-only registers read 0 (R9). -/
def Device.regValue (d : Device) (off : Nat) : Nat :=
  let block := off / 0x100000
  let o := off % 0x100000
  match block with
  | 0x00 => d.ctlValue o
  | 0x01 => d.bootValue o
  | 0x02 => d.trustValue o
  | 0x03 => d.thermValue o
  | 0x04 => d.wellValue o
  | 0x05 => d.stkValue o
  | 0x06 => d.sealValue o
  | 0x07 => d.itnValue o
  | 0x08 => d.tollValue o
  | 0x09 => d.seraiValue o
  | 0x0A => d.rfeValue o
  | 0x0B => d.laneValue o
  | 0x0C => d.otsValue o
  | _ =>
    if 0x10 ≤ block ∧ block < 0x16 then d.neValue (block - 0x10) o
    else if 0x18 ≤ block ∧ block < 0x1E then d.truValue (block - 0x18) o
    else if 0x30 ≤ block ∧ block < 0x40 then d.scanValue (block - 0x30) o
    else
      match blockVision block with
      | some u => d.visionValue u o
      | none => 0

/-! ### Latches of _LO registers -/

/-- What a read of an offset changes: a _LO register latches its _HI register. -/
def Device.regLatch (d : Device) (off : Nat) : Device :=
  let block := off / 0x100000
  let o := off % 0x100000
  match block, o with
  | 0x00, 0x10 => { d with ctl := { d.ctl with timeHi := word (hi32 d.now) } }
  | 0x00, _ =>
    match (if o = 0x128 then some 8 else tableIdx o 0x160 4 8) with
    | some i =>
      let l := d.provShared i
      { d with ctl := { d.ctl with prov := some { l with seen := i :: l.seen } } }
    | none => d
  | 0x02, 0x28 => { d with trust := { d.trust with journalSeqHi := word (hi32 d.trust.journalSeq) } }
  | 0x06, 0x90 => d.modSeal (fun r => { r with lastFailHiLatch := r.lastFailHi })
  | 0x06, 0x140 => d.modSealSt (fun x => { x with his := vset x.his 0 (word (hi32 x.sched)) })
  | 0x06, 0x148 => d.modSealSt (fun x => { x with his := vset x.his 1 (word (hi32 x.lost)) })
  | 0x06, 0x150 => d.modSealSt (fun x => { x with his := vset x.his 2 (word (hi32 x.excused)) })
  | 0x07, 0x0C => d.modItn (fun i => { i with t0Hi := word (hi32 (i.t0.getD 0)) })
  | 0x07, _ =>
    match tableRow o 0x8000 0x20 32 with
    | some (s, 0x18) => d.modStrm s (fun x => { x with appendsHi := word (if d.hasSsb s then d.ssbField s 28 4 else 0) })
    | _ => d
  | 0x08, _ =>
    match tableRow o 0x4000 0x40 64 with
    | some (c, k) =>
      if k % 8 = 0 ∧ k < 0x20 then
        { d with toll := { d.toll with acct := vmod d.toll.acct c (fun (a : Acct) =>
          { a with his := vset a.his (k / 8) (word (hi32 (d.acctTotal c (k / 8)))) }) } }
      else d
    | none => d
  | 0x0A, 0x20 => { d with rfe := { d.rfe with trisHi := word (hi32 d.rfe.tris) } }
  | _, 0x10 =>
    if 0x10 ≤ block ∧ block < 0x16 then
      d.modEng (block - 0x10) (fun x => { x with regs := { x.regs with stepsHi := word (hi32 x.steps) } })
    else d
  | _, 0x0C =>
    match blockVision block with
    | some u => d.modUnit u (fun v => { v with pixelsHi := word (hi32 v.pixels) })
    | none => d
  | _, _ => d

/-- Phases and rows among which a vision job's lie while it runs (Table 8.9): the levels of a pyramid or the passes of a stereo
job, and the first row and how many follow from it, over all phases. -/
def VRun.progressRange (r : VRun) : Nat × Nat × Nat :=
  let rows := (descAt r.descs r.job 32).height
  match field r.job 2 1, field r.job 3 1 with
  | 0, 0 => (5, 0, rows)
  | 0, _ => (1, field r.job 40 2, field r.job 42 2)
  | 1, _ => (2, 0, rows)
  | _, _ => (1, field r.job 36 2, field r.job 38 2)

/-- How far a command, a job or the tests of a rejoin under way have come, which the model runs as one happening: a free value
within its range (log 41, log 50). None where nothing is under way at the register. -/
def Device.progress (d : Device) (off f g : Nat) : Option Nat :=
  let block := off / 0x100000
  let e := block - 0x18
  if block = 0x06 then
    match tableIdx (off % 0x100000) 0x10 4 6 with
    | some n => if (d.eng n).rejoin = .testing then some (f % 2) else none
    | none => none
  else if off % 0x100000 ≠ 0 then none
  else if 0x18 ≤ block ∧ block < 0x1E then
    if d.rastering e || (d.flushSet e).isSome then
      let (lo, n) := d.truTiles e
      some ((lo + f % max 1 n) % 2 ^ 16 * 2 ^ 16)
    else none
  else
    match (blockVision block).bind (fun u => (d.unit u).run) with
    | some r =>
      if !r.satisfied then none
      else
        let (phases, lo, n) := r.progressRange
        let phase := g % phases
        some (phase * 2 ^ 5 + (lo + f % max 1 (if phases = 5 then ceilDiv n (2 ^ phase) else n)) % 2 ^ 14 * 2 ^ 16)
    | none => none

/-- A read of a register: its value, and what the read changes. -/
def Device.regRead (d : Device) (off : Nat) : Nat × Device :=
  let v := d.regValue off
  if (d.progress off 0 0).isSome then
    let (bs, e) := d.freeBytes 3
    (v + (d.progress off (field bs 0 2) (field bs 2 1)).getD 0, e)
  else (v, d.regLatch off)

end Sys2Proof.Machine
end

