-- ==== Sys2Proof/Machine/Raster.lean ====
section
/-! DEFINITION. RASTER_TILE (R331) and its instructions (R334). -/
namespace Sys2Proof.Machine

/-! ### RASTER_TILE -/

/-- Columns of a tile inside the viewport. -/
def RasterRec.tileCols (r : RasterRec) (tile : Nat) : Nat := min 32 (r.width - 32 * (tile % r.tw))
def RasterRec.tileRows (r : RasterRec) (tile : Nat) : List Nat :=
  let top := 32 * (tile / r.tw)
  (List.range (min 32 (r.height - top))).map (top + ·)

/-- Element size in bytes of the five planes, by their descriptor's offset. -/
def planeOffsets : List (Nat × Nat) := [(24, 4), (25, 4), (26, 1), (27, 4), (28, 4)]

/-- Runs of the five planes that a tile's pixels take. -/
def planeSpans (t : Nat → Desc) (r : RasterRec) (tile : Nat) : List Span :=
  planeOffsets.flatMap (fun o => (r.tileRows tile).map (fun y =>
    { addr := (t o.1).rowAddr 0 y + 32 * (tile % r.tw) * o.2, len := r.tileCols tile * o.2, store := true }))

/-- One tile's pixels into the five planes. -/
def Device.putTile (d : Device) (reach : Nat → Nat) (t : Nat → Desc) (r : RasterRec) (g : GeoSet) (tile : Nat) (pix : List Pix) : Device :=
  let put (d : Device) (o size : Nat) (val : Nat → Pix → Nat) : Device :=
    (r.tileRows tile).foldl (fun (d : Device) (y : Nat) =>
      let row := (pix.drop (32 * (y % 32))).take (r.tileCols tile)
      d.write (reach ((t o).rowAddr 0 y + 32 * (tile % r.tw) * size)) (row.flatMap (fun p => leBytes size (val y p)))) d
  let d := put d 24 4 (fun _ p => p.depth)
  let d := put d 25 4 (fun _ p => p.id)
  let d := put d 26 1 (fun _ p => p.mat)
  let d := put d 27 4 (fun _ p => p.mot)
  put d 28 4 (fun y _ => rowTime g.order r.height g.tSpan y)

/-- The set that a RASTER_TILE reads, with its record (R331). -/
def Device.tileSet (d : Device) (r : Run) (frame : Nat) : Option (RasterRec × Option SetRec) :=
  match d.serveOf r.due with
  | none => none
  | some v =>
    let s := v.entry.stream
    let kind := d.setKind r.ctx
    (d.rasterRec s kind).map (fun rr => (rr, (d.unwrap s frame).bind (d.setOf s kind)))

/-- Runs of the planes that a RASTER_TILE writes. -/
def Run.rasterOut (r : Run) (rr : RasterRec) : List Span :=
  (regionTiles rr.tw r.cmd).flatMap (planeSpans (descAt r.descs r.cmd) rr)

/-- R331: RELOAD. -/
def Run.rasterReload (r : Run) : Bool := bit (field r.cmd 29 1) 0

/-- What the TRU reads for the region of a RASTER_TILE. -/
def Device.rasterWork (d : Device) (r : Run) (rr : RasterRec) (g : GeoSet) : List TileWork :=
  (regionTiles rr.tw r.cmd).map (d.tileWork rr g.buf)

/-- What a RASTER_TILE of a set reads and writes. -/
def Device.rasterPlan (d : Device) (r : Run) (rr : RasterRec) (g : GeoSet) : Plan :=
  Plan.of ((d.rasterWork r rr g).flatMap (fun w => d.tileSpans rr g w r.rasterReload) ++ r.rasterOut rr)

/-- The entries `lo` to `hi` of a tile's list resolved: the pixels then, and the rows that they culled (R334). -/
structure TilePart where
  work : TileWork
  lo : Nat
  hi : Nat
  pix : List Pix
  culled : Nat
  deriving DecidableEq, Repr

/-- The tile is resolved to its end. -/
def TilePart.whole (p : TilePart) : Bool := decide (p.work.tris.length ≤ p.hi)

/-- A pixel of a tile as the planes hold it, where an earlier part of the command left it (R334). -/
def planePix (w : List (Nat × Byte)) (t : Nat → Desc) (r : RasterRec) (tile i : Nat) : Pix :=
  let (x, y) := (32 * (tile % r.tw) + i % 32, 32 * (tile / r.tw) + i / 32)
  let at_ (o size : Nat) : Nat := leNat ((List.range size).map (fun j => memGet w ((t o).rowAddr 0 y + x * size + j)))
  { depth := at_ 24 4, id := at_ 25 4, mat := at_ 26 1, mot := at_ 27 4, sat := 0 }

/-- Entries `lo` to `hi` of a tile: from its start where `lo` is 0, else from the planes that lie in scratch. -/
def Device.tilePart (d : Device) (e : Nat) (r : Run) (rr : RasterRec) (g : GeoSet) (w : TileWork) (lo hi : Nat) : TilePart :=
  let t := descAt r.descs r.cmd
  let tris := (w.tris.take hi).drop lo
  let start : Nat → Pix :=
    if lo = 0 then d.tileStart rr g w r.rasterReload
    else
      let held := (planeSpans t rr w.tile).flatMap (fun s => memListed s.addr (d.peek (physAddr e s.addr) s.len))
      planePix held t rr w.tile
  { work := w, lo := lo, hi := hi, pix := d.resolveOn rr g w tris start, culled := d.culledIn rr g w tris }

/-- What the command resolves from its expansion position on, up to the position `stop` where it is cut (R334, R342). -/
def Device.rasterDone (d : Device) (e : Nat) (r : Run) (rr : RasterRec) (g : GeoSet) (stop : Option Pos) : List TilePart :=
  let ws := d.rasterWork r rr g
  ((List.range ws.length).zip ws).filterMap (fun (q : Nat × TileWork) =>
    let (k, w) := q
    let lo := if k = r.pos.chunk then r.pos.vector else 0
    if k < r.pos.chunk then none
    else match stop with
      | none => some (d.tilePart e r rr g w lo w.tris.length)
      | some p =>
        if k < p.chunk then some (d.tilePart e r rr g w lo w.tris.length)
        else if k = p.chunk ∧ lo < p.vector then some (d.tilePart e r rr g w lo p.vector)
        else none)

/-- What it is charged. -/
def Device.rasterUse (d : Device) (e : Nat) (r : Run) (rr : RasterRec) (g : GeoSet) : Use :=
  { (d.rasterPlan r rr g).traffic e with emptySteps := tileSteps (d.rasterWork r rr g) }

/-- The counters of Table 7.13 after the parts `done`: a tile counts with its last entry, a reload with its first. -/
def TruRegs.count (x : TruRegs) (reload : Bool) (done : List TilePart) : TruRegs :=
  { x with
    tiles := satAdd x.tiles (done.filter TilePart.whole).length,
    entries := satAdd x.entries (done.foldl (fun n p => n + (p.hi - p.lo)) 0),
    reloads := satAdd x.reloads (done.filter (fun p => reload && p.work.flushed && p.lo = 0)).length,
    motSat := satAdd x.motSat (done.foldl (fun n p => n + pixSat p.pix) 0),
    culled := satAdd x.culled (done.foldl (fun n p => n + p.culled) 0) }

/-- The pixels of tiles written into the five planes. -/
def Device.putRaster (d : Device) (e : Nat) (r : Run) (rr : RasterRec) (g : GeoSet) (done : List TilePart) : Device :=
  done.foldl (fun (d : Device) p => d.putTile (physAddr e) (descAt r.descs r.cmd) rr g p.work.tile p.pix) d

/-- R334: the instructions of a RASTER_TILE, each tile in runs of 1,945 entries; the tile's place in the region stands in the
chunk field, the entry in the vector field. -/
def tileIssues (ws : List TileWork) : List Issue :=
  (List.range ws.length).flatMap (fun k =>
    let n := ((ws[k]?).map (·.tris.length)).getD 0
    (List.range (max 1 (ceilDiv n 1945))).map (fun i =>
      { pos := { kind := kindVOP, chunk := k, vector := 1945 * i },
        use := { emptySteps := (if i = 0 then 205 else 0) + 2 * min 1945 (n - 1945 * i) } }))

def Device.rasterIssues (d : Device) (_ : Nat) (r : Run) : List Issue :=
  match d.tileSet r (field r.cmd 32 4) with
  | some (rr, some (g, _)) => tileIssues (d.rasterWork r rr g)
  | _ => blockIssues { kind := kindVOP } 0 0

/-- RASTER_TILE. A slot without a set leaves its planes undefined. -/
def Device.rasterTile (d : Device) (e : Nat) (r : Run) : Device :=
  match d.tileSet r (field r.cmd 32 4) with
  | none => d
  | some (rr, none) => d.simple e r (Plan.of (r.rasterOut rr)) 0 (fun d => d.freeSpans e (r.rasterOut rr))
  | some (rr, some (g, _)) =>
    let plan := d.rasterPlan r rr g
    let done := d.rasterDone e r rr g none
    match d.admitted e r plan (fun d _ => d) with
    | (false, d) => d
    | (true, x) =>
      let x := x.countFill (plan.fills e)
      let x := x.spend e r.ctx (d.rasterUse e r rr g)
      let x := x.modTru e (fun y => y.count r.rasterReload done)
      (x.writing e (r.rasterOut rr) (fun x => x.putRaster e r rr g done)).completeCommand e

def execRasterTile (t : Nat) (engine : Fin 6) (s : State) : Host.Outcome State Fault Refusal :=
  s.command t engine (isOp opRASTER) (·.rasterIssues) (fun d e r => d.rasterTile e r)

end Sys2Proof.Machine
end

