-- ==== Sys2Proof/Machine/Saves.lean ====
section
/-! DEFINITION. Full saves (R160, R186 to R193): where issue stops inside a command, what has happened by then, and the save
that follows; pre-emption by an expired YIELD_WAIT and under a mark (R458, R461). -/
namespace Sys2Proof.Machine

/-! ### Commands cut at an instruction boundary -/

/-- The last weight-set load among instructions. -/
def lastLoad (l : List Issue) : Option Pos := ((l.filter (fun i => i.pos.kind = kindWLD)).getLast?).map (·.pos)

/-- Where the next instruction stands, once the first `n` have been issued; a drain stopped at an entry boundary has written
`k` of its vectors (Table 4.19). -/
def cutPos (l : List Issue) (n k : Nat) : Pos :=
  let p := ((l[n]?).map (·.pos)).getD {}
  { p with issued := n, vector := if p.kind = kindDRN then min k 127 else p.vector }

/-- The list once the first `n` instructions of its command have been issued: they are charged, and the next one is kept. -/
def Device.issued (d : Device) (e : Nat) (r : Run) (l : List Issue) (p : Pos) (w : Option WeightSrc) : Device :=
  let u := issueUse (l.take p.issued)
  (d.spend e r.ctx u).modEng e (fun x =>
    { x with run := x.run.map (fun y => { y with pos := p, charged := u, weights := w }) })

/-- False range guards of the vectors that a stopped drain has written: the restore reports them (Table 4.19). -/
def ArrayJob.lateFlags (j : ArrayJob) (p : Pos) : Nat :=
  ((j.rangeFlags p.group (j.falseGuards p.group)).filter (fun x => j.drains p.group x.2 && x.2 / 128 = p.chunk)).length

/-- An array command cut: the chunks that it has drained are written and counted, the others stay in the accumulator file. -/
def Device.cutArray (d : Device) (e : Nat) (r : Run) (plan : Plan) (jobs : List ArrayJob) (l : List Issue) (p : Pos)
    (src : Pos → WeightSrc) (put : Device → Device) : Device :=
  match d.admitted e r plan (fun d _ => d) with
  | (false, d) => d
  | (true, d) =>
    let first := l.take p.issued
    let acc := jobs.foldl (fun acc j =>
      if j.job < p.job then j.left acc else if j.job = p.job then j.leftAt first p acc else acc) (d.eng e).acc
    let cost := (jobs.map (fun j => (j.upTo p).cost)).foldl ArrayCost.add .zero
    let late := jobs.foldl (fun n j => if j.job = p.job then n + (j.upTo p).lateFlags p else n) 0
    let d := d.issued e r l p ((lastLoad first).map src)
    let d := d.modEng e (fun x =>
      { x with
        acc := acc, op := { x.op with padSkips := satAdd x.op.padSkips cost.skips },
        regs := (x.regs.addRange d.now (cost.flags - late)).addUncovered d.now cost.uncovered,
        run := x.run.map (fun y => { y with lateFlags := y.lateFlags + late, failed := y.failed || !cost.marks.isEmpty }) })
    let d := if cost.marks.isEmpty then d else d.checkFailed e cost.marks
    let before := d.store
    ((put d).discard e r plan.spans before).suppress e before

/-- The weight set of a CONV that a load of it names. -/
def Run.convSource (r : Run) (a : ArrayJob) (p : Pos) : WeightSrc :=
  let t := descAt r.descs r.cmd 18
  let (first, count) := (a.sets p.group).getD p.set (0, 0)
  let w := 2048 * pairBits (descAt r.descs r.cmd 16).fmt t.fmt
  { addr := t.base + first * w, bytes := count * a.slotBytes, fmt := t.fmt, slots := count,
    scaleAddr := if isMx t.fmt then t.base + t.scaleOffset + first * (a.slotBytes - w) else 0, set := p.set }

/-- The weight set of a product: its operand, from which the loader takes the set's slots. -/
def productSource (t : Desc) (a : ArrayJob) (p : Pos) : WeightSrc :=
  let (_, count) := (a.sets p.group).getD p.set (0, 0)
  { addr := t.base, bytes := count * a.slotBytes, fmt := t.fmt, slots := count,
    scaleAddr := if isMx t.fmt then t.base + t.scaleOffset else 0, set := p.set }

def Device.cutConv (d : Device) (e : Nat) (r : Run) (faults : List PeFault) (l : List Issue) (p : Pos) : Device :=
  let j := d.convJob e r
  let a := d.convArray e r j faults
  d.cutArray e r (r.convPlan a) [a] l p (r.convSource a) (fun x => x.putConv e r j (a.upTo p))

def Device.cutMatmul (d : Device) (e : Nat) (r : Run) (faults : List PeFault) (l : List Issue) (p : Pos) : Device :=
  let a := d.matArray e r faults
  d.cutArray e r (r.matPlan a) [a] l p (productSource (descAt r.descs r.cmd 17) a) (fun x => x.putMat e r (a.upTo p))

/-- The heads of an ATTN up to an expansion position. -/
def AttnHead.upTo (h : AttnHead) (p : Pos) : AttnHead := { h with score := h.score.upTo p, value := h.value.upTo p }

def Device.cutAttn (d : Device) (e : Nat) (r : Run) (faults : List PeFault) (l : List Issue) (p : Pos) : Device :=
  let j := d.attnJob e r faults
  let hs := j.all
  let jobs := hs.flatMap (fun h => [h.score, h.value])
  let src (q : Pos) : WeightSrc :=
    match jobs[q.job]? with
    | some a => productSource (descAt r.descs r.cmd (if q.job % 2 = 0 then 17 else 18)) a q
    | none => { addr := 0, bytes := 0, fmt := 0, slots := 0, scaleAddr := 0, set := 0 }
  d.cutArray e r (r.attnPlan hs (d.attnRows r)) jobs l p src (fun x => x.putAttn e r j (hs.map (·.upTo p)))

/-- A RASTER_TILE cut: the tiles before the one at hand, and the entries of that one before the next instruction, are resolved
into scratch (R334). -/
def Device.cutRaster (d : Device) (e : Nat) (r : Run) (l : List Issue) (p : Pos) : Device :=
  match d.tileSet r (field r.cmd 32 4) with
  | some (rr, some (g, _)) =>
    let done := d.rasterDone e r rr g (some p)
    match d.admitted e r (d.rasterPlan r rr g) (fun d _ => d) with
    | (false, d) => d
    | (true, d) =>
      let d := (d.issued e r l p none).modTru e (fun y => y.count r.rasterReload done)
      d.writing e [] (fun x => x.putRaster e r rr g done)
  | _ => d

/-- A COPY through the fabric port cut: what has been moved of it, `k` handshakes of 128 bytes more, has landed and stands (R191). -/
def Device.cutCopy (d : Device) (e : Nat) (r : Run) (k : Nat) : Device :=
  let t := descAt r.descs r.cmd
  let src := (t 16).spansOf false r.copyRegion
  let out := (t 17).spansOf true r.copyRegion.landed
  let m := r.xfer.getD { issued := 0, moved := 0, total := 1, len := spanBytes src, data := [] }
  let part := cutSpans src m.movedBytes (128 * k)
  match d.admitted e r (r.copyPlan e) (fun d _ => d) with
  | (false, d) => d
  | (true, d) =>
    let m' : RemoteCopy := { m with data := m.data ++ part.map (fun s => (s.addr, d.peek (physAddr e s.addr) s.len)) }
    let u := r.charged.add (spanUse e (r.copyPlan e).whole (part ++ landedSpans out m m'))
    let d := (d.spend e r.ctx u).modEng e (fun x => { x with run := x.run.map (fun y => { y with charged := u, xfer := some m' }) })
    d.landCopy e r (m'.window []) (fun runs => m'.covers runs && !m.covers runs)

/-- The instructions of the command at hand. -/
def Device.issuesOf (d : Device) (e : Nat) (r : Run) : List Issue :=
  let op := cmdOp r.cmd
  if op = opCONV then d.convIssues e r
  else if op = opMATMUL then d.matIssues e r
  else if op = opATTN then d.attnIssues e r
  else if op = opPOOL then d.poolIssues e r
  else if op = opCROPRESIZE then d.cropIssues e r
  else if op = opREPROJECT then d.reprojIssues e r
  else if op = opRASTER then d.rasterIssues e r
  else if op = opVEC then d.vecIssues e r
  else if op = opCOPY then d.copyIssues e r
  else synIssue

/-- R186: issue stops once the command at hand, which starts if it has not, has issued `n` of its instructions and a drain
`k` of its vectors; `faults` are the wrong products among them. DESIGN CHOICE: a command of the vector unit or a port has written nothing before its last instruction
(log 22). -/
def Device.cutCommand (d : Device) (e n k : Nat) (faults : List PeFault) : Device :=
  match d.ready e with
  | none => d
  | some r =>
    let d := d.startCommand e r
    let r := r.begun
    let l := d.issuesOf e r
    let p := cutPos l (max r.pos.issued (min n (l.length - 1))) k
    if cmdOp r.cmd = opCONV then d.cutConv e r faults l p
    else if cmdOp r.cmd = opMATMUL then d.cutMatmul e r faults l p
    else if cmdOp r.cmd = opATTN then d.cutAttn e r faults l p
    else if cmdOp r.cmd = opRASTER then d.cutRaster e r l p
    else if cmdOp r.cmd = opCOPY ∧ field r.cmd 18 1 % 4 = 0 ∧ !r.copyOwn e then d.cutCopy e r k
    else d.issued e r l p none

/-! ### Full saves -/

/-- Start of the pending WAIT or acquire. -/
def Run.waitStart (r : Run) : Nat :=
  match r.wait with
  | some (.flag _ _ start _) => start
  | some (.sem _ start) => start
  | none => 0

/-- R186: a full save begins: a pending WAIT or acquire withdraws. -/
def Device.startSave (d : Device) (e : Nat) : Device :=
  match (d.eng e).run with
  | none => d
  | some r =>
    (d.withdrawSems e).modEng e (fun y =>
      { y with pre := .saving, saveStart := d.now, moving := some r.ctx, request := none, slice := none,
               run := some { r with wait := none, waitedAt := r.waitStart } })

/-- A full save asked for at any moment: issue stops at the next instruction boundary, wherever the engine has got by then,
and the save begins. -/
def Device.stopAndSave (d : Device) (e : Nat) : Device :=
  let (n, k) := Config.stopAt e (d.eng e).steps
  (if n = 0 then d else d.cutCommand e n k (Config.stopFaults e (d.eng e).steps)).startSave e

/-- R458: YIELD_WAIT expires first; a yield point at that instant gives the yield. -/
def execYieldWaitExpiry (t : Nat) (engine : Fin 6) (s : State) : Host.Outcome State Fault Refusal :=
  .next (s.runI t fun d => d.whenRunning fun d =>
    let x := d.eng engine.val
    match x.run, x.request with
    | some r, some (at_, wait) =>
      let saveOk := match d.entryOf r.due.index r.due.entry with
        | some e => e.saveOk
        | none => false
      d.guard (x.pre = .requested && decide (at_ + 1000 * wait ≤ d.now) && saveOk && d.yields r && !r.awaitShadow)
        (fun d => if d.mayYield engine.val && !d.savesLater engine.val then d.boundaryYield engine.val else d.stopAndSave engine.val)
    | _, _ => d)

/-- The last image tile is sealed: the engine is IDLE (Table 10.9). -/
def execSaveComplete (t : Nat) (engine : Fin 6) (s : State) : Host.Outcome State Fault Refusal :=
  .next (s.runI t fun d => d.whenRunning fun d =>
    let e := engine.val
    match (d.eng e).pre, (d.eng e).run with
    | .saving, some r =>
      -- R603: requester 6 checks the scratch that it reads
      let f := ((d.ctxRec r.ctx).map (·.saveF)).getD 0
      let (ok, d) := d.readTiles e r (fun d _ => d) true ((List.range f).map (fun i => scratchBase e + i * tileBytes))
      if !ok then d.retireCheck else
      let d := match d.ctxRec r.ctx with
        | some c => (d.writeImage e r c.saveBase c.saveF).charge r.ctx (imageUse c.saveF)
        | none => d
      let d := d.bookTime r
      let (acc, lanes) := ((d.eng e).acc, (d.eng e).lanes)
      let d := d.modCtx r.ctx (fun c =>
        { c with kept := some r, keptOn := some engine, keptSaved := true, keptAcc := acc, keptLanes := lanes, mode := c.mode.next .saved })
      (d.modEng e (fun y =>
        { y with run := none, pre := .idle, moving := none,
                 regs := { y.regs with fullSaves := satInc y.regs.fullSaves, lastSaveUs := saveUs d y.saveStart } })).retireCheck
    | _, _ => d)

/-! ### Marks of lockstep mode (R461) -/

/-- A command boundary outside a fused group. -/
def Run.atBoundary (r : Run) : Bool := !r.fused && !r.inCmd && r.wait.isNone

/-- The launch gives way under mark `m`: a yield where STEP falls at such a boundary, else a full save, after `n` instructions
of the command at hand where issue stops inside it. -/
def Device.giveWay (d : Device) (e : Nat) (r : Run) (m : Mark) (inside : Option Nat) : Device :=
  let d := (d.modEng e (fun y => { y with marked := some m.lcEntry })).modCtx r.ctx (fun c => { c with byMark := true })
  match inside with
  | some n => (d.cutCommand e n 0 (Config.stopFaults e (d.eng e).steps)).startSave e
  | none => if r.steps = m.step && r.atBoundary then d.boundaryYield e else d.startSave e

def execPreEmptionMarkReached (t : Nat) (engine : Fin 6) (s : State) : Host.Outcome State Fault Refusal :=
  .next (s.runI t fun d => d.whenRunning fun d =>
    let e := engine.val
    match (d.eng e).run with
    | none => d
    | some r =>
      d.guard (d.ctl.lockstep && (d.eng e).pre = .running && d.yields r && !r.awaitShadow) fun d =>
        match d.markOf r with
        | some m => d.giveWay e r m none
        | none =>
          match d.ready e with
          | none => d
          | some r =>
            match d.markInside r (d.issuesOf e r) with
            | some (m, n) => d.giveWay e r m (some n)
            | none => d)

end Sys2Proof.Machine
end

