-- ==== Sys2Proof/Machine/Modes.lean ====
section
/-! DEFINITION. The major-cycle boundary (Table 10.13): switches of itinerary (R471, R472), mode changes (R699, Table 16.8),
cold starts, re-admission (R470) and adoptions. -/
namespace Sys2Proof.Machine

/-! ### Itineraries -/

/-- R462: each partition's pool has the size that the active itinerary gives it, less what launches have reserved. -/
def Device.resizePools (d : Device) (old : Nat → Nat) : Device :=
  (List.range 8).foldl (fun (d : Device) p =>
    let size := ((d.partRec p).map (·.credits)).getD 0
    d.modPart p (fun x => { x with freeCredits := size - (old p - x.freeCredits) })) d

/-- The arbiters follow the tables of the active itinerary from their first entries (R484). -/
def Device.restartTables (d : Device) : Device :=
  { d with
    stk := { d.stk with arbiters := d.stk.arbiters.map (fun a => { a with tablePos := 0, served := 0 }) },
    rfe := { d.rfe with slot := (0, 0) } }

def Device.switchItinerary (d : Device) (index : Nat) : Device :=
  let old (p : Nat) : Nat := ((d.partRec p).map (·.credits)).getD 0
  let d := d.modItn (fun i => { i with active := index, switchTo := none, switches := satInc i.switches })
  (d.resizePools old).restartTables

/-- Order 6 of Table 14.6. -/
def Device.admitEngine (d : Device) (e : Nat) : Device :=
  let d := d.modEng e (fun x => { x with retired := false, asleep := false, score := 0, rejoin := .none })
  d.event .engineRejoined e 0 (d.sealRegs.gen (2 + e))

/-- Engines whose rejoin ended strictly before the boundary. -/
def Device.admissible (d : Device) (bound : Nat) : List Nat :=
  (List.range 6).filter (fun e =>
    match (d.eng e).rejoin with
    | .awaiting at_ => decide (at_ < bound)
    | _ => false)

/-- The itinerary that runs from this boundary (R471, R472): with every engine in service the full one; otherwise a
degraded one is kept while its engine is retired. -/
def Device.nextItinerary (d : Device) (admitted : Bool) : Nat :=
  let gone (e : Nat) : Bool := (d.eng e).retired
  let active := d.itn.active
  let other := (((List.range 6).find? gone).map (1 + ·)).getD 0
  if active = 0 then
    match d.itn.switchTo with
    | some k => if gone (k - 1) then k else other
    | none => 0
  else if !admitted || gone (active - 1) then active
  else other

/-- Order 1. -/
def Device.boundarySwitch (d : Device) (bound : Nat) : Device :=
  let ready := d.admissible bound
  let d := ready.foldl Device.admitEngine d
  let next := d.nextItinerary (!ready.isEmpty)
  if next = d.itn.active then d.modItn (fun i => { i with switchTo := none }) else d.switchItinerary next

/-! ### Items of mode changes -/

/-- R622, R623. -/
def Device.setSleep (d : Device) (v : Nat) : Device :=
  (List.range 6).foldl (fun (d : Device) e =>
    let x := d.eng e
    if bit v e then
      if x.retired then d.modEng e (fun y => { y with asleep := true, rejoin := .none })
      else d.retire e 2
    else if x.asleep then d.startRejoin e
    else d) d

/-- R399: a stream's E_HOLD that waits when its tuning is suspended launches nothing. -/
def Device.setSuspend (d : Device) (v : Nat) : Device :=
  d.image.tunes.foldl (fun (d : Device) r =>
    let s := r.stream
    let begins := bit v s && !(d.tune s).suspended
    let d := d.modTune s (fun x => { x with suspended := bit v s })
    if !begins then d
    else
      let mine (x : Due) : Bool := d.tuneEntry x.entry = some (s, .hold)
      let left := d.itn.waiting.filter mine
      let d := (d.suspendTune s).modItn (fun i => { i with waiting := i.waiting.filter (fun x => !mine x) })
      left.foldl (fun (d : Device) x => d.releaseMarks x.entry) d) d

/-- R430. -/
def Device.revertAll (d : Device) (v : Nat) : Device :=
  d.image.tunes.foldl (fun (d : Device) r => if bit v r.stream then d.revert r.stream else d) d

/-- R498: the T0 record starts every recording. -/
def Device.setRecord (d : Device) (on : Bool) : Device :=
  let was := d.ctl.record
  let d := { d with ctl := { d.ctl with record := on } }
  if on && !was then d.recordT0 else d

/-- R480: the determinism mode, with the tables from their first entries. -/
def Device.setLockstep (d : Device) (on : Bool) : Device :=
  if d.ctl.lockstep = on then d
  else ({ d with ctl := { d.ctl with lockstep := on } } : Device).restartTables

/-- R397 for a stream that takes a package: it serves no other stream of a tuning pair, and the adoption banks, of its
bank's size, meet no region. -/
def Device.tuneAllows (d : Device) (s : Nat) (p : Package) : Bool :=
  d.packageAlone s p.package &&
    (match d.tuneRec s with
      | none => true
      | some r =>
        let others := d.image.tunes.filter (fun y => y.stream ≠ s)
        let mine := (r.regions p.bank0Bytes (d.holdBytes s)).map (fun g => ({ sect := 0, kind := .tuning, span := g } : ImgRegion))
        let rest := others.flatMap (fun y =>
          (d.tuneSpans y).map (fun g => ({ sect := 0, kind := .tuning, span := g } : ImgRegion)))
        (regionChecks (d.binRegion :: d.plainRegions [] ++ rest) mine).all (·.2))

/-- A due without the anchors `gone` of a stream. -/
def Due.without (x : Due) (s : Nat) (gone : List Anchor) : Due :=
  { x with anchors := x.anchors.filter (fun a => !(a.1 = s && gone.contains a.2)) }

/-- An encode due that is left with no anchor. -/
def Due.emptied (x : Due) (s : Nat) (gone : List Anchor) : Bool := !x.anchors.isEmpty && (x.without s gone).anchors.isEmpty

/-- Table 6.6: the anchors `gone` leave every encode list: one that waits with no other launches nothing, and one that has
launched commits nothing of them. -/
def Device.withdrawAnchors (d : Device) (s : Nat) (gone : List Anchor) : Device :=
  let keep (x : Due) : Due := x.without s gone
  let keepRun (r : Run) : Run := { r with due := keep r.due }
  let hit := (d.allDues ++ d.allRuns.map (·.due)).filter (fun x => keep x != x)
  let begun := d.allRuns.any (fun r => keep r.due != r.due)
  let left := d.allDues.filter (fun x => x.emptied s gone)
  let drop (l : List Due) : List Due := (l.filter (fun x => !x.emptied s gone)).map keep
  let d := d.modItn (fun i => { i with waiting := drop i.waiting })
  let d : Device := { d with
    ne := d.ne.map (fun e => { e with run := e.run.map keepRun })
    ctxs := d.ctxs.map (fun c =>
      { c with kept := c.kept.map keepRun, ready := drop c.ready,
               mode := if c.mode = .queued && (drop c.ready).isEmpty then .idle else c.mode })
    ots := { d.ots with outstanding := d.ots.outstanding.map (fun r => { r with due := keep r.due }) } }
  let d := if begun then d.ssbSetFlag s flagPending false else d
  let d := hit.foldl (fun (d : Device) x =>
    match d.serveOf x with
    | some v => d.settleDistance s v.slot
    | none => d) d
  left.foldl (fun (d : Device) x => d.releaseMarks x.entry) d

/-- Table 6.6: late anchors that no list has committed, in the terms of the model that the stream leaves, are discarded as
rejected inputs. DESIGN CHOICE: their status is UNSUPPORTED; no rule gives the order and the lane of such a rejection, which are
free (log 30). -/
def Device.dropLate (d : Device) (s : Nat) : Device :=
  let gone := (d.strm s).held.filter (fun a => decide (d.decisionTime s a.tag < (a.stamp : Int)))
  let d := gone.foldl (fun (d : Device) a =>
    let (bs, d) := d.freeBytes 2
    d.rejectInput
      { status := .unsupported, order := field bs 0 1, container := 0, stream := some s, lane := field bs 1 1, tag := a.tag }) d
  let inUse := (d.strm s).inUse
  let d := d.modStrm s (fun x =>
    { x with
      held := x.held.filter (fun a => !gone.contains a),
      slots := x.slots.map (fun y => if y.anchor.any gone.contains then { y with anchor := inUse } else y) })
  d.withdrawAnchors s gone

/-- R293, R699: the stream's model changes, or the item is skipped; `none` when the package is the present one. -/
def Device.setModel (d : Device) (s package : Nat) : Option Bool × Device :=
  match d.package package with
  | none => (some false, d)
  | some p =>
    if !d.hasSsb s || !d.canHold s p || !d.tuneAllows s p then (some false, d)
    else if d.ssbModel s = package then (none, d)
    else
      let d := d.dropLate s
      let d := ((d.ssbSet s 1 (leBytes 1 package)).ssbSet s 4 (leBytes 1 p.w)).ssbSet s 8 (leBytes 2 p.t)
      let d := d.setBank s 0 p.digest
      (some true, d.modTune s (fun x => { x with cand := none }))

/-- Table 12.1: the lanes that a movable role may take. -/
def laneTakes (lane : Nat) : Bool := decide (lane < 16) || (decide (21 ≤ lane) && decide (lane < 24))

/-- R511, R699: a role moves to a spare lane of its direction, or the item is skipped. -/
def Device.moveLane (d : Device) (from_ to_ : Nat) : Bool × Device :=
  let a := from_ % 32
  let b := to_ % 32
  let inward := bit from_ 7
  if bit to_ 7 ≠ inward || !laneTakes b then (false, d)
  else if inward then
    if (d.rxLane a).role ≠ 0x20 || (d.rxLane b).role ≠ 0 || 24 ≤ a then (false, d)
    else
      let d := d.rejectAll (fun c => c.lane.val = a) .timeout 5
      let d := (d.modRx a (fun x => { x with role := 0 })).modRx b (fun x => { x with role := 0x20 })
      (true, { d with image := { d.image with inputs := d.image.inputs.map (fun r => if r.lane = a then { r with lane := b } else r) } })
  else
    let role := (d.txLane a).role
    if role.toNat / 16 ≠ 1 || (d.txLane b).role ≠ 0 || 24 ≤ a then (false, d)
    else
      let d := d.modTx a (fun x => { x with role := 0, state := .dark, since := d.now })
      (true, d.modTx b (fun x => { x with role := role, state := .train, since := d.now }))

/-! ### Order 2 -/

/-- The mode changes of boundary K in order: in replay the recorded ones (R501), otherwise containers by stamp and lane
and then requests by their effect events (R699). -/
def Device.modesFor (d : Device) (k : Nat) : List (List Byte) :=
  if d.ctl.replay then
    (d.recorder.replayMode.filter (fun x => x.1 = k % 2 ^ 32)).map (·.2)
  else
    let mine (i3c : Bool) : List PendingMode := d.req.modes.filter (fun m => m.k = k && m.fromI3c = i3c)
    let before (a b : PendingMode) : Bool := decide (a.order.1 < b.order.1) || (a.order.1 = b.order.1 && decide (a.order.2 < b.order.2))
    (sortBy before (mine false) ++ sortBy before (mine true)).map (·.body)

/-- The recorded mode changes of a boundary leave the replay ring at it (R547). -/
def Device.dropReplayed (d : Device) (k : Nat) : Device :=
  let mine (x : Nat × List Byte) : Bool := x.1 = k % 2 ^ 32
  d.modRec (fun r =>
    { r with replayMode := r.replayMode.filter (fun x => !mine x),
             replayUsed := r.replayUsed - ((r.replayMode.filter mine).map (fun x => 28 + x.2.length)).foldl (· + ·) 0 })

/-- The last of the changes that sets an item (R699). -/
def lastWith (recs : List (List Byte)) (i : Nat) : Option (List Byte) := (recs.filter (fun b => modeHas b i)).getLast?

/-- Items whose value is one for the device. -/
def Device.applyValues (d : Device) (recs : List (List Byte)) : Device :=
  let item (i : Nat) (f : Device → List Byte → Device) (d : Device) : Device :=
    match lastWith recs i with
    | some b => f d b
    | none => d
  let d := item 0 (fun d b => d.modItn (fun i => { i with groupEn := word (field b 4 4) })) d
  let d := item 1 (fun d b => { d with toll := { d.toll with cap := field b 8 2 } }) d
  let d := item 2 (fun d b => d.setLockstep (bit (field b 10 1) 0)) d
  let d := item 3 (fun d b => d.setRecord (bit (field b 11 1) 0)) d
  let d := item 4 (fun d b => { d with ctl := { d.ctl with runSeed := BitVec.ofNat 64 (field b 12 8) } }) d
  let d := item 5 (fun d b => d.setSleep (field b 20 1)) d
  let d := item 6 (fun d b => d.setSuspend (field b 24 4)) d
  item 7 (fun d b => d.revertAll (field b 28 4)) d

/-- R699: a later change of the same boundary, whose conditions hold, sets the same stream's model or moves the same lane. -/
def replaced (i o : Nat) (b : List Byte) (later : List (List Byte)) (holds : List Byte → Bool) : Bool :=
  later.any (fun c => modeHas c i && field c o 1 = field b o 1 && holds c)

/-- The item of a change applies: the stream can hold the package, or the lanes allow the move. -/
def Device.modelHolds (d : Device) (b : List Byte) : Bool := (d.setModel (field b 32 1) (field b 33 1)).1 ≠ some false
def Device.moveHolds (d : Device) (b : List Byte) : Bool := (d.moveLane (field b 34 1) (field b 35 1)).1

/-- What the per-stream and per-lane items leave: the device, the streams that start cold, and per change the VALID bits
of its skipped items. -/
structure ModeOut where
  dev : Device
  cold : List Nat
  skipped : List Nat
  deriving DecidableEq, Repr

/-- The items of bits 8 and 9 of each change in turn. -/
def applyMoves : List (List Byte) → ModeOut → ModeOut
  | [], out => out
  | b :: later, out =>
    let s := field b 32 1
    let (model, d) := if modeHas b 8 ∧ !replaced 8 32 b later out.dev.modelHolds then out.dev.setModel s (field b 33 1) else (none, out.dev)
    let (moved, d) := if modeHas b 9 ∧ !replaced 9 34 b later d.moveHolds then d.moveLane (field b 34 1) (field b 35 1) else (true, d)
    let bad := (if model = some false then 2 ^ 8 else 0) + (if moved then 0 else 2 ^ 9)
    applyMoves later
      { dev := d, cold := if model = some true then out.cold ++ [s] else out.cold, skipped := out.skipped ++ [bad] }

/-- R700: a TYPE 2 record of each change, with its skipped items cleared. -/
def Device.recordModes (d : Device) (k : Nat) (was : Bool) (l : List (List Byte × Nat)) : Device :=
  if !was && !d.ctl.record then d
  else
    let on := d.ctl.record
    let d := { d with ctl := { d.ctl with record := true } }
    let d := l.foldl (fun (d : Device) x =>
      d.recordControl 2 (k % 2 ^ 32) (leBytes 4 (field x.1 0 4 - x.2) ++ (x.1.drop 4).take 52)) d
    { d with ctl := { d.ctl with record := on } }

/-- Order 2; the streams that start cold and those whose bank it set. -/
def Device.boundaryModes (d : Device) (k : Nat) : List Nat × List Nat × Device :=
  let recs := d.modesFor k
  let was := d.ctl.record
  let d := ({ d with req := { d.req with modes := d.req.modes.filter (fun m => m.k ≠ k) } } : Device).dropReplayed k
  let d := d.applyValues recs
  let out := applyMoves recs { dev := d, cold := [], skipped := [] }
  let d := out.dev
  let n := (out.skipped.map (fun b => boolNat (bit b 8) + boolNat (bit b 9))).foldl (· + ·) 0
  let d := { d with req := { d.req with skips := satAdd d.req.skips n } }
  let reverted := match lastWith recs 7 with
    | some b => (List.range 32).filter (fun s => bit (field b 28 4) s)
    | none => []
  (out.cold, reverted ++ out.cold, d.recordModes k was (recs.zip out.skipped))

/-! ### The boundary -/

/-- The slot whose input digest a cold start of the boundary clears: the first whose decision time has not passed. -/
def Device.coldSlot (d : Device) (s : Nat) : Nat := (d.strm s).decided

/-- Orders 3 to 5. -/
def Device.boundaryRest (d : Device) (cold banks : List Nat) : Device :=
  let d := cold.foldl (fun (d : Device) s => (d.coldStart s).modSlot s (d.coldSlot s) (fun y => { y with cold := true })) d
  let d := (List.range 64).foldl (fun (d : Device) c =>
    if (d.ctx c).mode = .quarantined then (d.modCtx c (fun x => { x with mode := .idle })).settleCtx c else d) d
  d.image.tunes.foldl (fun (d : Device) r => if banks.contains r.stream then d else d.adopt r.stream) d

/-- R437, R474: boundary k + 1, at T0 + (k + 1) × CYCLE_NS. -/
def Device.boundary (d : Device) : Device :=
  let k := d.itn.k + 1
  let bound := d.t0 + k * d.cycleNs
  let d := d.modItn (fun i =>
    { i with k := k, cycles := satInc i.cycles, fallen := [], windows := i.windows.filter (fun w => bound ≤ w.2.2),
             aborted := i.aborted.filter (fun a => k ≤ a.2.2) })
  let d := d.boundarySwitch bound
  let (cold, banks, d) := d.boundaryModes k
  d.boundaryRest cold banks

def execMajorCycleBoundary (t : Nat) (s : State) : Host.Outcome State Fault Refusal :=
  .next (s.runI t fun d => d.whenRunning fun d =>
    d.guard (d.active.isSome && decide (d.t0 + (d.itn.k + 1) * d.cycleNs ≤ d.now)) Device.boundary)

end Sys2Proof.Machine
end

