-- ==== Sys2Proof/Machine/Start.lean ====
section
/-! DEFINITION. The start of the itinerary: lane enable (order 11 of Table 15.8), the chip count by HELLO (R540) and T0
(order 12). -/
namespace Sys2Proof.Machine

/-- R634: only the NOR and the PUF cells survive a reset. -/
def Device.resetAll (d : Device) : Device := Device.reset d.store.nor d.pins.powerUp d.store.freeCtr

/-- An engine with faults beyond its spares is retired from T0 (Table 15.9, code 0x06). -/
def Device.retireAtBoot (d : Device) : Device :=
  match (List.range 6).find? (fun e => d.boot.unrepaired.getLsbD e) with
  | none => d
  | some e =>
    let d := d.modEng e (fun x => { x with retired := true, retiredAt := d.now })
    (d.modItn (fun i => { i with active := 1 + e })).event .engineRetired e 1 (d.eng e).score

/-- T0: the chip count is fixed and the itinerary starts (R437, R480, R641). -/
def Device.startT0 (d : Device) (chips : Nat) : Device :=
  let image := d.image
  let d := { d with phase := .running, boot := { d.boot with order := 12 } }
  let d := d.modItn (fun i => { i with t0 := some d.now, k := 0, active := 0 })
  let d := d.retireAtBoot
  let groups := (d.active.map (·.groups0)).getD 0
  let lockstep := (d.itinOf 0).any (·.lockstep)
  let d := d.modItn (fun i => { i with groupEn := groups })
  let d := { d with ctl := { d.ctl with lockstep := lockstep, replay := image.replay, record := image.record, chips := chips } }
  let d := (List.range 8).foldl (fun (d : Device) p =>
    d.modPart p (fun x => { x with freeCredits := ((d.partRec p).map (·.credits)).getD 0 })) d
  -- T0 is boundary 0: contexts torn down before it are admitted again (R470)
  let d : Device := { d with ctxs := d.ctxs.map (fun (c : Ctx) => if c.mode = .quarantined then { c with mode := .idle } else c) }
  d.recordT0

/-- Order 11 of Table 15.8: every lane with a role is in RUN, but for Otson lanes, which train until they see their neighbour
(R518, R521). -/
def Device.lanesRun (d : Device) : Bool :=
  d.lanes.tx.toList.all (fun x => x.role = 0 || isOtson x.role || x.state = .run)

def Device.noteLanesRun (d : Device) : Device := if d.lanesRun then { d with boot := { d.boot with order := 11 } } else d

/-- Lane enable: the lasers light and every lane with a role starts to train (R518). -/
def Device.enableLanes (d : Device) : Device :=
  let d := d.modLanes (fun l =>
    { l with tx := l.tx.map (fun x => if x.role = 0 then x else { x with state := .train, since := d.now }) })
  let d := { d with pins := { d.pins with lasersOn := true } }
  ((d.modOts (fun o => { o with enabledAt := d.now })).refreshPairs).noteLanesRun

/-- The lanes that need no neighbour have trained (R518). -/
def Device.trainLanes (d : Device) : Device :=
  (d.modLanes (fun l =>
    { l with tx := l.tx.map (fun x => if x.role = 0 || isOtson x.role then x else { x with state := .run, since := d.now }) })).noteLanesRun

/-- Orders 11 and 12: with one chip the boot ends at T0, its lanes in RUN; with N above 1, T0 waits for the neighbours (R540). -/
def Device.startUp (d : Device) : Device :=
  let d := d.enableLanes
  if d.image.ringN = 1 then d.trainLanes.startT0 1 else { d with phase := .awaitChips }

/-! ### HELLO -/

/-- What the neighbour of a pair reports agrees with this device. -/
def Device.helloAgrees (d : Device) (east : Bool) (x : Nat × Nat × List Byte) : Bool :=
  x.1 = d.ringSize && x.2.1 = d.neighbour east && x.2.2 = d.image.programDigest

def Device.bothAgree (d : Device) : Bool :=
  [true, false].all (fun east => (d.ots.pair east).hello.any (d.helloAgrees east))

/-- T0 comes when the neighbours agree within 500 ms of lane enable and order 11 is complete. -/
def Device.agreedT0 (d : Device) : Device :=
  if d.phase = .awaitChips ∧ d.lanesRun ∧ d.bothAgree ∧ d.now ≤ d.ots.enabledAt + 500000000 then d.startT0 d.ringSize else d

/-- A HELLO that arrives: before T0 it may fix the chip count; after it, a mismatch resets the pair. -/
def Device.takeHello (d : Device) (east : Bool) (data : List Byte) : Device :=
  let x := (field data 0 1, field data 1 1, (data.drop 32).take 32)
  let d := d.modOts (fun o => o.modPair east (fun p => { p with hello := some x }))
  if d.phase = .running then if d.helloAgrees east x then d else d.resetPair east
  else d.agreedT0

def execHello (t : Nat) (east : Bool) (frame : List Byte) (s : State) : Host.Outcome State Fault Refusal :=
  .next (s.runI t fun d => d.whenLocked fun d => d.otsReceive east 0 frame (fun d _ data => d.takeHello east data))

/-- 500 ms without agreement: the chip count is 1 and the ring has failed. -/
def execHelloTimeout (t : Nat) (s : State) : Host.Outcome State Fault Refusal :=
  .next (s.runI t fun d =>
    d.guard (d.phase = .awaitChips && d.lanesRun && decide (d.ots.enabledAt + 500000000 ≤ d.now)) fun d =>
      let d := d.modOts (fun o => { o with ringFail := true })
      (d.startT0 1).event .fatal 2 0 0)

/-! ### TRAIN to RUN -/

/-- R518: after at least 100 µs in TRAIN; an Otson lane also waits to see its reverse lane (R521). The
last lane of order 11 may bring T0. -/
def execTrainToRun (t : Nat) (lane : Fin 24) (s : State) : Host.Outcome State Fault Refusal :=
  .next (s.runI t fun d => d.whenAlive fun d =>
    let n := lane.val
    let x := d.txLane n
    d.guard (x.state = .train && decide (x.since + 100000 ≤ d.now) &&
        (!isOtson x.role || (d.rxLane n).state = .active)) fun d =>
      let d := d.modTx n (fun y => { y with state := .run, since := d.now })
      if d.phase = .awaitChips then d.noteLanesRun.agreedT0 else d)

end Sys2Proof.Machine
end

