-- ==== Sys2Proof/Machine/Requests.lean ====
section
/-! DEFINITION. Requests through I3C (R688 to R700): their checks at GO, and abort, pre-empt, teardown, Otson reset and mode
change at their effect events. -/
namespace Sys2Proof.Machine

/-! ### At the GO write -/

/-- Bytes of the request area from which a kind reserves everything (Tables 16.5 and 16.6). -/
def requestReserved (b : List Byte) : Bool :=
  let flags := field b 3 1
  match field b 0 1 with
  | 1 => flags = 0 && (b.drop 10).all (· = 0)
  | 2 => decide (flags < 2) && (b.drop 4).all (· = 0)
  | 5 => flags = 0
  | _ => flags = 0 && (b.drop 4).all (· = 0)

/-- SEL in range (Table 16.6). -/
def requestSel (b : List Byte) : Bool :=
  let sel := field b 2 1
  match field b 0 1 with
  | 1 => decide (sel < 7)
  | 2 => decide (sel < 6)
  | 3 => decide (sel < 64)
  | 4 => decide (sel < 2)
  | _ => sel = 0

/-- R690: a defined KIND, SEL in range and reserved bytes 0; a MODE body obeys Table 16.8. -/
def requestValid (b : List Byte) : Bool :=
  let kind := field b 0 1
  decide (1 ≤ kind) && decide (kind ≤ 5) && requestReserved b && requestSel b && (kind ≠ 5 || modeShape (b.drop 8))

/-- R689: a write of 1 to CTL_REQ_GO bit 0 copies the request area; while a request is pending it does nothing. -/
def Device.requestGo (d : Device) : Device :=
  if d.req.pending.isSome then d
  else
    let b := d.req.area.toList.flatMap (fun w => leBytes 4 w.toNat)
    let d : Device := { d with req := { d.req with pending := some b, result := requestResult b 0 1 } }
    if requestValid b then d else d.finishRequest .unsupported (field b 4 4)

/-- The effect event of a pending request of a kind. -/
def Device.requestOf (d : Device) (kind : Nat) (f : Device → List Byte → Device) : Device :=
  match d.req.pending with
  | some b => if field b 0 1 = kind ∧ d.req.watch.isNone then f d b else d
  | none => d

/-! ### Abort (R692 to R694) -/

/-- Where a launch that has not ended stands. -/
inductive LivePlace where
  | waiting | ready | queued (unit : Nat) | engine (e : Nat) | kept (ctx : Nat) | unit (u : Nat)
  deriving DecidableEq, Repr

/-- The launches of an entry that wait, run or are kept; not its shadow, nor a re-projection in the place of one that has ended. -/
def Device.liveLaunches (d : Device) (index entry : Nat) : List (Due × LivePlace) :=
  let mine (x : Due × LivePlace) : Bool := x.1.index = index && x.1.entry = entry && !x.1.shadow && (x.1.repro.isNone || !d.hasEnded x.1)
  let waiting := d.itn.waiting.map (fun x => (x, LivePlace.waiting))
  let ready := d.ctxs.toList.flatMap (fun c => c.ready.map (fun x => (x, LivePlace.ready)))
  let engines := (List.range 6).filterMap (fun e => (d.eng e).run.map (fun r => (r.due, LivePlace.engine e)))
  let kept := (List.range 64).filterMap (fun c => (d.ctx c).kept.map (fun r => (r.due, LivePlace.kept c)))
  let queued := (List.range 7).flatMap (fun u => (d.unit u).queue.map (fun l => (l.due, LivePlace.queued u)))
  let running := (List.range 7).filterMap (fun u => (d.unit u).run.map (fun r => (r.launch.due, LivePlace.unit u)))
  (waiting ++ ready ++ engines ++ kept ++ queued ++ running).filter mine

/-- A launch that has not started, or waits, is withdrawn. -/
def Device.abortWaiting (d : Device) (x : Due) : Device :=
  let d := d.cancelRelaunches [x]
  let d := d.modItn (fun i => { i with waiting := i.waiting.filter (· ≠ x) })
  let d : Device := { d with ctxs := d.ctxs.map (fun (c : Ctx) => { c with ready := c.ready.filter (· ≠ x) }) }
  match d.serveOf x with
  | none => d
  | some v =>
    let d := d.modCtx v.entry.ctx (fun c => if c.mode = .queued && c.ready.isEmpty then { c with mode := .idle } else c)
    d.abortDue x v

/-- R694: what stands in for a stripe list that was aborted; for a re-projection list nothing does (log 60). -/
def Device.replaceAborted (d : Device) (x : Due) (on : Nat) : Device :=
  match d.serveOf x with
  | none => d
  | some v => if v.bind = some .stripe ∧ v.entry.target = 0 ∧ x.repro.isNone then d.reproject x v 10 true (some on) else d

/-- Table 16.7: a launch that has not ended is aborted. -/
def Device.abortLive (d : Device) (x : Due) : LivePlace → Device
  | .waiting => d.abortWaiting x
  | .ready => d.abortWaiting x
  | .queued u =>
    let d := d.modUnit u (fun y => { y with queue := y.queue.filter (fun l => l.due ≠ x) })
    match d.serveOf x with
    | some v => d.abortDue x v
    | none => d
  | .engine e => (d.endRun e .aborted true).replaceAborted x e
  | .kept c =>
    match (d.ctx c).kept with
    | none => d
    | some r =>
      let on := (((d.ctx c).keptOn).map (·.val)).getD 0
      ((d.dropKept c).endLaunch on r .aborted true).replaceAborted x on
  | .unit u => d.failVision u .aborted

/-- The instance of the entry that falls due next: in this cycle, or in the next one. -/
def Device.nextCount (d : Device) (entry : Nat) : Nat :=
  if d.itn.fallen.contains entry then d.itn.k + 1 else d.itn.k

/-- An instance that has not fallen due is marked: it ends with ABORTED when it falls due. -/
def Device.abortNext (d : Device) (index entry count : Nat) : Device :=
  let key := (index, entry, count)
  let d := d.modItn (fun i => { i with aborted := if i.aborted.contains key then i.aborted else i.aborted ++ [key] })
  d.finishRequest .aborted count

/-- R692, R693: the launch that ARG names, and the outcome. -/
def Device.abort (d : Device) (index entry arg : Nat) : Device :=
  let live := sortBy (fun (a b : Due × LivePlace) => a.1.count < b.1.count) (d.liveLaunches index entry)
  let known := match d.entryOf index entry with
    | some e => e.target ≠ 2
    | none => false
  if d.phase ≠ .running || index ≠ d.itn.active || !known then d.finishRequest .unsupported arg
  else if arg = 0xFFFFFFFF then
    match live with
    | (x, p) :: _ => (d.abortLive x p).finishRequest .aborted x.count
    | [] => d.abortNext index entry (d.nextCount entry)
  else
    match live.find? (fun x => x.1.count % 2 ^ 32 = arg) with
    | some (x, p) => (d.abortLive x p).finishRequest .aborted x.count
    | none =>
      match d.itn.ended.find? (fun x => x.index = index && x.entry = entry && x.count % 2 ^ 32 = arg) with
      | some x => d.finishRequest (if committed x.status then .alreadyDone else x.status) arg
      | none =>
        match [d.itn.k, d.itn.k + 1].find? (fun n => n % 2 ^ 32 = arg && decide (d.nextCount entry ≤ n)) with
        | some n => d.abortNext index entry n
        | none => d.finishRequest .unsupported arg

def execAbort (t : Nat) (s : State) : Host.Outcome State Fault Refusal :=
  .next (s.runI t fun d => d.requestOf 1 fun d b => d.abort (field b 2 1) (field b 8 2) (field b 4 4))

/-! ### Pre-empt, teardown and Otson reset (R695 to R697) -/

/-- R695: the best-effort launch on engine `e` is to give way; the request ends when it does. -/
def Device.preempt (d : Device) (e : Nat) (save : Bool) : Device :=
  let x := d.eng e
  match x.run with
  | none => d.finishRequest .unsupported 0
  | some r =>
    if x.retired || !r.bestEffort then d.finishRequest .unsupported 0
    else
      let saveOk := match d.entryOf r.due.index r.due.entry with
        | some y => y.saveOk
        | none => false
      let d : Device := { d with req := { d.req with watch := some (e, r.due, false) } }
      if x.pre ≠ .running then d
      else if save && saveOk then
        if !d.yields r || r.awaitShadow then
          ({ d with req := { d.req with watch := some (e, r.due, true) } } : Device).modEng e (fun y =>
            { y with pre := .requested, request := some (d.now, 0) })
        else d.stopAndSave e
      else d.modEng e (fun y => { y with pre := .requested, request := none })

def execPreempt (t : Nat) (s : State) : Host.Outcome State Fault Refusal :=
  .next (s.runI t fun d => d.requestOf 2 fun d b => d.preempt (field b 2 1) (bit (field b 3 1) 0))

def execTeardown (t : Nat) (s : State) : Host.Outcome State Fault Refusal :=
  .next (s.runI t fun d => d.requestOf 3 fun d b =>
    let c := field b 2 1
    if (d.ctx c).mode = .quarantined then d.finishRequest .alreadyDone 0
    else (d.teardown c 5 (d.ctx c).lastEntry true).finishRequest .ok 0)

def execOtsonReset (t : Nat) (s : State) : Host.Outcome State Fault Refusal :=
  .next (s.runI t fun d => d.requestOf 4 fun d b =>
    if d.ctl.chips = 1 then d.finishRequest .unsupported 0
    else (d.resetPair (field b 2 1 = 0)).finishRequest .ok 0)

/-! ### Mode changes (R698) -/

/-- The smallest K that R698 allows at this instant. -/
def Device.earliestK (d : Device) : Nat := max (d.itn.k + 1) (ceilDiv (d.now + 1000000 - d.t0) d.cycleNs)

def Device.requestMode (d : Device) (arg : Nat) (body : List Byte) : Device :=
  if d.phase ≠ .running || d.ctl.replay || d.modeAbsent body || d.modeRefused body then d.finishRequest .unsupported arg
  else
    let k := if arg = 0xFFFFFFFF then d.earliestK else arg
    if 16 ≤ d.req.modes.length then d.finishRequest .noCredit k
    else if k ≤ d.itn.k || !d.modeInTime k d.now then d.finishRequest .deadlineMiss k
    else (d.acceptMode { k := k, fromI3c := true, order := (d.now, d.req.modes.length), body := body }).finishRequest .ok k

def execMode (t : Nat) (s : State) : Host.Outcome State Fault Refusal :=
  .next (s.runI t fun d => d.requestOf 5 fun d b => d.requestMode (field b 4 4) (b.drop 8))

end Sys2Proof.Machine
end

