-- ==== Sys2Proof/Machine/Registers.lean ====
section
/-! DEFINITION. Writes to registers (R9 to R12, R643, R644): the registers that take one, their access types and ranges, and
what a write does. -/
namespace Sys2Proof.Machine

/-- Access types that take a write (Table 0.3). -/
inductive Access where
  | rw | rwl | wo | w1c
  deriving DecidableEq, Repr

/-- The registers that are neither RO nor reserved. -/
inductive Writable where
  | ibiMask | requestArea (i : Nat) | provSel | runSeed (high : Bool) | binSize | checkCtl (e : Nat)
  | cap | bePct | static | weight (j : Nat) | budget (m q : Nat) | thermHold | thermTrip
  | scrubCtl | retireThresh | rejoinCtl
  | requestGo | challenge (i : Nat) | attestCtl | rejoinReq | approve (s : Nat)
  | arithStatus (e : Nat)
  deriving DecidableEq, Repr

def Writable.access : Writable → Access
  | .ibiMask => .rw
  | .requestArea _ => .rw
  | .provSel => .rw
  | .requestGo => .wo
  | .challenge _ => .wo
  | .attestCtl => .wo
  | .rejoinReq => .wo
  | .approve _ => .wo
  | .arithStatus _ => .w1c
  | _ => .rwl

/-- The register at an offset, when it takes writes. -/
def writableAt (off : Nat) : Option Writable :=
  let block := off / 0x100000
  let o := off % 0x100000
  match block, o with
  | 0x00, 0x11C => some .provSel
  | 0x00, 0x120 => some (.runSeed false)
  | 0x00, 0x124 => some (.runSeed true)
  | 0x00, 0x20C => some .ibiMask
  | 0x00, 0x220 => some .requestGo
  | 0x00, _ => (tableIdx o 0x300 4 16).map .requestArea
  | 0x02, 0x80 => some .attestCtl
  | 0x02, _ => (tableIdx o 0x40 4 9).map .challenge
  | 0x03, 0x0C => some .thermHold
  | 0x03, 0x10 => some .thermTrip
  | 0x04, 0x00 => some .binSize
  | 0x06, 0xA0 => some .scrubCtl
  | 0x06, 0x120 => some .retireThresh
  | 0x06, 0x124 => some .rejoinCtl
  | 0x06, 0x128 => some .rejoinReq
  | 0x07, _ =>
    match tableRow o 0x9000 0x80 32 with
    | some (s, 0x30) => some (.approve s)
    | _ => none
  | 0x08, 0x04 => some .cap
  | 0x08, 0x08 => some .bePct
  | 0x08, 0x18 => some .static
  | 0x08, _ =>
    match tableIdx o 0x100 4 8, tableRow o 0x1000 0x20 73 with
    | some j, _ => some (.weight j)
    | _, some (m, k) => if k % 4 = 0 ∧ k < 16 then some (.budget m (k / 4)) else none
    | _, _ => none
  | _, 0xE00 => if 0x10 ≤ block ∧ block < 0x16 then some (.arithStatus (block - 0x10)) else none
  | _, 0xE10 => if 0x10 ≤ block ∧ block < 0x16 then some (.checkCtl (block - 0x10)) else none
  | _, _ => none

/-- R643: the ranges that the register tables state for RW and RWL registers. -/
def Writable.inRange (r : Writable) (v : Nat) : Bool :=
  match r with
  | .binSize => decide (4 ≤ v) && decide (v ≤ 48)
  | .cap => decide (v ≤ 600)
  | .bePct => decide (1 ≤ v) && decide (v ≤ 100)
  | .retireThresh => decide (1 ≤ v % 65536)
  | .rejoinCtl => decide (1 ≤ bits v 15 8)
  | _ => true

/-- Half of a 64-bit value replaced. -/
def setHalf (v : BitVec 64) (high : Bool) (w : Word) : BitVec 64 :=
  if high then w ++ v.extractLsb' 0 32 else v.extractLsb' 32 32 ++ w

/-- The reset value of THERM_TRIP, above which writes are ignored (Table 17.11). -/
def tripReset : Nat := Therm.reset.tripAt

/-- The value of an RW or RWL register set; reserved bits drop (R12). -/
def Device.setRegister (d : Device) (r : Writable) (w : Word) : Device :=
  let v := w.toNat
  match r with
  | .ibiMask => { d with i3c := { d.i3c with mask := BitVec.ofNat 11 v ||| 0x400 } }
  | .requestArea i => { d with req := { d.req with area := vset d.req.area i w } }
  | .provSel => { d with ctl := { d.ctl with provSel := BitVec.ofNat 5 v, prov := none } }
  | .runSeed high => { d with ctl := { d.ctl with runSeed := setHalf d.ctl.runSeed high w } }
  | .binSize => { d with well := { d.well with binSize := v } }
  | .checkCtl e => d.modEng e (fun x => { x with regs := { x.regs with checkEn := bit v 0 } })
  | .cap => { d with toll := { d.toll with cap := v } }
  | .bePct => { d with toll := { d.toll with bePct := v } }
  | .static => { d with toll := { d.toll with static := v } }
  | .weight j => { d with toll := { d.toll with weights := vset d.toll.weights j v } }
  | .budget m q =>
    { d with toll := { d.toll with
        meters := vmod d.toll.meters m (fun (x : Meter) => { x with budget := vset x.budget q v }) } }
  | .thermHold => { d with therm := { d.therm with holdAt := v % 65536 } }
  | .thermTrip => if signed16 tripReset < signed16 v then d else { d with therm := { d.therm with tripAt := v % 65536 } }
  | .scrubCtl => d.modSealSt (fun x => { x with scrubEn := bit v 0 })
  | .retireThresh => d.modSealSt (fun x => { x with retireThresh := v % 65536 })
  | .rejoinCtl => d.modSealSt (fun x => { x with rejoinCtl := w &&& 0xFF01 })
  | _ => d

/-- A write to a WO register: its action. -/
def Device.trigger (d : Device) (r : Writable) (w : Word) : Device :=
  match r with
  | .requestGo => if w.getLsbD 0 then d.requestGo else d
  | .challenge i => d.modAttest (fun a => { a with chal := vset a.chal i w })
  | .attestCtl => d.startExchange w
  | .rejoinReq => d.whenRunning (fun d => d.rejoinRequest (BitVec.ofNat 6 w.toNat))
  | .approve s => d.whenRunning (fun d => d.approve s (w.toNat % 65536))
  | _ => d

/-- R9 to R12: one word of a register write; a write to an RO register or a reserved offset is ignored. -/
def Device.writeWord (d : Device) (off : Nat) (w : Word) : Device :=
  match writableAt off with
  | none => d
  | some r =>
    match r.access with
    | .rw => d.setRegister r w
    | .rwl => if d.ctl.locked then d else d.setRegister r w
    | .wo => d.trigger r w
    | .w1c =>
      match r with
      | .arithStatus e => d.modEng e (fun x =>
          { x with regs := x.regs.clearArith d.now (BitVec.ofNat 3 w.toNat) })
      | _ => d

/-- Registers that a private write may name before the lock, and an image entry at order 9 (R633, R643). -/
def settable (off : Nat) : Bool :=
  match (writableAt off).map Writable.access with
  | some .rw => true
  | some .rwl => true
  | _ => false

/-- Registers that a read may name outside normal operation (R633): CTL_STATUS and the BOOT and TRUST blocks. -/
def readableEarly (off : Nat) : Bool := off = 0 || off / 0x100000 = 1 || off / 0x100000 = 2

/-! ### R643 -/

/-- The entries of a register-initialisation section: an offset and a value each. -/
def initEntries (b : List Byte) : List (Nat × Nat) :=
  (List.range (b.length / 8)).map (fun i => (field b (8 * i) 4, field b (8 * i + 4) 4))

/-- Whole entries, each naming an RW or RWL register with a value in its range. -/
def initOk (b : List Byte) : Bool :=
  b.length % 8 = 0 && (initEntries b).all (fun x =>
    settable x.1 && (match writableAt x.1 with
      | some r => r.inRange x.2
      | none => false))

def Device.initRegisters (d : Device) (b : List Byte) : Device :=
  (initEntries b).foldl (fun (d : Device) x =>
    match writableAt x.1 with
    | some r => d.setRegister r (word x.2)
    | none => d) d

end Sys2Proof.Machine
end

