-- ==== Sys2Proof/Machine/Boot.lean ====
section
/-! DEFINITION. The boot (Tables 15.8 and 15.9): factory data, image, journal, self-test outcomes, sections, records and
the configuration lock. A boot that does not fail runs on to T0, or to the wait for HELLO (R540). -/
namespace Sys2Proof.Machine

/-! ### Failures (R658) -/

/-- The first failure's code stays in BOOT_CAUSE. -/
def Device.bootCause (d : Device) (code : Nat) : Device :=
  { d with boot := { d.boot with cause := if d.boot.cause = 0 then code else d.boot.cause } }

/-- The last order of Table 15.8 that is complete. -/
def Device.bootOrder (d : Device) (order : Nat) : Device := { d with boot := { d.boot with order := order } }

/-- An inert outcome: the boot stops and event 0x1A waits for in-band interrupts. -/
def Device.bootFail (d : Device) (code : Nat) (st : Status) (index : Nat) : Device :=
  let d := d.bootCause code
  let d : Device := { d with phase := .inert, boot := { d.boot with status := st, failIndex := index } }
  d.event .fatal 1 d.boot.cause 0

/-! ### Certificates (R646 to R649) -/

/-- A certificate body of a kind, of a subject's and an issuer's set, with the issuer's digest (Table 15.7). -/
def certBody (b : List Byte) (kind issuerAlg : Nat) (issuer : List Byte) : Bool :=
  b.take 4 = asciiOf "PZKC" && field b 4 2 = 1 && field b 6 1 = kind && (sigBytesOf (field b 7 1)).isSome &&
    field b 8 1 = issuerAlg && zeroAt b 9 7 && (b.drop 24).take 32 = issuer && zeroAt b 168 24

/-- The body is signed under a public key. -/
def certSigned (cert : List Byte) (issuerAlg : Nat) (pk : List Byte) : Bool :=
  xmssVerify issuerAlg pk (cert.take 192) (cert.drop 192)

/-- R649, with the root key that the factory block carries. -/
def chainValid (rootPk mfg idc : List Byte) : Bool :=
  let mfgPk := subjectOf mfg
  let idPk := subjectOf idc
  shake rootPk = Config.rootDigest && certBody mfg 0 0x12 Config.rootDigest && field mfg 7 1 = 0x11 &&
    certSigned mfg 0x12 rootPk && certBody idc 2 0x11 (shake mfgPk) && field idc 7 1 = 0x03 &&
    (idc.drop 124).take 8 = (shake idPk).take 8 && certSigned idc 0x11 mfgPk

/-- Bytes of the integrator certificate: its body and the root's signature. -/
def integratorCert : Nat := 192 + 9893

/-- R647, R648: the signature block over the signed bytes. -/
def imageSigned (block signed : List Byte) : Bool :=
  let rootPk := block.take 68
  let cert := (block.drop 72).take integratorCert
  let alg := field cert 7 1
  match sigBytesOf alg with
  | none => false
  | some n =>
    block.length = 72 + integratorCert + n && zeroAt block 68 4 && shake rootPk = Config.rootDigest &&
      certBody cert 1 0x12 Config.rootDigest && certSigned cert 0x12 rootPk &&
      xmssVerify alg (subjectOf cert) signed (block.drop (72 + integratorCert))

/-! ### Orders 2 and 3 -/

/-- The factory block: its certificates and the device ID; a wrong MAGIC or VERSION leaves no identity. -/
def Device.bootFactory (d : Device) : Bool × Device :=
  let head := d.norRead 0 128
  if field head 0 8 = magicFac ∧ field head 8 2 = 1 then
    let mfg := d.norRead 128 10085
    let idc := d.norRead 10240 5155
    let d := d.modAttest (fun a =>
      { a with mfgCert := mfg, idCert := idc, deviceId := (shake (subjectOf idc)).take 8 })
    (chainValid ((head.drop 16).take 68) mfg idc, d)
  else (false, (d.modTrust (fun r => { r with noFactory := true })).bootCause 1)

/-- R650: the device secret, checked against the helper data. -/
def Device.bootSecret (d : Device) : Device :=
  let helper := d.norRead 0x10000 16384
  let ds := leBytes 32 (Config.deviceSecret (Config.pufCells d.pins.powerUp) helper).toNat
  if shake (asciiOf "PZDSCHK1" ++ ds) = helper.drop (16384 - 32) then d.modTrust (fun r => { r with secret := ds })
  else (d.modTrust (fun r => { r with puffail := true, noRepair := true })).bootCause 2

/-- R655, before the journal and the tree are used. -/
def Device.bootIdentity (d : Device) (chain : Bool) : Device :=
  d.modTrust (fun r =>
    { r with usable := chain && !r.puffail && (r.idSeeds.drop 64) = (subjectOf d.attest.idCert).drop 36 })

/-! ### Order 5 -/

/-- The block that the boot reserves (R660). -/
def Device.bootBlock (d : Device) : Nat := (d.journalTop.map (fun x => x.block + 1)).getD 0

/-- R660: the block after the highest recorded one is reserved; without the journal's key none is (log 45). -/
def Device.bootJournal (d : Device) : Device :=
  if d.trust.puffail then d
  else
    let d := d.modTrust (fun r => { r with journalSeq := (d.journalTop.map (·.seq)).getD 0 })
    let d := d.reserve d.bootBlock 0
    if d.trust.journalFail then d.bootCause 5 else d

/-- Table 15.13: what a reset inside the boot leaves of its reservation. -/
def Device.cutJournal (d : Device) (c : BootCut) : Device :=
  if d.trust.puffail then d
  else
    match c with
    | .beforeProgram => d
    | .afterValid => d.bootJournal
    | .afterBytes =>
      if 65535 < d.bootBlock then d
      else
        let ((slot, pos, _), e) := d.journalPlace
        e.norWrite (positionAddr slot pos) (d.journalBytes d.nextSeq d.bootBlock 0)

/-! ### Orders 6 to 8 -/

def bitsSet (v : BitVec 6) : Nat := ((List.range 6).filter (fun i => v.getLsbD i)).length

/-- R653: the rows that the repair record lists, when there is a device secret and the record's tag matches. -/
def Device.listedRows (d : Device) : List Nat × List Nat :=
  let b := d.norRead 0x14000 16384
  let body := b.take (16384 - 32)
  if !d.trust.puffail && b.drop (16384 - 32) = shake (d.trust.repairKey ++ body) then Config.repairRows body else ([], [])

/-- Order 6: the listed rows and those that BIST fails are repaired. -/
def Device.repairRows (d : Device) (f : BootFacts) : Device :=
  let (sram, dram) := d.listedRows
  { d with boot := { d.boot with
      sramRepaired := (sram ++ f.bistSram).eraseDups.length, dramRepaired := (dram ++ f.bistDram).eraseDups.length } }

/-- Order 6: rows repaired, and an engine without enough spares. -/
def Device.bootRepair (d : Device) (f : BootFacts) : Device :=
  let d := d.repairRows f
  let d : Device := { d with boot := { d.boot with unrepaired := f.badEngines } }
  if f.badEngines = 0 then d else d.bootCause 6

/-- Order 7: every data tile zero and sealed in generation 1 (R596, R597); semaphores at their initial counts (log 7). -/
def Device.bootFill (d : Device) : Device :=
  let d : Device := { d with
    store := { d.store with mem := [], seals := [], fillScr := Vector.replicate 6 1 }
    sealRegs := { d.sealRegs with genDram := 1, genWell := 1, genScr := Vector.replicate 6 1 } }
  { d with well := { d.well with sems := Vector.ofFn (fun (m : Fin 256) =>
      { count := (Config.semInitial m.val).val + 1, ceiling := Config.semCeiling m.val, holders := [], waiters := [], last := none }) } }

/-- Order 8: the boot session key. -/
def Device.bootSession (d : Device) : Device :=
  if !d.trust.usable then d
  else
    let (key, d) := d.makeKey
    let d := d.modTrust (fun r => { r with session := key })
    if d.trust.treeFail then d.bootCause 0x0A else d

/-! ### Order 9: sections -/

/-- A section read from the NOR. -/
structure Sect where
  idx : Nat
  entry : SectEntry
  bytes : List Byte
  deriving DecidableEq, Repr

/-- Sections in OFFSET order: hashed, checked on their own and copied, the registers initialised; the first failure is
(code, directory index). -/
def loadSections (ringN : Nat) : List (Nat × SectEntry) → List Sect → Device → Option (Nat × Nat) × List Sect × Device
  | [], acc, d => (none, acc, d)
  | (i, x) :: rest, acc, d =>
    let b := d.norRead (norImage + x.offset) x.bytes
    if shake b ≠ x.digest then (some (8, i), acc, d)
    else if !sectionShape ringN x b || (x.type = 3 && !initOk b) then (some (9, i), acc, d)
    else
      let d := if x.loaded then d.write x.dest b else d
      let d := if x.type = 3 then d.initRegisters b else d
      loadSections ringN rest (acc ++ [{ idx := i, entry := x, bytes := b }]) d

/-- The sections of a type. -/
def sectsOf (l : List Sect) (type : Nat) : List Sect := l.filter (fun x => x.entry.type = type)

/-- The records of the one section of a type, if the image has it. -/
def tableOf (l : List Sect) (type n : Nat) : List (List Byte) := (sectsOf l type).flatMap (fun x => recordsOf n x.bytes)

/-- R642, R425: a package with the weight digest of its bank 0. -/
def packageWith (x : Sect) : Package :=
  let p := packageOf x.entry.dest x.bytes
  { p with digest := weightDigest p.package ((x.bytes.drop p.bank0Offset).take p.bank0Bytes) }

/-- The image's records. -/
def imageOf (h : ImgHead) (digest : List Byte) (l : List Sect) : Image :=
  { programDigest := digest, certification := bit h.flags 0, record := bit h.flags 1, replay := bit h.flags 2,
    ringN := h.ringN, landBase := h.landBase, recBase := h.recBase, recBytes := h.recBytes,
    itins := (sectsOf l 0x10).map (fun x => itinOfBytes x.bytes),
    slotTables := (sectsOf l 0x11).map (fun x => (x.entry.index, (slotSection x.entry.index x.bytes).getD [])),
    loads := (l.filter (fun x => x.entry.loaded)).map (fun x => (x.idx, x.entry.dest, x.entry.bytes)),
    selfTest := (sectsOf l 0x3C).head?.map (fun x => (x.entry.dest, x.entry.bytes)),
    packages := (sectsOf l 0x20).map packageWith,
    ssbs := (sectsOf l 0x30).flatMap (fun x =>
      (List.range (x.bytes.length / 256)).map (fun i => (field x.bytes (256 * i) 1, x.entry.dest + 256 * i))),
    rasters := (tableOf l 0x31 64).map rasterOfBytes, layers := (tableOf l 0x32 16).map layerOfBytes,
    tunes := (tableOf l 0x33 128).map tuneOfBytes, profiles := (tableOf l 0x34 128).map profileOfBytes,
    ports := (tableOf l 0x35 32).map portOfBytes, inputs := (tableOf l 0x36 64).map inputOfBytes,
    ranges := (tableOf l 0x39 24).map rangeOfBytes, shadows := (tableOf l 0x3A 8).map shadowOfBytes }

/-- The lane assignment and the calibration record take effect. -/
def Device.takeTables (d : Device) (l : List Sect) : Device :=
  let roles := match (sectsOf l 0x37).head? with
    | some x => x.bytes
    | none => defaultRoles d.image.ringN
  let d : Device := { d with lanes := { d.lanes with
    tx := Vector.ofFn (fun (n : Fin 24) => { d.lanes.tx[n] with role := roles.getD n.val 0 })
    rx := Vector.ofFn (fun (n : Fin 24) => { d.lanes.rx[n] with role := roles.getD (24 + n.val) 0 }) } }
  match (sectsOf l 0x3B).head? with
  | some x =>
    { d with toll := { d.toll with
        weights := Vector.ofFn (fun (j : Fin 8) => field x.bytes (4 * j.val) 4), static := field x.bytes 32 4 } }
  | none => d

/-! ### Order 10 -/

/-- The configuration lock: state blocks stand, streams start cold, bank 0 is active (R289, R425), and tuning starts
(R420). -/
def Device.lock (d : Device) (lockUs : Nat) : Device :=
  let d : Device := { d with ctl := { d.ctl with locked := true }, boot := { d.boot with order := 10, lockUs := lockUs } }
  let d := d.image.ssbs.foldl (fun (d : Device) x =>
    let s := x.1
    let d := d.coldStart s
    match d.package (d.ssbModel s) with
    | some p => d.modTreg s (fun y => { y with weights := p.digest, bank := 0 })
    | none => d) d
  d.image.tunes.foldl (fun (d : Device) r => d.startTune r) d

/-- Orders 9 to 12. -/
def Device.bootImage (d : Device) (h : ImgHead) (digest : List Byte) (dir : List SectEntry) (lockUs : Nat) : Device :=
  match loadSections h.ringN ((List.range dir.length).zip dir) [] d with
  | (some (code, i), _, d) => d.bootFail code .configRejected i
  | (none, l, d) =>
    let d : Device := { d with image := imageOf h digest l }
    let d := (d.takeTables l).bootOrder 9
    match firstOffender (d.imageChecks dir) with
    | some i => d.bootFail 9 .configRejected i
    | none => (d.lock lockUs).startUp

/-! ### The whole boot -/

/-- Orders 4 to 12. -/
def Device.bootFrom (d : Device) (f : BootFacts) : Device :=
  let head := d.norRead norImage 256
  let h := imgHeadOf head
  let d := d.bootOrder 3
  if !imgHeadOk head then d.bootFail 3 .configRejected 0x3FF
  else
    let signed := d.norRead norImage (256 + 64 * h.nsect)
    let raw := (List.range h.nsect).map (fun i => (signed.drop (256 + 64 * i)).take 64)
    let dir := raw.map sectEntryOf
    let size := h.sigOffset + h.sigBytes
    let d : Device := { d with boot := { d.boot with imageBytes := size } }
    if !raw.all sectEntryOk || !directoryOk h dir || decide (511 * 1048576 < size) then d.bootFail 3 .configRejected 0x3FF
    else if !imageSigned (d.norRead (norImage + h.sigOffset) h.sigBytes) signed then d.bootFail 4 .configRejected 0x3FF
    else
      let digest := shake signed
      let d : Device := { d with image := { d.image with programDigest := digest } }
      match f.cut with
      | some c => d.cutJournal c
      | none =>
        let d := d.bootJournal.bootOrder 5
        if f.badBase || decide (2 ≤ bitsSet f.badEngines) then (d.repairRows f).bootFail 7 .checkFail 0x3FF
        else ((((d.bootRepair f).bootFill).bootSession).bootOrder 8).bootImage h digest dir f.lockUs

/-- Table 15.8. In-band interrupts are disabled after every boot (R682). -/
def Device.runBoot (d : Device) (f : BootFacts) : Device :=
  let d : Device := { d with
    phase := .preLock, pins := { d.pins with addrSel := f.addrSel, xspiFloating := false }
    i3c := { d.i3c with enint := false }, attest := { d.attest with programs := f.programs } }
  let (chain, d) := (d.bootOrder 1).bootFactory
  let d := (d.bootOrder 2).bootSecret
  (d.bootIdentity chain).bootFrom f

/-- R634, R656: a boot runs once after each release of RESET_N, rise of PWR_OK or whole-device reset. Of one that a reset falls
into, only the NOR stays (Table 15.13). -/
def execBoot (t : Nat) (facts : BootFacts) (s : State) : Host.Outcome State Fault Refusal :=
  .next (s.runI t fun d => d.guard ((d.phase = .preLock || d.phase = .off) && d.boot.order = 0) (fun d =>
    let d := d.runBoot facts
    if facts.cut.isSome then d.resetAll else d))

end Sys2Proof.Machine
end

