-- ==== Sys2Proof/Machine/Pins.lean ====
section
/-! DEFINITION. Resets, supplies, clock, TIME_PPS and the junction sensors (chapter 17). -/
namespace Sys2Proof.Machine

/-- R706: a pulse below 100 ns is ignored and one of at least 1 µs resets the device; a pulse between the two is forbidden
and has no effect that the spec gives. -/
def execResetNAssert (t : Nat) (lowNs : Nat) (s : State) : Host.Outcome State Fault Refusal :=
  if lowNs < 100 then .next (s.run t fun d => d)
  else if lowNs < 1000 then .fault .resetPulseForbidden
  else
    .next (s.run t fun d =>
      -- the xSPI pins float until the boot, at the release (R637); none starts while PWR_OK is low (R634)
      { d.resetAll with
        phase := if d.phase = .off then .off else .preLock, pins := { d.resetAll.pins with xspiFloating := true } })

/-- R710: a falling PWR_OK acts as a reset; the next boot starts when it rises, with the PUF cells powered up again
(Table 15.13). -/
def execPwrOkFall (t : Nat) (s : State) : Host.Outcome State Fault Refusal :=
  .next (s.run t fun d =>
    let d := d.resetAll
    { d with phase := .off, pins := { d.pins with lasersOn := false, xspiFloating := true, powerUp := d.pins.powerUp + 1 } })

/-- R714: REFCLK absent for more than 200 ns after PWR_OK has risen. -/
def execRefclkLoss (t : Nat) (absentNs : Nat) (s : State) : Host.Outcome State Fault Refusal :=
  .next (s.run t fun d => d.guard (d.phase ≠ .off && decide (200 < absentNs)) Device.clockLost)

/-- R50, R715, Table 17.5: the capture of a rising edge; an edge within 10 ms of the last is ignored and counted. -/
def Device.ppsEdge (d : Device) : Device :=
  match d.ctl.pps with
  | some last =>
    if d.now < last + 10000000 then { d with therm := { d.therm with ppsIgnored := satInc d.therm.ppsIgnored } }
    else { d with ctl := { d.ctl with pps := some d.now } }
  | none => { d with ctl := { d.ctl with pps := some d.now } }

def execTimePpsEdge (t : Nat) (s : State) : Host.Outcome State Fault Refusal :=
  .next (s.run t fun d => d.guard (d.phase ≠ .off) Device.ppsEdge)

/-- R720, R722: a sensor reads a junction temperature that has reached THERM_TRIP. -/
def execThermalTrip (t : Nat) (sensor : Fin 16) (temp : Int) (s : State) : Host.Outcome State Fault Refusal :=
  .next (s.run t fun d =>
    d.guard (d.phase ≠ .off && decide (signed16 d.therm.tripAt ≤ temp)) fun d =>
      let v := vset d.therm.sensors sensor.val temp
      let h := hottest v
      let d : Device := { d with therm := { d.therm with
        sensors := v, hottest := h.1, tj := h.2, peak := peakOf d.therm.peak h.2 } }
      d.thermalTrip)

end Sys2Proof.Machine
end

