-- ==== Sys2Proof/Machine/I3c.lean ====
section
/-! DEFINITION. The I3C target (chapter 16): common commands, resets, private transfers and in-band interrupts. `i3c.reply`
holds the bytes that the target sent last. -/
namespace Sys2Proof.Machine

def Device.modI3c (d : Device) (f : I3c → I3c) : Device := { d with i3c := f d.i3c }

def Device.answerBytes (d : Device) (bs : List Byte) : Device := d.modI3c (fun r => { r with reply := bs })

/-- The target is powered; an SDR command finds the bus out of HDR mode (log 42). -/
def Device.onBus (d : Device) (f : Device → Device) : Device :=
  if d.phase = .off then d else f (d.modI3c (fun r => { r with hdr := false }))

/-- A direct command reaches the target at its dynamic address. -/
def Device.addressed (d : Device) (f : Device → Device) : Device := d.onBus fun d => d.guard d.i3c.dynAddr.isSome f

/-! ### Common commands (Table 16.2) -/

/-- ENINT of an event byte. -/
def execEnec (t : Nat) (events : Byte) (s : State) : Host.Outcome State Fault Refusal :=
  .next (s.run t fun d => d.onBus fun d =>
    d.guard (events.getLsbD 0) (fun d => d.modI3c (fun r => { r with enint := true })))

def execDisec (t : Nat) (events : Byte) (s : State) : Host.Outcome State Fault Refusal :=
  .next (s.run t fun d => d.onBus fun d =>
    d.guard (events.getLsbD 0) (fun d => d.modI3c (fun r => { r with enint := false })))

def execEnthdr0 (t : Nat) (s : State) : Host.Outcome State Fault Refusal :=
  .next (s.run t fun d => d.guard (d.phase ≠ .off) (fun d => d.modI3c (fun r => { r with hdr := true })))

/-- PID (Table 16.1), most significant byte first. -/
def pidBytes (addrSel : Nat) : List Byte :=
  let v := 0x3B1 * 2 ^ 33 + 0x0616 * 2 ^ 16 + addrSel % 4 * 2 ^ 12 + 0x0A1
  (leBytes 6 v).reverse

/-- BCR and DCR (Table 16.1). -/
def bcr : Byte := 0x06
def dcr : Byte := 0x00

/-- R674. -/
def staticAddress (addrSel : Nat) : Nat := 0x2C + addrSel

def execEntdaa (t : Nat) (address : BitVec 7) (s : State) : Host.Outcome State Fault Refusal :=
  .next (s.run t fun d => d.onBus fun d =>
    d.guard d.i3c.dynAddr.isNone fun d =>
      (d.answerBytes (pidBytes d.pins.addrSel.toNat ++ [bcr, dcr])).modI3c (fun r => { r with dynAddr := some address }))

def execSetdasa (t : Nat) (static address : BitVec 7) (s : State) : Host.Outcome State Fault Refusal :=
  .next (s.run t fun d => d.onBus fun d =>
    d.guard (d.i3c.dynAddr.isNone && static.toNat = staticAddress d.pins.addrSel.toNat) fun d =>
      d.modI3c (fun r => { r with dynAddr := some address }))

def execSetnewda (t : Nat) (address : BitVec 7) (s : State) : Host.Outcome State Fault Refusal :=
  .next (s.run t fun d => d.addressed fun d => d.modI3c (fun r => { r with dynAddr := some address }))

def execGetpid (t : Nat) (s : State) : Host.Outcome State Fault Refusal :=
  .next (s.run t fun d => d.addressed fun d => d.answerBytes (pidBytes d.pins.addrSel.toNat))

def execGetbcr (t : Nat) (s : State) : Host.Outcome State Fault Refusal :=
  .next (s.run t fun d => d.addressed fun d => d.answerBytes [bcr])

def execGetdcr (t : Nat) (s : State) : Host.Outcome State Fault Refusal :=
  .next (s.run t fun d => d.addressed fun d => d.answerBytes [dcr])

/-- R677. -/
def Device.targetStatus (d : Device) : Nat :=
  let flags : List Bool :=
    [d.ctl.locked, d.phase = .inert, d.phase = .running, d.ctl.lockstep, d.ne.any (fun e => e.retired || e.asleep),
     d.fcNonzero != 0, d.i3c.lost != 0, d.trust.usable]
  min 15 d.i3c.queue.length + boolNat d.i3c.protocolError * 32 + maskOf 8 (fun i => flags.getD i false) * 2 ^ 8

/-- The read clears the protocol-error flag, and a second target reset pattern counts anew (R676). -/
def execGetstatus (t : Nat) (s : State) : Host.Outcome State Fault Refusal :=
  .next (s.run t fun d => d.addressed fun d =>
    (d.answerBytes (leBytes 2 d.targetStatus).reverse).modI3c (fun r =>
      { r with protocolError := false, patternSeen := false }))

def execGetmxds (t : Nat) (s : State) : Host.Outcome State Fault Refusal :=
  .next (s.run t fun d => d.addressed fun d => d.answerBytes [0, 0])

/-! ### Resets (R676) -/

/-- The defining bytes of RSTACT; any other is not acknowledged. -/
def execRstact (t : Nat) (defining : Byte) (s : State) : Host.Outcome State Fault Refusal :=
  .next (s.run t fun d => d.onBus fun d =>
    match defining.toNat with
    | 0x00 => d.modI3c (fun r => { r with armed := .none })
    | 0x01 => d.modI3c (fun r => { r with armed := .peripheral })
    | 0x02 => d.modI3c (fun r => { r with armed := .whole })
    | 0x81 => d.answerBytes [Config.resetTimeCode]
    | 0x82 => d.answerBytes [Config.resetTimeCode]
    | _ => d)

/-- The private-transfer and read-setup state is cleared. -/
def Device.peripheralReset (d : Device) : Device := d.modI3c (fun r => { r with setup := none, reply := [], hdr := false })

def execTargetResetPattern (t : Nat) (s : State) : Host.Outcome State Fault Refusal :=
  .next (s.run t fun d => d.guard (d.phase ≠ .off) fun d =>
    match d.i3c.armed with
    | .whole => d.resetAll
    | .peripheral => d.peripheralReset.modI3c (fun r => { r with armed := .none })
    | .none =>
      if d.i3c.patternSeen then d.resetAll else d.peripheralReset.modI3c (fun r => { r with patternSeen := true }))

/-! ### Private writes (R678, R680, R681) -/

/-- The bytes of a private write as the target takes them: in HDR-DDR command 0x20 carries it, and the pad byte of a
register write drops. -/
def transferBytes (xfer : Xfer) (code : Nat) (bytes : List Byte) : Option (List Byte) :=
  match xfer with
  | .sdr => some bytes
  | .hdr c =>
    if c.toNat ≠ code then none
    else if bits (field bytes 0 1) 7 6 = 0 ∧ bytes.length % 2 = 0 then some bytes.dropLast
    else some bytes

/-- End of the register space (R680). -/
def registerLimit : Nat := 0x04000000

/-- R680: what the target makes of a private write: a register write (offset, words), a read setup (offset, count), or a
refusal. -/
inductive PrivateKind where
  | words (off : Nat) (ws : List Word)
  | setup (off count : Nat)
  | refused
  deriving DecidableEq, Repr

def privateKind (b : List Byte) : PrivateKind :=
  let kind := bits (field b 0 1) 7 6
  let off := field b 1 4
  if b.length < 5 ∨ off % 4 ≠ 0 then .refused
  else if kind = 0 then
    let n := (b.length - 5) / 4
    if (b.length - 5) % 4 ≠ 0 ∨ n = 0 ∨ 64 < n ∨ registerLimit < off + 4 * n then .refused
    else .words off ((List.range n).map (fun i => word (field b (5 + 4 * i) 4)))
  else if kind = 1 then
    let n := field b 5 1
    if b.length ≠ 6 ∨ n = 0 ∨ 64 < n ∨ registerLimit < off + 4 * n then .refused else .setup off n
  else .refused

/-- Normal operation: past the configuration lock and not inert. -/
def Device.normal (d : Device) : Bool := d.ctl.locked && d.phase ≠ .inert

/-- R633: whether the write of words from an offset is taken at all. -/
def Device.writeAllowed (d : Device) (off n : Nat) : Bool :=
  d.normal || (d.phase ≠ .inert && (List.range n).all (fun i => settable (off + 4 * i)))

/-- CTL_I3C_LAST. -/
def Device.noteWrite (d : Device) (b : List Byte) (st : Status) : Device :=
  d.modI3c (fun r => { r with last := word (field b 0 1 + statusCode st * 2 ^ 8) })

/-- R689: the words hold a GO that meets a pending request. -/
def Device.goBlocked (d : Device) (off : Nat) (ws : List Word) : Bool :=
  d.req.pending.isSome && (List.range ws.length).any (fun i =>
    writableAt (off + 4 * i) = some .requestGo && (ws.getD i 0).getLsbD 0)

/-- A private write. -/
def Device.privateWrite (d : Device) (b : List Byte) : Device :=
  match privateKind b with
  | .refused => (d.noteWrite b .unsupported).modI3c (fun r => { r with protocolError := true })
  | .setup off n =>
    (d.noteWrite b .ok).modI3c (fun r => { r with setup := some (b.getD 0 0, off, n) })
  | .words off ws =>
    if !d.writeAllowed off ws.length then d.noteWrite b .unsupported
    else
      let st : Status := if d.goBlocked off ws then .noCredit else .ok
      let d := ((List.range ws.length).zip ws).foldl (fun (d : Device) x => d.writeWord (off + 4 * x.1) x.2) d
      d.noteWrite b st

/-- A private transfer needs a dynamic address, and an HDR one the HDR mode. -/
def Device.transfer (d : Device) (xfer : Xfer) (code : Nat) (bytes : List Byte) (f : Device → List Byte → Device) : Device :=
  if d.phase = .off ∨ d.i3c.dynAddr.isNone then d
  else
    let d := match xfer with
      | .sdr => d.modI3c (fun r => { r with hdr := false })
      | .hdr _ => d
    match transferBytes xfer code bytes, xfer with
    | some b, .sdr => f d b
    | some b, .hdr _ => if d.i3c.hdr then f d b else d
    | none, _ => d

def execRegisterWrite (t : Nat) (xfer : Xfer) (bytes : List Byte) (s : State) : Host.Outcome State Fault Refusal :=
  .next (s.runI t fun d => d.transfer xfer 0x20 bytes Device.privateWrite)

def execReadSetup (t : Nat) (xfer : Xfer) (bytes : List Byte) (s : State) : Host.Outcome State Fault Refusal :=
  .next (s.runI t fun d => d.transfer xfer 0x20 bytes Device.privateWrite)

/-! ### Private reads (R679, R633) -/

/-- The words of consecutive registers, each read with its latch. -/
def Device.readWords : (n : Nat) → Device → Nat → List Byte × Device
  | 0, d, _ => ([], d)
  | n + 1, d, off =>
    let (v, d) := d.regRead off
    let (bs, d) := Device.readWords n d (off + 4)
    (leBytes 4 v ++ bs, d)

def Device.readAllowed (d : Device) (off n : Nat) : Bool :=
  d.normal || (List.range n).all (fun i => readableEarly (off + 4 * i))

def Device.privateRead (d : Device) : Device :=
  match d.i3c.setup with
  | none => d.answerBytes [0, BitVec.ofNat 8 (statusCode .unsupported)]
  | some (tag, off, n) =>
    let d := d.modI3c (fun r => { r with setup := none })
    if !d.readAllowed off n then d.answerBytes [tag, BitVec.ofNat 8 (statusCode .unsupported)]
    else
      let (bs, d) := Device.readWords n d off
      d.answerBytes ([tag, BitVec.ofNat 8 (statusCode .ok)] ++ bs)

def execPrivateRead (t : Nat) (xfer : Xfer) (s : State) : Host.Outcome State Fault Refusal :=
  .next (s.run t fun d => d.transfer xfer 0xA0 [] (fun d _ => d.privateRead))

/-- A read of one register by itself; of a _LO register it latches the high word. -/
def execLoRegisterRead (t : Nat) (offset : Word) (s : State) : Host.Outcome State Fault Refusal :=
  .next (s.run t fun d =>
    d.guard (d.phase ≠ .off && offset.toNat % 4 = 0 && decide (offset.toNat < registerLimit) && d.readAllowed offset.toNat 1)
      fun d =>
        let (v, d) := d.regRead offset.toNat
        d.answerBytes (leBytes 4 v))

/-! ### In-band interrupts (R682, R683, R687) -/

/-- Table 16.3. -/
def IbiEvent.bytes (e : IbiEvent) : List Byte :=
  leBytes 1 (eventCode e.event) ++ leBytes 1 e.seq ++ leBytes 1 e.arg0 ++ leBytes 1 e.arg1 ++ leBytes 4 e.arg2

/-- The head event is raised; it leaves the queue once its whole payload has been read. -/
def execIbi (t : Nat) (acked : Bool) (bytesRead : Nat) (s : State) : Host.Outcome State Fault Refusal :=
  .next (s.run t fun d =>
    d.guard (d.phase ≠ .off && d.i3c.dynAddr.isSome && d.i3c.enint) fun d =>
      match d.i3c.queue with
      | [] => d
      | e :: rest =>
        let raised := d.modI3c (fun r => { r with queue := { e with at_ := none } :: rest })
        if !acked then raised
        else (if 8 ≤ bytesRead then d.modI3c (fun r => { r with queue := rest }) else raised).answerBytes (e.bytes.take bytesRead))

end Sys2Proof.Machine
end

