-- ==== Sys2Proof/Machine/Sequencer.lean ====
section
/-! DEFINITION. The sequencer's own commands: WAIT with its limit, SIGNAL, and SEM acquire and release
(R64 to R70, R168). -/
namespace Sys2Proof.Machine

/-- Their 4 steps (Table 4.16). -/
def Device.seqSteps (d : Device) (e : Nat) (r : Run) : Device := d.spend e r.ctx { emptySteps := 4 }

/-- R65: a WAIT; one that is not satisfied stays pending from now (R168). -/
def execWait (t : Nat) (engine : Fin 6) (s : State) : Host.Outcome State Fault Refusal :=
  s.command t engine (isOp opWAIT) (fun _ _ _ => synIssue) (fun d e r =>
    let c := r.cmd
    let (f, target) := (field c 16 2, field c 18 2)
    let d := d.seqSteps e r
    if d.flagReached f target then d.completeCommand e
    else d.modEng e (fun x =>
      { x with run := x.run.map (fun r => { r with wait := some (.flag f target d.now (field c 20 4)) }) }))

/-- R168: a WAIT still pending at its limit withdraws and ends the list with TIMEOUT. -/
def execWaitLimitExpiry (t : Nat) (engine : Fin 6) (s : State) : Host.Outcome State Fault Refusal :=
  .next (s.runI t fun d => d.whenRunning fun d =>
    match (d.eng engine.val).run with
    | none => d
    | some r =>
      match r.wait with
      | some (.flag f target start limit) =>
        d.guard ((d.eng engine.val).pre ≠ .saving && limit != 0 && decide (start + 1000 * limit ≤ d.now) &&
          (!d.flagReached f target || decide (start + 1000 * limit < d.now))) (fun d => d.endRun engine.val .timeout)
      | _ => d)

/-- R64; a shadow launch's SIGNAL has no effect (R613). -/
def execSignal (t : Nat) (engine : Fin 6) (s : State) : Host.Outcome State Fault Refusal :=
  s.command t engine (isOp opSIGNAL) (fun _ _ _ => synIssue) (fun d e r =>
    let c := r.cmd
    let d := d.seqSteps e r
    let d := if r.due.shadow then d else d.signalFlag (field c 16 2) (field c 18 1)
    d.completeCommand e)

/-- R68, R69: the acquire joins the waiters and is granted when its turn comes; a shadow launch's completes
without effect (R613). -/
def execSemAcquire (t : Nat) (engine : Fin 6) (s : State) : Host.Outcome State Fault Refusal :=
  s.command t engine (fun c => isOp opSEM c && field c 17 1 = 0) (fun _ _ _ => synIssue) (fun d e r =>
    let m := field r.cmd 16 1
    let d := d.seqSteps e r
    if r.due.shadow then d.completeCommand e
    else
      let d := d.semChoice (d.meetsGrant (d.sem m) (!d.runsBe r))
      let d := d.modSem m (fun x => { x with waiters := x.waiters ++ [(r.ctx, e, !r.bestEffort, r.due.entry, d.now)] })
      d.modEng e (fun x => { x with run := x.run.map (fun r => { r with wait := some (.sem m d.now) }) }))

/-- R70: a release by a holder; any other is counted in WELL_SEM_ERRORS. One that comes after the bound of the hold does not
win: its holder is torn down (R467). -/
def execSemRelease (t : Nat) (engine : Fin 6) (s : State) : Host.Outcome State Fault Refusal :=
  s.command t engine (fun c => isOp opSEM c && field c 17 1 = 1) (fun _ _ _ => synIssue) (fun d e r =>
    let m := field r.cmd 16 1
    if !r.due.shadow && (d.sem m).overdue r.ctx d.now then d.teardown r.ctx 4 r.due.entry
    else
      let d := d.seqSteps e r
      let d :=
        if r.due.shadow then d
        else if (d.sem m).heldBy r.ctx then (d.modSem m (fun x => x.giveBack r.ctx)).noteHeld r.ctx
        else { d with well := { d.well with semErrors := satInc d.well.semErrors } }
      d.completeCommand e)

end Sys2Proof.Machine
end

