-- ==== Sys2Proof/Machine/TuningCut.lean ====
section
/-! DEFINITION. The cut of a reference into samples (R405 to R410, R413): the patches of Table 9.2 and the manifest of
Table 9.3. -/
namespace Sys2Proof.Machine

/-- A plane of an unpacked image whose planes stand at `base`, as a tensor of one channel. -/
def PlaneShape.desc (q : PlaneShape) (base : Nat) : Desc :=
  { base := base, tensorId := 0, fmt := if q.elem = 1 then 1 else if q.elem = 2 then 12 else 13, layout := 0, comp := 0,
    channels := 1, width := q.width, height := q.height, rowPitch := q.pitch, planeStride := 0, scaleOffset := 0 }

/-- A row of a patch, filled to its pitch. -/
def patchRow (l : List Byte) : List Byte := l ++ List.replicate (roundUp l.length 64 - l.length) 0

/-- Table 9.2, target: N × N pixels of a plane of the reference at (x, y); the crop is exact (the text after R408). -/
def targetPlane (bytes : List Byte) (pitch n x y : Nat) : List Byte :=
  (List.range n).flatMap (fun v => patchRow ((List.range n).map (fun u => bytes.getD ((y + v) * pitch + x + u) 0)))

/-- Table 9.2, anchor: the box at (x, y) of a `w` × `h` reference, in a plane of the held anchor. -/
def anchorPlane (planes : List Byte) (q : PlaneShape) (at_ n x y w h : Nat) : List Byte :=
  let t := q.desc at_
  let m := memListed at_ ((planes.drop at_).take (q.height * q.pitch))
  let edge (e size full : Nat) : Nat := 64 * e * size / full
  let b : Box := { x0 := edge x q.width w, y0 := edge y q.height h, x1 := edge (x + n) q.width w, y1 := edge (y + n) q.height h }
  let ow := ceilDiv (n * q.width) w
  let oh := ceilDiv (n * q.height) h
  (List.range oh).flatMap (fun v => patchRow ((List.range ow).flatMap (fun u =>
    leBytes q.elem (convert t.fmt .rne false (cropValue t m (.fin false 0 0) b ow oh 0 v u)))))

/-- Table 9.2, motion: N / 4 × N / 4 elements of the held LMOT at (x / 4, y / 4). -/
def motionPatch (lmot : List Byte) (pitch n x y : Nat) : List Byte :=
  (List.range (n / 4)).flatMap (fun v => patchRow ((lmot.drop ((y / 4 + v) * pitch + 4 * (x / 4))).take n))

/-- A patch, filled to its last tile. -/
def toTiles (l : List Byte) : List Byte := l ++ List.replicate (roundUp l.length tileBytes - l.length) 0

/-- R408, R409: the patches of a sample of bucket z at (x, y), one after another, in the tiles of their slot. -/
def Device.cutPatches (d : Device) (r : TuneRec) (h : Hold) (z x y : Nat) : List Byte :=
  let n := bucketSize z
  match d.inputRec r.stream, d.image.rasters.find? (fun g => g.stream = r.stream && g.kind = 0) with
  | some i, some g =>
    let refs := inputPlanes 0x24 0 g.width g.height
    let target := (refs.zipIdx).flatMap (fun (q, p) =>
      targetPlane (d.peek (i.refBase + 16384 + p * inputStride refs) (q.height * q.pitch)) q.pitch n x y)
    let planes := inputPlanes i.format i.channels i.width i.height
    let anchor := (planes.zipIdx).flatMap (fun (q, p) =>
      anchorPlane h.anchor q (p * inputStride planes) n x y g.width g.height)
    let motion := motionPatch h.motion (d.motionPitch r.stream g.width) n x y
    (toTiles target ++ toTiles anchor ++ toTiles motion).take (r.slotTiles * tileBytes)
  | _, _ => []

/-- The raster viewport of a tuning stream: the size of its references (R403). -/
def Device.refDims (d : Device) (s : Nat) : Nat × Nat :=
  match d.image.rasters.find? (fun g => g.stream = s && g.kind = 0) with
  | some g => (g.width, g.height)
  | none => (256, 256)

/-- R406 to R410: sample n of bucket z at (x, y): its manifest entry, its patches and its place in the buffer. -/
def Device.putSample (d : Device) (r : TuneRec) (n z x y : Nat) (crcBad : Bool) (patches : List Byte) : Device :=
  let d := (d.write (r.replayBase + 8 * (n % r.capacity)) (manifestBytes n z x y crcBad)).write (r.slotAddr n) patches
  d.modTune r.stream (fun t =>
    { t with
      samples := t.samples + 1
      manifest := t.manifest.filter (fun m => m.1 % r.capacity ≠ n % r.capacity) ++ [(n, z, crcBad)] })

/-- R405 to R413: the reference of the earliest hold is cut. -/
def Device.cut (d : Device) (r : TuneRec) (h : Hold) (bad : List Nat) : Device :=
  let s := r.stream
  let x := d.tune s
  let q := x.refs
  let dims := d.refDims s
  let numbers := (List.range r.boxes).map (fun k => r.boxes * q + k)
  let inEpoch := x.epochRunning &&
    numbers.any (fun n => (r.epochList x.epoch).any (fun m => m % r.capacity = n % r.capacity))
  if inEpoch then
    -- R413: the cut is not performed, and its hold stands until it expires (R402)
    ((d.modTune s (fun x =>
      { x with holds := x.holds.map (fun y => if y.slot = h.slot then { y with reference := none } else y) })).refDrop s).itnFreeChoice
  else
    let d := d.modTune s (fun x => { x with holds := x.holds.filter (fun y => y.slot ≠ h.slot) })
    let e := d
    let d := (List.range r.boxes).foldl (fun d k =>
      let b := drawBox r dims.1 dims.2 q k
      let crcBad := bad.any (fun l => decide (b.2.2 ≤ l) && decide (l < b.2.2 + bucketSize b.1))
      d.putSample r (r.boxes * q + k) b.1 b.2.1 b.2.2 crcBad (e.cutPatches r h b.1 b.2.1 b.2.2)) d
    let d := d.modTune s (fun x => { x with refs := x.refs + 1 })
    d.modTreg s (fun y => { y with refsCut := satInc y.refsCut })

/-- R405: the earliest hold that has not expired is cut, when E_HOLD has filled it and its reference has been accepted. -/
def execReferenceCut (t : Nat) (stream : Fin 32) (s : State) : Host.Outcome State Fault Refusal :=
  .next (s.run t fun d => d.whenRunning fun d =>
    let d := d.expireHolds stream.val d.now
    match d.tuneRec stream.val, (sortBy (fun (a b : Hold) => a.slot < b.slot) (d.tune stream.val).holds) with
    | some r, h :: _ =>
      match h.reference with
      | some (_, bad) => d.guard (d.tuning stream.val && h.filled) (fun d => d.cut r h bad)
      | none => d
    | _, _ => d)

end Sys2Proof.Machine
end

