-- ==== Sys2Proof/Machine/Dispatch.lean ====
section
/-! DEFINITION. One arm per command: the command's meaning, or its rejection by name. -/
namespace Sys2Proof.Machine

/-- The effect of a command on everything but the queue. -/
def exec (i : Instr) (s : State) : Host.Outcome State Fault Refusal :=
  match i with
  | .boot t facts => Sys2Proof.Machine.execBoot t facts s
  | .resetNAssert t lowNs => Sys2Proof.Machine.execResetNAssert t lowNs s
  | .pwrOkFall t => Sys2Proof.Machine.execPwrOkFall t s
  | .refclkLoss t absentNs => Sys2Proof.Machine.execRefclkLoss t absentNs s
  | .timePpsEdge t => Sys2Proof.Machine.execTimePpsEdge t s
  | .thermalTrip t sensor temp => Sys2Proof.Machine.execThermalTrip t sensor temp s
  | .trainToRun t lane => Sys2Proof.Machine.execTrainToRun t lane s
  | .lightPresent t lane => Sys2Proof.Machine.execLightPresent t lane s
  | .codewordLock t lane => Sys2Proof.Machine.execCodewordLock t lane s
  | .superframeLock t lane => Sys2Proof.Machine.execSuperframeLock t lane s
  | .lossOfActive t lane => Sys2Proof.Machine.execLossOfActive t lane s
  | .lossOfLight t lane => Sys2Proof.Machine.execLossOfLight t lane s
  | .alignBlock t lane farTx farRx credits => Sys2Proof.Machine.execAlignBlock t lane farTx farRx credits s
  | .frameStartPacket t lane head data => Sys2Proof.Machine.execFrameStartPacket t lane head data s
  | .longPacket t lane head dt payload crcOk => Sys2Proof.Machine.execLongPacket t lane head dt payload crcOk s
  | .frameEndPacket t lane head data => Sys2Proof.Machine.execFrameEndPacket t lane head data s
  | .containerTimeout t lane vc => Sys2Proof.Machine.execContainerTimeout t lane vc s
  | .replayRecordArrival t lane record => Sys2Proof.Machine.execReplayRecordArrival t lane record s
  | .replayedPacketRelease t seq => Sys2Proof.Machine.execReplayedPacketRelease t seq s
  | .hello t east frame => Sys2Proof.Machine.execHello t east frame s
  | .helloTimeout t => Sys2Proof.Machine.execHelloTimeout t s
  | .readReq t east frame => Sys2Proof.Machine.execReadReq t east frame s
  | .readResp t east frame => Sys2Proof.Machine.execReadResp t east frame s
  | .otsonResetFrame t east frame => Sys2Proof.Machine.execOtsonResetFrame t east frame s
  | .otsonFrameSend t east => Sys2Proof.Machine.execOtsonFrameSend t east s
  | .otsonRequestTimeout t part credit => Sys2Proof.Machine.execOtsonRequestTimeout t part credit s
  | .majorCycleBoundary t => Sys2Proof.Machine.execMajorCycleBoundary t s
  | .entryDue t entry => Sys2Proof.Machine.execEntryDue t entry s
  | .listLaunch t engine => Sys2Proof.Machine.execListLaunch t engine s
  | .deadlineSkip t entry => Sys2Proof.Machine.execDeadlineSkip t entry s
  | .budgetOverrun t engine => Sys2Proof.Machine.execBudgetOverrun t engine s
  | .yieldWaitExpiry t engine => Sys2Proof.Machine.execYieldWaitExpiry t engine s
  | .saveComplete t engine => Sys2Proof.Machine.execSaveComplete t engine s
  | .boundaryYield t engine => Sys2Proof.Machine.execBoundaryYield t engine s
  | .restore t engine ctx => Sys2Proof.Machine.execRestore t engine ctx s
  | .restoreComplete t engine => Sys2Proof.Machine.execRestoreComplete t engine s
  | .bestEffortSliceExpiry t engine => Sys2Proof.Machine.execBestEffortSliceExpiry t engine s
  | .preEmptionMarkReached t engine => Sys2Proof.Machine.execPreEmptionMarkReached t engine s
  | .semaphoreWatchdog t sem holder => Sys2Proof.Machine.execSemaphoreWatchdog t sem holder s
  | .handshakeTimeout t ctx engine => Sys2Proof.Machine.execHandshakeTimeout t ctx engine s
  | .tollPeriodStart t readings => Sys2Proof.Machine.execTollPeriodStart t readings s
  | .meterHold t meter => Sys2Proof.Machine.execMeterHold t meter s
  | .conv t engine faults1 faults2 => Sys2Proof.Machine.execConv t engine faults1 faults2 s
  | .matmul t engine faults1 faults2 => Sys2Proof.Machine.execMatmul t engine faults1 faults2 s
  | .attn t engine => Sys2Proof.Machine.execAttn t engine s
  | .pool t engine => Sys2Proof.Machine.execPool t engine s
  | .cropresize t engine => Sys2Proof.Machine.execCropresize t engine s
  | .rasterTile t engine => Sys2Proof.Machine.execRasterTile t engine s
  | .add t engine => Sys2Proof.Machine.execAdd t engine s
  | .sub t engine => Sys2Proof.Machine.execSub t engine s
  | .mul t engine => Sys2Proof.Machine.execMul t engine s
  | .fma t engine => Sys2Proof.Machine.execFma t engine s
  | .min t engine => Sys2Proof.Machine.execMin t engine s
  | .max t engine => Sys2Proof.Machine.execMax t engine s
  | .clamp t engine => Sys2Proof.Machine.execClamp t engine s
  | .affine t engine => Sys2Proof.Machine.execAffine t engine s
  | .exp2 t engine => Sys2Proof.Machine.execExp2 t engine s
  | .log2 t engine => Sys2Proof.Machine.execLog2 t engine s
  | .rcp t engine => Sys2Proof.Machine.execRcp t engine s
  | .rsqrt t engine => Sys2Proof.Machine.execRsqrt t engine s
  | .sigmoid t engine => Sys2Proof.Machine.execSigmoid t engine s
  | .tanh t engine => Sys2Proof.Machine.execTanh t engine s
  | .rsum t engine => Sys2Proof.Machine.execRsum t engine s
  | .rmax t engine => Sys2Proof.Machine.execRmax t engine s
  | .rmin t engine => Sys2Proof.Machine.execRmin t engine s
  | .softmax t engine => Sys2Proof.Machine.execSoftmax t engine s
  | .norm t engine => Sys2Proof.Machine.execNorm t engine s
  | .cvt t engine => Sys2Proof.Machine.execCvt t engine s
  | .mxq t engine => Sys2Proof.Machine.execMxq t engine s
  | .copy t engine => Sys2Proof.Machine.execCopy t engine s
  | .tileReloadComplete t tile => Sys2Proof.Machine.execTileReloadComplete t tile s
  | .wait t engine => Sys2Proof.Machine.execWait t engine s
  | .waitLimitExpiry t engine => Sys2Proof.Machine.execWaitLimitExpiry t engine s
  | .signal t engine => Sys2Proof.Machine.execSignal t engine s
  | .semAcquire t engine => Sys2Proof.Machine.execSemAcquire t engine s
  | .semRelease t engine => Sys2Proof.Machine.execSemRelease t engine s
  | .reproject t engine => Sys2Proof.Machine.execReproject t engine s
  | .anchorSelection t stream => Sys2Proof.Machine.execAnchorSelection t stream s
  | .guideDecisionTime t stream => Sys2Proof.Machine.execGuideDecisionTime t stream s
  | .triangleBinning t => Sys2Proof.Machine.execTriangleBinning t s
  | .flushJobStart t engine => Sys2Proof.Machine.execFlushJobStart t engine s
  | .flushJobEnd t engine => Sys2Proof.Machine.execFlushJobEnd t engine s
  | .visionJobStart t unit => Sys2Proof.Machine.execVisionJobStart t unit s
  | .visionWaitExpiry t unit => Sys2Proof.Machine.execVisionWaitExpiry t unit s
  | .flowJob t unit => Sys2Proof.Machine.execFlowJob t unit s
  | .stereoJob t => Sys2Proof.Machine.execStereoJob t s
  | .remapJob t unit => Sys2Proof.Machine.execRemapJob t unit s
  | .layer0Drain t => Sys2Proof.Machine.execLayer0Drain t s
  | .stage5LineWrite t stream => Sys2Proof.Machine.execStage5LineWrite t stream s
  | .ringToFifoMove t stream => Sys2Proof.Machine.execRingToFifoMove t stream s
  | .lineSlotStart t port => Sys2Proof.Machine.execLineSlotStart t port s
  | .shadowComparison t entry => Sys2Proof.Machine.execShadowComparison t entry s
  | .scrubCheck t => Sys2Proof.Machine.execScrubCheck t s
  | .errorScoreDecay t => Sys2Proof.Machine.execErrorScoreDecay t s
  | .rejoinAutoStart t engine => Sys2Proof.Machine.execRejoinAutoStart t engine s
  | .dramRefresh t row => Sys2Proof.Machine.execDramRefresh t row s
  | .refreshWindow t => Sys2Proof.Machine.execRefreshWindow t s
  | .arbiterRequest t arbiter request progress => Sys2Proof.Machine.execArbiterRequest t arbiter request progress s
  | .arbiterGrant t arbiter => Sys2Proof.Machine.execArbiterGrant t arbiter s
  | .requesterWithdrawal t arbiter req => Sys2Proof.Machine.execRequesterWithdrawal t arbiter req s
  | .holdExpiry t stream => Sys2Proof.Machine.execHoldExpiry t stream s
  | .referenceCut t stream => Sys2Proof.Machine.execReferenceCut t stream s
  | .epochStart t stream => Sys2Proof.Machine.execEpochStart t stream s
  | .batchAssembly t stream => Sys2Proof.Machine.execBatchAssembly t stream s
  | .weightDigestComplete t stream => Sys2Proof.Machine.execWeightDigestComplete t stream s
  | .itnTuneApprove t stream candidate => Sys2Proof.Machine.execItnTuneApprove t stream candidate s
  | .sealRejoinReq t engines => Sys2Proof.Machine.execSealRejoinReq t engines s
  | .attestationStart t ctl => Sys2Proof.Machine.execAttestationStart t ctl s
  | .attestationResponse t => Sys2Proof.Machine.execAttestationResponse t s
  | .sessionKeyPreparation t => Sys2Proof.Machine.execSessionKeyPreparation t s
  | .backgroundSlotErase t => Sys2Proof.Machine.execBackgroundSlotErase t s
  | .abort t => Sys2Proof.Machine.execAbort t s
  | .preempt t => Sys2Proof.Machine.execPreempt t s
  | .teardown t => Sys2Proof.Machine.execTeardown t s
  | .otsonReset t => Sys2Proof.Machine.execOtsonReset t s
  | .mode t => Sys2Proof.Machine.execMode t s
  | .enec t events => Sys2Proof.Machine.execEnec t events s
  | .disec t events => Sys2Proof.Machine.execDisec t events s
  | .enthdr0 t => Sys2Proof.Machine.execEnthdr0 t s
  | .rstact t defining => Sys2Proof.Machine.execRstact t defining s
  | .targetResetPattern t => Sys2Proof.Machine.execTargetResetPattern t s
  | .entdaa t address => Sys2Proof.Machine.execEntdaa t address s
  | .setdasa t static address => Sys2Proof.Machine.execSetdasa t static address s
  | .setnewda t address => Sys2Proof.Machine.execSetnewda t address s
  | .getpid t => Sys2Proof.Machine.execGetpid t s
  | .getbcr t => Sys2Proof.Machine.execGetbcr t s
  | .getdcr t => Sys2Proof.Machine.execGetdcr t s
  | .getstatus t => Sys2Proof.Machine.execGetstatus t s
  | .getmxds t => Sys2Proof.Machine.execGetmxds t s
  | .registerWrite t xfer bytes => Sys2Proof.Machine.execRegisterWrite t xfer bytes s
  | .readSetup t xfer bytes => Sys2Proof.Machine.execReadSetup t xfer bytes s
  | .privateRead t xfer => Sys2Proof.Machine.execPrivateRead t xfer s
  | .loRegisterRead t offset => Sys2Proof.Machine.execLoRegisterRead t offset s
  | .ibi t acked bytesRead => Sys2Proof.Machine.execIbi t acked bytesRead s
  | .rejoinComplete t engine facts => Sys2Proof.Machine.execRejoinComplete t engine facts s

end Sys2Proof.Machine
end

