-- ==== Sys2Proof/Safety.lean ====
section
/-! DEFINITION. What counts as a safe run, in the terms that claims use: the invariant of the block between two commands,
and what it means that nothing in the device waits. -/
namespace Sys2Proof.Machine

/-- A state with its device replaced: the queue stays. -/
def State.withDev (s : State) (d : Device) : State := { s with dev := d }

/-- Between two commands: memory is in its canonical form, every event of the last command has met the queue of the
in-band interrupts (R684), and ALERT_N is driven as R712 says. -/
def State.Inv (s : State) : Prop :=
  Memory.wf s.dev.store.mem = true ∧ s.dev.i3c.fresh = [] ∧ s.dev.pins.alertLow = s.dev.alert

/-- No unit of the device waits for anything that a command could grant: no engine's list has a pending WAIT, acquire,
remote COPY or held commit, no vision unit runs a job, and no PREEMPT request is watched. -/
def Device.Still (d : Device) : Prop :=
  (∀ e < 6, ∀ r, (d.eng e).run = some r → r.wait = none ∧ r.remote = none ∧ r.awaitShadow = false) ∧
  (∀ u < 7, (d.unit u).run = none) ∧ d.req.watch = none

/-- Engine `e` may run a list; no other engine does, no vision unit runs a job and no PREEMPT request is watched. -/
def Device.Alone (d : Device) (e : Nat) : Prop :=
  (∀ i < 6, i ≠ e → (d.eng i).run = none) ∧ (∀ u < 7, (d.unit u).run = none) ∧ d.req.watch = none

/-- A launch of an engine's entry that is bound to no stream, is no tuning entry, no compositor's, no shadow, not shadowed and no
relaunch: its end concerns its record, its context and its engine alone. -/
def Device.plainRun (d : Device) (r : Run) : Prop :=
  (∃ v, d.serveOf r.due = some v ∧ v.entry.target = 0 ∧ v.bind = none) ∧ d.tuneEntry r.due.entry = none ∧
    d.isCompositor r.ctx = false ∧ d.shadowOf r.due = none ∧ r.due.shadow = false ∧ r.due.repro = none ∧
    r.due.relaunch = false ∧ r.bind = none

/-- The head of a packet without a fault: kind 0, every block valid, every codeword correct or corrected, a header that needs no
correction and whose VC agrees with the frame's (R514 to R516, R523). -/
def headClean (h : PacketHead) : Prop :=
  h.kind = 0 ∧ h.blocksOk = true ∧ h.uncorr = 0 ∧ h.eccErrors = 0 ∧ h.headerVc.toNat = h.frameVc.toNat % 16

/-- A lane that takes packets of the render feeds: ACTIVE, role 0x20, in a device past its lock that does not replay (R499). -/
def Device.feedOpen (d : Device) (l : Fin 24) : Prop :=
  (d.phase = .running ∨ d.phase = .awaitChips) ∧ (d.rxLane l.val).state = .active ∧ (d.rxLane l.val).role = 0x20 ∧
    d.ctl.replay = false

/-- The device once a clean packet's corrected symbols are counted and, from T0, the packet has its arrival index and is mirrored
to the recorder (R497, R516, R546). -/
def Device.takePacket (d : Device) (l : Fin 24) (h : PacketHead) (p : Packet) : Device :=
  let d := d.modRx l.val (fun x => { x with corr := satAdd x.corr h.corr, uncorr := satAdd x.uncorr 0 })
  if d.phase = .running then d.recordPacket l.val (d.recordStream l.val h) h p d.now else d

/-- The list goes on at its next command (R158, R174). -/
def Run.onward (r : Run) : Run :=
  { r with
    idx := r.idx + 1, fused := (if cmdFgEnd r.cmd then false else r.fused || cmdFgStart r.cmd)
    inCmd := false, wait := none, remote := none, pos := {}, charged := {}, weights := none, failed := false, xfer := none }

/-- Engine `e` may run the command at the head of its list `r`, which is not its last, with no mark ahead of it (R461); the
launch is no shadow and has none, and discards no member's rows (R449); its command has no failed pass and no moved bytes from
before a full save. -/
def Device.atCommand (d : Device) (e : Nat) (r : Run) : Prop :=
  d.phase = .running ∧ d.ready e = some r ∧ r.idx + 1 < r.cmds.length ∧ r.due.shadow = false ∧ d.shadowOf r.due = none ∧
    (d.ctl.lockstep = false ∨ d.marksAhead r = []) ∧ d.rowsDropped r = [] ∧ r.failed = false ∧ r.xfer = none

/-- A command of `r` may touch all that it touches (R59, R60, R162), every tile that it reads passes its check (R603), and no
engine stands at its retirement threshold. -/
def Device.mayRead (d : Device) (e : Nat) (r : Run) (p : Plan) : Prop :=
  badSpan e p.copy r.footprint p.all = none ∧ (∀ k ∈ spanTiles e (p.all.filter (fun s => !s.store)), d.passes k = true) ∧
    ∀ i < 6, (d.eng i).retired = true ∨ (d.eng i).score < d.sealSt.retireThresh

/-- Engine `e` once a command of its list `r` has used `u`: 16 decode steps, unless they were made, and the command's own are
counted, charged to the context (R172, R452), but for what its instructions were charged before a full save, and the list stands
as `k` says, the engine's other fields as `g` says. -/
def Device.worked (d : Device) (e : Nat) (r : Run) (u : Use) (k : Run → Run) (g : Engine → Engine) : Device :=
  let due := u.minus r.charged
  let n := (if r.inCmd then 0 else 16) + due.steps
  ((if r.inCmd then d else d.charge r.ctx { emptySteps := 16 }).charge r.ctx due).modEng e (fun x =>
    { g x with
      run := some (k { r.begun with steps := r.steps + n, charged := r.charged.minus u })
      steps := x.steps + n, periodSteps := x.periodSteps + n
      lanes := if r.inCmd then x.lanes else some (e, x.steps) })

/-- Engine `e` once a command of its list `r` that used `u` is complete: the list goes on, one more command is done, and the
engine's accumulators and counters are as `g` leaves them. -/
def Device.stepped (d : Device) (e : Nat) (r : Run) (u : Use) (g : Engine → Engine) : Device :=
  d.worked e r u Run.onward (fun x => let y := g x; { y with regs := { y.regs with cmdsDone := satInc y.regs.cmdsDone } })

/-- The memory of `d` holds what that of `c` holds outside the runs `l`. -/
def Device.sameOutside (d c : Device) (l : List Span) : Prop :=
  ∀ a, (∀ w ∈ l, a < w.addr ∨ w.addr + w.len ≤ a) → memGet d.store.mem a = memGet c.store.mem a

/-- Vision unit `u` may run a job; no engine's list waits, no other unit runs a job and no PREEMPT request is watched. -/
def Device.VisionAlone (d : Device) (u : Nat) : Prop :=
  (∀ e < 6, ∀ r, (d.eng e).run = some r → r.wait = none ∧ r.remote = none ∧ r.awaitShadow = false) ∧
  (∀ w < 7, w ≠ u → (d.unit w).run = none) ∧ d.req.watch = none

/-- Unit `u` may run its job `r` now: its wait is satisfied (R359), nothing holds it, and its launch, which serves `v`, is no
relaunch and no stripe's. -/
def Device.jobReady (d : Device) (u : Nat) (r : VRun) (v : Serve) : Prop :=
  d.phase = .running ∧ (d.unit u).run = some r ∧ r.satisfied = true ∧ d.heldCtx r.launch.ctx (d.visionBe r.launch) = false ∧
    d.sealSt.reloads.any (fun x => x.2.1 = some (6 + u)) = false ∧ field r.job 2 1 = unitKind u ∧
    jobFormatsOk r.job r.descs = true ∧ d.serveOf r.launch.due = some v ∧ v.bind ≠ some .stripe ∧ r.launch.due.relaunch = false

/-- The job `r` of unit `u` has ended with OK after its outputs had brought memory to that of `mid` (R361): the unit is free, its job
and its pixels are counted, its last status names the context, the completion record stands in memory and no byte but the
record's differs from `mid`; the engines' lists and the contexts are as they were. -/
def State.JobEnds (s s' : State) (u : Nat) (r : VRun) (pixels : Nat) (mid : Device) : Prop :=
  s'.pending = s.pending ∧ (s'.dev.unit u).run = none ∧ (s'.dev.unit u).queue = (s.dev.unit u).queue ∧
  (s'.dev.unit u).jobs = satInc (s.dev.unit u).jobs ∧ (s'.dev.unit u).pixels = (s.dev.unit u).pixels + pixels ∧
  (s'.dev.unit u).lastStatus = word (r.launch.ctx * 256) ∧
  (∀ a, visionRecordAddr r.job = some a →
    (∀ i < 16, memGet s'.dev.store.mem (a + i) =
      (visionRecordBytes .ok u pixels (s'.dev.now / 1000) r.launch.due.count).getD i 0) ∧
    s'.dev.sameOutside mid [{ addr := a, len := 16, store := true }]) ∧
  (visionRecordAddr r.job = none → s'.dev.store.mem = mid.store.mem) ∧
  (∀ e < 6, (s'.dev.eng e).run = (s.dev.eng e).run) ∧ s'.dev.ctxs = s.dev.ctxs ∧ s'.dev.i3c = s.dev.i3c

/-- The codes of the VEC operations with their commands (Table 4.4). -/
def vecCommands : List (Nat × (Nat → Fin 6 → Instr)) :=
  [(0x01, .add), (0x02, .sub), (0x03, .mul), (0x04, .fma), (0x05, .min), (0x06, .max), (0x07, .clamp), (0x08, .affine),
   (0x10, .exp2), (0x11, .log2), (0x12, .rcp), (0x13, .rsqrt), (0x14, .sigmoid), (0x15, .tanh), (0x18, .rsum),
   (0x19, .rmax), (0x1A, .rmin), (0x1B, .softmax), (0x1C, .norm), (0x20, .cvt), (0x21, .mxq)]

/-- A run is safe when no step of it stops: `k` steps from `s` all answer a next state. -/
def State.Safe (k : Nat) (s : State) : Prop := ∃ s', Sys2Proof.core.run k s = .next s'

end Sys2Proof.Machine
end

