-- ==== Sys2Proof/Certificates/Slice0/Obligations.lean ====
section
/-! DEFINITION. The statements about the PZ616 model, for the provers. -/

section
open Sys2Proof Sys2Proof.Machine

/-! ### The queue, the stops and the reset -/

/-- A step takes the command at the front of the queue and is `exec` of it on the state with the queue's rest; a step of an
empty queue idles (DESIGN CHOICE, log 2). -/
def Obligations.StepRunsFrontCommand : Prop :=
  (∀ (c : Instr) (rest : List Instr) (s : State),
    step { s with pending := c :: rest } = exec c { s with pending := rest }) ∧
  ∀ s : State, s.pending = [] → step s = .next s

/-- No command but a forbidden RESET_N pulse stops the block, and it always does: a low pulse of at least 100 ns and below 1
µs (R706) faults, and every other command answers a next state, whatever the state. No command changes the queue of the
commands that wait behind it. -/
def Obligations.CommandsEndWithQueueKept : Prop :=
  (∀ (c : Instr) (s : State),
    (∀ t n, c = .resetNAssert t n → 100 ≤ n → n < 1000 → exec c s = .fault .resetPulseForbidden) ∧
    ((∀ t n, c = .resetNAssert t n → n < 100 ∨ 1000 ≤ n) → ∃ s', exec c s = .next s')) ∧
  (∀ (c : Instr) (s s' : State), exec c s = .next s' → s'.pending = s.pending)

/-- Between two commands memory is canonical, every event has met the interrupt queue and ALERT_N is low exactly where R712
says: every step keeps it. -/
def Obligations.StepKeepsInvariant : Prop :=
  ∀ s s' : State, s.Inv → step s = .next s' → s'.Inv

/-- The state after reset is in the invariant, its queue is empty, and it holds the reset values that the register tables
give: CTL_IBI_MASK, THERM_HOLD, THERM_TRIP by ordered code, TOLL_CAP, TOLL_BE_PCT, every budget, SEAL_RETIRE_THRESH,
SEAL_REJOIN_CTL and BOOT_STATUS. -/
def Obligations.ResetValues : Prop :=
  State.reset.Inv ∧ State.reset.pending = [] ∧ State.reset.dev.now = 0 ∧ State.reset.dev.phase = .preLock ∧
  State.reset.dev.i3c.mask = 0x7FF ∧ State.reset.dev.i3c.enint = false ∧
  State.reset.dev.therm.holdAt = (if Config.orderedXS then 0x690 else 0x5F0) ∧
  State.reset.dev.therm.tripAt = (if Config.orderedXS then 0x780 else 0x6E0) ∧
  State.reset.dev.toll.cap = 600 ∧ State.reset.dev.toll.bePct = 80 ∧
  (∀ m < 73, ∀ q < 4, vget (vget State.reset.dev.toll.meters m .reset).budget q 0 = 0xFFFFFFFF) ∧
  State.reset.dev.sealSt.retireThresh = 16 ∧ State.reset.dev.sealSt.rejoinCtl = 0x0A00 ∧
  State.reset.dev.boot.failIndex = 0x3FF ∧ State.reset.dev.boot.cause = 0 ∧
  (∀ n < 24, (State.reset.dev.txLane n).state = .dark ∧ (State.reset.dev.rxLane n).state = .dark)

/-! ### Memory and seals -/

/-- A write of bytes at an address makes exactly those bytes read back there, leaves every other byte, and keeps memory
canonical. -/
def Obligations.WriteThenRead : Prop :=
  ∀ (d : Device) (a : Nat) (bs : List Byte), Memory.wf d.store.mem = true →
    (∀ i < bs.length, memGet (d.write a bs).store.mem (a + i) = bs.getD i 0) ∧
    (∀ x, x < a ∨ a + bs.length ≤ x → memGet (d.write a bs).store.mem x = memGet d.store.mem x) ∧
    Memory.wf (d.write a bs).store.mem = true

/-- R600 agrees with R595: a tile whose stored seal agrees with its words in its domain's generation still agrees after any
write, full or partial, over any number of tiles. R600: a write that covers all 4,096 words of a tile sets its seal from the
words written, whatever the seal was. -/
def Obligations.WritesKeepSeals : Prop :=
  (∀ (d : Device) (a : Nat) (bs : List Byte) (k : Nat), Memory.wf d.store.mem = true →
    d.sealed (k * tileBytes) = true → (d.write a bs).sealed (k * tileBytes) = true) ∧
  (∀ (d : Device) (k : Nat) (bs : List Byte), Memory.wf d.store.mem = true → bs.length = tileBytes →
    (d.write (k * tileBytes) bs).sealed (k * tileBytes) = true)

/-! ### Pins, supplies, clock and time -/

/-- R706, R634 and R637. A RESET_N low pulse below 100 ns changes nothing but time; one of at least 1 µs resets the device: of all
state only the NOR and the power-up state of the PUF cells stay (with the model's count of free values, log 4), the xSPI pins
float, and while PWR_OK is low the device stays off; one between the two, which must not be driven, stops the block. R710 and
R634. A falling PWR_OK acts as a reset from any state: of all state only the NOR stays, every laser is off, the xSPI pins float,
and the PUF cells are powered up anew (Table 15.13). -/
def Obligations.ResetsKeepOnlyNor : Prop :=
  (∀ (t n : Nat) (s : State), s.Inv →
    (n < 100 → exec (.resetNAssert t n) s = .next (s.withDev (s.dev.atTime t))) ∧
    (100 ≤ n → n < 1000 → exec (.resetNAssert t n) s = .fault .resetPulseForbidden) ∧
    (1000 ≤ n → exec (.resetNAssert t n) s = .next (s.withDev (
      let d := Device.reset s.dev.store.nor s.dev.pins.powerUp s.dev.store.freeCtr
      { d with phase := if s.dev.phase = .off then .off else .preLock, pins := { d.pins with xspiFloating := true } })))) ∧
  (∀ (t : Nat) (s : State),
    exec (.pwrOkFall t) s = .next (s.withDev (
      let d := Device.reset s.dev.store.nor (s.dev.pins.powerUp + 1) s.dev.store.freeCtr
      { d with phase := .off, pins := { d.pins with lasersOn := false, xspiFloating := true } })))

/-- R714. A reference clock that is absent for more than 200 ns in an alive device turns the lasers off, makes the device
inert with BOOT_CAUSE unchanged, sets CLK_LOST, drives ALERT_N low and queues event 0x1A with ARG0 4 last of all, unless a
trip or an earlier loss has queued one. Memory, the engines' registers, the contexts and the itinerary stay; an absence of at
most 200 ns changes nothing but time. R722. A sensor whose temperature has reached THERM_TRIP makes an alive device inert with
its lasers off, sets TRIP, drives ALERT_N low and queues event 0x1A with ARG0 5, unless a trip or a clock loss has queued one; the
event of a clock loss at this same instant takes ARG0 5 instead (Table 17.12); the sensor's reading and the peak are kept, and memory, contexts and itinerary stay. A temperature below THERM_TRIP changes
nothing but time. -/
def Obligations.ShutdownsMakeInert : Prop :=
  (∀ (t n : Nat) (s : State), s.Inv → s.dev.phase ≠ .off →
    (n ≤ 200 → exec (.refclkLoss t n) s = .next (s.withDev (s.dev.atTime t))) ∧
    (200 < n → s.dev.i3c.queue.length < 32 →
      ∃ s', exec (.refclkLoss t n) s = .next s' ∧ s'.pending = s.pending ∧
        s'.dev.phase = .inert ∧ (s.dev.phase ≠ .inert → s'.dev.pins.lasersOn = false) ∧ s'.dev.pins.alertLow = true ∧
        s'.dev.therm = { s.dev.therm with clkLost := true } ∧ s'.dev.boot = s.dev.boot ∧
        s'.dev.i3c.queue = (if s.dev.therm.trip ∨ s.dev.therm.clkLost then s.dev.i3c.queue
          else eventsInOrder (max s.dev.now t) (s.dev.i3c.queue ++
            [{ event := .fatal, seq := s.dev.i3c.seq % 256, arg0 := 4, arg1 := 0, arg2 := 0, at_ := some (max s.dev.now t) }])) ∧
        (s.dev.phase ≠ .inert → ∀ l < 24, (s'.dev.txLane l).state = .dark) ∧
        s'.dev.store = s.dev.store ∧ s'.dev.ctxs = s.dev.ctxs ∧ s'.dev.itn = s.dev.itn ∧ s'.dev.toll = s.dev.toll ∧
        s'.dev.ctl = s.dev.ctl ∧ (∀ e < 6, (s'.dev.eng e).regs = (s.dev.eng e).regs))) ∧
  (∀ (t : Nat) (x : Fin 16) (temp : Int) (s : State), s.Inv → s.dev.phase ≠ .off →
    (temp < signed16 s.dev.therm.tripAt →
      exec (.thermalTrip t x temp) s = .next (s.withDev (s.dev.atTime t))) ∧
    (signed16 s.dev.therm.tripAt ≤ temp → s.dev.i3c.queue.length < 32 →
      ∃ s', exec (.thermalTrip t x temp) s = .next s' ∧ s'.pending = s.pending ∧
        s'.dev.phase = .inert ∧ (s.dev.phase ≠ .inert → s'.dev.pins.lasersOn = false) ∧ s'.dev.pins.alertLow = true ∧
        s'.dev.therm.trip = true ∧ s'.dev.therm.clkLost = s.dev.therm.clkLost ∧
        vget s'.dev.therm.sensors x.val 0 = temp ∧ temp ≤ s'.dev.therm.tj ∧ (∃ p, s'.dev.therm.peak = some p ∧ temp ≤ p ∧ ∀ q, s.dev.therm.peak = some q → q ≤ p) ∧
        s'.dev.i3c.queue = (if s.dev.therm.trip then s.dev.i3c.queue
          else if s.dev.therm.clkLost then s.dev.i3c.queue.map (fun (y : IbiEvent) =>
            if y.event = .fatal ∧ y.arg0 = 4 ∧ y.at_ = some (max s.dev.now t) then { y with arg0 := 5 } else y)
          else eventsInOrder (max s.dev.now t) (s.dev.i3c.queue ++
            [{ event := .fatal, seq := s.dev.i3c.seq % 256, arg0 := 5, arg1 := 0, arg2 := 0, at_ := some (max s.dev.now t) }])) ∧
        (s.dev.phase ≠ .inert → ∀ l < 24, (s'.dev.txLane l).state = .dark) ∧
        s'.dev.store = s.dev.store ∧ s'.dev.ctxs = s.dev.ctxs ∧ s'.dev.itn = s.dev.itn ∧ s'.dev.boot = s.dev.boot ∧
        (∀ e < 6, (s'.dev.eng e).regs = (s.dev.eng e).regs)))

/-- R50 and Table 17.5. A rising edge of TIME_PPS captures the time base and changes nothing else; one that follows the last
captured edge by less than 10 ms is only counted. -/
def Obligations.PpsEdge : Prop :=
  ∀ (t : Nat) (s : State), s.Inv → s.dev.phase ≠ .off →
    (s.dev.ctl.pps.any (fun last => decide (max s.dev.now t < last + 10000000)) = true →
      exec (.timePpsEdge t) s = .next (s.withDev { s.dev.atTime t with therm := { s.dev.therm with ppsIgnored := satInc s.dev.therm.ppsIgnored } })) ∧
    (s.dev.ctl.pps.any (fun last => decide (max s.dev.now t < last + 10000000)) = false →
      exec (.timePpsEdge t) s = .next (s.withDev { s.dev.atTime t with ctl := { s.dev.ctl with pps := some (max s.dev.now t) } }))

/-! ### Lanes -/

/-- R519, Table 12.4. A receive lane goes from DARK to CW_SEARCH with light, from there to SF_SEARCH at codeword lock, and
from there to ACTIVE at superframe lock; each changes that lane's state and nothing else (the lane carries no Otson role, and
the pairs already stand as their lanes tell). R520, Table 12.4. A loss takes the lane to CW_SEARCH, or with the light to DARK;
a loss of ACTIVE is counted (and with one that is no loss of light up to 8 uncorrectable codewords, whose number is free: R516,
log 65). With no container open on the lane nothing else changes; with any, none is left open on it. A
loss of light outside ACTIVE is not counted. R518, R521. A transmit lane moves from TRAIN to RUN once it has trained for 100
µs, an Otson lane only when its receive lane is ACTIVE, and nothing else changes; otherwise it stays as it is. R656, R540. The
lane that completes order 11 of Table 15.8 sets BOOT_STATUS to it, and where the neighbours have agreed within 500 ms it brings T0
at this instant. -/
def Obligations.LanesTrainAndSearch : Prop :=
  (∀ (t : Nat) (l : Fin 24) (s : State), s.Inv → s.dev.Still → s.dev.phase ≠ .off → s.dev.phase ≠ .inert →
    (∀ east, (s.dev.ots.pair east).up = s.dev.pairSees east) → isOtson (s.dev.rxLane l.val).role = false →
    ((s.dev.rxLane l.val).state = .dark → exec (.lightPresent t l) s =
      .next (s.withDev ((s.dev.atTime t).modRx l.val (fun x => { x with state := .cwSearch })))) ∧
    ((s.dev.rxLane l.val).state = .cwSearch → exec (.codewordLock t l) s =
      .next (s.withDev ((s.dev.atTime t).modRx l.val (fun x => { x with state := .sfSearch })))) ∧
    ((s.dev.rxLane l.val).state = .sfSearch → exec (.superframeLock t l) s =
      .next (s.withDev ((s.dev.atTime t).modRx l.val (fun x => { x with state := .active }))))) ∧
  (∀ (t : Nat) (l : Fin 24) (s : State), s.Inv → s.dev.Still → s.dev.phase ≠ .off → s.dev.phase ≠ .inert →
    (∀ east, (s.dev.ots.pair east).up = s.dev.pairSees east) → isOtson (s.dev.rxLane l.val).role = false →
    ((s.dev.rxLane l.val).state = .active → (∀ c ∈ s.dev.lanes.open_, c.lane ≠ l) →
      (∃ n f, n ≤ 8 ∧ exec (.lossOfActive t l) s = .next (s.withDev ((s.dev.atTime t).setFree f |>.modRx l.val
        (fun x => { x with state := .cwSearch, loss := satInc x.loss, farRx := 0, uncorr := satAdd x.uncorr n })))) ∧
      exec (.lossOfLight t l) s = .next (s.withDev ((s.dev.atTime t).modRx l.val
        (fun x => { x with state := .dark, loss := satInc x.loss, farRx := 0 })))) ∧
    ((s.dev.rxLane l.val).state = .active →
      ∃ s', exec (.lossOfActive t l) s = .next s' ∧ (s'.dev.rxLane l.val).state = .cwSearch ∧
        (s'.dev.rxLane l.val).loss = satInc (s.dev.rxLane l.val).loss ∧ ∀ c ∈ s'.dev.lanes.open_, c.lane ≠ l) ∧
    ((s.dev.rxLane l.val).state ≠ .active → exec (.lossOfLight t l) s =
      .next (s.withDev ((s.dev.atTime t).modRx l.val (fun x => { x with state := .dark }))))) ∧
  (∀ (t : Nat) (l : Fin 24) (s : State), s.Inv → s.dev.Still → s.dev.phase ≠ .off → s.dev.phase ≠ .inert →
    let x := s.dev.txLane l.val
    let go := x.state = .train ∧ x.since + 100000 ≤ max s.dev.now t ∧
      (isOtson x.role = false ∨ (s.dev.rxLane l.val).state = .active)
    let d := (s.dev.atTime t).modTx l.val (fun y => { y with state := .run, since := max s.dev.now t })
    (go → s.dev.phase ≠ .awaitChips ∨ d.lanesRun = false → exec (.trainToRun t l) s = .next (s.withDev d)) ∧
    (go → s.dev.phase = .awaitChips → d.lanesRun = true →
      (s.dev.bothAgree = false → exec (.trainToRun t l) s = .next (s.withDev { d with boot := { d.boot with order := 11 } })) ∧
      (s.dev.bothAgree = true → max s.dev.now t ≤ s.dev.ots.enabledAt + 500000000 →
        ∃ s', exec (.trainToRun t l) s = .next s' ∧ s'.pending = s.pending ∧ s'.dev.phase = .running ∧ s'.dev.boot.order = 12 ∧
          s'.dev.itn.t0 = some (max s.dev.now t) ∧ s'.dev.ctl.chips = s.dev.ringSize ∧
          (s'.dev.txLane l.val).state = .run)) ∧
    (¬ go → exec (.trainToRun t l) s = .next (s.withDev (s.dev.atTime t))))

/-- R521, R543, Table 12.2. An ALIGN block on an ACTIVE lane tells the far side's transmit state; on an Otson lane of a pair
that is up and stays so it also returns the credits of byte 7 to that lane, and the lane's own block returns up to 255 of those it owes (at this instant, the
model's choice of log 65); nothing else changes. -/
def Obligations.AlignBlock : Prop :=
  ∀ (t : Nat) (l : Fin 24) (ftx frx : BitVec 3) (cr : Byte) (s : State), s.Inv → s.dev.Still → s.dev.phase ≠ .off →
    s.dev.phase ≠ .inert → (s.dev.rxLane l.val).state = .active →
    (isOtson (s.dev.rxLane l.val).role = false → exec (.alignBlock t l ftx frx cr) s =
      .next (s.withDev ((s.dev.atTime t).modRx l.val (fun x => { x with farTx := ftx })))) ∧
    (isOtson (s.dev.rxLane l.val).role = true → frx = 3 → 16 ≤ l.val → l.val < 20 →
      (∀ east, (s.dev.ots.pair east).up = s.dev.pairSees east) → (s.dev.ots.pair (decide (l.val < 18))).up = true →
      exec (.alignBlock t l ftx frx cr) s = .next (s.withDev (((s.dev.atTime t).modRx l.val (fun x => { x with farTx := ftx, farRx := frx })).modOts (fun o =>
          o.modPair (decide (l.val < 18)) (fun p =>
            { p with
              credits := vmod p.credits (l.val % 2) (· + cr.toNat)
              owed := vmod p.owed (l.val % 2) (· - min 255 (vget p.owed (l.val % 2) 0))
              returned := vset p.returned (l.val % 2) (BitVec.ofNat 8 (min 255 (vget p.owed (l.val % 2) 0))) })))))

/-! ### Containers and replay -/

/-- R526. A Frame Start of a known VC with no container open on it opens one with the packet's data, and the packet is counted
and mirrored (`takePacket`); nothing else changes. Order 5 of Table 12.10 and R538. A container of a command or an anchor open
for 100 ms is rejected with TIMEOUT: it is dead, its buffer is free, one rejected input is counted, LANE_LAST_REJECT names the
status, order and lane (its stream field is free for an input of no stream, log 48), and event 0x17 is queued unless it is
masked. Memory stays. -/
def Obligations.ContainersOpenAndTimeOut : Prop :=
  (∀ (t : Nat) (l : Fin 24) (h : PacketHead) (data : BitVec 16) (s : State), s.Inv → s.dev.Still → s.dev.feedOpen l →
    headClean h → (h.frameVc.toNat = 31 ∨ (s.dev.inputAt l.val h.frameVc.toNat).isSome = true) →
    s.dev.openAt l.val h.frameVc.toNat = none →
    exec (.frameStartPacket t l h data) s = .next (s.withDev (((s.dev.atTime t).takePacket l h (.frameStart data.toNat)).putContainer
        { lane := l, vc := h.frameVc.toNat,
          stream := if h.frameVc.toNat = 31 then none else (s.dev.inputAt l.val h.frameVc.toNat).map (·.stream),
          fsData := data.toNat, openedAt := max s.dev.now t, dt := none, bytes := [], packets := 0, header := [], buf := none,
          opened := false, badLines := [], dead := false }))) ∧
  (∀ (t : Nat) (l : Fin 24) (vc : BitVec 5) (c : Container) (s : State), s.Inv → s.dev.Still →
    (s.dev.phase = .running ∨ s.dev.phase = .awaitChips) → s.dev.openAt l.val vc.toNat = some c → c.dead = false →
    c.lane = l → c.vc = vc.toNat → c.dt ≠ some 0x31 → c.dt ≠ some 0x32 → c.openedAt + 100000000 ≤ max s.dev.now t →
    s.dev.i3c.queue.length < 32 →
    ∃ s', exec (.containerTimeout t l vc) s = .next s' ∧ s'.pending = s.pending ∧
      s'.dev.openAt l.val vc.toNat = some { c with dead := true, buf := none, bytes := [] } ∧
      s'.dev.lanes.rejected = satInc s.dev.lanes.rejected ∧ s'.dev.lanes.rx = s.dev.lanes.rx ∧
      (∃ free, s'.dev.lanes.lastReject = Reject.word
        { status := .timeout, order := 5, container := containerKind c.dt, stream := c.stream, lane := l.val, tag := c.tag } free) ∧
      s'.dev.i3c.queue = eventsInOrder (max s.dev.now t) (s.dev.i3c.queue ++ (if s.dev.i3c.mask.getLsbD 7 then
        [{ event := .inputRejected, seq := s.dev.i3c.seq % 256, arg0 := c.stream.getD 0xFF % 256, arg1 := 5,
           arg2 := c.tag % 2 ^ 32, at_ := some (max s.dev.now t) }] else [])) ∧
      s'.dev.store.mem = s.dev.store.mem ∧ (c.stream.isSome = true → s'.dev.store = s.dev.store) ∧ s'.dev.itn = s.dev.itn ∧ s'.dev.ne = s.dev.ne)

/-- R526, R528, R533 to R535, Table 12.10. Every long packet completes, in every state, and takes nothing from the queue. On a
clean lane, with a good CRC, the long packet of a container that has been open for less than 100 ms does this. That of a command container that passes orders 6 and
10 is kept for its Frame End. The header packet of an image container that passes orders 6 to 9 is kept with the receive buffer
it claims and stands at the buffer's base. A payload packet of an image container, of the right length and decodable, writes its
rows where R533 unpacks them and is counted in the container; memory elsewhere stays. A later packet of a geometry container is
counted and kept, whether or not its set still stands. -/
def Obligations.LongPacketJoins : Prop :=
  (∀ (t : Nat) (l : Fin 24) (h : PacketHead) (dt : BitVec 6) (payload : List Byte) (crcOk : Bool) (s : State),
    ∃ s', exec (.longPacket t l h dt payload crcOk) s = .next s' ∧ s'.pending = s.pending ∧ s'.dev.now = max s.dev.now t) ∧
  ∀ (t : Nat) (l : Fin 24) (h : PacketHead) (dt : BitVec 6) (payload : List Byte) (c : Container) (s : State), s.Inv →
    s.dev.Still → s.dev.feedOpen l → headClean h → payload.length < 65536 →
    s.dev.openAt l.val h.frameVc.toNat = some c → c.dead = false → max s.dev.now t < c.openedAt + 100000000 →
    let d := (s.dev.atTime t).takePacket l h (.long dt.toNat payload true)
    let kept : Container := { c with packets := c.packets + 1, bytes := c.bytes ++ payload }
    (h.frameVc.toNat = 31 → dt = 0x33 → c.dt = none → c.packets = 0 → payload.length = 64 → field payload 0 2 = 1 →
      field payload 2 2 = 0 → c.fsData = field payload 4 4 % 2 ^ 16 → modeShape (payload.drop 8) = true →
      exec (.longPacket t l h dt payload true) s = .next (s.withDev (d.putContainer { c with dt := some 0x33, header := payload, bytes := payload, packets := 1 }))) ∧
    (∀ (r : InputRec) (buf : Option (Fin 2)), h.frameVc.toNat ≠ 31 → dt = 0x30 ∨ dt = 0x32 →
      s.dev.inputAt l.val h.frameVc.toNat = some r → c.dt = none → c.header = [] →
      let head : Container := { c with dt := some dt.toNat, header := payload, bytes := payload, buf := buf }
      d.checkHeader r { c with dt := some dt.toNat, header := payload, bytes := payload } (dt = 0x32) d.now payload = .ok buf →
      exec (.longPacket t l h dt payload true) s =
        .next (s.withDev ((d.putContainer head).laneWrite (match buf with | some b => vget r.rxBase b.val 0 | none => r.refBase) payload))) ∧
    (∀ (r : InputRec) (rows : List (Nat × Nat × List Nat)), h.frameVc.toNat ≠ 31 → dt = 0x30 ∨ dt = 0x32 →
      s.dev.inputAt l.val h.frameVc.toNat = some r → c.dt = some dt.toNat → c.header.length = 128 →
      c.packets < packetCount (hdrFormat c.header) (hdrComp c.header) (hdrChannels c.header) (hdrHeight c.header) →
      lengthOk (hdrFormat c.header) (hdrComp c.header) (hdrWidth c.header) payload.length = true →
      packetRows c.header c.packets payload = some rows →
      ∃ s', exec (.longPacket t l h dt payload true) s = .next s' ∧ s'.pending = s.pending ∧
        s'.dev.store = (d.putLines (c.base r) c.header rows).store ∧ s'.dev.openAt l.val h.frameVc.toNat = some kept ∧
        s'.dev.streams = s.dev.streams ∧ s'.dev.itn = s.dev.itn ∧ s'.dev.ne = s.dev.ne ∧ s'.dev.i3c = s.dev.i3c) ∧
    (∀ (r : InputRec) (b : Fin 2), h.frameVc.toNat ≠ 31 → dt = 0x30 → s.dev.inputAt l.val h.frameVc.toNat = some r →
      c.dt = some 0x30 → c.header.length = 128 → hdrComp c.header = 0 → c.buf = some b →
      c.packets < packetCount (hdrFormat c.header) 0 (hdrChannels c.header) (hdrHeight c.header) →
      payload.length = lineBytes (hdrFormat c.header) (hdrWidth c.header) →
      ∃ s' rows, exec (.longPacket t l h dt payload true) s = .next s' ∧ s'.pending = s.pending ∧
        packetRows c.header c.packets payload = some rows ∧
        s'.dev.store = (d.putLines (vget r.rxBase b.val 0) c.header rows).store ∧
        s'.dev.openAt l.val h.frameVc.toNat = some kept ∧
        s'.dev.streams = s.dev.streams ∧ s'.dev.itn = s.dev.itn ∧ s'.dev.ne = s.dev.ne ∧ s'.dev.i3c = s.dev.i3c) ∧
    (∀ (r : InputRec), h.frameVc.toNat ≠ 31 → dt = 0x31 → s.dev.inputAt l.val h.frameVc.toNat = some r →
      c.dt = some 0x31 → 0 < c.packets → payload ≠ [] →
      (c.opened = false → exec (.longPacket t l h dt payload true) s = .next (s.withDev (d.putContainer kept))) ∧
      (c.opened = true → ∃ s' o, exec (.longPacket t l h dt payload true) s = .next s' ∧ s'.pending = s.pending ∧
        s'.dev.openAt l.val h.frameVc.toNat = some { kept with opened := o }))

/-- R22, R282, order 11 of Table 12.10. The Frame End of a complete anchor that has been open for less than 100 ms, whose slot
has not started and whose tag is new accepts it: it is held with its stamp, buffer, digest, render time, pose and user bytes, the container closes, the acceptance
is counted, and nothing else changes. R33 and Table 12.14. At the decision time of the slot decided last, with no list waiting or
running, that slot is selected again with the anchor among those on time. -/
def Obligations.FrameEndAcceptsAnchor : Prop :=
  ∀ (t : Nat) (l : Fin 24) (h : PacketHead) (data : BitVec 16) (c : Container) (x n : Nat) (b : Fin 2) (s : State), s.Inv →
    s.dev.Still → s.dev.feedOpen l → headClean h → h.frameVc.toNat ≠ 31 →
    (s.dev.inputAt l.val h.frameVc.toNat).isSome = true → s.dev.openAt l.val h.frameVc.toNat = some c → c.dead = false →
    max s.dev.now t < c.openedAt + 100000000 →
    c.lane = l → c.vc = h.frameVc.toNat → c.stream = some x → x < 32 → c.dt = some 0x30 → c.buf = some b → c.complete = true →
    c.fsData = data.toNat → (s.dev.atTime t).unwrap x c.tag = some n →
    (s.dev.atTime t).slotPassed x n (max s.dev.now t) = false → (s.dev.strm x).tags.contains n = false →
    (s.dev.strm x).held.any (fun a => a.tag = n) = false → (s.dev.strm x).inUse.any (fun a => a.tag = n) = false →
    let d := (((((s.dev.atTime t).takePacket l h (.frameEnd data.toNat)).dropContainer l.val h.frameVc.toNat).countAccept x)).modStrm x
      (fun y =>
        { y with
          held := y.held ++
            [{ tag := n, stamp := max s.dev.now t, buf := b, digest := shake c.bytes, renderTime := (c.header.drop 24).take 8,
               pose := (c.header.drop 32).take 28, user := (c.header.drop 64).take 64 }]
          everAccepted := true, tags := (n :: y.tags).take 4 })
    let decides (m : Nat) : Prop := (s.dev.strm x).decided = m + 1 ∧ ((max s.dev.now t : Nat) : Int) = s.dev.decisionTime x m
    ((∀ m, ¬ decides m) → exec (.frameEndPacket t l h data) s = .next (s.withDev d)) ∧
    (∀ m, decides m → s.dev.hasSsb x = true → s.dev.allDues = [] → s.dev.allRuns = [] →
      ∃ s', exec (.frameEndPacket t l h data) s = .next s' ∧ s'.pending = s.pending ∧
        (s'.dev.strm x).selected = d.usableAnchor x m ∧ (s'.dev.strm x).decided = m + 1 ∧ s'.dev.store = d.store ∧ s'.dev.ne = s.dev.ne)

/-- R547. A whole packet record that arrives on an ACTIVE replay lane while the replay ring has room is held with its header
fields and its instant of arrival; nothing else changes. R500. One that comes after its release time, with no packet of its stream
held that goes first, is not held: it meets the input path at once with its recorded stamp and is counted in CTL_REPLAY_LATE.
R499 and R500. At T0 plus its recorded relative stamp, the first
packet of its stream leaves the replay ring and meets the input path with that stamp; one that had not arrived in time is
counted in CTL_REPLAY_LATE. Before that instant, or while an earlier packet of its stream is held, it stays. -/
def Obligations.ReplayHoldsAndReleases : Prop :=
  (∀ (t : Nat) (l : Fin 24) (b : List Byte) (s : State), s.Inv → s.dev.Still →
    (s.dev.phase = .running ∨ s.dev.phase = .awaitChips) → s.dev.ctl.replay = true → (s.dev.rxLane l.val).state = .active →
    (s.dev.rxLane l.val).role = 0x41 → replayWhole b = true → field b 0 1 = 0 →
    s.dev.recorder.replayUsed + b.length ≤ s.dev.image.recBytes →
    let x : ReplayRec :=
      { lane := field b 1 1, stream := field b 2 1, flags := b.getD 3 0, index := field b 4 4, stamp := sfield b 8 8,
        seq := field b 20 4, body := (b.drop 24).take (field b 16 4), arrived := max s.dev.now t }
    let late := s.dev.phase = .running ∧ s.dev.t0 + x.stamp.toNat < max s.dev.now t ∧
      ∀ y ∈ s.dev.recorder.replay, y.stream = x.stream → x.index ≤ y.index
    (¬ late → exec (.replayRecordArrival t l b) s = .next (s.withDev ((s.dev.atTime t).modRec (fun r =>
      { r with replay := r.replay ++ [x], replayUsed := r.replayUsed + b.length })))) ∧
    (late → x.lane < 24 → 4 ≤ x.body.length →
      let d := s.dev.atTime t
      let counted : Device :=
        { d with ctl := { d.ctl with replayLate := satInc d.ctl.replayLate, controlFree := satInc d.ctl.controlFree } }
      exec (.replayRecordArrival t l b) s = .next (s.withDev ((counted.packetIn (Fin.ofNat 24 x.lane)
        ((s.dev.t0 : Int) + x.stamp).toNat (counted.replayPacket x).1 (counted.replayPacket x).2).pump.settle)))) ∧
  (∀ (t : Nat) (x : ReplayRec) (s : State), s.Inv → s.dev.Still → s.dev.phase = .running → s.dev.ctl.replay = true →
    s.dev.recorder.replay.find? (fun y => y.seq = x.seq) = some x → x.lane < 24 → 4 ≤ x.body.length →
    s.dev.itn.t0.isSome = true →
    let first := ∀ y ∈ s.dev.recorder.replay, y.stream = x.stream → x.index ≤ y.index
    let gone : Device := (s.dev.atTime t).modRec (fun r => { r with
      replay := r.replay.filter (fun y => y.seq ≠ x.seq), replayUsed := r.replayUsed - (28 + x.body.length) })
    let counted : Device := if s.dev.t0 + x.stamp.toNat < x.arrived then
        { gone with ctl := { gone.ctl with
            replayLate := satInc gone.ctl.replayLate, controlFree := satInc gone.ctl.controlFree } }
      else gone
    (first → s.dev.t0 + x.stamp.toNat ≤ max s.dev.now t →
      exec (.replayedPacketRelease t x.seq) s = .next (s.withDev ((counted.packetIn (Fin.ofNat 24 x.lane) ((s.dev.t0 : Int) + x.stamp).toNat (counted.replayPacket x).1
          (counted.replayPacket x).2).pump.settle))) ∧
    (¬ first ∨ max s.dev.now t < s.dev.t0 + x.stamp.toNat →
      exec (.replayedPacketRelease t x.seq) s = .next (s.withDev (s.dev.atTime t))))

/-! ### The Otson link -/

/-- R540. Before T0, a HELLO that makes both neighbours agree on N, digest and positions within 500 ms of lane enable fixes
the chip count at N, once order 11 of Table 15.8 is complete, every lane that is no Otson lane sending: the itinerary starts at
cycle 0 with T0 at this instant; one that leaves them without agreement, or that comes before order 11, is only noted. R540.
When 500 ms pass since lane enable without agreement, likewise after order 11, the chip count is 1, RING_FAIL is set, the itinerary starts
with T0 at this instant, and event 0x1A with ARG0 2 is queued first; before that instant nothing but time changes. -/
def Obligations.HelloEndsWait : Prop :=
  (∀ (t : Nat) (east : Bool) (frame : List Byte) (s : State), s.Inv → s.dev.Still → s.dev.phase = .awaitChips →
    (s.dev.ots.pair east).up = true → field frame 0 1 = 0 → otsCrcOk frame = true →
    (otsHeadOf frame).dst = s.dev.ringPos → (otsHeadOf frame).hops ≤ 2 →
    let x := (field (otsData frame) 0 1, field (otsData frame) 1 1, ((otsData frame).drop 32).take 32)
    let agree := s.dev.helloAgrees east x = true ∧ (s.dev.ots.pair (!east)).hello.any (s.dev.helloAgrees (!east)) = true
    (agree → s.dev.lanesRun = true → max s.dev.now t ≤ s.dev.ots.enabledAt + 500000000 →
      ∃ s', exec (.hello t east frame) s = .next s' ∧ s'.pending = s.pending ∧ s'.dev.phase = .running ∧
        s'.dev.ctl.chips = s.dev.ringSize ∧ s'.dev.itn.t0 = some (max s.dev.now t) ∧ s'.dev.itn.k = 0 ∧
        s'.dev.ots.ringFail = s.dev.ots.ringFail ∧ (s'.dev.ots.pair east).hello = some x ∧
        s'.dev.ots.rxFrames = satInc s.dev.ots.rxFrames ∧ s'.dev.store = s.dev.store) ∧
    (¬ agree ∨ s.dev.lanesRun = false → exec (.hello t east frame) s = .next (s.withDev (((s.dev.atTime t).landFrame east frame).modOts (fun o =>
      ({ o with rxFrames := satInc o.rxFrames } : Otson).modPair east (fun p => { p with hello := some x })))))) ∧
  (∀ (t : Nat) (s : State), s.Inv → s.dev.Still → s.dev.phase = .awaitChips →
    (s.dev.ots.enabledAt + 500000000 ≤ max s.dev.now t → s.dev.lanesRun = true → s.dev.boot.unrepaired = 0 → s.dev.i3c.queue.length < 32 →
      ∃ s', exec (.helloTimeout t) s = .next s' ∧ s'.pending = s.pending ∧ s'.dev.phase = .running ∧ s'.dev.ctl.chips = 1 ∧
        s'.dev.ots = { s.dev.ots with ringFail := true } ∧ s'.dev.itn.t0 = some (max s.dev.now t) ∧ s'.dev.itn.k = 0 ∧
        s'.dev.itn.active = 0 ∧ s'.dev.store = s.dev.store ∧
        s'.dev.i3c.queue = eventsInOrder (max s.dev.now t) (s.dev.i3c.queue ++
          [{ event := .fatal, seq := s.dev.i3c.seq % 256, arg0 := 2, arg1 := 0, arg2 := 0, at_ := some (max s.dev.now t) }])) ∧
    (max s.dev.now t < s.dev.ots.enabledAt + 500000000 ∨ s.dev.lanesRun = false →
      exec (.helloTimeout t) s = .next (s.withDev (s.dev.atTime t))))

/-- R542. An intact READ_REQ for this device is answered on the pair it came by: with the bytes and OK when the range lies in
the Well or stack DRAM and every tile of it passes its check, with UNSUPPORTED and no bytes when it does not lie there.
Memory, its seals and every engine stay. R464. An intact READ_RESP with status OK for a live request lands in the waystation
tile of its credit, when it comes within 2 ms of its request (R465): partition, credit and bytes are held, the bytes are charged
to the device meter, and nothing else changes while no COPY waits on an engine. A response with an older EPOCH is discarded
(R544). -/
def Obligations.ReadsServedAndLanded : Prop :=
  (∀ (t : Nat) (east : Bool) (frame : List Byte) (s : State), s.Inv → s.dev.Still → s.dev.phase = .running →
    (s.dev.ots.pair east).up = true → field frame 0 1 = 1 → otsCrcOk frame = true →
    (otsHeadOf frame).dst = s.dev.ringPos → (otsHeadOf frame).hops ≤ 2 →
    let h := otsHeadOf frame
    let inside := 1 ≤ h.len ∧ h.len ≤ tileBytes ∧
      ((regionOf h.addr = .dram ∧ regionOf (h.addr + h.len - 1) = .dram) ∨
       (regionOf h.addr = .well ∧ regionOf (h.addr + h.len - 1) = .well))
    let answer (st : Status) (data : List Byte) : List Byte :=
      otsFrame { h with type := 2, src := s.dev.ringPos, dst := h.src, status := statusCode st, hops := 0,
                        epoch := (s.dev.ots.pair east).epoch.toNat } data
    let sent (s' : State) (f : List Byte) : Prop :=
      exec (.readReq t east frame) s = .next s' ∧ s'.pending = s.pending ∧
      (s'.dev.ots.pair east).sendQ = (s.dev.ots.pair east).sendQ ++ [f] ∧ s'.dev.ots.rxFrames = satInc s.dev.ots.rxFrames ∧
      s'.dev.store = s.dev.store ∧ s'.dev.ne = s.dev.ne ∧ s'.dev.itn = s.dev.itn ∧ s'.dev.i3c = s.dev.i3c
    (inside → (∀ k ∈ tilesOf h.addr h.len, s.dev.passes k = true) →
      ∃ s', sent s' (answer .ok (s.dev.peek h.addr h.len))) ∧
    (¬ inside → ∃ s', sent s' (answer .unsupported []))) ∧
  (∀ (t : Nat) (east : Bool) (frame : List Byte) (q : OutReq) (s : State), s.Inv → s.dev.Still → s.dev.phase = .running →
    (s.dev.ots.pair east).up = true → field frame 0 1 = 2 → otsCrcOk frame = true →
    (otsHeadOf frame).dst = s.dev.ringPos → (otsHeadOf frame).hops ≤ 2 →
    let h := otsHeadOf frame
    let d := ((s.dev.atTime t).landFrame east frame).modOts (fun o => { o with rxFrames := satInc o.rxFrames })
    (olderEpoch (BitVec.ofNat 8 h.epoch) (s.dev.ots.pair east).epoch = true →
      exec (.readResp t east frame) s = .next (s.withDev d)) ∧
    (olderEpoch (BitVec.ofNat 8 h.epoch) (s.dev.ots.pair east).epoch = false → h.status = 0 → q.live = true →
      s.dev.ots.outstanding.find? (fun q => q.part = h.tag / 256 % 8 && q.credit = h.tag % 256 && !s.dev.arrived q) = some q →
      max s.dev.now t ≤ q.issued + 2000000 →
      exec (.readResp t east frame) s = .next (s.withDev (((d.modOts (fun o =>
        { o with way := o.way ++ [(q.part, q.credit, otsData frame)] })).modPart q.part (fun x =>
        { x with wayHeld := x.wayHeld ++ [q.credit] })).chargeDevice { well := (otsData frame).length }))))

/-- R544 and R543. An intact RESET frame resets its pair: the EPOCH rises by one, both lanes hold 64 credits again, the frames
that wait to be sent go, the reset is counted, and every credit of a request still out through the pair returns to its pool;
the other pair and the chip count stay. -/
def Obligations.ResetFrameResetsPair : Prop :=
  ∀ (t : Nat) (east : Bool) (frame : List Byte) (s : State), s.Inv → s.dev.Still →
    s.dev.phase ≠ .off → s.dev.phase ≠ .inert → (s.dev.ots.pair east).up = true → field frame 0 1 = 3 →
    otsCrcOk frame = true → (otsHeadOf frame).dst = s.dev.ringPos → (otsHeadOf frame).hops ≤ 2 →
    (∀ c < 64, (s.dev.ctx c).kept = none) →
    ∃ s', exec (.otsonResetFrame t east frame) s = .next s' ∧ s'.pending = s.pending ∧
      s'.dev.ots.pair east = { s.dev.ots.pair east with
        epoch := (s.dev.ots.pair east).epoch + 1, credits := Vector.replicate 2 64, sendQ := []
        owed := Vector.replicate 2 0, rxNext := (s.dev.ots.pair east).rxNext + 1 } ∧
      s'.dev.ots.pair (!east) = s.dev.ots.pair (!east) ∧ s'.dev.ots.resets = satInc s.dev.ots.resets ∧
      s'.dev.ots.outstanding = s.dev.ots.outstanding.filter (fun q => !(q.east = east && !s.dev.arrived q)) ∧
      (∀ p < 8, (s'.dev.part p).freeCredits = (s.dev.part p).freeCredits +
        (s.dev.ots.outstanding.filter (fun q => q.east = east && !s.dev.arrived q && q.part = p)).length) ∧
      s'.dev.ctl = s.dev.ctl ∧ s'.dev.store = s.dev.store ∧ s'.dev.ne = s.dev.ne

/-- R543. The frame at the front of a pair's queue goes out when the pair is up and the next lane is in RUN (R518) and holds ⌈bytes / 512⌉ credits
for it: those credits are spent, the frame is counted on the pair and on the lane, the next frame takes the other lane, and
nothing else changes; with fewer credits it waits. R465. A request without a response 2 ms after its issue ends with TIMEOUT
the list whose COPY it serves, its credit staying out; before 2 ms nothing but time changes. -/
def Obligations.FramesGoOutAndTimeOut : Prop :=
  (∀ (t : Nat) (east : Bool) (f : List Byte) (rest : List (List Byte)) (s : State), s.Inv → s.dev.phase ≠ .off →
    s.dev.phase ≠ .inert → (s.dev.ots.pair east).sendQ = f :: rest →
    let p := s.dev.ots.pair east
    let have_ := vget p.credits p.nextLane.val 0
    (p.up = true ∧ s.dev.laneRuns (otsLane east p.nextLane) = true ∧ ceilDiv f.length 512 ≤ have_ →
      exec (.otsonFrameSend t east) s = .next (s.withDev (((s.dev.atTime t).modOts (fun o =>
        ({ o with txFrames := satInc o.txFrames } : Otson).modPair east (fun p =>
          { p with
            sendQ := rest, nextLane := p.nextLane + 1
            credits := vset p.credits p.nextLane.val (have_ - ceilDiv f.length 512) }))).modTx (otsLane east p.nextLane)
        (fun x => { x with frames := satInc x.frames })))) ∧
    (p.up = false ∨ s.dev.laneRuns (otsLane east p.nextLane) = false ∨ have_ < ceilDiv f.length 512 →
      exec (.otsonFrameSend t east) s = .next (s.withDev (s.dev.atTime t)))) ∧
  (∀ (t : Nat) (part : Fin 8) (credit : BitVec 8) (q : OutReq) (e : Fin 6) (r : Run) (s : State), s.Inv →
    s.dev.phase = .running → s.dev.Alone e.val → (s.dev.eng e.val).run = some r → r.due = q.due → r.remote.isSome = true →
    s.dev.ots.outstanding.find? (fun q => q.part = part.val && q.credit = credit.toNat && q.live) = some q →
    s.dev.arrived q = false →
    (q.issued + 2000000 ≤ max s.dev.now t → s.dev.plainRun r →
      ∃ s', exec (.otsonRequestTimeout t part credit) s = .next s' ∧ s'.pending = s.pending ∧
        (s'.dev.eng e.val).run = none ∧ (s'.dev.eng e.val).pre = .idle ∧
        (s'.dev.eng e.val).regs.lastStatus = word (5 + r.ctx * 256 + r.lastStarted % 2 ^ 16 * 2 ^ 16)) ∧
    (max s.dev.now t < q.issued + 2000000 → r.wait = none → r.awaitShadow = false →
      exec (.otsonRequestTimeout t part credit) s = .next (s.withDev (s.dev.atTime t))))

/-! ### The itinerary unit -/

/-- R437, R470, R474. A major-cycle boundary that is due, with every engine in service, no mode change for it and no tuning
record, starts cycle k + 1: the cycle is counted, no entry of it has fallen due, every quarantined context is admitted again
in the state of what of it runs, is kept, is ready or waits, and no other context, no engine and no byte of memory changes. Before its instant nothing but time changes. -/
def Obligations.BoundaryStartsCycle : Prop :=
  ∀ (t : Nat) (s : State), s.Inv → s.dev.Still → s.dev.phase = .running → s.dev.active.isSome = true →
    (s.dev.t0 + (s.dev.itn.k + 1) * s.dev.cycleNs ≤ max s.dev.now t → s.dev.itn.t0.isSome = true →
      s.dev.ctl.replay = false → s.dev.image.tunes = [] → s.dev.itn.active = 0 → s.dev.itn.switchTo = none →
      (∀ e < 6, (s.dev.eng e).rejoin = .none) → (∀ m ∈ s.dev.req.modes, m.k ≠ s.dev.itn.k + 1) →
      ∃ s', exec (.majorCycleBoundary t) s = .next s' ∧ s'.pending = s.pending ∧ s'.dev.itn.k = s.dev.itn.k + 1 ∧
        s'.dev.itn.cycles = satInc s.dev.itn.cycles ∧ s'.dev.itn.fallen = [] ∧ s'.dev.itn.active = 0 ∧
        s'.dev.itn.waiting = s.dev.itn.waiting ∧
        (∀ c < 64, s'.dev.ctx c = (if (s.dev.ctx c).mode = .quarantined then { s.dev.ctx c with mode := s'.dev.modeOf c } else s.dev.ctx c) ∧
          (s'.dev.ctx c).mode ≠ .quarantined) ∧
        s'.dev.ne = s.dev.ne ∧ s'.dev.store = s.dev.store ∧ s'.dev.streams = s.dev.streams ∧ s'.dev.ctl = s.dev.ctl ∧
        s'.dev.i3c = s.dev.i3c) ∧
    (max s.dev.now t < s.dev.t0 + (s.dev.itn.k + 1) * s.dev.cycleNs → s.dev.itn.t0.isSome = true →
      exec (.majorCycleBoundary t) s = .next (s.withDev (s.dev.atTime t)))

/-- R440 and R444. An entry of TARGET 0, bound to no stream, whose group is enabled and whose context runs, falls due at its
offset once a cycle: in lockstep mode a latency-critical one joins the launches that wait and nothing else changes; a
best-effort one joins its context's ready queue, in order of due time and entry index, while that holds fewer than 64. An entry of a group that is not enabled
launches nothing. -/
def Obligations.EntryFallsDue : Prop :=
  ∀ (t e : Nat) (i : Itin) (x : Entry) (v : Serve) (s : State), s.Inv → s.dev.Still → s.dev.phase = .running →
    s.dev.active = some i → i.entries[e]? = some x → s.dev.itn.fallen.contains e = false → s.dev.itn.t0.isSome = true →
    s.dev.cycleStart + 1000 * x.offset ≤ max s.dev.now t →
    let due : Due :=
      { index := i.index, entry := e, count := s.dev.itn.k, at_ := s.dev.cycleStart + 1000 * x.offset, repro := none,
        shadow := false, relaunch := false, producer := false, tile := none, anchors := [] }
    let fell := (s.dev.atTime t).modItn (fun y => { y with fallen := y.fallen ++ [e] })
    (s.dev.itn.groupEn.getLsbD x.group = false → (∀ n < 6, (s.dev.eng n).marked = none) →
      exec (.entryDue t e) s = .next (s.withDev fell)) ∧
    (s.dev.itn.groupEn.getLsbD x.group = true → x.target = 0 → x.bind = 0 → s.dev.serveOf due = some v →
      s.dev.itn.aborted.contains (i.index, e, s.dev.itn.k) = false → (s.dev.ctx x.ctx).mode ≠ .quarantined →
      s.dev.tuneEntry e = none → s.dev.unitsGone x.units = false → s.dev.shadowOf due = none → s.dev.ctl.lockstep = true →
      (x.bestEffort = false → exec (.entryDue t e) s =
        .next (s.withDev (fell.modItn (fun y => { y with waiting := y.waiting ++ [due] })))) ∧
      (x.bestEffort = true → (s.dev.ctx x.ctx).ready.length < 64 → exec (.entryDue t e) s =
        .next (s.withDev (fell.modCtx x.ctx (fun y =>
          { y with ready := insertBy readyBefore due y.ready, mode := if y.mode = .idle then .queued else y.mode })))))

/-- R443, R446, R170, R172. On a free engine the latency-critical due that the order of R443 puts first, whose list stands in
the Well or stack DRAM with good seals and passes the checks of Table 4.13, starts: the engine runs the list from command 0
with the validation's steps, the due no longer waits, the launch is counted for the itinerary and its context, and no byte of
memory changes. A list that fails a check ends with UNSUPPORTED and its failure in NE_DECODE_INFO. -/
def Obligations.ListLaunches : Prop :=
  ∀ (t : Nat) (e : Fin 6) (x : Due) (v : Serve) (s : State), s.Inv → s.dev.Still → s.dev.phase = .running →
    s.dev.engineFree e.val = true → s.dev.owed e.val = false →
    (s.dev.atTime t).criticalOrder.find? (fun y => (s.dev.atTime t).startable e.val y && (s.dev.atTime t).setReady y) = some x →
    s.dev.serveOf x = some v → x.repro = none → x.shadow = false → x.tile = none → v.bind = none → s.dev.tuneEntry x.entry = none →
    v.entry.ctx < 64 → s.dev.shadowOf x = none → s.dev.isCompositor v.entry.ctx = false → x.relaunch = false →
    let a := v.launch.addr
    let hdr := s.dev.peek a 64
    let n := field hdr 2 2
    let nd := field hdr 4 2
    let da := field hdr 8 6
    let cmds := (List.range n).map (fun i => ((s.dev.peek (a + 64) (64 * n)).drop (64 * i)).take 64)
    let raws := (List.range nd).map (fun i => ((s.dev.peek da (32 * nd)).drop (32 * i)).take 32)
    let descs := raws.map (fun b => s.dev.bankDescs x v (descOf b))
    hasRaster cmds = false → inWellOrDram a = true → inWellOrDram (a + 63) = true → inWellOrDram (a + 63 + 64 * n) = true →
    inWellOrDram da = true → inWellOrDram (da + 32 * nd - 1) = true →
    (∀ k ∈ tilesOf a 64 ++ tilesOf (a + 64) (64 * n) ++ tilesOf da (32 * nd), s.dev.passes k = true) →
    headerFails hdr = none →
    (listFails (s.dev.launchEnv e.val v) hdr cmds raws descs = none →
      ∃ s' r, exec (.listLaunch t e) s = .next s' ∧ s'.pending = s.pending ∧ (s'.dev.eng e.val).run = some r ∧
        (s'.dev.eng e.val).pre = .running ∧ r.due = x ∧ r.ctx = v.entry.ctx ∧ r.cmds = cmds ∧ r.descs = descs ∧
        r.footprint = field hdr 16 2 ∧ r.idx = 0 ∧ r.inCmd = false ∧ r.steps = validationSteps n nd false 0 ∧
        (s'.dev.eng e.val).regs.listAddr = a ∧ s'.dev.itn.waiting = s.dev.itn.waiting.filter (· ≠ x) ∧
        s'.dev.itn.launches = satInc s.dev.itn.launches ∧ (s'.dev.ctx v.entry.ctx).lastEntry = x.entry ∧
        s'.dev.store = s.dev.store ∧ s'.dev.i3c = s.dev.i3c ∧ s'.dev.streams = s.dev.streams) ∧
    (∀ f, listFails (s.dev.launchEnv e.val v) hdr cmds raws descs = some f →
      ∃ s', exec (.listLaunch t e) s = .next s' ∧ (s'.dev.eng e.val).run = none ∧
        (s'.dev.eng e.val).regs.lastStatus = word (11 + v.entry.ctx * 256) ∧
        (s'.dev.eng e.val).regs.decodeInfo = word (f.1 + f.2.1 % 256 * 256 + f.2.2 % 2 ^ 16 * 2 ^ 16))

/-- R441 and R462. A latency-critical launch that has not started by its deadline is skipped: it no longer waits, the skip is
counted, and its record holds DEADLINE_MISS, or NO_CREDIT where its partition's pool is short of its credits; memory outside
the 16 bytes of the record stays. R442. A latency-critical launch whose steps have reached its budget goes on at best-effort
class, once, and the overrun is counted; in lockstep mode nothing else changes. With steps below the budget nothing but time
changes. -/
def Obligations.DeadlinesAndBudgets : Prop :=
  (∀ (t : Nat) (x : Due) (v : Serve) (s : State), s.Inv → s.dev.Still → s.dev.phase = .running →
    s.dev.itn.waiting.filter (fun y => y.entry = x.entry) = [x] → s.dev.serveOf x = some v → v.entry.bestEffort = false →
    v.entry.deadline ≠ 0 → x.at_ + 1000 * v.entry.deadline ≤ max s.dev.now t → v.entry.target = 0 → v.bind = none →
    x.shadow = false → x.relaunch = false → (∀ u < 7, ∀ l ∈ (s.dev.unit u).queue, l.due.entry ≠ x.entry) →
    let st : Status := if s.dev.creditShort x v then .noCredit else .deadlineMiss
    ∃ s', exec (.deadlineSkip t x.entry) s = .next s' ∧ s'.pending = s.pending ∧
      s'.dev.itn.waiting = s.dev.itn.waiting.filter (· ≠ x) ∧ s'.dev.itn.deadlineSkips = satInc s.dev.itn.deadlineSkips ∧
      s'.dev.itn.noCredit = (if s.dev.creditShort x v then satInc s.dev.itn.noCredit else s.dev.itn.noCredit) ∧
      (∀ i < 16, memGet s'.dev.store.mem (v.launch.record + i) =
        (recordBytes st 0 0 (max s.dev.now t / 1000) x.count).getD i 0) ∧
      (∀ a, a < v.launch.record ∨ v.launch.record + 16 ≤ a → memGet s'.dev.store.mem a = memGet s.dev.store.mem a) ∧
      (∀ n < 6, (s'.dev.eng n).run = (s.dev.eng n).run ∧ (s'.dev.eng n).regs = (s.dev.eng n).regs) ∧
      s'.dev.ctxs = s.dev.ctxs ∧ s'.dev.i3c = s.dev.i3c) ∧
  (∀ (t : Nat) (e : Fin 6) (r : Run) (v : Serve) (s : State), s.Inv → s.dev.Still → s.dev.phase = .running →
    (s.dev.eng e.val).run = some r → s.dev.serveOf r.due = some v →
    (r.bestEffort = false → r.overrun = false → v.entry.budget * 1024 ≤ r.steps →
      (∃ s', exec (.budgetOverrun t e) s = .next s' ∧ s'.pending = s.pending ∧
        (s'.dev.eng e.val).run = some { r with bestEffort := true, overrun := true } ∧
        s'.dev.itn = { s.dev.itn with overruns := satInc s.dev.itn.overruns, asked := s'.dev.itn.asked } ∧ s'.dev.store = s.dev.store) ∧
      (s.dev.ctl.lockstep = true →
        exec (.budgetOverrun t e) s = .next (s.withDev (((s.dev.atTime t).modEng e.val (fun y =>
          { y with run := some { r with bestEffort := true, overrun := true } })).modItn (fun i =>
          { i with overruns := satInc i.overruns }))))) ∧
    (r.overrun = true ∨ r.steps < v.entry.budget * 1024 →
      exec (.budgetOverrun t e) s = .next (s.withDev (s.dev.atTime t))))

/-- R185. At a yield point an engine whose launch is still asked to give way, and whose context holds no raised semaphore and
keeps no other launch (log 60), keeps the list in its context, at its command, and is free: the yield is counted, the engine time since the start is booked to the context, and nothing else changes. R445 and R461.
A best-effort slice that has expired while another context of the partition is ready, in free mode, asks the running launch to
give way. In lockstep mode a launch that has issued the STEP steps of a pending mark gives way: by a yield where that count falls at a
command boundary outside a fused group, else by a full save; and a SIGNAL in which a pending mark's STEP lies does not run.
Nothing else changes. -/
def Obligations.LaunchesGiveWay : Prop :=
  (∀ (t : Nat) (e : Fin 6) (r : Run) (s : State), s.Inv → s.dev.Still → s.dev.phase = .running →
    (s.dev.atTime t).yieldAsked e.val = true → (s.dev.eng e.val).run = some r → r.yieldPoint = true → s.dev.yields r = true →
    exec (.boundaryYield t e) s = .next (s.withDev
      ((((s.dev.atTime t).bookTime r).modCtx r.ctx (fun c =>
        { c with kept := some r, keptOn := some e, keptSaved := false, keptAcc := [], keptLanes := none, mode := c.mode.next .yielded })).modEng e.val (fun y =>
        { y with
          run := none, pre := .idle, request := none, slice := none
          regs := { y.regs with yields := satInc y.regs.yields } })))) ∧
  (∀ (t : Nat) (e : Fin 6) (r : Run) (s : State), s.Inv → s.dev.Still → s.dev.phase = .running →
    (s.dev.eng e.val).run = some r → (s.dev.eng e.val).pre = .running →
    (∀ (c ends p : Nat), s.dev.ctl.lockstep = false → (s.dev.eng e.val).slice = some (c, ends) →
      s.dev.partOfEngine e.val = some p → ends ≤ max s.dev.now t → (s.dev.readyCtxs p).any (· ≠ c) = true →
      exec (.bestEffortSliceExpiry t e) s = .next (s.withDev ((s.dev.atTime t).modEng e.val (fun y =>
        { y with pre := .requested })))) ∧
    (∀ m, s.dev.ctl.lockstep = true → s.dev.markOf r = some m → s.dev.yields r = true →
      (r.steps = m.step → r.atBoundary = true →
        exec (.preEmptionMarkReached t e) s = .next (s.withDev
          ((((s.dev.atTime t).bookTime r).modCtx r.ctx (fun c =>
            { c with
              kept := some r, keptOn := some e, keptSaved := false, keptAcc := [], keptLanes := none, byMark := true, mode := c.mode.next .yielded })).modEng e.val (fun y =>
            { y with
              run := none, pre := .idle, request := none, slice := none, marked := some m.lcEntry
              regs := { y.regs with yields := satInc y.regs.yields } })))) ∧
      (r.steps ≠ m.step ∨ r.atBoundary = false →
        exec (.preEmptionMarkReached t e) s = .next (s.withDev ((((s.dev.atTime t).modCtx r.ctx (fun c =>
          { c with byMark := true })).withdrawSems e.val).modEng e.val (fun y =>
          { y with
            pre := .saving, saveStart := max s.dev.now t, moving := some r.ctx, request := none, slice := none
            run := some r, marked := some m.lcEntry }))))) ∧
    (∀ m n, s.dev.ready e.val = some r → isOp opSIGNAL r.cmd = true → s.dev.markInside r synIssue = some (m, n) →
      exec (.signal t e) s = .next (s.withDev (s.dev.atTime t))))

/-- R186 and R458. When YIELD_WAIT of a request has expired inside a command of a launch that may be saved, the full save
begins: the engine is SAVING for the launch's context from this instant, its pending acquire is withdrawn, and nothing else
changes but what the command at hand has done by then. Of a VEC or a POOL that has issued instructions (how many is free, log 22)
these are charged, the expansion position names the next one and memory stays (log 22). R187, Table 4.18, Table 10.9. The end of a full save leaves the engine IDLE and free, the list and its accumulator
entries kept by the context, the save counted, the records of Table 4.6 at their place of the image, and the first F tiles of the engine's scratch copied to the image's last
region; memory outside the save area stays. -/
def Obligations.ContextsAreSaved : Prop :=
  (∀ (t : Nat) (e : Fin 6) (r : Run) (x : Entry) (at_ wait : Nat) (s : State), s.Inv → s.dev.Still → s.dev.phase = .running →
    (s.dev.eng e.val).pre = .requested → (s.dev.eng e.val).run = some r → (s.dev.eng e.val).request = some (at_, wait) →
    s.dev.entryOf r.due.index r.due.entry = some x →
    let d := s.dev.atTime t
    let n := (Config.stopAt e.val (s.dev.eng e.val).steps).1
    let begins (d : Device) : Device := (d.withdrawSems e.val).modEng e.val (fun y =>
      { y with
        pre := .saving, saveStart := max s.dev.now t, moving := some r.ctx, request := none, slice := none
        run := y.run.map (fun r => { r with wait := none }) })
    (at_ + 1000 * wait ≤ max s.dev.now t → x.saveOk = true → s.dev.yields r = true → r.yieldPoint = false →
      (s.dev.ready e.val = none → exec (.yieldWaitExpiry t e) s = .next (s.withDev (begins d))) ∧
      (s.dev.ready e.val = some r → isOp opVEC r.cmd = true ∨ isOp opPOOL r.cmd = true →
        let l := d.issuesOf e.val r
        let k := max r.pos.issued (min n (l.length - 1))
        let u := issueUse (l.take k)
        exec (.yieldWaitExpiry t e) s = .next (s.withDev (begins (if n = 0 then d else d.worked e.val r u (fun y =>
          { y with pos := { kind := kindVOP, issued := k }, charged := u, weights := none }) id))))) ∧
    (max s.dev.now t < at_ + 1000 * wait ∨ x.saveOk = false →
      exec (.yieldWaitExpiry t e) s = .next (s.withDev (s.dev.atTime t)))) ∧
  (∀ (t : Nat) (e : Fin 6) (r : Run) (cr : CtxRec) (s : State), s.Inv → s.dev.Still → s.dev.phase = .running →
    (s.dev.eng e.val).pre = .saving → (s.dev.eng e.val).run = some r → r.ctx < 64 → s.dev.ctxRec r.ctx = some cr →
    cr.saveBase + imageBytes cr.saveF ≤ dramEnd →
    (∀ x ∈ (s.dev.eng e.val).acc, x.1 < 128 ∧ x.2.1 < 256) →
    (∀ i < cr.saveF, s.dev.passes (scratchBase e.val + i * tileBytes) = true) →
    (∀ i < 6, (s.dev.eng i).retired = true ∨ (s.dev.eng i).score < s.dev.sealSt.retireThresh) →
    ∃ s', exec (.saveComplete t e) s = .next s' ∧ s'.pending = s.pending ∧
      (s'.dev.eng e.val).run = none ∧ (s'.dev.eng e.val).pre = .idle ∧ (s'.dev.eng e.val).moving = none ∧
      (s'.dev.eng e.val).regs = { (s.dev.eng e.val).regs with
        fullSaves := satInc (s.dev.eng e.val).regs.fullSaves
        lastSaveUs := min 0xFFFF ((max s.dev.now t - (s.dev.eng e.val).saveStart) / 1000) } ∧
      s'.dev.ctx r.ctx = { s.dev.ctx r.ctx with
        kept := some r, keptOn := some e, keptSaved := true, keptAcc := (s.dev.eng e.val).acc, keptLanes := (s.dev.eng e.val).lanes
        mode := (s.dev.ctx r.ctx).mode.next .saved } ∧
      (∀ i < 1120, memGet s'.dev.store.mem (cr.saveBase + 0x1000 + i) =
        (r.stateBytes (s.dev.eng e.val).lanes (s.dev.eng e.val).regs.arithStatus).getD i 0) ∧
      (∀ i < cr.saveF * tileBytes, memGet s'.dev.store.mem (cr.saveBase + 0x94000 + i) =
        memGet s.dev.store.mem (scratchBase e.val + i)) ∧
      (∀ a, a < cr.saveBase ∨ cr.saveBase + imageBytes cr.saveF ≤ a →
        memGet s'.dev.store.mem a = memGet s.dev.store.mem a) ∧
      (∀ n < 6, n ≠ e.val → s'.dev.eng n = s.dev.eng n) ∧ (∀ c < 64, c ≠ r.ctx → s'.dev.ctx c = s.dev.ctx c) ∧
      s'.dev.itn = s.dev.itn ∧ s'.dev.i3c = s.dev.i3c)

/-- R190, R191, R460. A yielded context resumes its kept list at once on an engine on which it may; a saved one, when every
tile of its image passes its check, begins to be restored there, and at the end of the restore its scratch lies at the same
offsets of that engine and its list goes on from its command with its accumulator entries. -/
def Obligations.ContextResumes : Prop :=
  ∀ (t : Nat) (e : Fin 6) (c : Fin 64) (r : Run) (cr : CtxRec) (s : State), s.Inv → s.dev.Still → s.dev.phase = .running →
    (s.dev.ctx c.val).kept = some r → s.dev.ctxRec c.val = some cr → r.wait = none → r.remote = none → r.awaitShadow = false →
    ((s.dev.atTime t).mayResume e.val c.val = true → (s.dev.ctx c.val).keptSaved = false →
      ∃ s', exec (.restore t e c) s = .next s' ∧ s'.pending = s.pending ∧
        (s'.dev.eng e.val).run = some { r with started := max s.dev.now t } ∧ (s'.dev.eng e.val).pre = .running ∧
        (s'.dev.ctx c.val).kept = none ∧ (s'.dev.ctx c.val).mode = (s.dev.ctx c.val).mode.next .running ∧ s'.dev.store = s.dev.store ∧
        s'.dev.toll = s.dev.toll ∧ s'.dev.i3c = s.dev.i3c) ∧
    ((s.dev.atTime t).mayResume e.val c.val = true → (s.dev.ctx c.val).keptSaved = true →
      (∀ k ∈ tilesOf cr.saveBase (imageBytes cr.saveF), s.dev.passes k = true) →
      exec (.restore t e c) s = .next (s.withDev (((s.dev.atTime t).selectBe c.val).modEng e.val (fun y =>
        { y with pre := .restoring, moving := some c.val, saveStart := max s.dev.now t })))) ∧
    ((s.dev.eng e.val).pre = .restoring → (s.dev.eng e.val).moving = some c.val → (s.dev.eng e.val).run = none →
      cr.saveBase + imageBytes cr.saveF ≤ dramEnd →
      ∃ s', exec (.restoreComplete t e) s = .next s' ∧ s'.pending = s.pending ∧
        (s'.dev.eng e.val).run = some { r with
          started := max s.dev.now t
          steps := r.steps + (match r.weights with
            | some w => if inOwnScratch e.val w.addr 1 then ceilDiv w.bytes 640 else 0
            | none => 0) } ∧ (s'.dev.eng e.val).pre = .running ∧
        (s'.dev.eng e.val).acc = (s.dev.ctx c.val).keptAcc ∧ (s'.dev.eng e.val).lanes = (s.dev.ctx c.val).keptLanes ∧
        (s'.dev.eng e.val).regs.restores = satInc (s.dev.eng e.val).regs.restores ∧
        (s'.dev.ctx c.val).kept = none ∧ (s'.dev.ctx c.val).mode = (s.dev.ctx c.val).mode.next .running ∧
        (∀ i < cr.saveF * tileBytes, memGet s'.dev.store.mem (scratchBase e.val + i) =
          memGet s.dev.store.mem (cr.saveBase + 0x94000 + i)) ∧
        (∀ a, a < scratchBase e.val ∨ scratchBase e.val + cr.saveF * tileBytes ≤ a →
          memGet s'.dev.store.mem a = memGet s.dev.store.mem a))

/-- R467, R468, R70, R47. A context that has held a semaphore for 50 µs, or whose handshake on an engine had no
acknowledgement for 10 µs, is torn down with TIMEOUT: its list ends with that status, it is quarantined, it holds no
semaphore, the teardown is counted and named in ITN_LAST_TEARDOWN with cause 4, in ITN_SEM_WATCHDOG too, or cause 1, and an
unacknowledged handshake scores its engine 8. A handshake that acts for no context queues event 0x1A with ARG0 3, before T0
as after it, and nothing else changes. -/
def Obligations.WatchdogsTearDown : Prop :=
  ∀ (t : Nat) (c : Fin 64) (e : Fin 6) (r : Run) (s : State), s.Inv →
    (s.dev.phase = .running → s.dev.Alone e.val → (s.dev.eng e.val).run = some r → r.ctx = c.val → s.dev.plainRun r →
      (s.dev.ctx c.val).mode = .running → (s.dev.ctx c.val).kept = none → (s.dev.ctx c.val).ready = [] →
      s.dev.itn.waiting = [] → (∀ u < 7, (s.dev.unit u).queue = []) → s.dev.rfe.sets = [] →
      (∀ i < 6, (s.dev.eng i).retired = true ∨ (s.dev.eng i).score + 8 < s.dev.sealSt.retireThresh) →
      let torn (s' : State) (cause : Nat) : Prop :=
        s'.pending = s.pending ∧ (s'.dev.eng e.val).run = none ∧
        (s'.dev.eng e.val).regs.lastStatus = word (5 + c.val * 256 + r.lastStarted % 2 ^ 16 * 2 ^ 16) ∧
        (s'.dev.ctx c.val).mode = .quarantined ∧ (∀ m < 256, (s'.dev.sem m).heldBy c.val = false) ∧
        s'.dev.itn.teardowns = satInc s.dev.itn.teardowns ∧
        s'.dev.itn.lastTeardown = word (cause + c.val * 256 + (s.dev.ctx c.val).lastEntry % 2 ^ 16 * 2 ^ 16)
      (∀ (m : Fin 256) (since : Nat), (s.dev.sem m.val).holders.find? (fun h => h.1 = c.val) = some (c.val, since) →
        since + 50000 ≤ max s.dev.now t →
        ∃ s', exec (.semaphoreWatchdog t m c) s = .next s' ∧ torn s' 4 ∧
          s'.dev.itn.semWatchdog = satInc s.dev.itn.semWatchdog) ∧
      (∃ s', exec (.handshakeTimeout t (some c) (some e)) s = .next s' ∧ torn s' 1 ∧
        s'.dev.itn.semWatchdog = s.dev.itn.semWatchdog ∧
        (s'.dev.eng e.val).score = (s.dev.eng e.val).score + 8)) ∧
    (s.dev.phase ≠ .off → s.dev.phase ≠ .inert → s.dev.Still → s.dev.i3c.queue.length < 32 →
      exec (.handshakeTimeout t none none) s = .next (s.withDev ((s.dev.atTime t).modI3c (fun i =>
        { i with
          seq := (i.seq + 1) % 256
          queue := eventsInOrder (max s.dev.now t) (i.queue ++
            [{ event := .fatal, seq := i.seq % 256, arg0 := 3, arg1 := 0, arg2 := 0, at_ := some (max s.dev.now t) }]) }))))

/-- R451, R453, R720. A toll period that is due, with a temperature below THERM_TRIP, starts with the readings of the sensors
and rails, every context's and partition's meter at zero use with its last uses kept and no hold, and no device hold; the
period's number rises by one. R453 and R455. Within a toll period a context's meter whose use has reached a budget holds that
context and nothing else changes; the device meter at its whole energy budget holds every context, is counted, and drives
ALERT_N low. A meter below every budget holds nothing. -/
def Obligations.TollPeriodsAndHolds : Prop :=
  (∀ (t : Nat) (x : Readings) (s : State), s.Inv → s.dev.Still → s.dev.phase = .running → s.dev.itn.t0.isSome = true →
    (s.dev.t0 + 100000 * s.dev.toll.period ≤ max s.dev.now t → s.dev.toll.period ≠ 0 →
      (hottest x.sensors).2 < signed16 s.dev.therm.tripAt →
      ∃ s', exec (.tollPeriodStart t x) s = .next s' ∧ s'.pending = s.pending ∧ s'.dev.toll.period = s.dev.toll.period + 1 ∧
        s'.dev.therm.sensors = x.sensors ∧ s'.dev.therm.tj = (hottest x.sensors).2 ∧ s'.dev.therm.vddNe = x.vddNe ∧
        s'.dev.therm.vddBd = x.vddBd ∧ s'.dev.therm.peak = peakOf s.dev.therm.peak (hottest x.sensors).2 ∧
        (∀ m < 72, vget s'.dev.toll.meters m .reset = (vget s.dev.toll.meters m .reset).turn) ∧
        s'.dev.toll.deviceHeld = false ∧ s'.dev.toll.beHeld = false ∧
        (s'.dev.toll.thermHeld = true ↔ signed16 s.dev.therm.holdAt ≤ (hottest x.sensors).2) ∧
        (∀ c < 64, (s'.dev.ctx c).held = false) ∧ (∀ e < 6, (s'.dev.eng e).periodSteps = 0) ∧
        (∀ e < 6, vget s'.dev.ctl.stepsNe e 0 = (s.dev.eng e).periodSteps) ∧ s'.dev.store = s.dev.store ∧
        s'.dev.itn = s.dev.itn) ∧
    (max s.dev.now t < s.dev.t0 + 100000 * s.dev.toll.period →
      exec (.tollPeriodStart t x) s = .next (s.withDev (s.dev.atTime t)))) ∧
  (∀ (t : Nat) (c : Fin 64) (s : State), s.Inv → s.dev.Still → s.dev.phase = .running → s.dev.toll.period ≠ 0 →
    s.dev.itn.t0.isSome = true → max s.dev.now t < s.dev.t0 + 100000 * s.dev.toll.period →
    ((vget s.dev.toll.meters c.val .reset).full = true →
      exec (.meterHold t ⟨c.val, by omega⟩) s = .next (s.withDev ({ s.dev.atTime t with
        toll := { s.dev.toll with meters := vmod s.dev.toll.meters c.val (fun (m : Meter) => { m with held := true }) } }.modCtx c.val
          (fun x => { x with held := true, wasHeld := x.wasHeld || !s.dev.holdsSem c.val })))) ∧
    ((vget s.dev.toll.meters c.val .reset).full = false →
      exec (.meterHold t ⟨c.val, by omega⟩) s = .next (s.withDev (s.dev.atTime t))) ∧
    (s.dev.toll.energyBudget ≤ vget (vget s.dev.toll.meters 72 .reset).use 3 0 → s.dev.toll.deviceHeld = false →
      ∃ s', exec (.meterHold t 72) s = .next s' ∧ s'.pending = s.pending ∧ s'.dev.toll.deviceHeld = true ∧
        s'.dev.toll.beHeld = true ∧ s'.dev.toll.capPeriods = satInc s.dev.toll.capPeriods ∧ s'.dev.pins.alertLow = true ∧
        (∀ k be, s'.dev.heldCtx k be = true) ∧ s'.dev.store = s.dev.store ∧ s'.dev.ne = s.dev.ne ∧
        s'.dev.itn = s.dev.itn ∧ s'.dev.ctxs = s.dev.ctxs))

/-! ### The commands of a list -/

/-- R158, R174. A SIGNAL that is the last command of the list of a launch bound to no stream ends it with OK: the engine is free and
IDLE, NE_LAST_STATUS names the context and the last command, the completion record of 16 bytes stands at its address with the
steps and the instant, no other byte changes, the context holds no semaphore, and its state is that of what it still runs,
keeps or has ready, or IDLE. -/
def Obligations.LastCommandEndsList : Prop :=
  ∀ (t : Nat) (e : Fin 6) (r : Run) (v : Serve) (s : State), s.Inv → s.dev.Still → s.dev.phase = .running →
    s.dev.ready e.val = some r → isOp opSIGNAL r.cmd = true → r.idx + 1 = r.cmds.length → s.dev.plainRun r →
    s.dev.serveOf r.due = some v → r.degraded = false → r.ctx < 64 → s.dev.itn.waiting = [] → s.dev.rfe.sets = [] →
    let n := r.steps + (if r.inCmd then 0 else 16) + 4
    ∃ s', exec (.signal t e) s = .next s' ∧ s'.pending = s.pending ∧ (s'.dev.eng e.val).run = none ∧
      (s'.dev.eng e.val).pre = .idle ∧
      (s'.dev.eng e.val).regs.lastStatus = word (r.ctx * 256 + r.idx % 2 ^ 16 * 2 ^ 16) ∧
      (s'.dev.eng e.val).regs.cmdsDone = satInc (s.dev.eng e.val).regs.cmdsDone ∧
      (∀ i < 16, memGet s'.dev.store.mem (v.launch.record + i) =
        (recordBytes .ok r.idx n (max s.dev.now t / 1000) r.due.count).getD i 0) ∧
      s'.dev.sameOutside s.dev [{ addr := v.launch.record, len := 16, store := true }] ∧
      (∀ m < 256, (s'.dev.sem m).heldBy r.ctx = false) ∧
      (s'.dev.ctx r.ctx).mode = (if (s.dev.ctx r.ctx).mode = .quarantined then .quarantined
        else if (List.range 6).any (fun i => i ≠ e.val && (s.dev.eng i).run.any (fun y => y.ctx = r.ctx)) then .running
        else if (s.dev.ctx r.ctx).kept.isSome then (if (s.dev.ctx r.ctx).keptSaved then .saved else .yielded)
        else if (s.dev.ctx r.ctx).ready = [] then .idle else .queued) ∧
      s'.dev.i3c = s.dev.i3c ∧ (∀ i < 6, i ≠ e.val → (s'.dev.eng i).run = (s.dev.eng i).run)

/-- R64, R65. SIGNAL adds its increment to its flag modulo 2¹⁶, and a WAIT whose flag has reached its target only completes;
one whose flag has not stays pending from this instant with its limit. Each takes 4 steps beside the decode's 16, and nothing
else changes. R168. A WAIT with a limit of LIMIT µs that is not satisfied LIMIT × 1,000 ns after its start ends its list with
TIMEOUT, and the flag stays; before that instant, and with LIMIT 0, nothing but time changes. -/
def Obligations.FlagsAndWaits : Prop :=
  (∀ (t : Nat) (e : Fin 6) (r : Run) (s : State), s.Inv → s.dev.Still → s.dev.atCommand e.val r →
    let d := s.dev.atTime t
    let done := d.stepped e.val r { emptySteps := 4 } id
    (isOp opSIGNAL r.cmd = true →
      let flags := vmod d.well.flags (field r.cmd 16 2) (fun c => c + BitVec.ofNat 16 (field r.cmd 18 1))
      exec (.signal t e) s = .next (s.withDev { done with well := { d.well with flags := flags } })) ∧
    (isOp opWAIT r.cmd = true →
      ((BitVec.ofNat 16 (field r.cmd 18 2) - s.dev.flag (field r.cmd 16 2)).toInt ≤ 0 →
        exec (.wait t e) s = .next (s.withDev done)) ∧
      (0 < (BitVec.ofNat 16 (field r.cmd 18 2) - s.dev.flag (field r.cmd 16 2)).toInt →
        exec (.wait t e) s = .next (s.withDev (d.worked e.val r { emptySteps := 4 } (fun r =>
          { r with wait := some (.flag (field r.cmd 16 2) (field r.cmd 18 2) d.now (field r.cmd 20 4)) }) id))))) ∧
  (∀ (t f target start limit : Nat) (e : Fin 6) (r : Run) (s : State), s.Inv → s.dev.phase = .running →
    s.dev.Alone e.val → (s.dev.eng e.val).run = some r → r.wait = some (.flag f target start limit) → r.awaitShadow = false →
    r.remote = none → s.dev.flagReached f target = false →
    (limit ≠ 0 → start + 1000 * limit ≤ max s.dev.now t → (s.dev.eng e.val).pre ≠ .saving → s.dev.plainRun r →
      ∃ s', exec (.waitLimitExpiry t e) s = .next s' ∧ s'.pending = s.pending ∧ (s'.dev.eng e.val).run = none ∧
        (s'.dev.eng e.val).pre = .idle ∧
        (s'.dev.eng e.val).regs.lastStatus = word (5 + r.ctx * 256 + r.lastStarted % 2 ^ 16 * 2 ^ 16) ∧
        s'.dev.well.flags = s.dev.well.flags) ∧
    (limit = 0 ∨ max s.dev.now t < start + 1000 * limit →
      exec (.waitLimitExpiry t e) s = .next (s.withDev (s.dev.atTime t))))

/-- R68, R69, R70. An acquire of a semaphore whose count is above 0 and that nobody waits for is granted at once: the count
falls by one and the context is recorded with the instant. With count 0 it waits, in the order of R69. In free mode
an acquire that meets the grant of one of its class and instant is a free choice of the Well. A release by a recorded
holder raises the count and drops the record; any other release changes only WELL_SEM_ERRORS. R467. A release later than
50,000 ns after the grant finds the holder torn down with cause 4. -/
def Obligations.SemaphoreCommands : Prop :=
  ∀ (t : Nat) (e : Fin 6) (r : Run) (s : State), s.Inv → s.dev.Still → s.dev.atCommand e.val r →
    isOp opSEM r.cmd = true → (s.dev.eng e.val).pre = .running →
    let d := s.dev.atTime t
    let m := field r.cmd 16 1
    let x := s.dev.sem m
    let w := (r.ctx, e.val, !r.bestEffort, r.due.entry, d.now)
    let lc := !(r.bestEffort && !d.raised r.ctx)
    let tie := s.dev.ctl.lockstep = false ∧ x.last = some (d.now, lc) ∧
      ∀ v ∈ x.waiters, ¬ ((v.2.2.1 || d.raised v.1) = lc ∧ v.2.2.2.2 = d.now)
    let chosen (d : Device) : Device :=
      if tie then { d with well := { d.well with freeChoice := satInc d.well.freeChoice } } else d
    let done := d.stepped e.val r { emptySteps := 4 } id
    (field r.cmd 17 1 = 0 → x.waiters = [] → x.count ≠ 0 →
      exec (.semAcquire t e) s = .next (s.withDev (chosen (done.modSem m (fun y =>
        { y with count := y.count - 1, holders := y.holders ++ [(r.ctx, d.now)], last := some (d.now, lc) }))))) ∧
    (field r.cmd 17 1 = 0 → x.count = 0 →
      exec (.semAcquire t e) s = .next (s.withDev (chosen ((d.worked e.val r { emptySteps := 4 } (fun r =>
        { r with wait := some (.sem m d.now) }) id).modSem m (fun y => { y with waiters := y.waiters ++ [w] }))))) ∧
    (field r.cmd 17 1 = 1 →
      (x.overdue r.ctx d.now = true → exec (.semRelease t e) s = .next (s.withDev (d.teardown r.ctx 4 r.due.entry))) ∧
      (x.heldBy r.ctx = true → x.overdue r.ctx d.now = false → exec (.semRelease t e) s = .next (s.withDev (done.modSem m (fun y =>
        { y with count := y.count + 1, holders := removeFirst (fun h => h.1 = r.ctx) y.holders })))) ∧
      (x.heldBy r.ctx = false → exec (.semRelease t e) s = .next (s.withDev
        { done with well := { d.well with semErrors := satInc d.well.semErrors } })))

/-- R149 to R151, R278, R732. A VEC of each of the 21 operations whose runs may be touched and whose reads pass writes its
whole destination from its operands' values: the FP32 result of its operation at every position, converted to the
destination's format, or quantised by MXQ. It takes its vector steps, at least R155's, and no byte outside the destination's
rows and scales changes. -/
def Obligations.VectorCommands : Prop :=
  ∀ (t : Nat) (e : Fin 6) (r : Run) (s : State), s.Inv → s.dev.Still → s.dev.atCommand e.val r → isOp opVEC r.cmd = true →
    s.dev.mayRead e.val r r.vecPlan → (r.vop = 0x21 → isMx r.vecDst.fmt = true) → ∀ p ∈ vecCommands, r.vop = p.1 →
    let d := s.dev.atTime t
    let out := d.putVec e.val r (r.vecResult (d.vecOperands e.val r))
    exec (p.2 t e) s = .next (s.withDev { (d.stepped e.val r (r.vecPlan.vecUse e.val r.vecSteps) (fun x =>
        { x with op := { x.op with attnEmpty := satAdd x.op.attnEmpty (r.vecEmpty (d.vecOperands e.val r)) } })).countFill
          (r.vecPlan.fills e.val) with store := out.store }) ∧
    out.sameOutside s.dev ((r.vecDst.allSpans true).map (·.phys e.val))

/-- R234 to R237, R238 to R245, R290, R737. POOL, CROPRESIZE and REPROJECT whose runs may be touched and whose reads pass
write their output rows from their operands' values, each in its steps of Table 4.16; CROPRESIZE also writes the FLAGS of its
boxes. No byte outside those runs changes. -/
def Obligations.ImageCommands : Prop :=
  ∀ (t : Nat) (e : Fin 6) (r : Run) (s : State), s.Inv → s.dev.Still → s.dev.atCommand e.val r →
    let d := s.dev.atTime t
    let o := descAt r.descs r.cmd 17
    (isOp opPOOL r.cmd = true → s.dev.mayRead e.val r r.poolPlan →
      let out := d.putPool e.val r (r.poolResult (d.tensorWindow e.val (descAt r.descs r.cmd 16)))
      exec (.pool t e) s = .next (s.withDev { (d.stepped e.val r (r.poolPlan.vecUse e.val r.poolSteps) id).countFill
        (r.poolPlan.fills e.val) with store := out.store }) ∧
      out.sameOutside s.dev ((o.rowSpans true ((List.range r.poolWin.orows).map (r.poolWin.orow0 + ·))).map (·.phys e.val))) ∧
    (isOp opCROPRESIZE r.cmd = true → s.dev.mayRead e.val r (r.cropPlan (d.cropBoxes e.val r)) →
      let boxes := d.cropBoxes e.val r
      let out := d.putCrop e.val r boxes (r.cropResult (d.tensorWindow e.val (descAt r.descs r.cmd 16)) boxes)
      exec (.cropresize t e) s = .next (s.withDev { (d.stepped e.val r ((r.cropPlan boxes).vecUse e.val r.cropSteps) (fun x =>
        { x with op := { x.op with
          cropZero := satAdd x.op.cropZero (boxes.filter (·.zeroArea)).length
          cropOutside := satAdd x.op.cropOutside (boxes.foldl (fun k b =>
            k + b.outsides (descAt r.descs r.cmd 16) (field r.cmd 22 2) (field r.cmd 24 2)) 0) } })).countFill
        ((r.cropPlan boxes).fills e.val) with store := out.store }) ∧
      out.sameOutside s.dev ((o.rowSpans true (List.range o.height) ++ (List.range (field r.cmd 20 2)).map (fun i =>
        ({ addr := (descAt r.descs r.cmd 18).base + 16 * i + 15, len := 1, store := true } : Span))).map (·.phys e.val))) ∧
    (∀ v, isOp opREPROJECT r.cmd = true → s.dev.serveOf r.due = some v →
      let taps := r.reprojAt (d.reprojDist r) (d.tensorWindow e.val (descAt r.descs r.cmd 17))
      s.dev.mayRead e.val r (r.reprojPlan taps v.launch) →
      let out := d.putReproj e.val r v.launch (r.reprojResult (d.tensorWindow e.val (descAt r.descs r.cmd 16)) taps)
      exec (.reproject t e) s = .next (s.withDev { (d.stepped e.val r
        ((r.reprojPlan taps v.launch).vecUse e.val (r.reprojSteps v.launch)) id).countFill
        ((r.reprojPlan taps v.launch).fills e.val) with store := out.store }) ∧
      out.sameOutside s.dev (((descAt r.descs r.cmd 18).rowSpans true
        ((List.range v.launch.rows).map (v.launch.row0 + ·))).map (·.phys e.val)))

/-- R133 to R148, R180, R196 to R233, R731. A CONV or a MATMUL whose runs may be touched, whose reads pass and whose product
check meets no failure writes its output from its operands' values, in the steps of its passes, and leaves its last chunks in
the accumulator file; a CONV that keeps its halo also writes LINEBUF. No byte outside those runs changes. R130, R609. A
failure of the product check in an array command that writes over none of its reads is counted, scores its engine 2 a pass, leaves
its marked vectors and columns, and the command runs again: passing then, it completes with the memory that the second run
writes over the first's, and the repetition is counted; failing again, its list ends with CHECK_FAIL. -/
def Obligations.ArrayProducts : Prop :=
  (∀ (t : Nat) (e : Fin 6) (r : Run) (faults1 faults2 : List PeFault) (s : State), s.Inv → s.dev.Still → s.dev.atCommand e.val r →
    let d := s.dev.atTime t
    let after (a : ArrayRun) (p : Plan) (g : Engine → Engine) : Device :=
      (d.stepped e.val r (Use.ofCost a.cost (p.traffic e.val)) (fun x => let y := g x
        { y with
          acc := a.acc, op := { y.op with padSkips := satAdd y.op.padSkips a.cost.skips }
          regs := (y.regs.addRange d.now a.cost.flags).addUncovered d.now a.cost.uncovered })).countFill (p.fills e.val)
    (isOp opCONV r.cmd = true →
      let j := d.convJob e.val r
      let a := d.convArray e.val r j faults1
      let run := a.run (d.eng e.val).acc
      s.dev.mayRead e.val r (r.convPlan a) → run.fails = 0 →
      (let i := descAt r.descs r.cmd 16
       let l := descAt r.descs r.cmd 38
       r.convKeeps = true → l.fmt = i.fmt ∧ l.layout = i.layout ∧ l.channels = i.channels ∧ l.width = i.width) →
      let out := d.putConv e.val r j a
      exec (.conv t e faults1 faults2) s = .next (s.withDev { after run (r.convPlan a) (fun x =>
        if r.inCmd then x else { x with op := { x.op with mapInfo := word r.convShape.map.info } }) with store := out.store }) ∧
      out.sameOutside s.dev (((descAt r.descs r.cmd 17).rowSpans true r.convRows ++
        (descAt r.descs r.cmd 38).rowSpans true r.convLine ++
        (descAt r.descs r.cmd 38).scaleSpans true r.convLine).map (·.phys e.val))) ∧
    (isOp opMATMUL r.cmd = true →
      let a := d.matArray e.val r faults1
      let run := a.run (d.eng e.val).acc
      s.dev.mayRead e.val r (r.matPlan a) → run.fails = 0 →
      let out := d.putMat e.val r a
      exec (.matmul t e faults1 faults2) s = .next (s.withDev
        { after run (r.matPlan a) id with store := out.store }) ∧
      out.sameOutside s.dev (((descAt r.descs r.cmd 18).pixelSpans true (field r.cmd 24 4)).map (·.phys e.val)))) ∧
  (∀ (d : Device) (e : Nat) (r : Run) (p : Plan) (vec : Nat) (a1 a2 : ArrayRun) (f1 f2 : Device → Device), e < 6 →
    (d.eng e).run = some r → r.idx + 1 < r.cmds.length → d.plainRun r →
    (∀ x y : Device, x.store = y.store → (f1 x).store = (f1 y).store ∧ (f2 x).store = (f2 y).store) →
    (∀ x : Device, f1 x = { x with store := (f1 x).store } ∧ f2 x = { x with store := (f2 x).store }) →
    p.overlaps e = false → 0 < a1.fails →
    (∀ i < 6, (d.eng i).retired = true ∨ (d.eng i).score + 2 * (a1.fails + a2.fails) + 8 < d.sealSt.retireThresh) →
    let x := d.arrayCommand e r p vec a1 a2 f1 f2
    (a2.fails = 0 →
      x.store.mem = (f2 (f1 d)).store.mem ∧ (x.eng e).score = (d.eng e).score + 2 * a1.fails ∧
      (x.eng e).marks = a1.cost.marks ∧
      (x.eng e).run.map (·.idx) = some (r.idx + 1) ∧ x.ctxs = d.ctxs ∧ x.itn = d.itn) ∧
    (0 < a2.fails →
      (x.eng e).run = none ∧ (x.eng e).regs.lastStatus = word (4 + r.ctx * 256 + r.lastStarted % 2 ^ 16 * 2 ^ 16)))

/-- R271 to R277. An ATTN whose runs may be touched and whose reads pass writes its output from its operands' values, one
softmax of masked, scaled scores per head and query over the usable rows of its ring, and no byte outside the output and its
working area changes. -/
def Obligations.AttentionCommand : Prop :=
  ∀ (t : Nat) (e : ArrayOn) (r : Run) (s : State), s.Inv → s.dev.Still → s.dev.atCommand e.engine.val r →
    isOp opATTN r.cmd = true →
    let d := s.dev.atTime t
    let n := e.engine.val
    let j := d.attnJob n r e.faults1
    let hs := j.all
    let a := attnRun hs (d.eng n).acc
    let p := r.attnPlan hs (d.attnRows r)
    s.dev.mayRead n r p → a.fails = 0 →
    let out := d.putAttn n r j hs
    exec (.attn t e) s = .next (s.withDev { (d.stepped n r { Use.ofCost a.cost (p.traffic n) with vecSteps := j.vecSteps } (fun x =>
      { x with
        acc := a.acc
        op := { x.op with attnEmpty := satAdd x.op.attnEmpty j.gone, padSkips := satAdd x.op.padSkips a.cost.skips }
        regs := (x.regs.addRange d.now a.cost.flags).addUncovered d.now a.cost.uncovered })).countFill (p.fills n) with
      store := out.store }) ∧
    out.sameOutside s.dev (((descAt r.descs r.cmd 19).allSpans true ++ [r.attnWork]).map (·.phys n))

/-- R169, R738, R248, R463. A COPY within the device whose runs may be touched and whose reads pass lands its region in its
destination, moved in the same format and converted otherwise, and no byte outside the region's runs changes; one from another
chip of a launch that holds no credit ends its list with NO_CREDIT. -/
def Obligations.CopyCommand : Prop :=
  ∀ (t : Nat) (e : Fin 6) (r : Run) (s : State), s.Inv → s.dev.Still → s.dev.atCommand e.val r → isOp opCOPY r.cmd = true →
    let d := s.dev.atTime t
    let dst := descAt r.descs r.cmd 17
    (field r.cmd 18 1 % 4 = 0 → s.dev.mayRead e.val r (r.copyPlan e.val) →
      let out := d.putCopy e.val r (d.anyWindow e.val (descAt r.descs r.cmd 16)) (fun _ => true)
      exec (.copy t e) s = .next (s.withDev { (d.stepped e.val r (r.copyUse e.val) (fun x =>
        { x with op := { x.op with frBlocks := satAdd x.op.frBlocks (frLanded (descAt r.descs r.cmd 16) dst r.copyRegion (fun _ => true)) } })).countFill
          ((r.copyPlan e.val).fills e.val) with store := out.store }) ∧
      out.sameOutside s.dev ((dst.spansOf true r.copyRegion.landed).map (·.phys e.val))) ∧
    (field r.cmd 18 1 % 4 ≠ 0 → r.credits = 0 → s.dev.plainRun r →
      ∃ s', exec (.copy t e) s = .next s' ∧ s'.pending = s.pending ∧ (s'.dev.eng e.val).run = none ∧
        (s'.dev.eng e.val).regs.lastStatus = word (statusCode .noCredit + r.ctx * 256 + r.idx % 2 ^ 16 * 2 ^ 16))

/-- R331, R314 to R320. A RASTER_TILE of a slot with a set whose runs may be touched and whose reads pass writes the five
planes' pixels of its tiles (after a full save from the saved tile and entry on, R334) inside the viewport, counts these tiles, entries, reloads, saturations and culled rows, and no byte
outside those pixels changes; without a set it leaves free bytes there (log 4). -/
def Obligations.RasterCommand : Prop :=
  ∀ (t : Nat) (e : Fin 6) (r : Run) (rr : RasterRec) (g : GeoSet) (prog : GeoProg) (s : State), s.Inv → s.dev.Still →
    s.dev.atCommand e.val r → isOp opRASTER r.cmd = true →
    let d := s.dev.atTime t
    (d.tileSet r (field r.cmd 32 4) = some (rr, some (g, prog)) → s.dev.mayRead e.val r (d.rasterPlan r rr g) →
      let done := d.rasterDone e.val r rr g none
      let out := d.putRaster e.val r rr g done
      exec (.rasterTile t e) s = .next (s.withDev { (d.stepped e.val r (d.rasterUse e.val r rr g) (fun x =>
        { x with tru := x.tru.count r.rasterReload done })).countFill ((d.rasterPlan r rr g).fills e.val) with store := out.store }) ∧
      out.sameOutside s.dev ((r.rasterOut rr).map (·.phys e.val))) ∧
    (d.tileSet r (field r.cmd 32 4) = some (rr, none) → s.dev.mayRead e.val r (Plan.of (r.rasterOut rr)) →
      let out := d.freeSpans e.val (r.rasterOut rr)
      exec (.rasterTile t e) s = .next (s.withDev { (d.stepped e.val r ((Plan.of (r.rasterOut rr)).vecUse e.val 0) id).countFill
        ((Plan.of (r.rasterOut rr)).fills e.val) with store := out.store }) ∧
      out.sameOutside s.dev ((r.rasterOut rr).map (·.phys e.val)))

/-! ### Streams and the raster front end -/

/-- R284, R42 and R307, R308. At the decision time of slot m the accepted anchor with the largest tag at most m whose stamp is
at most D(m) is selected, older held ones that no encode list takes are dropped, the anchor in use and memory stay, and an anchor-aligned slot without
its own anchor gets cause 0, or 1 when it was rejected. At D_G every set of the stream that is not accepted is discarded, and
a guided slot of a stream that is no re-simulation gets cause 2 without a set, 3 with a rejected one. -/
def Obligations.DecisionTimes : Prop :=
  ∀ (t m : Nat) (x : Fin 32) (s : State), s.Inv → s.dev.Still → s.dev.phase = .running →
    let d := s.dev.atTime t
    (d.decidedSlot x.val = some m → s.dev.hasSsb x.val = true →
      let sel := d.usableAnchor x.val m
      ∃ s', exec (.anchorSelection t x) s = .next s' ∧ s'.pending = s.pending ∧
        (s'.dev.strm x.val).selected = sel ∧ (s'.dev.strm x.val).decided = m + 1 ∧ (s'.dev.strm x.val).inUse = (s.dev.strm x.val).inUse ∧
        (s'.dev.strm x.val).held = (match sel with
          | some a => (s.dev.strm x.val).held.filter (fun b => decide (a.tag ≤ b.tag) || s.dev.encoding x.val b.tag)
          | none => (s.dev.strm x.val).held) ∧
        (s'.dev.slot x.val m).anchor = sel ∧
        (s.dev.anchorAligned x.val m = true → sel.map (·.tag) ≠ some m →
          (s'.dev.slot x.val m).causes.getLsbD (if (s.dev.slot x.val m).anchorBad then 1 else 0) = true) ∧
        s'.dev.store = s.dev.store ∧ s'.dev.ne = s.dev.ne ∧ s'.dev.itn = s.dev.itn) ∧
    (d.decidedSlot x.val = none → exec (.anchorSelection t x) s = .next (s.withDev d)) ∧
    (let late (y : SetRec) : Bool := y.1.stream = x.val && !y.2.accepted && decide (d.guideTime x.val y.1.slot ≤ d.now)
     ∃ s', exec (.guideDecisionTime t x) s = .next s' ∧ s'.pending = s.pending ∧
       (∀ y ∈ s'.dev.rfe.sets, y ∈ s.dev.rfe.sets ∧ late y = false) ∧
       ((∃ r, s.dev.rasterRec x.val 0 = some r) → d.guideSlot x.val = some m → s.dev.isResim x.val = false →
         (s.dev.slot x.val m).guideOk ≠ some true →
         (s'.dev.slot x.val m).causes.getLsbD (if (s.dev.slot x.val m).guideOk = some false then 3 else 2) = true) ∧
       ((∀ y ∈ s.dev.rfe.sets, late y = true → y.2.flush = none) →
         s'.dev.store = s.dev.store ∧ s'.dev.ne = s.dev.ne ∧ s'.dev.itn = s.dev.itn))

/-- R322, R325, R343. The set that is served bins its next triangle: one with no tile is counted as off-screen; one whose new
blocks fit the quota joins the list of each of its tiles, and the set goes on at the next triangle. The served count and the
triangle count rise by one, and no other set, engine or stream changes. R336 to R342. A flush job queued on an engine that
runs no list, in lockstep mode within its window (R338), starts there for the set that R344 puts first, with the tiles that an
earlier engine sealed counted as done (R339). No byte but those of its two record buffers changes, and it charges the 16 steps that no tile takes. Its end leaves every tile list of the set empty, the allocator at its first block again and the set without a flush.
-/
def Obligations.SetsBinAndFlush : Prop :=
  (∀ (t : Nat) (x : SetRec) (r : RasterRec) (s : State), s.Inv → s.dev.Still → s.dev.phase = .running →
    s.dev.keepsServing = some x → x.pending = true → s.dev.image.rasters[x.1.recIdx]? = some r →
    let d := s.dev.atTime t
    let tiles := (d.triangle (r.geoBaseOf x.1.buf) x.1.nvert x.2.nextTri).tiles r
    let counted (n : Nat) : Device := d.modRfe (fun y =>
      { y with served := y.served + 1, tris := (y.tris + 1) % 2 ^ 64, offscreen := if n = 0 then satInc y.offscreen else y.offscreen })
    (tiles = [] → exec (.triangleBinning t) s = .next (s.withDev
      ((counted 0).putSet (SetRec.close (x.1, { x.2 with nextTri := x.2.nextTri + 1 }))))) ∧
    (tiles ≠ [] → x.2.denied = false →
      (tiles.filter (d.needsBlock r x.1.buf)).length ≤ r.block0 x.1.buf + r.quota - x.2.nextBlock →
      let out := tiles.foldl (fun (y : Nat × Device) tile => y.2.binEntry r x.1.buf y.1 x.2.nextTri tile)
        (x.2.nextBlock, counted 1)
      exec (.triangleBinning t) s = .next (s.withDev
        (out.2.putSet (SetRec.close (x.1, { x.2 with nextTri := x.2.nextTri + 1, nextBlock := out.1 })))))) ∧
  (∀ (t : Nat) (e : Fin 6) (x : SetRec) (s : State), s.Inv → s.dev.Still → s.dev.phase = .running →
    let d := s.dev.atTime t
    (∀ done : Nat, (sortBy d.setBefore s.dev.rfe.sets).find? (d.flushReady e.val) = some x → x.2.flush = some (e.val, false, done) →
      ∃ s', exec (.flushJobStart t e) s = .next s' ∧ s'.pending = s.pending ∧
        s'.dev.rfe = (d.putSet (x.1, { x.2 with flush := some (e.val, true, done) })).rfe ∧
        (s'.dev.eng e.val).steps = (s.dev.eng e.val).steps + 16 ∧ s'.dev.itn = s.dev.itn ∧
        (∀ a : Nat, a < scratchBase e.val ∨ scratchBase e.val + 34816 ≤ a → s'.dev.peek a 1 = s.dev.peek a 1)) ∧
    (∀ r : RasterRec, s.dev.flushSet e.val = some x → s.dev.image.rasters[x.1.recIdx]? = some r →
      (∀ i < 6, ((d.flushAll e.val x).eng i).retired = true ∨ ((d.flushAll e.val x).eng i).score < s.dev.sealSt.retireThresh) →
      ∃ s', exec (.flushJobEnd t e) s = .next s' ∧ s'.pending = s.pending ∧
        (∀ i < r.tw * r.th, let h := s'.dev.head r x.1.buf i
          h.1 = noBlock ∧ h.2.1 = noBlock ∧ h.2.2.1 = 0) ∧
        (∀ y ∈ s'.dev.rfe.sets, sameSet x y = true → y.2.flush = none ∧ y.2.nextBlock = r.block0 x.1.buf + r.headBlocks)))

/-! ### The vision units -/

/-- R357 to R362. The first launch queued on a free vision unit whose job record and descriptors stand in one region with good
seals and pass the checks of Table 8.4 becomes the unit's job from this instant, satisfied at once when its flag has reached
its target; a job that fails check n ends with that check's status and n in the unit's last status. R359. The wait of a vision
job that is not satisfied WAIT_LIMIT µs after its start expires: the job ends with TIMEOUT and the unit is free. Before that
instant, or without a limit, nothing but time changes. -/
def Obligations.VisionJobsStartAndWait : Prop :=
  (∀ (t : Nat) (u : Fin 7) (l : VLaunch) (rest : List VLaunch) (v : Serve) (s : State), s.Inv → s.dev.Still →
    s.dev.phase = .running → (s.dev.unit u.val).queue = l :: rest → (s.dev.unit u.val).stalled = false →
    s.dev.serveOf l.due = some v → v.bind = none → l.due.relaunch = false → l.due.tile = none →
    s.dev.heldCtx l.ctx (s.dev.visionBe l) = false → (s.dev.atTime t).pastDeadline l.due v = false →
    let job := s.dev.peek l.addr 64
    let a := field job 4 6
    let n := field job 10 1
    let raws := (List.range n).map (fun i => ((s.dev.peek a (32 * n)).drop (32 * i)).take 32)
    inOneRegion l.addr 64 = true → inOneRegion a (32 * n) = true → (visionRecordAddr job).isSome = true →
    (∀ k ∈ tilesOf l.addr 64 ++ tilesOf a (32 * n), s.dev.passes k = true) →
    (jobHeaderOk u.val job = true → jobFails job raws (raws.map descOf) = none →
      ∃ s' r, exec (.visionJobStart t u) s = .next s' ∧ s'.pending = s.pending ∧ (s'.dev.unit u.val).run = some r ∧
        (s'.dev.unit u.val).queue = rest ∧ r.launch = l ∧ r.job = job ∧ r.descs = raws.map descOf ∧
        r.waitStart = max s.dev.now t ∧
        (r.satisfied = true ↔ field job 12 2 = 0xFFFF ∨ s.dev.flagReached (field job 12 2) (field job 14 2) = true) ∧
        s'.dev.itn.launches = satInc s.dev.itn.launches ∧ s'.dev.store = s.dev.store ∧ s'.dev.i3c = s.dev.i3c) ∧
    (∀ order st, (if jobHeaderOk u.val job then jobFails job raws (raws.map descOf) else some (1, .unsupported)) = some (order, st) →
      ∃ s', exec (.visionJobStart t u) s = .next s' ∧ s'.pending = s.pending ∧ (s'.dev.unit u.val).run = none ∧
        (s'.dev.unit u.val).lastStatus = word (statusCode st + l.ctx * 256 + order * 2 ^ 16))) ∧
  (∀ (t : Nat) (u : Fin 7) (r : VRun) (s : State), s.Inv → s.dev.VisionAlone u.val → s.dev.phase = .running →
    (s.dev.unit u.val).run = some r → r.satisfied = false → field r.job 12 2 ≠ 0xFFFF →
    s.dev.flagReached (field r.job 12 2) (field r.job 14 2) = false →
    (field r.job 16 2 ≠ 0 → r.waitStart + 1000 * field r.job 16 2 < max s.dev.now t → r.launch.due.relaunch = false →
      ∃ s', exec (.visionWaitExpiry t u) s = .next s' ∧ s'.pending = s.pending ∧ (s'.dev.unit u.val).run = none ∧
        (s'.dev.unit u.val).lastStatus = word (5 + r.launch.ctx * 256)) ∧
    (field r.job 16 2 = 0 ∨ max s.dev.now t ≤ r.waitStart + 1000 * field r.job 16 2 →
      exec (.visionWaitExpiry t u) s = .next (s.withDev (s.dev.atTime t))))

/-- R42, R366 to R376, R361. A flow job whose reads pass writes the motion and the confidence of its rows as its search finds
them, or zero for a re-simulation stream with one accepted anchor,
leaves free bytes in a pyramid job's work buffer, and commits; no other byte changes but its record. R377 to R384, R361. A
stereo job whose reads pass writes the sums of its forward pass to WORK and the disparity and confidence of every pixel as
R382 to R384 give them, and commits; no other byte changes but its record. R385 to R391, R361. A remap job whose reads pass
writes its rows from the taps that its mesh gives, and commits; no other byte changes but its record. -/
def Obligations.VisionJobsRun : Prop :=
  (∀ (t : Nat) (u : Fin 2) (r : VRun) (v : Serve) (s : State), s.Inv → s.dev.VisionAlone u.val → s.dev.jobReady u.val r v →
    (∀ k ∈ spanTiles 0 ((s.dev.flowSpans r).filter (fun w => !w.store)), s.dev.passes k = true) →
    let d := s.dev.atTime t
    let still := ∃ w, s.dev.serveOf r.launch.due = some w ∧ w.bind.isSome = true ∧ ∃ k ∈ w.streams, s.dev.isResim k = true ∧
      ((s.dev.strm k).tags.filter (fun a => a ≤ w.slot)).length = 1
    (¬ still → d.flowOuts r = d.flowSearch r) ∧ (still → ∀ f ∈ (d.flowOuts r).toList, f.mot = 0 ∧ f.conf = 0) ∧
    let mid := r.flowRows.foldl (Device.putFlowRow r (d.flowOuts r)) (d.freeSpans 0 r.flowWork)
    (∃ s', exec (.flowJob t u) s = .next s' ∧ s.JobEnds s' u.val r r.flowPixels mid) ∧
    mid.sameOutside s.dev (((descAt r.descs r.job 35).rowSpans true r.flowRows) ++
      ((descAt r.descs r.job 36).rowSpans true r.flowRows) ++
      (r.flowWork.map (fun w => { w with addr := physAddr 0 w.addr })))) ∧
  (∀ (t : Nat) (r : VRun) (v : Serve) (s : State), s.Inv → s.dev.VisionAlone 2 → s.dev.jobReady 2 r v →
    let d := s.dev.atTime t
    let image := descAt r.descs r.job
    let cost := d.stereoCosts r
    let bytes := r.stereoBytes cost
    let work : Span := { addr := (image 36).base, len := bytes.length, store := false }
    (∀ k ∈ spanTiles 0 r.stereoInputs ++ spanTiles 0 [work], s.dev.passes k = true) →
    let mid := (List.range (image 32).height).foldl (Device.putStereoRow r (r.stereoOuts cost)) (d.write work.addr bytes)
    (∃ s', exec (.stereoJob t) s = .next s' ∧ s.JobEnds s' 2 r ((image 32).width * (image 32).height) mid) ∧
    mid.sameOutside s.dev (work :: (image 34).rowSpans true (List.range (image 32).height) ++
      (image 35).rowSpans true (List.range (image 32).height))) ∧
  (∀ (t : Nat) (u : Fin 4) (r : VRun) (v : Serve) (s : State), s.Inv → s.dev.VisionAlone (3 + u.val) →
    s.dev.jobReady (3 + u.val) r v →
    let d := s.dev.atTime t
    let sw := d.tensorWindow 0 (descAt r.descs r.job 32)
    let mw := d.tensorWindow 0 (descAt r.descs r.job 34)
    (∀ k ∈ spanTiles 0 ((r.remapSpans mw).filter (fun w => !w.store)), s.dev.passes k = true) →
    let mid := r.remapRows.foldl (Device.putRemapRow r (r.remapCode sw mw)) d
    (∃ s', exec (.remapJob t u) s = .next s' ∧
      s.JobEnds s' (3 + u.val) r (field r.job 38 2 * (descAt r.descs r.job 33).width) mid) ∧
    mid.sameOutside s.dev ((descAt r.descs r.job 33).rowSpans true r.remapRows))

/-! ### Composition and scan-out -/

/-- R574 to R577. In free mode the layer-0 landing that landed first, of the lower producer at one instant, is drained: its
producer is noted and its slot is free. With good seals and no layers of its stream, its rows join the composed rows as FP32,
top to bottom. R59, R733. A row that lies where the Serai may not read, as in the local scratch window, is not read: it is not
composed and CTL_FAULT_ADDR is its first such byte. In lockstep mode an entry whose landing is missing is waited for. -/
def Obligations.LandingDrains : Prop :=
  ∀ (t : Nat) (l : Landing) (tie : Bool) (s : State), s.Inv → s.dev.Still → s.dev.phase = .running →
    let d := s.dev.atTime t
    let rows := ((List.range l.rows).map (l.row0 + ·)).filter (fun y => y < l.desc.height)
    let image := s.dev.tensorWindow 0 l.desc
    let unretired := ∀ i < 6, (s.dev.eng i).retired = true ∨ (s.dev.eng i).score < s.dev.sealSt.retireThresh
    let note : Span := { addr := s.dev.image.landBase + (2 * l.producer + l.slotIdx.val) * 64, len := 64, store := false }
    (s.dev.ctl.lockstep = false → s.dev.freeDrain = some (l, tie) → s.dev.serai.waiting = [] →
      ∃ s', exec (.layer0Drain t) s = .next s' ∧ s'.pending = s.pending ∧ s'.dev.serai.lastProducer = l.producer ∧
        (∀ x ∈ s'.dev.serai.landings, x ∈ s.dev.serai.landings ∧ ¬ (x.producer = l.producer ∧ x.slotIdx = l.slotIdx)) ∧
        (s.dev.landingFits l = true → s.dev.layersOf l.stream = [] → unretired →
          (∀ w ∈ note :: l.desc.rowSpans false rows, w.strays = false) →
          (∀ k ∈ spanTiles 0 (note :: l.desc.rowSpans false rows), s.dev.passes k = true) →
          s'.dev.serai.composed = s.dev.serai.composed ++ rows.map (fun y =>
            (l.stream, l.frame, y, (List.range l.desc.width).map (fun x =>
              (List.range 3).map (fun c => word (l.desc.fp32 image c y x))))) ∧
          s'.dev.store = s.dev.store ∧ s'.dev.ne = s.dev.ne ∧ s'.dev.i3c = s.dev.i3c) ∧
        (∀ y w, s.dev.landingFits l = true → rows = [y] → note.strays = false → (∀ k ∈ spanTiles 0 [note], s.dev.passes k = true) →
          unretired → (l.desc.rowSpans false [y]).find? Span.strays = some w →
          s'.dev.serai.composed = s.dev.serai.composed ∧ s'.dev.ctl.faultAddr = max w.addr (seraiEnd w.addr) ∧
          s'.dev.store = s.dev.store ∧ s'.dev.ne = s.dev.ne ∧ s'.dev.itn = s.dev.itn)) ∧
    (∀ (tab : SlotTable) (at_ : Nat × Nat), s.dev.ctl.lockstep = true → s.dev.slotTable .serai = some tab →
      d.tableDrain tab.entries (tab.entries.length + 1) (s.dev.arb .serai).tablePos (s.dev.arb .serai).served = (at_, none) →
      exec (.layer0Drain t) s = .next (s.withDev (d.setArb { s.dev.arb .serai with tablePos := at_.1, served := at_.2 })))

/-- R560 to R563. The next composed row of a stream whose place in the line ring is free passes stage 5: its packed line
stands in the ring, the row is complete, and one of the d lines due next also stands in the FIFO; no other byte changes. A
complete line among them that stands in the ring only, with good seals, moves into the FIFO and no byte changes. R556 to R559,
R568, R37. The line slot of a port of one stream that is due starts: slot 0 sends Frame Start with the slot number and the
leading embedded-data line; an image line in the FIFO is sent and leaves it (no packet leaves while the port's lane trains, R518); one that is in neither ring nor FIFO is sent as
the last pixel emitted, is counted and gives its slot cause 6; slot HEIGHT + 2 sends Frame End and counts the frame. Before
its instant nothing but time changes. -/
def Obligations.LinesLeave : Prop :=
  (∀ (t : Nat) (x : Fin 32) (r : PortRec) (p : Profile) (s : State), s.Inv → s.dev.Still → s.dev.phase = .running →
    s.dev.portRec x.val = some r → s.dev.profileOf x.val = some p →
    (∀ c k, s.dev.serai.composed.find? (fun c => c.1 = r.stream && s.dev.stage5Room r p c.2.1 c.2.2.1) = some c →
      c.2.2.1 < p.height → (s.dev.port r.port).ahead p.height c.2.1 c.2.2.1 = some k →
      let line := if s.dev.codeZero r.stream c.2.1 then repeatLine p.dt p.width none
        else packLine p.dt p.width (emulateRow r p c.2.1 c.2.2.1 c.2.2.2)
      ∃ s', exec (.stage5LineWrite t x) s = .next s' ∧ s'.pending = s.pending ∧
        (∀ i < line.length, memGet s'.dev.store.mem (ringAddr r p c.2.2.1 + i) = line.getD i 0) ∧
        s'.dev.sameOutside s.dev [{ addr := ringAddr r p c.2.2.1, len := line.length, store := true }] ∧
        (s'.dev.slot r.stream c.2.1).rows.contains c.2.2.1 = true ∧
        (s'.dev.strm r.stream).fifo = (if k < s.dev.fifoDepth r.port p then
            (lineKey c.2.1 c.2.2.1, line) :: (s.dev.strm r.stream).fifo.filter (fun f => f.1 ≠ lineKey c.2.1 c.2.2.1)
          else (s.dev.strm r.stream).fifo) ∧
        s'.dev.serai.composed = removeFirst (fun q => q = c) s.dev.serai.composed ∧ s'.dev.scan = s.dev.scan ∧
        s'.dev.ne = s.dev.ne ∧ s'.dev.i3c = s.dev.i3c) ∧
    (∀ n y, s.dev.ringLine r p = some (n, y) → (∀ k ∈ tilesOf (ringAddr r p y) p.lineLen, s.dev.passes k = true) →
      ∃ s', exec (.ringToFifoMove t x) s = .next s' ∧ s'.pending = s.pending ∧
        (s'.dev.strm r.stream).fifo = (lineKey n y, s.dev.peek (ringAddr r p y) p.lineLen) :: (s.dev.strm r.stream).fifo ∧
        s'.dev.store = s.dev.store ∧ s'.dev.scan = s.dev.scan ∧ s'.dev.serai = s.dev.serai ∧ s'.dev.ne = s.dev.ne)) ∧
  (∀ (t : Nat) (q : Fin 16) (r : PortRec) (p : Profile) (s : State), s.Inv → s.dev.Still → s.dev.phase = .running →
    s.dev.portStreams q.val = [r] → s.dev.profileOf r.stream = some p → r.stream < 32 → r.port = q.val →
    let x := s.dev.port q.val
    let j := x.nextLine
    let n := x.slot
    let y := j - 1
    let long := outLong r.vc
    let short := outShort r.vc
    let emits (l : List OutPacket) : List OutPacket := if s.dev.portRuns q.val then l else []
    let line (b : List Byte) : List OutPacket :=
      emits ((if p.lsLe then [short 0x02 j] else []) ++ long p.dt b :: (if p.lsLe then [short 0x03 j] else []))
    (s.dev.frameStart r.stream n + j * p.lineNs ≤ max s.dev.now t → j + 1 < p.frameLines →
      ∃ s', exec (.lineSlotStart t q) s = .next s' ∧ s'.pending = s.pending ∧ (s'.dev.port q.val).running = true ∧
        (s'.dev.port q.val).nextLine = j + 1 ∧ (s'.dev.port q.val).slot = n ∧
        (j = 0 → ∃ b, (s'.dev.port q.val).sent = emits [short 0x00 n, long 0x12 b]) ∧
        (1 ≤ j → j ≤ p.height → s.dev.codeZero r.stream n = false →
          (∀ f, (s.dev.strm r.stream).fifo.find? (fun f => f.1 = lineKey n y) = some f →
            (s'.dev.port q.val).sent = line f.2 ∧
            (s'.dev.strm r.stream).fifo = (s.dev.strm r.stream).fifo.filter (fun f => f.1 ≠ lineKey n y) ∧
            s'.dev.store = s.dev.store) ∧
          ((s.dev.strm r.stream).fifo.find? (fun f => f.1 = lineKey n y) = none → (s.dev.slot r.stream n).rows.contains y = false →
            (s'.dev.port q.val).sent = line (repeatLine p.dt p.width (s.dev.strm r.stream).lastPixel) ∧
            (s'.dev.port q.val).underrun = satInc x.underrun ∧ (s'.dev.slot r.stream n).causes.getLsbD 6 = true ∧
            s'.dev.store = s.dev.store)) ∧
        (j = p.height + 2 → (s'.dev.port q.val).sent = emits [short 0x01 n] ∧ (s'.dev.port q.val).framesA = satInc x.framesA)) ∧
    (max s.dev.now t < s.dev.frameStart r.stream n + j * p.lineNs →
      exec (.lineSlotStart t q) s = .next (s.withDev (s.dev.atTime t))))

/-! ### Shadows, seals and engine scores -/

/-- R614, R615. When a launch and its shadow that do not wait for each other have ended, equal signatures only count the
comparison and spend the pair; unequal ones count a mismatch too and score both engines 4; a launch bound to no slot degrades
none, and the slot that one serves gets CAUSES bit 5 and, as its first cause, raises event 0x10. A blocking launch whose
signature equals its shadow's ends with OK, with another signature it ends with CHECK_FAIL: the engine is free, NE_LAST_STATUS
names it, and its record stands in memory. -/
def Obligations.ShadowsCompared : Prop :=
  ∀ (t x : Nat) (p q : ShadowSig) (s : State), s.Inv → s.dev.phase = .running →
    s.dev.sealSt.sigs.filter (fun y => y.entry = x) = [p, q] → p.shadow = false → q.shadow = true →
    p.index = q.index → p.count = q.count →
    (∀ i < 6, (s.dev.eng i).retired = true ∨ (s.dev.eng i).score + 8 < s.dev.sealSt.retireThresh) →
    let equal := p.a = q.a ∧ p.b = q.b
    let named := Due.named p.index x p.count (max s.dev.now t)
    let spent : SealState := { s.dev.sealSt with
      shadowRuns := satInc s.dev.sealSt.shadowRuns
      shadowMismatch := if equal then s.dev.sealSt.shadowMismatch else satInc s.dev.sealSt.shadowMismatch
      sigs := s.dev.sealSt.sigs.filter (fun y => !(y.index = p.index && y.entry = x && y.count = p.count)) }
    let d : Device := { s.dev.atTime t with sealSt := spent }
    (s.dev.Still → equal → exec (.shadowComparison t x) s = .next (s.withDev d)) ∧
    (s.dev.Still → ¬ equal → (∀ v, (s.dev.atTime t).serveOf named = some v → v.bind = none) →
      exec (.shadowComparison t x) s = .next (s.withDev ((d.score p.engine 4).score q.engine 4))) ∧
    (∀ (v : Serve) (k : Fin 32), s.dev.Still → ¬ equal → (s.dev.atTime t).serveOf named = some v →
      v.bind.isSome = true → v.streams = [k.val] → s.dev.i3c.mask.getLsbD 0 = true → s.dev.i3c.queue.length < 32 →
      ∃ s', exec (.shadowComparison t x) s = .next s' ∧ s'.pending = s.pending ∧ s'.dev.sealSt = spent ∧
        (∀ i < 6, (s'.dev.eng i).score = (s.dev.eng i).score + (if i = p.engine then 4 else 0) + (if i = q.engine then 4 else 0)) ∧
        (s'.dev.slot k.val v.slot).causes = (s.dev.slot k.val v.slot).causes ||| 0x20 ∧
        s'.dev.i3c.queue = (if (s.dev.slot k.val v.slot).raised then s.dev.i3c.queue
          else eventsInOrder (max s.dev.now t) (s.dev.i3c.queue ++ [{
            event := .streamDegraded, seq := s.dev.i3c.seq % 256, arg0 := k.val, arg1 := 5
            arg2 := v.slot % 2 ^ 32, at_ := some (max s.dev.now t) }]))) ∧
    (∀ (e : Fin 6) (r : Run) (v : Serve), s.dev.Alone e.val → (s.dev.eng e.val).run = some r → r.awaitShadow = true →
      r.due.index = p.index → r.due.entry = x → r.due.count = p.count → r.due.shadow = false → r.due.repro = none → r.due.relaunch = false →
      r.degraded = false → s.dev.serveOf r.due = some v → v.bind = none → v.entry.target = 0 →
      s.dev.tuneEntry x = none → s.dev.isCompositor r.ctx = false → s.dev.itn.waiting = [] → s.dev.rfe.sets = [] →
      let st : Status := if equal then .ok else .checkFail
      ∃ s', exec (.shadowComparison t x) s = .next s' ∧ s'.pending = s.pending ∧ (s'.dev.eng e.val).run = none ∧
        (s'.dev.eng e.val).regs.lastStatus = word (statusCode st + r.ctx * 256 + r.lastStarted % 2 ^ 16 * 2 ^ 16) ∧
        s'.dev.sealSt.shadowRuns = spent.shadowRuns ∧ s'.dev.sealSt.shadowMismatch = spent.shadowMismatch ∧
        (∀ i < 16, memGet s'.dev.store.mem (v.launch.record + i) =
          (recordBytes st r.lastStarted r.steps (max s.dev.now t / 1000) r.due.count).getD i 0))

/-- R617, R618, R620. A scrub check that is due charges its tile to the device meter and moves on to the next tile, at the end
of a pass to tile 0 with the pass counted. A tile that passes changes nothing else; one whose seal disagrees, in no
image-backed range, is counted as a DRAM failure and as a scrub failure, raises event 0x13 with ARG1 1, and its bytes and its
seal stay. A decay that is due takes 1 from every score above 0. Before their instants nothing but time changes. R606, R618. A
reload that completes brings the tile of an image-backed range to the bytes that the NOR holds for it, when the seal of those
bytes is the stored one, and its wait is over; after a reload for the scrubber that passes, the repair is counted. A
completion without a reload under way changes nothing but time. -/
def Obligations.ScrubReloadDecay : Prop :=
  (∀ (t : Nat) (s : State), s.Inv → s.dev.Still → s.dev.phase = .running →
    let x := s.dev.sealSt
    let d := s.dev.atTime t
    let tile := x.scrubPos * tileBytes
    let due := x.scrubEn = true ∧ d.t0 + 760000 * (x.scrubPasses * scrubTiles + x.scrubPos) ≤ d.now
    let on (y : SealState) : SealState :=
      if x.scrubPos + 1 < scrubTiles then { y with scrubPos := x.scrubPos + 1 }
      else { y with scrubPos := 0, scrubPasses := satInc y.scrubPasses }
    (¬ due → exec (.scrubCheck t) s = .next (s.withDev d)) ∧
    (due → s.dev.passes tile = true →
      exec (.scrubCheck t) s = .next (s.withDev ((d.chargeDevice { dram := tileBytes }).modSealSt on))) ∧
    (due → x.scrubPos < scrubTiles → s.dev.sealed tile = false →
      s.dev.image.ranges.any (fun r => r.imageBacked && r.holds tile) = false →
      s.dev.i3c.mask.getLsbD 3 = true → s.dev.i3c.queue.length < 32 →
      ∃ s', exec (.scrubCheck t) s = .next s' ∧ s'.pending = s.pending ∧
        s'.dev.sealRegs.failsDram = satInc s.dev.sealRegs.failsDram ∧
        s'.dev.sealSt = on { x with scrubFails := satInc x.scrubFails } ∧
        s'.dev.i3c.queue = eventsInOrder (max s.dev.now t) (s.dev.i3c.queue ++
          [{ event := .sealFailure, seq := s.dev.i3c.seq % 256, arg0 := 0, arg1 := 1, arg2 := x.scrubPos, at_ := some (max s.dev.now t) }]) ∧
        s'.dev.store.mem = s.dev.store.mem ∧ s'.dev.store.seals = s.dev.store.seals ∧ s'.dev.ne = s.dev.ne ∧
        s'.dev.itn = s.dev.itn) ∧
    (d.t0 + 60000000000 * (x.decays + 1) ≤ d.now → exec (.errorScoreDecay t) s = .next (s.withDev { d with
      sealSt := { x with decays := x.decays + 1 }, ne := s.dev.ne.map (fun y => { y with score := y.score - 1 }) })) ∧
    (d.now < d.t0 + 60000000000 * (x.decays + 1) → exec (.errorScoreDecay t) s = .next (s.withDev d))) ∧
  (∀ (t tile : Nat) (s : State), s.Inv → s.dev.Still → s.dev.phase = .running →
    let d := s.dev.atTime t
    ((∀ y ∈ s.dev.sealSt.reloads, y.1 ≠ tile) → exec (.tileReloadComplete t tile) s = .next (s.withDev d)) ∧
    (∀ (u : Option Nat) (scrub : Bool), s.dev.sealSt.reloads.filter (fun y => y.1 = tile) = [(tile, u, scrub)] →
      (∀ i < 6, (s.dev.eng i).retired = true ∨ (s.dev.eng i).score < s.dev.sealSt.retireThresh) →
      let out := (d.modSealSt (fun y => { y with reloads := y.reloads.filter (fun z => z.1 ≠ tile) })).reload tile
      out.2.passes tile = true →
      exec (.tileReloadComplete t tile) s = .next (s.withDev (out.2.modSealSt (fun y =>
        { y with scrubRepairs := if scrub then satInc y.scrubRepairs else y.scrubRepairs }))) ∧
      (out.1 = true → ∃ r ∈ s.dev.image.ranges, r.holds tile = true ∧ r.imageBacked = true ∧
        out.2.peek tile tileBytes = s.dev.norRead (norImage + r.norOffset + (tile - r.base)) tileBytes ∧
        ∀ a, a < tile ∨ tile + tileBytes ≤ a → memGet out.2.store.mem a = memGet s.dev.store.mem a)))

/-- R623 to R625, R596. A rejoin request starts the tests of every retired engine of its mask that is not asleep and does not
rejoin yet; one that the hold after a retirement starts does the same. Rows within the spares of
each array, sound logic and a self-test without a mismatch, whose write signature is the one that the image expects, raise the
generation of the engine's scratch by one, leave it zero, sealed in the new generation, and its accumulators empty, the engine
awaiting the boundary. More failing rows than spares or a failure in logic, which end the rejoin before order 4, or a mismatch at
order 5, after it with the generation raised, leave it retired from this instant, counted. No other engine and no other byte
changes. -/
def Obligations.RejoinRuns : Prop :=
  ∀ (t : Nat) (e : Fin 6) (mask : BitVec 6) (s : State), s.Inv → s.dev.Still → s.dev.phase = .running →
    let d := s.dev.atTime t
    let x := s.dev.eng e.val
    let ctl := s.dev.sealSt.rejoinCtl.toNat
    let starts (i : Nat) : Prop :=
      mask.getLsbD i = true ∧ (s.dev.eng i).asleep = false ∧ (s.dev.eng i).retired = true ∧ (s.dev.eng i).rejoin = .none
    let auto := bit ctl 0 = true ∧ x.retired = true ∧ x.asleep = false ∧ x.retiredAt + 1000000000 * bits ctl 15 8 ≤ max s.dev.now t
    (∃ s', exec (.sealRejoinReq t mask) s = .next s' ∧ s'.pending = s.pending ∧ s'.dev.store = s.dev.store ∧
      s'.dev.sealSt = s.dev.sealSt ∧ s'.dev.sealRegs = s.dev.sealRegs ∧ s'.dev.i3c = s.dev.i3c ∧
      ∀ i < 6,
        (starts i → s'.dev.eng i = { s.dev.eng i with rejoin := .testing }) ∧
        (¬ starts i → s'.dev.eng i = s.dev.eng i)) ∧
    (auto → x.rejoin = .none → exec (.rejoinAutoStart t e) s = .next (s.withDev (d.modEng e.val (fun y =>
      { y with rejoin := .testing })))) ∧
    (¬ auto → exec (.rejoinAutoStart t e) s = .next (s.withDev d)) ∧
    (x.rejoin = .testing →
      ∀ f : RejoinFacts,
        let spared := f.bankRows ≤ 48 ∧ f.weightRows ≤ 16 ∧ f.accRows ≤ 16 ∧ f.logicOk = true
        let tested := f.testsOk = true ∧
          ∀ p, s.dev.image.selfTest = some p → f.signature = Config.selfTestExpected (memGetN s.dev.store.mem p.1 p.2)
        let raised := { s.dev.sealRegs with genScr := vmod s.dev.sealRegs.genScr e.val (· + 1) }
        (¬ spared ∨ ¬ tested → ∃ s', exec (.rejoinComplete t e f) s = .next s' ∧ s'.pending = s.pending ∧
          s'.dev.eng e.val = { x with rejoin := .none, retiredAt := d.now } ∧
          s'.dev.sealSt = { s.dev.sealSt with rejoinFails := satInc s.dev.sealSt.rejoinFails } ∧
          (¬ spared → s'.dev.sealRegs = s.dev.sealRegs) ∧ (spared → s'.dev.sealRegs = raised) ∧
          s'.dev.store = s.dev.store ∧ s'.dev.image = s.dev.image ∧ ∀ i < 6, i ≠ e.val → s'.dev.eng i = s.dev.eng i) ∧
        (spared → tested → ∃ s', exec (.rejoinComplete t e f) s = .next s' ∧ s'.pending = s.pending ∧
          s'.dev.eng e.val = { x with rejoin := .awaiting d.now, acc := [] } ∧
          (∀ a, memGet s'.dev.store.mem a =
            (if scratchBase e.val ≤ a ∧ a < scratchBase e.val + scratchBytes then 0 else memGet s.dev.store.mem a)) ∧
          (∀ k, scratchBase e.val ≤ k * tileBytes → k * tileBytes < scratchBase e.val + scratchBytes →
            s'.dev.sealed (k * tileBytes) = true) ∧
          (∀ i < 6, i ≠ e.val → s'.dev.eng i = s.dev.eng i) ∧ s'.dev.sealSt = s.dev.sealSt ∧ s'.dev.sealRegs = raised))

/-! ### Arbiters and refresh -/

/-- R62, R71, Table 2.9, R152. Bytes of one 128-byte line of the Well share a bank and any 32 lines of an aligned 4 KiB lie
in 32 banks. Two bytes of stack DRAM lie at one place only if they are one byte, every row, bank, channel, burst and byte below
row 1,536 is some byte's place below 12 GiB, and the die is the two upper bits of the channel. Likewise for scratch and its
24,576 rows. From T0 on, a request of an address is a request at the arbiter of that bank or channel. -/
def Obligations.AddressesHavePlaces : Prop :=
  (∀ a b : BitVec 26, (a >>> 7 = b >>> 7 → wellBank a = wellBank b) ∧
    (a >>> 12 = b >>> 12 → wellBank a = wellBank b → a >>> 7 = b >>> 7)) ∧
  (∀ a b : BitVec 34, dramPlace a = dramPlace b → a = b) ∧
  (∀ (c : BitVec 7) (burst : BitVec 3) (bank : BitVec 5) (row : BitVec 11) (byte : BitVec 8), row < 1536 →
    ∃ a : BitVec 34, a.toNat < 12 * 2 ^ 30 ∧
      dramPlace a = { channel := c, die := c.extractLsb' 5 2, burst := burst, bank := bank, row := row, byte := byte }) ∧
  (∀ a b : BitVec 25, scratchPlace a = scratchPlace b → a = b) ∧
  (∀ o : BitVec 25, o.toNat < 0x1800000 ↔ (scratchPlace o).row < 24576) ∧
  (∀ (t n : Nat) (r : ArbReq) (s : State), s.Inv → s.dev.phase = .running →
    let asks (p : ArbPort) (id : ArbId) : Prop := exec (.arbiterRequest t p r n) s = .next (s.withDev ((s.dev.atTime t).setArb
      ((s.dev.arb id).request r n (max s.dev.now t) s.dev.ctl.lockstep)))
    (∀ a, asks (.well a) (.wellBank (wellBank (BitVec.ofNat 26 a.val)).toFin)) ∧
    (∀ a, asks (.dram a) (.dramChannel (dramPlace (BitVec.ofNat 34 a.val)).channel.toFin)) ∧
    (∀ e o, asks (.scratch e o) (.scratchBank e (scratchPlace (BitVec.ofNat 25 o.val)).bank.toFin)) ∧
    (∀ i, asks (.fabric i) (.fabric i)) ∧ (∀ u, asks (.visionPort u) (.visionPort u)) ∧
    asks .flagUnit .flagUnit ∧ asks .serai .serai ∧ asks .rfePort .rfePort)

/-- R75, R77 to R82, Table 2.10. From T0 on, a request in free mode waits behind the earlier ones and those of a lower index at
its instant. A latency-critical one that meets a best-effort transfer with handshakes left, while fewer than 8 counts are kept,
is to be granted next and marks the transfer: at the next boundary the transfer stops, its count of completed handshakes is kept,
its requester waits again and the block counts a free choice. R482. Before T0 a request at an arbiter that serves or holds one is
not issued. A grant goes to the request at the head, which resumes at its kept count. A granted requester that withdraws, marked
or not, costs one dead handshake and keeps no count; a waiting one costs nothing. R76, R484, R485, R486. In lockstep mode a free
arbiter with a slot table grants a recovery's handshakes first, else the requester of its next entry that is not void, when it
waits; while that requester does not request, no other is granted in its place. R80, R81, R484. After the COUNT handshakes of its
entry, and at once where the transfer ends with fewer, the entry's own count goes on: it goes to the next entry after exactly
COUNT. A transfer with handshakes left is revoked if the entry has REVOKE set and fewer than 8 counts are kept, else paused with
its progress; it waits again (log 38). -/
def Obligations.ArbitersServe : Prop :=
  (∀ (t : Nat) (p : ArbPort) (r : ArbReq) (done n : Nat) (s : State), s.Inv → s.dev.phase ≠ .off → s.dev.phase ≠ .inert →
    let id := p.id
    let a := s.dev.arb id
    let now := max s.dev.now t
    (s.dev.phase = .running → s.dev.ctl.lockstep = false → a.granted = none → a.freedAt = none →
      exec (.arbiterRequest t p r n) s = .next (s.withDev ((s.dev.atTime t).setArb
        { a with waiting := insertBy arrivesBefore (now, r) a.waiting }))) ∧
    (s.dev.phase ≠ .running → (a.granted.isSome ∨ a.waiting ≠ []) →
      exec (.arbiterRequest t p r n) s = .next (s.withDev (s.dev.atTime t))) ∧
    (∀ g, s.dev.phase = .running → s.dev.ctl.lockstep = false → a.granted = some (g, done) → r.latencyCritical = true →
      g.latencyCritical = false → a.revoking = none → a.kept.length < 8 → n < g.len →
      exec (.arbiterRequest t p r n) s = .next (s.withDev ((s.dev.atTime t).setArb { a with
        revoking := some (max n done), waiting := (now, r) :: a.waiting, stalls := a.stalls + (g.len - max n done) }))) ∧
    (∀ at_ g rest, s.dev.ctl.lockstep = false → a.revoking = none → a.waiting = (at_, g) :: rest →
      ∃ s', exec (.arbiterGrant t id) s = .next s' ∧ s'.pending = s.pending ∧ s'.dev.arb id = { a with
          waiting := rest, granted := some (g, a.progress g), entry := none, freedAt := none
          kept := removeFirst (fun k => k.1 = g) a.kept, paused := removeFirst (fun k => k.1 = g) a.paused
          stalls := (g.len - a.progress g) * rest.length } ∧
        (∀ e b, id = .scratchBank e b →
          (s'.dev.eng e.val).regs.bankStalls = satAdd (s.dev.eng e.val).regs.bankStalls a.stalls) ∧
        (∀ i, i ≠ id → s'.dev.arb i = s.dev.arb i) ∧ s'.dev.store = s.dev.store ∧ s'.dev.itn = s.dev.itn ∧ s'.dev.ctl.chips = s.dev.ctl.chips) ∧
    (∀ g m at_ w rest, s.dev.ctl.lockstep = false → a.granted = some (g, done) → a.revoking = some m →
      a.waiting = (at_, w) :: rest → w ≠ g →
      ∃ s', exec (.arbiterGrant t id) s = .next s' ∧ s'.pending = s.pending ∧ s'.dev.arb id = { a with
          waiting := rest ++ [(now, g)], granted := some (w, a.progress w), entry := none, revoking := none, freedAt := none
          kept := removeFirst (fun k => k.1 = w) (a.kept ++ [(g, m)]), paused := removeFirst (fun k => k.1 = w) a.paused
          stalls := (w.len - a.progress w) * (rest.length + 1) } ∧
        (id = .serai → s.dev.phase = .running → s'.dev.serai.freeChoice = satInc (satInc s.dev.serai.freeChoice)) ∧
        (∀ i, i ≠ id → s'.dev.arb i = s.dev.arb i) ∧ s'.dev.store = s.dev.store ∧ s'.dev.itn = s.dev.itn ∧ s'.dev.ctl.chips = s.dev.ctl.chips) ∧
    (∀ g, a.granted = some (g, done) → g.req = r.req →
      exec (.requesterWithdrawal t id r.req) s = .next (s.withDev ((s.dev.atTime t).setArb { a with
        granted := none, entry := none, revoking := none, deadHandshakes := satInc a.deadHandshakes, stalls := a.waiting.length
        freedAt := if g.latencyCritical || a.revoking.isSome then none else some now }))) ∧
    (a.granted = none →
      exec (.requesterWithdrawal t id r.req) s = .next (s.withDev ((s.dev.atTime t).setArb { a with
        waiting := removeFirst (fun w => w.2.req = r.req) a.waiting
        kept := removeFirst (fun k => k.1.req = r.req) a.kept
        paused := removeFirst (fun k => k.1.req = r.req) a.paused })))) ∧
  (∀ (t pos : Nat) (id : ArbId) (tab : SlotTable) (x : SlotEntry) (s : State), s.Inv → s.dev.phase = .running →
    s.dev.ctl.lockstep = true → s.dev.slotTable id = some tab → (∀ c, id = .dramChannel c → (s.dev.atTime t).refreshing = false) →
    let a := s.dev.arb id
    (s.dev.atTime t).tableNext tab tab.entries.length a.tablePos = some (pos, x) →
    let served := if pos = a.tablePos then a.served else 0
    (∀ w, a.granted = none → a.entry = none → a.revoking = none → (∀ w ∈ a.waiting, w.2.ladder = false) →
      a.waiting.find? (fun w => w.2.req = x.req && (x.entry = 0xFFFF || w.2.tag = x.entry)) = some w →
      exec (.arbiterGrant t id) s = .next (s.withDev ((s.dev.atTime t).setArb { a with
        waiting := removeFirst (fun y => y.2 = w.2) a.waiting, granted := some (w.2, a.progress w.2), entry := some x
        kept := removeFirst (fun k => k.1 = w.2) a.kept, paused := removeFirst (fun k => k.1 = w.2) a.paused, freedAt := none
        tablePos := pos, served := served
        stalls := (w.2.len - a.progress w.2) * (removeFirst (fun y => y.2 = w.2) a.waiting).length }))) ∧
    (∀ w, a.granted = none → a.entry = none → a.revoking = none → a.waiting.find? (fun w => w.2.ladder) = some w →
      exec (.arbiterGrant t id) s = .next (s.withDev ((s.dev.atTime t).setArb { a with
        waiting := removeFirst (fun y => y.2 = w.2) a.waiting, granted := some (w.2, a.progress w.2)
        kept := removeFirst (fun k => k.1 = w.2) a.kept, paused := removeFirst (fun k => k.1 = w.2) a.paused, freedAt := none
        stalls := (w.2.len - a.progress w.2) * (removeFirst (fun y => y.2 = w.2) a.waiting).length }))) ∧
    (a.granted = none → a.entry = none → a.revoking = none → (∀ w ∈ a.waiting, w.2.ladder = false) →
      a.waiting.find? (fun w => w.2.req = x.req && (x.entry = 0xFFFF || w.2.tag = x.entry)) = none →
      exec (.arbiterGrant t id) s = .next (s.withDev ((s.dev.atTime t).setArb { a with tablePos := pos, served := served, stalls := 0 })))) ∧
  (∀ (t : Nat) (id : ArbId) (tab : SlotTable) (g : ArbReq) (done : Nat) (y : SlotEntry) (s : State), s.Inv → s.dev.phase = .running →
    s.dev.ctl.lockstep = true → s.dev.slotTable id = some tab →
    let a := s.dev.arb id
    let now := max s.dev.now t
    let b := a.boundaryLockstep tab.entries.length now
    a.granted = some (g, done) → a.entry = some y → a.served < y.count →
    (g.len - done < y.count - a.served → b = { a with
      granted := none, entry := none, revoking := none, stalls := 0, served := a.served + (g.len - done) }) ∧
    (g.len - done = y.count - a.served → b = { a with
      granted := none, entry := none, revoking := none, stalls := 0, served := 0, tablePos := (a.tablePos + 1) % tab.entries.length }) ∧
    (y.count - a.served < g.len - done →
      let stops := y.revoke = true ∧ a.kept.length < 8
      b = { a with
        granted := none, entry := none, revoking := none, stalls := 0, served := 0, tablePos := (a.tablePos + 1) % tab.entries.length
        kept := if stops then a.kept ++ [(g, done + (y.count - a.served))] else a.kept
        paused := if stops then a.paused else a.paused ++ [(g, done + (y.count - a.served))]
        waiting := a.waiting ++ [(now, g)] }) ∧
    ∃ s', exec (.arbiterGrant t id) s = .next s' ∧ s'.pending = s.pending ∧
      s'.dev = ((s.dev.atTime t).countStalls id a.stalled |>.setArb b).grantNext id)

/-- R73, R488. In free mode a refresh refreshes its row at this instant. In lockstep mode a window that runs and
has not refreshed yet refreshes the next 12 rows modulo 1,536 and no other; a refresh outside a window, before it, after its
1,500 ns or a second time, does nothing. -/
def Obligations.RowsRefresh : Prop :=
  ∀ (t : Nat) (row : Fin 1536) (s : State), s.Inv → s.dev.phase = .running →
    let d := s.dev.atTime t
    (s.dev.ctl.lockstep = false → exec (.dramRefresh t row) s = .next (s.withDev { d with
      stk := { s.dev.stk with refreshed := (row.val, d.now) :: s.dev.stk.refreshed.filter (fun x => x.1 ≠ row.val) } })) ∧
    (s.dev.ctl.lockstep = true → exec (.dramRefresh t row) s = .next (s.withDev d)) ∧
    (s.dev.ctl.lockstep = true → (d.now < d.t0 + 125000 * s.dev.stk.windows ∨ 1500 ≤ (d.now - d.t0) % 125000) →
      exec (.refreshWindow t) s = .next (s.withDev d)) ∧
    (s.dev.ctl.lockstep = true → d.t0 + 125000 * s.dev.stk.windows ≤ d.now → (d.now - d.t0) % 125000 < 1500 → s.dev.stk.nextRow < 1536 →
      let window (k : Nat) : Prop := ∃ i < 12, k = (s.dev.stk.nextRow + i) % 1536
      ∃ s', exec (.refreshWindow t) s = .next s' ∧ s'.pending = s.pending ∧
        s'.dev.stk.nextRow = (s.dev.stk.nextRow + 12) % 1536 ∧ d.now < d.t0 + 125000 * s'.dev.stk.windows ∧
        (∀ k at_, (k, at_) ∈ s'.dev.stk.refreshed ↔
          (window k ∧ at_ = d.now) ∨ (¬ window k ∧ (k, at_) ∈ s.dev.stk.refreshed)) ∧
        s'.dev.stk.arbiters = s.dev.stk.arbiters ∧ s'.dev.store = s.dev.store ∧ s'.dev.itn = s.dev.itn)

/-! ### In-service tuning -/

/-- R402, R405, R408, R409, R413. The holds whose expiry has passed are freed, and no other; a reference that one of them held
is dropped and counted. The earliest hold that is left has its accepted reference cut: the hold is freed, the reference is
counted, each of its samples stands in the manifest with its box and its CRC mark, and its slot begins with the N × N × 3
pixels of its box; no byte outside the replay buffer changes. A cut that would write a slot of the running epoch drops the
reference instead, with a free choice counted, and its hold stands until it expires. While that hold is not filled or has no
accepted reference, no more happens. -/
def Obligations.ReferencesCut : Prop :=
  ∀ (t : Nat) (x : Fin 32) (s : State), s.Inv → s.dev.phase = .running →
    let d := s.dev.atTime t
    let y := s.dev.tune x.val
    let live := y.holds.filter (fun h => decide (d.now ≤ h.expiry))
    let drops := (y.holds.filter (fun h => decide (h.expiry < d.now) && h.reference.isSome)).foldl (fun n _ => satInc n)
      (s.dev.strm x.val).treg.refDrops
    let e := (d.modTune x.val (fun z => { z with holds := live })).modTreg x.val (fun z => { z with refDrops := drops })
    exec (.holdExpiry t x) s = .next (s.withDev e) ∧
    (∀ h : Hold, (sortBy (fun (a b : Hold) => a.slot < b.slot) live).head? = some h → h.reference = none ∨ h.filled = false →
      exec (.referenceCut t x) s = .next (s.withDev e)) ∧
    (∀ (r : TuneRec) (h : Hold) (stamp : Nat) (bad : List Nat), s.dev.tuneRec x.val = some r → s.dev.tuning x.val = true →
      (sortBy (fun (a b : Hold) => a.slot < b.slot) live).head? = some h → h.reference = some (stamp, bad) → h.filled = true →
      let numbers := (List.range r.boxes).map (fun k => r.boxes * y.refs + k)
      let clash := y.epochRunning &&
        numbers.any (fun n => (r.epochList y.epoch).any (fun m => m % r.capacity = n % r.capacity))
      (clash = true → exec (.referenceCut t x) s = .next (s.withDev (((e.modTune x.val (fun z =>
        { z with holds := z.holds.map (fun w => if w.slot = h.slot then { w with reference := none } else w) })).refDrop x.val).itnFreeChoice))) ∧
      (clash = false → 1 ≤ r.boxes → r.boxes ≤ r.capacity → r.capacity ≤ 4096 →
        ∃ s', exec (.referenceCut t x) s = .next s' ∧ s'.pending = s.pending ∧
          (s'.dev.tune x.val).holds = live.filter (fun w => w.slot ≠ h.slot) ∧ (s'.dev.tune x.val).refs = y.refs + 1 ∧
          (s'.dev.tune x.val).samples = y.samples + r.boxes ∧
          (s'.dev.strm x.val).treg =
            { (s.dev.strm x.val).treg with refDrops := drops, refsCut := satInc (s.dev.strm x.val).treg.refsCut } ∧
          (∀ g ∈ s.dev.image.rasters.find? (fun g => g.stream = x.val && g.kind = 0), ∀ k < r.boxes,
            let n := r.boxes * y.refs + k
            let box := drawBox r g.width g.height y.refs k
            let size := bucketSize box.1
            let crcBad := bad.any (fun l => decide (box.2.2 ≤ l) && decide (l < box.2.2 + size))
            (∀ i < 8, memGet s'.dev.store.mem (r.replayBase + 8 * (n % r.capacity) + i) =
              (manifestBytes n box.1 box.2.1 box.2.2 crcBad).getD i 0) ∧
            (n, box.1, crcBad) ∈ (s'.dev.tune x.val).manifest ∧
            (∀ i, s.dev.inputRec x.val = some i → 256 ≤ g.width → 256 ≤ g.height →
              3 * (size * size) ≤ r.slotTiles * tileBytes →
              let planes := inputPlanes 0x24 0 g.width g.height
              ∀ p < 3, ∀ v < size, ∀ u < size,
                memGet s'.dev.store.mem (r.slotAddr n + p * (size * size) + v * size + u) =
                  memGet s.dev.store.mem (i.refBase + 16384 + p * inputStride planes +
                    (box.2.2 + v) * roundUp g.width 64 + box.2.1 + u))) ∧
          s'.dev.sameOutside s.dev
            [{ addr := r.replayBase, len := 32768 + r.capacity * r.slotTiles * tileBytes, store := true }] ∧
          s'.dev.itn = s.dev.itn ∧ s'.dev.i3c = s.dev.i3c))

/-- R412, R415 to R418. The next epoch starts, with its walk, once its last sample has been cut. Assembly goes on while a
queue slot is free: at the end of the walk the epoch ends and its open batches go; an intact training sample that completes
the open batch of its bucket emits it, numbered in the order of emission, into a slot of its samples' patches and its
manifest, and clears LOW; when no training sample is left, the epoch ends at once. With all 4 slots full, or no epoch,
nothing but time changes. R425, R426. When the digest of an exported candidate is complete, the candidate holds the digest of
its bank's bytes, and it is ready from this instant unless POLICY 2 still lacks its evaluation. An approval of the candidate
that is ready since an earlier instant approves it; any other approval changes nothing. -/
def Obligations.BatchesAndCandidates : Prop :=
  (∀ (t : Nat) (x : Fin 32) (r : TuneRec) (s : State), s.Inv → s.dev.phase = .running → s.dev.tuneRec x.val = some r →
    let d := s.dev.atTime t
    let y := s.dev.tune x.val
    (r.enable = true → y.epochRunning = false → (y.epoch + 1) * (r.capacity / 4) ≤ y.samples →
      exec (.epochStart t x) s = .next (s.withDev (d.modTune x.val (fun z =>
        { z with epochRunning := true, walk := r.walk z.epoch, walkPos := 0, open_ := [] })))) ∧
    (y.epochRunning = true ∨ y.samples < (y.epoch + 1) * (r.capacity / 4) →
      exec (.epochStart t x) s = .next (s.withDev d)) ∧
    (y.epochRunning = false ∨ 4 ≤ y.queue.length → exec (.batchAssembly t x) s = .next (s.withDev d)) ∧
    (s.dev.tuning x.val = true → y.epochRunning = true → y.queue.length < 4 →
      (y.walk.length ≤ y.walkPos → exec (.batchAssembly t x) s = .next (s.withDev (d.modTune x.val (fun z =>
        { z with open_ := [], epochRunning := false, epoch := z.epoch + 1 })))) ∧
      (∀ n z, y.walk[y.walkPos]? = some n → r.isValidation n = false → y.manifest.find? (fun m => m.1 = n) = some (n, z, false) →
        (∀ i < s.dev.patchTiles r z, s.dev.passes (r.slotAddr n + i * tileBytes) = true) →
        let b := openBatch y z y.walkPos
        b.samples.length + 1 = bucketBatch z →
        ∃ s' b', exec (.batchAssembly t x) s = .next s' ∧ s'.pending = s.pending ∧
          (s'.dev.tune x.val).queue = y.queue ++ [b'] ∧ b'.samples = b.samples ++ [n] ∧ b'.number = y.batches ∧ b'.bucket = z ∧
          b'.skipped = b.skipped ∧ (s'.dev.tune x.val).batches = y.batches + 1 ∧ (s'.dev.tune x.val).low = false ∧
          b'.slot = b'.samples.flatMap (fun m => s.dev.peek (r.slotAddr m) (s.dev.patchTiles r z * tileBytes)) ++ b'.bytes ∧
          (let left := (y.walk.drop (y.walkPos + 1)).any (fun m => !r.isValidation m)
           (s'.dev.tune x.val).walkPos = y.walkPos + 1 ∧ (s'.dev.tune x.val).epochRunning = left ∧
             (s'.dev.tune x.val).epoch = (if left then y.epoch else y.epoch + 1) ∧
             (s'.dev.tune x.val).open_ = if left then y.open_.filter (fun w => w.bucket ≠ z) else []) ∧
          s'.dev.store = s.dev.store ∧ s'.dev.itn = s.dev.itn ∧ s'.dev.i3c = s.dev.i3c))) ∧
  (∀ (t : Nat) (x : Fin 32) (r : TuneRec) (c : Candidate) (c16 : BitVec 16) (s : State), s.Inv → s.dev.phase = .running →
    s.dev.tuneRec x.val = some r → (s.dev.tune x.val).cand = some c →
    let now := max s.dev.now t
    let ready := ∃ at_, c.readyAt = some at_ ∧ at_ < now ∧ c.c % 2 ^ 16 = c16.toNat
    (∀ p, s.dev.package (s.dev.ssbModel x.val) = some p → c.exported = true → c.digest = none → c.readyAt = none →
      ∃ s', exec (.weightDigestComplete t x) s = .next s' ∧ s'.pending = s.pending ∧
        (s'.dev.tune x.val).cand = some { c with
          digest := some (weightDigest p.package
            (s.dev.peek (r.bankBase c.bank) p.bank0Bytes))
          readyAt := if r.policy ≠ 2 ∨ c.evalDone = true then some now else none } ∧
        (s'.dev.strm x.val).treg = (s.dev.strm x.val).treg ∧ s'.dev.store = s.dev.store ∧ s'.dev.itn = s.dev.itn) ∧
    (ready → exec (.itnTuneApprove t x c16) s = .next (s.withDev ((s.dev.atTime t).modTune x.val (fun z =>
      { z with cand := some { c with approved := true } })))) ∧
    (¬ ready → exec (.itnTuneApprove t x c16) s = .next (s.withDev (s.dev.atTime t))))

/-! ### Identity and attestation -/

/-- R666 to R668, R664, Table 15.13. A START copies the challenge unless an exchange runs. The answer of a device with a
usable identity, whose session key has a leaf left after this one and that the last-seen leaf does not advance, is the
response of Table 15.11 under the next leaf; the key is released, the attestation counted, and a key with 64 leaves left makes
the next one be prepared; an exchange whose key has no leaf left waits. Without a usable identity it is UNSUPPORTED with no response. R654, R663 to R665, R662. A session
key that is due to be prepared takes the next leaf of the reserved block, when the leaf's path agrees with the cached tree and
ID_CERT: its seeds are the leaf's and its certificate is signed under the identity; a path that disagrees leaves TREEFAIL and
an identity that is not usable. The background erase leaves its journal slot erased and every other byte of the NOR as it was.
-/
def Obligations.AttestationAnswers : Prop :=
  (∀ (t : Nat) (ctl : Word) (chal : List Word) (useLast : Bool) (s : State), s.Inv → s.dev.Still →
    s.dev.phase = .running ∨ s.dev.phase = .awaitChips →
    let d := s.dev.atTime t
    (ctl.getLsbD 0 = true → s.dev.attest.busy = none →
      exec (.attestationStart t ctl) s = .next (s.withDev { d with
        attest := { s.dev.attest with busy := some (s.dev.attest.chal.toList, ctl.getLsbD 1), ready := false } })) ∧
    (ctl.getLsbD 0 = false ∨ s.dev.attest.busy.isSome = true →
      exec (.attestationStart t ctl) s = .next (s.withDev d)) ∧
    (s.dev.attest.busy = none → exec (.attestationResponse t) s = .next (s.withDev d)) ∧
    (s.dev.attest.busy = some (chal, useLast) →
      (s.dev.trust.usable = false → exec (.attestationResponse t) s = .next (s.withDev { d with
        trust := { s.dev.trust with lastStatus := .unsupported }, attest := { s.dev.attest with busy := none } })) ∧
      (∀ k : SessionKey, s.dev.trust.usable = true → s.dev.trust.session = some k → sessionLeaves ≤ k.next →
        exec (.attestationResponse t) s = .next (s.withDev d)) ∧
      (∀ k : SessionKey, s.dev.trust.usable = true → s.dev.trust.session = some k → k.next + 1 < sessionLeaves →
        useLast = false ∨ s.dev.advances (chal.getD 8 0).toNat = false →
        exec (.attestationResponse t) s = .next (s.withDev { d with
          trust := { s.dev.trust with
            session := some { k with next := k.next + 1, released := true }, lastStatus := .ok
            preparing := s.dev.trust.preparing || (k.next + 65 = sessionLeaves && s.dev.trust.prepared.isNone) }
          attest := { s.dev.attest with
            response := d.responseBytes ((chal.take 8).flatMap (fun w => leBytes 4 w.toNat)) k
            ready := true, attests := satInc s.dev.attest.attests, busy := none } })))) ∧
  (∀ (t b : Nat) (cur : SessionKey) (s : State), s.Inv → s.dev.Still → s.dev.phase = .running →
    let d := s.dev.atTime t
    let leaf := s.dev.trust.nextLeaf
    (s.dev.trust.preparing = true → s.dev.trust.prepared = none → s.dev.trust.usable = true → s.dev.trust.block = some b →
      leaf < 16 * b + 16 → s.dev.trust.session = some cur → cur.next < sessionLeaves →
      (s.dev.treePath leaf = true →
        let seeds := s.dev.trust.sessionSeeds leaf
        let body := s.dev.sessionBody leaf seeds
        exec (.sessionKeyPreparation t) s = .next (s.withDev { d with trust := { s.dev.trust with
          nextLeaf := leaf + 1, sessions := satInc s.dev.trust.sessions, preparing := false
          prepared := some { leaf := leaf, next := 0, seeds := seeds, released := false
                             certificate := body ++ fitTo 2820 (xmssSign 0x03 s.dev.trust.idSeeds leaf body) } } })) ∧
      (s.dev.treePath leaf = false →
        exec (.sessionKeyPreparation t) s = .next (s.withDev { d with trust := { s.dev.trust with
          nextLeaf := leaf + 1, treeFail := true, usable := false, preparing := false } }))) ∧
    (s.dev.trust.preparing = false → exec (.sessionKeyPreparation t) s = .next (s.withDev d)) ∧
    (s.dev.attest.eraseSlot = none → exec (.backgroundSlotErase t) s = .next (s.withDev d)) ∧
    (∀ k : Fin 2, s.dev.attest.eraseSlot = some k →
      ∃ s', exec (.backgroundSlotErase t) s = .next s' ∧ s'.pending = s.pending ∧
        s'.dev.attest = { s.dev.attest with eraseSlot := none } ∧
        (∀ a, norGet s'.dev.store.nor a =
          (if slotAddr k.val ≤ a ∧ a < slotAddr k.val + 4096 then 0xFF else norGet s.dev.store.nor a)) ∧
        s'.dev.store.mem = s.dev.store.mem ∧ s'.dev.trust = s.dev.trust ∧ s'.dev.i3c = s.dev.i3c))

/-! ### Requests -/

/-- R690 to R694. An ABORT of a launch that waits for an engine withdraws it; one of a launch that runs on an engine ends its
list with ABORTED; one of the instance that falls due next marks it; each of these ends the request with ABORTED and the
launch's count. One of an instance that has committed ends it with ALREADY_DONE, and one of an entry that the active itinerary
does not have is UNSUPPORTED and changes nothing else but its result. -/
def Obligations.AbortRuns : Prop :=
  ∀ (t : Nat) (b : List Byte) (s : State), s.Inv → s.dev.req.pending = some b → s.dev.req.watch = none →
    field b 0 1 = 1 →
    let index := field b 2 1
    let entry := field b 8 2
    let arg := field b 4 4
    let d := s.dev.atTime t
    let ended (s' : State) (st : Status) (n : Nat) : Prop :=
      exec (.abort t) s = .next s' ∧ s'.pending = s.pending ∧ s'.dev.req = { s.dev.req with
        pending := none, result := requestResult b (statusCode st) 2, arg := word n, count := satInc s.dev.req.count }
    (s.dev.Still → (s.dev.phase ≠ .running ∨ index ≠ s.dev.itn.active ∨ s.dev.entryOf index entry = none) →
      exec (.abort t) s = .next (s.withDev { d with req := { s.dev.req with
        pending := none, result := requestResult b (statusCode .unsupported) 2, arg := word arg } })) ∧
    (∀ x : Entry, s.dev.phase = .running → index = s.dev.itn.active → s.dev.entryOf index entry = some x → x.target = 0 →
      (s.dev.Still → s.dev.liveLaunches index entry = [] → arg = 0xFFFFFFFF →
        (index, entry, s.dev.nextCount entry) ∉ s.dev.itn.aborted →
        ∃ s', ended s' .aborted (s.dev.nextCount entry) ∧
          s'.dev.itn = { s.dev.itn with aborted := s.dev.itn.aborted ++ [(index, entry, s.dev.nextCount entry)] } ∧
          s'.dev.ne = s.dev.ne ∧ s'.dev.ctxs = s.dev.ctxs ∧ s'.dev.i3c = s.dev.i3c) ∧
      (∀ n, s.dev.Still → s.dev.liveLaunches index entry = [] → arg ≠ 0xFFFFFFFF →
        s.dev.itn.ended.find? (fun y => y.index = index && y.entry = entry && y.count % 2 ^ 32 = arg) = some n →
        committed n.status = true →
        ∃ s', ended s' .alreadyDone arg ∧ s'.dev.itn = s.dev.itn ∧ s'.dev.ne = s.dev.ne ∧ s'.dev.ctxs = s.dev.ctxs) ∧
      (∀ (y : Due) (v : Serve), s.dev.Still → s.dev.liveLaunches index entry = [(y, .waiting)] →
        arg = 0xFFFFFFFF ∨ y.count % 2 ^ 32 = arg → s.dev.serveOf y = some v → v.bind = none → v.entry = x →
        s.dev.rfe.sets = [] →
        ∃ s', ended s' .aborted y.count ∧ y ∉ s'.dev.itn.waiting ∧
          (∀ i < 16, memGet s'.dev.store.mem (v.launch.record + i) =
            (recordBytes .aborted 0 0 (d.now / 1000) y.count).getD i 0) ∧
          s'.dev.sameOutside s.dev [{ addr := v.launch.record, len := 16, store := true }] ∧
          ∀ e < 6, (s'.dev.eng e).run = (s.dev.eng e).run) ∧
      (∀ (e : Fin 6) (r : Run), s.dev.Alone e.val → (s.dev.eng e.val).run = some r → s.dev.plainRun r →
        s.dev.liveLaunches index entry = [(r.due, .engine e.val)] → arg = 0xFFFFFFFF ∨ r.due.count % 2 ^ 32 = arg →
        s.dev.rfe.sets = [] →
        ∃ s', ended s' .aborted r.due.count ∧ (s'.dev.eng e.val).run = none ∧ (s'.dev.eng e.val).pre = .idle ∧
          (s'.dev.eng e.val).regs.lastStatus = word (2 + r.ctx * 256 + r.lastStarted % 2 ^ 16 * 2 ^ 16)))

/-- R695. A PREEMPT of an engine without a best-effort launch is UNSUPPORTED. Without SAVE, a best-effort launch is asked to
give way at its next yield point and the request waits for it; with SAVE, one that may be saved and give way begins its
full save at once, and the request ends with OK. R696, R697, R468, R544. A TEARDOWN of a quarantined context ends with
ALREADY_DONE and changes nothing else of it; of another context with nothing under way, it quarantines it under cause 5,
counts the teardown and ends with OK. An Otson reset in a device of one chip is UNSUPPORTED; else it resets the pair and ends
with OK. -/
def Obligations.OtherRequestsRun : Prop :=
  (∀ (t : Nat) (e : Fin 6) (b : List Byte) (s : State), s.Inv → s.dev.Still → s.dev.req.pending = some b →
    field b 0 1 = 2 → field b 2 1 = e.val →
    let d := s.dev.atTime t
    let x := s.dev.eng e.val
    (x.run = none ∨ x.run.any (fun r => !r.bestEffort) = true ∨ x.retired = true →
      exec (.preempt t) s = .next (s.withDev { d with req := { s.dev.req with
        pending := none, result := requestResult b (statusCode .unsupported) 2, arg := word 0 } })) ∧
    (∀ r : Run, x.run = some r → r.bestEffort = true → x.retired = false → x.pre = .running →
      (bit (field b 3 1) 0 = false →
        exec (.preempt t) s = .next (s.withDev (({ d with req := { s.dev.req with watch := some (e.val, r.due, false) } } : Device).modEng
          e.val (fun y => { y with pre := .requested, request := none })))) ∧
      (bit (field b 3 1) 0 = true → (s.dev.entryOf r.due.index r.due.entry).any (fun y => y.saveOk) = true →
        s.dev.yields r = true →
        ∃ s', exec (.preempt t) s = .next s' ∧ s'.pending = s.pending ∧ s'.dev.req = { s.dev.req with
            pending := none, result := requestResult b (statusCode .ok) 2, arg := word 0, count := satInc s.dev.req.count } ∧
          (s'.dev.eng e.val).pre = .saving ∧ (s'.dev.eng e.val).moving = some r.ctx ∧ (s'.dev.eng e.val).run = some r ∧
          (s'.dev.eng e.val).saveStart = d.now ∧ s'.dev.store.mem = s.dev.store.mem ∧ s'.dev.ctxs = s.dev.ctxs))) ∧
  (∀ (t : Nat) (c : Fin 64) (b : List Byte) (s : State), s.Inv → s.dev.Still → s.dev.req.pending = some b →
    let ended (s' : State) (st : Status) : Prop :=
      s'.pending = s.pending ∧ s'.dev.req = { s.dev.req with
        pending := none, result := requestResult b (statusCode st) 2, arg := word 0, count := satInc s.dev.req.count }
    (field b 0 1 = 3 → field b 2 1 = c.val →
      ((s.dev.ctx c.val).mode = .quarantined →
        ∃ s', exec (.teardown t) s = .next s' ∧ ended s' .alreadyDone ∧ s'.dev.ctxs = s.dev.ctxs ∧ s'.dev.itn = s.dev.itn ∧
          s'.dev.ne = s.dev.ne) ∧
      ((s.dev.ctx c.val).mode ≠ .quarantined → (s.dev.ctx c.val).ready = [] → (s.dev.ctx c.val).kept = none →
        s.dev.itn.waiting = [] → s.dev.rfe.sets = [] → (∀ u < 7, (s.dev.unit u).queue = []) →
        (∀ e < 6, (s.dev.eng e).moving ≠ some c.val ∧ ∀ r, (s.dev.eng e).run = some r → r.ctx ≠ c.val) →
        ∃ s', exec (.teardown t) s = .next s' ∧ ended s' .ok ∧ (s'.dev.ctx c.val).mode = .quarantined ∧
          (∀ m < 256, (s'.dev.sem m).heldBy c.val = false) ∧ s'.dev.itn.teardowns = satInc s.dev.itn.teardowns ∧
          s'.dev.itn.lastTeardown = word (5 + c.val * 256 + (s.dev.ctx c.val).lastEntry % 2 ^ 16 * 2 ^ 16) ∧
          s'.dev.ne = s.dev.ne ∧ (∀ k < 64, k ≠ c.val → s'.dev.ctx k = s.dev.ctx k) ∧ s'.dev.store.mem = s.dev.store.mem)) ∧
    (field b 0 1 = 4 →
      (s.dev.ctl.chips = 1 → exec (.otsonReset t) s = .next (s.withDev { s.dev.atTime t with req := { s.dev.req with
        pending := none, result := requestResult b (statusCode .unsupported) 2, arg := word 0 } })) ∧
      (∀ east : Bool, s.dev.ctl.chips ≠ 1 → (field b 2 1 = 0 ↔ east = true) → (∀ k < 64, (s.dev.ctx k).kept = none) →
        ∃ s', exec (.otsonReset t) s = .next s' ∧ ended s' .ok ∧
          (s'.dev.ots.pair east).epoch = (s.dev.ots.pair east).epoch + 1 ∧
          (s'.dev.ots.pair east).credits = Vector.replicate 2 64 ∧ (s'.dev.ots.pair east).sendQ = [] ∧
          s'.dev.ots.pair (!east) = s.dev.ots.pair (!east) ∧ s'.dev.ots.resets = satInc s.dev.ots.resets)))

/-- R698, R475. A MODE request that names no absent package or stream and no determinism mode that the itinerary forbids,
outside a replay, waits for the boundary of the cycle K that it names, or of the earliest allowed one, and ends with OK and K;
a K that the lead time rules out ends with DEADLINE_MISS, a 17th waiting change with NO_CREDIT, and any other request is
UNSUPPORTED: then no change waits. -/
def Obligations.ModeRequestWaits : Prop :=
  ∀ (t : Nat) (b : List Byte) (s : State), s.Inv → s.dev.Still → s.dev.req.pending = some b → field b 0 1 = 5 →
    let d := s.dev.atTime t
    let arg := field b 4 4
    let body := b.drop 8
    let k := if arg = 0xFFFFFFFF then d.earliestK else arg
    let refused := s.dev.phase ≠ .running ∨ s.dev.ctl.replay = true ∨ s.dev.modeAbsent body = true ∨ s.dev.modeRefused body = true
    let ends (st : Status) (n : Nat) : Prop := exec (.mode t) s = .next (s.withDev { d with req := { s.dev.req with
      pending := none, result := requestResult b (statusCode st) 2, arg := word n } })
    (arg = 0xFFFFFFFF → 0 < d.cycleNs → s.dev.itn.k < k ∧ d.now + 1000000 ≤ d.t0 + k * d.cycleNs ∧
      ∀ j, s.dev.itn.k < j → d.now + 1000000 ≤ d.t0 + j * d.cycleNs → k ≤ j) ∧
    (refused → ends .unsupported arg) ∧
    (¬ refused →
      (16 ≤ s.dev.req.modes.length → ends .noCredit k) ∧
      (s.dev.req.modes.length < 16 →
        (k ≤ s.dev.itn.k ∨ d.t0 + k * d.cycleNs < d.now + 1000000 → ends .deadlineMiss k) ∧
        (s.dev.itn.k < k → d.now + 1000000 ≤ d.t0 + k * d.cycleNs →
          ∃ s', exec (.mode t) s = .next s' ∧ s'.pending = s.pending ∧ s'.dev.req = { s.dev.req with
              pending := none, result := requestResult b (statusCode .ok) 2, arg := word k, count := satInc s.dev.req.count
              modes := s.dev.req.modes ++ [{ k := k, fromI3c := true, order := (d.now, s.dev.req.modes.length), body := body }] } ∧
            s'.dev.itn = s.dev.itn ∧ s'.dev.ne = s.dev.ne ∧ s'.dev.store.mem = s.dev.store.mem ∧ s'.dev.i3c = s.dev.i3c)))

/-! ### The I3C target -/

/-- R675, R682, R674, Table 16.2. ENEC and DISEC with ENINT set and clear it, and another event byte changes no enable.
ENTHDR0 puts the bus into HDR mode; any other common command finds it in SDR mode (DEDUCED, log 42). ENTDAA gives a target
without a dynamic address its address and sends its identity; SETDASA does so for a target at its static address, 0x2C +
ADDR_SEL; SETNEWDA gives a target with an address another. The byte order of the identity is PRESUMED (the log of the I3C
conventions). R675, R677, Tables 16.1 and 16.2. At its dynamic address the target answers GETPID, GETBCR, GETDCR and GETMXDS
with its identity, and GETSTATUS with its 16-bit value, most significant byte first (PRESUMED), after which the protocol-error
flag is clear. Without a dynamic address it answers none of them. -/
def Obligations.CommonCommandsRun : Prop :=
  (∀ (t : Nat) (ev : Byte) (a x : BitVec 7) (s : State), s.Inv → s.dev.phase ≠ .off →
    let bus := (s.dev.atTime t).modI3c (fun r => { r with hdr := false })
    let at_ := s.dev.i3c.dynAddr
    exec (.enec t ev) s = .next (s.withDev (bus.modI3c (fun r => { r with enint := r.enint || ev.getLsbD 0 }))) ∧
    exec (.disec t ev) s = .next (s.withDev (bus.modI3c (fun r => { r with enint := r.enint && !ev.getLsbD 0 }))) ∧
    exec (.enthdr0 t) s = .next (s.withDev ((s.dev.atTime t).modI3c (fun r => { r with hdr := true }))) ∧
    (at_ = none →
      exec (.entdaa t a) s = .next (s.withDev (bus.modI3c (fun r => { r with
        dynAddr := some a
        reply := (leBytes 6 (0x3B1 * 2 ^ 33 + 0x0616 * 2 ^ 16 + s.dev.pins.addrSel.toNat * 2 ^ 12 + 0x0A1)).reverse ++ [0x06, 0x00] }))) ∧
      (x.toNat = 0x2C + s.dev.pins.addrSel.toNat →
        exec (.setdasa t x a) s = .next (s.withDev (bus.modI3c (fun r => { r with dynAddr := some a })))) ∧
      exec (.setnewda t a) s = .next (s.withDev bus)) ∧
    (at_.isSome = true ∨ x.toNat ≠ 0x2C + s.dev.pins.addrSel.toNat →
      exec (.setdasa t x a) s = .next (s.withDev bus)) ∧
    (at_.isSome = true →
      exec (.entdaa t a) s = .next (s.withDev bus) ∧
      exec (.setnewda t a) s = .next (s.withDev (bus.modI3c (fun r => { r with dynAddr := some a }))))) ∧
  (∀ (t : Nat) (s : State), s.Inv → s.dev.phase ≠ .off →
    let bus := (s.dev.atTime t).modI3c (fun r => { r with hdr := false })
    let gives (c : Instr) (bs : List Byte) : Prop := exec c s = .next (s.withDev (bus.modI3c (fun r => { r with reply := bs })))
    let high := boolNat s.dev.ctl.locked + 2 * boolNat (s.dev.phase = .inert) + 4 * boolNat (s.dev.phase = .running) +
      8 * boolNat s.dev.ctl.lockstep + 16 * boolNat (s.dev.ne.any (fun e => e.retired || e.asleep)) +
      32 * boolNat (s.dev.fcNonzero != 0) + 64 * boolNat (s.dev.i3c.lost != 0) + 128 * boolNat s.dev.trust.usable
    let low := min 15 s.dev.i3c.queue.length + 32 * boolNat s.dev.i3c.protocolError
    (s.dev.i3c.dynAddr.isSome = true →
      gives (.getpid t) (leBytes 6 (0x3B1 * 2 ^ 33 + 0x0616 * 2 ^ 16 + s.dev.pins.addrSel.toNat * 2 ^ 12 + 0x0A1)).reverse ∧
      gives (.getbcr t) [0x06] ∧ gives (.getdcr t) [0x00] ∧ gives (.getmxds t) [0, 0] ∧
      exec (.getstatus t) s = .next (s.withDev (bus.modI3c (fun r => { r with
        reply := [BitVec.ofNat 8 high, BitVec.ofNat 8 low], protocolError := false, patternSeen := false })))) ∧
    (s.dev.i3c.dynAddr = none →
      ∀ c ∈ [Instr.getpid t, .getbcr t, .getdcr t, .getmxds t, .getstatus t], exec c s = .next (s.withDev bus)))

/-- R676, R634. RSTACT arms the reset that the next target reset pattern makes, and sends its reset time, which the spec
leaves open (a free value, log 42), for 0x81 and 0x82. A pattern armed with the whole reset, or a second one with no GETSTATUS
between, resets the device: of all state only the NOR stays. Any other pattern clears the private-transfer and read-setup
state alone. -/
def Obligations.TargetResets : Prop :=
  ∀ (t : Nat) (b : Byte) (s : State), s.Inv → s.dev.phase ≠ .off →
    let bus := (s.dev.atTime t).modI3c (fun r => { r with hdr := false })
    (b = 0x00 → exec (.rstact t b) s = .next (s.withDev (bus.modI3c (fun r => { r with armed := .none })))) ∧
    (b = 0x01 → exec (.rstact t b) s = .next (s.withDev (bus.modI3c (fun r => { r with armed := .peripheral })))) ∧
    (b = 0x02 → exec (.rstact t b) s = .next (s.withDev (bus.modI3c (fun r => { r with armed := .whole })))) ∧
    (b = 0x81 ∨ b = 0x82 →
      exec (.rstact t b) s = .next (s.withDev (bus.modI3c (fun r => { r with reply := [Config.resetTimeCode] })))) ∧
    (s.dev.i3c.armed = .whole ∨ (s.dev.i3c.armed = .none ∧ s.dev.i3c.patternSeen = true) →
      exec (.targetResetPattern t) s = .next (s.withDev (Device.reset s.dev.store.nor s.dev.pins.powerUp s.dev.store.freeCtr))) ∧
    (s.dev.i3c.armed = .peripheral → exec (.targetResetPattern t) s = .next (s.withDev (bus.modI3c (fun r =>
      { r with setup := none, reply := [], armed := .none })))) ∧
    (s.dev.i3c.armed = .none → s.dev.i3c.patternSeen = false →
      exec (.targetResetPattern t) s = .next (s.withDev (bus.modI3c (fun r =>
        { r with setup := none, reply := [], patternSeen := true }))))

/-- R678, R680, R681, R633, R9 to R12, R644. A register write carried in SDR, or in HDR-DDR by command 0x20 with a pad byte,
sets CTL_IBI_MASK, in which the bit of event 0x1A stays 1; it sets TOLL_CAP before the configuration lock, and after it the
write is ignored; either ends with OK in CTL_I3C_LAST. An inert device refuses it whole with UNSUPPORTED. A write that is too
short is refused too, with the protocol-error flag. R678, R679, R681, R633, R9. A read setup of 1 to 64 registers waits for
its read, which sends its TAG, a status and the words: a read of the two time-base registers sends the time base whole,
latched by its low half. Without a setup the TAG is 0 and the status UNSUPPORTED, and an inert device sends UNSUPPORTED for a
register outside CTL_STATUS, BOOT and TRUST. An HDR-DDR read with another command code than 0xA0 is ignored. A read of a
register by itself sends its value. -/
def Obligations.RegistersWrittenAndRead : Prop :=
  (∀ (t : Nat) (xfer : Xfer) (tag : Byte) (w : Word) (s : State), s.Inv → s.dev.Still → s.dev.phase ≠ .off →
    s.dev.i3c.dynAddr.isSome = true → xfer = .sdr ∨ (xfer = .hdr 0x20 ∧ s.dev.i3c.hdr = true) →
    bits tag.toNat 7 6 = 0 →
    let bus := (s.dev.atTime t).modI3c (fun r => { r with hdr := r.hdr && xfer ≠ .sdr })
    let sent (off : Nat) : List Byte :=
      tag :: (leBytes 4 off ++ leBytes 4 w.toNat) ++ (if xfer = .sdr then [] else [0])
    let noted (d : Device) (st : Status) : Device :=
      d.modI3c (fun r => { r with last := word (tag.toNat + statusCode st * 256) })
    (s.dev.phase ≠ .inert →
      exec (.registerWrite t xfer (sent 0x20C)) s = .next (s.withDev (noted (bus.modI3c (fun r =>
        { r with mask := BitVec.ofNat 11 w.toNat ||| 0x400 })) .ok)) ∧
      (s.dev.ctl.locked = true →
        exec (.registerWrite t xfer (sent 0x800004)) s = .next (s.withDev (noted bus .ok))) ∧
      (s.dev.ctl.locked = false →
        exec (.registerWrite t xfer (sent 0x800004)) s = .next (s.withDev
          (noted { bus with toll := { s.dev.toll with cap := w.toNat } } .ok)))) ∧
    (s.dev.phase = .inert →
      exec (.registerWrite t xfer (sent 0x20C)) s = .next (s.withDev (noted bus .unsupported))) ∧
    exec (.registerWrite t .sdr [tag]) s = .next (s.withDev ((noted (bus.modI3c (fun r => { r with hdr := false })) .unsupported).modI3c
      (fun r => { r with protocolError := true })))) ∧
  (∀ (t off : Nat) (xfer : Xfer) (tag n : Byte) (s : State), s.Inv → s.dev.Still → s.dev.phase ≠ .off →
    s.dev.i3c.dynAddr.isSome = true → xfer = .sdr ∨ (xfer = .hdr 0xA0 ∧ s.dev.i3c.hdr = true) →
    let d := s.dev.atTime t
    let bus := d.modI3c (fun r => { r with hdr := r.hdr && xfer ≠ .sdr })
    let read := Instr.privateRead t xfer
    (bits tag.toNat 7 6 = 1 → off % 4 = 0 → 1 ≤ n.toNat → n.toNat ≤ 64 → off + 4 * n.toNat ≤ registerLimit →
      exec (.readSetup t .sdr (tag :: leBytes 4 off ++ [n])) s = .next (s.withDev (d.modI3c (fun r =>
        { r with hdr := false, last := word tag.toNat, setup := some (tag, off, n.toNat) })))) ∧
    (s.dev.i3c.setup = none → exec read s = .next (s.withDev (bus.modI3c (fun r => { r with reply := [0x00, 0x0B] })))) ∧
    (s.dev.i3c.setup = some (tag, 0x10, 2) →
      (s.dev.ctl.locked = true → s.dev.phase ≠ .inert →
        exec read s = .next (s.withDev { bus with
          i3c := { bus.i3c with setup := none, reply := tag :: 0x00 :: leBytes 8 d.now }
          ctl := { s.dev.ctl with timeHi := word (d.now / 2 ^ 32) } })) ∧
      (s.dev.phase = .inert →
        exec read s = .next (s.withDev (bus.modI3c (fun r => { r with setup := none, reply := [tag, 0x0B] }))))) ∧
    (∀ c, c ≠ 0xA0 → exec (.privateRead t (.hdr c)) s = .next (s.withDev d)) ∧
    (s.dev.ctl.locked = true → s.dev.phase ≠ .inert →
      exec (.loRegisterRead t 0x10) s = .next (s.withDev { d with
        i3c := { s.dev.i3c with reply := leBytes 4 d.now }, ctl := { s.dev.ctl with timeHi := word (d.now / 2 ^ 32) } }) ∧
      exec (.loRegisterRead t 0x14) s = .next (s.withDev { d with
        i3c := { s.dev.i3c with reply := leBytes 4 s.dev.ctl.timeHi.toNat } })))

/-- R682, R683, R684, R687. The events of one instant that nobody has raised stand as the close of each command leaves them:
one of lower rank (0x1A, then ascending code, 0x10 last) before one of higher rank, behind the older ones, with the same events
and the same sequence of SEQ values. An in-band interrupt is raised with a dynamic address, ENINT and an event queued: it sends the 8 bytes
of the oldest event, which leaves the queue only when all of them were read. An event that the controller does not take stays
at the head, and no event of its instant passes it from then on. -/
def Obligations.InterruptsRaised : Prop :=
  ∀ (t n : Nat) (acked : Bool) (e : IbiEvent) (rest : List IbiEvent) (s : State), s.Inv → s.dev.phase ≠ .off →
    s.dev.i3c.queue = e :: rest →
    let d := s.dev.atTime t
    let up := s.dev.i3c.dynAddr.isSome = true ∧ s.dev.i3c.enint = true ∧ acked = true
    let payload := leBytes 1 (eventCode e.event) ++ leBytes 1 e.seq ++ leBytes 1 e.arg0 ++ leBytes 1 e.arg1 ++ leBytes 4 e.arg2
    let head : IbiEvent := { e with at_ := none }
    (up → exec (.ibi t acked n) s = .next (s.withDev (d.modI3c (fun r =>
      { r with reply := payload.take n, queue := if 8 ≤ n then rest else head :: rest })))) ∧
    (s.dev.i3c.dynAddr.isSome = true → s.dev.i3c.enint = true → acked = false →
      exec (.ibi t acked n) s = .next (s.withDev (d.modI3c (fun r => { r with queue := head :: rest })))) ∧
    (s.dev.i3c.dynAddr = none ∨ s.dev.i3c.enint = false → exec (.ibi t acked n) s = .next (s.withDev d)) ∧
    (∀ (q : List IbiEvent), let placed := eventsInOrder d.now q
      placed.map (·.seq) = (q.filter (fun x => x.at_ ≠ some d.now)).map (·.seq) ++ (q.filter (fun x => x.at_ = some d.now)).map (·.seq) ∧
      (placed.map (fun x => (x.event, x.arg0, x.arg1, x.arg2, x.at_))).Perm (q.map (fun x => (x.event, x.arg0, x.arg1, x.arg2, x.at_))) ∧
      placed.Pairwise (fun x y => x.at_ = some d.now → y.at_ = some d.now ∧ eventRank x.event ≤ eventRank y.event))

/-! ### The boot -/

/-- R634, R635, R647, R656, R658, R682, Tables 15.8, 15.9 and 15.13. A boot runs once after a reset. It ends at T0 or in the wait
for HELLO, with the registers locked, or inert: it is inert when the image header is wrong, when the image is not signed, and
when the base logic or two engines fail their tests; then ALERT_N is low. A wrong header leaves BOOT_STATUS at order 3 with
CONFIG_REJECTED and the lanes as they were. In-band interrupts are disabled after it. Of a boot that a reset falls into only the
NOR stays, and the next boot runs anew. The NOR changes in the journal alone; before the journal is programmed it does not. -/
def Obligations.BootEnds : Prop :=
  ∀ (t : Nat) (f : BootFacts) (s : State), s.Inv → s.dev.Still →
    let h := imgHeadOf (s.dev.norRead norImage 256)
    let badHead := imgHeadOk (s.dev.norRead norImage 256) = false
    let unsigned := imageSigned (s.dev.norRead (norImage + h.sigOffset) h.sigBytes) (s.dev.norRead norImage (256 + 64 * h.nsect)) = false
    (s.dev.boot.order ≠ 0 ∨ (s.dev.phase ≠ .preLock ∧ s.dev.phase ≠ .off) →
      exec (.boot t f) s = .next (s.withDev (s.dev.atTime t))) ∧
    (s.dev.boot.order = 0 → s.dev.phase = .preLock ∨ s.dev.phase = .off → ∀ c, f.cut = some c →
      ∃ s', exec (.boot t f) s = .next s' ∧ s'.pending = s.pending ∧
        s'.dev = Device.reset s'.dev.store.nor s.dev.pins.powerUp s'.dev.store.freeCtr ∧
        (∀ a, a < 0x30000 ∨ 0x32000 ≤ a → norGet s'.dev.store.nor a = norGet s.dev.store.nor a) ∧
        (badHead ∨ unsigned ∨ c = .beforeProgram → s'.dev.store.nor = s.dev.store.nor)) ∧
    (s.dev.boot.order = 0 → s.dev.phase = .preLock ∨ s.dev.phase = .off → f.cut = none →
      ∃ s', exec (.boot t f) s = .next s' ∧ s'.pending = s.pending ∧ s'.dev.pins.addrSel = f.addrSel ∧ s'.dev.i3c.enint = false ∧
        ((s'.dev.phase = .running ∨ s'.dev.phase = .awaitChips) ∧ s'.dev.ctl.locked = true ∨ s'.dev.phase = .inert) ∧
        (badHead ∨ unsigned ∨ f.badBase = true ∨ 2 ≤ bitsSet f.badEngines → s'.dev.phase = .inert ∧ s'.dev.pins.alertLow = true) ∧
        (badHead → s'.dev.boot.order = 3 ∧ s'.dev.boot.status = .configRejected ∧ s'.dev.boot.failIndex = 0x3FF ∧
          (s.dev.boot.cause = 0 → s'.dev.boot.cause = 1 ∨ s'.dev.boot.cause = 2 ∨ s'.dev.boot.cause = 3) ∧
          s'.dev.lanes = s.dev.lanes ∧ s'.dev.store = s.dev.store) ∧
        (∀ a, a < 0x30000 ∨ 0x32000 ≤ a → norGet s'.dev.store.nor a = norGet s.dev.store.nor a))

end
end

