-- ==== Sys2Proof/Laws/State.lean ====
section
/-! SUPPORT. One lemma per field of the device for each shared update, all by unfolding: later proofs need no record
update. -/
namespace Sys2Proof.Machine

/-! ### atTime -/

@[simp] theorem Device.atTime_phase (d : Device) (t : Nat) : (d.atTime t).phase = d.phase := rfl
@[simp] theorem Device.atTime_now (d : Device) (t : Nat) : (d.atTime t).now = max d.now t := rfl
@[simp] theorem Device.atTime_pins (d : Device) (t : Nat) : (d.atTime t).pins = d.pins := rfl
@[simp] theorem Device.atTime_store (d : Device) (t : Nat) : (d.atTime t).store = d.store := rfl
@[simp] theorem Device.atTime_image (d : Device) (t : Nat) : (d.atTime t).image = d.image := rfl
@[simp] theorem Device.atTime_ctl (d : Device) (t : Nat) : (d.atTime t).ctl = d.ctl := rfl
@[simp] theorem Device.atTime_req (d : Device) (t : Nat) : (d.atTime t).req = d.req := rfl
@[simp] theorem Device.atTime_i3c (d : Device) (t : Nat) : (d.atTime t).i3c = d.i3c := rfl
@[simp] theorem Device.atTime_boot (d : Device) (t : Nat) : (d.atTime t).boot = d.boot := rfl
@[simp] theorem Device.atTime_trust (d : Device) (t : Nat) : (d.atTime t).trust = d.trust := rfl
@[simp] theorem Device.atTime_attest (d : Device) (t : Nat) : (d.atTime t).attest = d.attest := rfl
@[simp] theorem Device.atTime_therm (d : Device) (t : Nat) : (d.atTime t).therm = d.therm := rfl
@[simp] theorem Device.atTime_toll (d : Device) (t : Nat) : (d.atTime t).toll = d.toll := rfl
@[simp] theorem Device.atTime_sealRegs (d : Device) (t : Nat) : (d.atTime t).sealRegs = d.sealRegs := rfl
@[simp] theorem Device.atTime_sealSt (d : Device) (t : Nat) : (d.atTime t).sealSt = d.sealSt := rfl
@[simp] theorem Device.atTime_itn (d : Device) (t : Nat) : (d.atTime t).itn = d.itn := rfl
@[simp] theorem Device.atTime_well (d : Device) (t : Nat) : (d.atTime t).well = d.well := rfl
@[simp] theorem Device.atTime_stk (d : Device) (t : Nat) : (d.atTime t).stk = d.stk := rfl
@[simp] theorem Device.atTime_ne (d : Device) (t : Nat) : (d.atTime t).ne = d.ne := rfl
@[simp] theorem Device.atTime_vis (d : Device) (t : Nat) : (d.atTime t).vis = d.vis := rfl
@[simp] theorem Device.atTime_ctxs (d : Device) (t : Nat) : (d.atTime t).ctxs = d.ctxs := rfl
@[simp] theorem Device.atTime_parts (d : Device) (t : Nat) : (d.atTime t).parts = d.parts := rfl
@[simp] theorem Device.atTime_streams (d : Device) (t : Nat) : (d.atTime t).streams = d.streams := rfl
@[simp] theorem Device.atTime_rfe (d : Device) (t : Nat) : (d.atTime t).rfe = d.rfe := rfl
@[simp] theorem Device.atTime_serai (d : Device) (t : Nat) : (d.atTime t).serai = d.serai := rfl
@[simp] theorem Device.atTime_scan (d : Device) (t : Nat) : (d.atTime t).scan = d.scan := rfl
@[simp] theorem Device.atTime_lanes (d : Device) (t : Nat) : (d.atTime t).lanes = d.lanes := rfl
@[simp] theorem Device.atTime_recorder (d : Device) (t : Nat) : (d.atTime t).recorder = d.recorder := rfl
@[simp] theorem Device.atTime_ots (d : Device) (t : Nat) : (d.atTime t).ots = d.ots := rfl

/-! ### modEng -/

@[simp] theorem Device.modEng_phase (d : Device) (e : Nat) (f : Engine → Engine) : (d.modEng e f).phase = d.phase := rfl
@[simp] theorem Device.modEng_now (d : Device) (e : Nat) (f : Engine → Engine) : (d.modEng e f).now = d.now := rfl
@[simp] theorem Device.modEng_pins (d : Device) (e : Nat) (f : Engine → Engine) : (d.modEng e f).pins = d.pins := rfl
@[simp] theorem Device.modEng_store (d : Device) (e : Nat) (f : Engine → Engine) : (d.modEng e f).store = d.store := rfl
@[simp] theorem Device.modEng_image (d : Device) (e : Nat) (f : Engine → Engine) : (d.modEng e f).image = d.image := rfl
@[simp] theorem Device.modEng_ctl (d : Device) (e : Nat) (f : Engine → Engine) : (d.modEng e f).ctl = d.ctl := rfl
@[simp] theorem Device.modEng_req (d : Device) (e : Nat) (f : Engine → Engine) : (d.modEng e f).req = d.req := rfl
@[simp] theorem Device.modEng_i3c (d : Device) (e : Nat) (f : Engine → Engine) : (d.modEng e f).i3c = d.i3c := rfl
@[simp] theorem Device.modEng_boot (d : Device) (e : Nat) (f : Engine → Engine) : (d.modEng e f).boot = d.boot := rfl
@[simp] theorem Device.modEng_trust (d : Device) (e : Nat) (f : Engine → Engine) : (d.modEng e f).trust = d.trust := rfl
@[simp] theorem Device.modEng_attest (d : Device) (e : Nat) (f : Engine → Engine) : (d.modEng e f).attest = d.attest := rfl
@[simp] theorem Device.modEng_therm (d : Device) (e : Nat) (f : Engine → Engine) : (d.modEng e f).therm = d.therm := rfl
@[simp] theorem Device.modEng_toll (d : Device) (e : Nat) (f : Engine → Engine) : (d.modEng e f).toll = d.toll := rfl
@[simp] theorem Device.modEng_sealRegs (d : Device) (e : Nat) (f : Engine → Engine) : (d.modEng e f).sealRegs = d.sealRegs := rfl
@[simp] theorem Device.modEng_sealSt (d : Device) (e : Nat) (f : Engine → Engine) : (d.modEng e f).sealSt = d.sealSt := rfl
@[simp] theorem Device.modEng_itn (d : Device) (e : Nat) (f : Engine → Engine) : (d.modEng e f).itn = d.itn := rfl
@[simp] theorem Device.modEng_well (d : Device) (e : Nat) (f : Engine → Engine) : (d.modEng e f).well = d.well := rfl
@[simp] theorem Device.modEng_stk (d : Device) (e : Nat) (f : Engine → Engine) : (d.modEng e f).stk = d.stk := rfl
@[simp] theorem Device.modEng_ne (d : Device) (e : Nat) (f : Engine → Engine) : (d.modEng e f).ne = vmod d.ne e f := rfl
@[simp] theorem Device.modEng_vis (d : Device) (e : Nat) (f : Engine → Engine) : (d.modEng e f).vis = d.vis := rfl
@[simp] theorem Device.modEng_ctxs (d : Device) (e : Nat) (f : Engine → Engine) : (d.modEng e f).ctxs = d.ctxs := rfl
@[simp] theorem Device.modEng_parts (d : Device) (e : Nat) (f : Engine → Engine) : (d.modEng e f).parts = d.parts := rfl
@[simp] theorem Device.modEng_streams (d : Device) (e : Nat) (f : Engine → Engine) : (d.modEng e f).streams = d.streams := rfl
@[simp] theorem Device.modEng_rfe (d : Device) (e : Nat) (f : Engine → Engine) : (d.modEng e f).rfe = d.rfe := rfl
@[simp] theorem Device.modEng_serai (d : Device) (e : Nat) (f : Engine → Engine) : (d.modEng e f).serai = d.serai := rfl
@[simp] theorem Device.modEng_scan (d : Device) (e : Nat) (f : Engine → Engine) : (d.modEng e f).scan = d.scan := rfl
@[simp] theorem Device.modEng_lanes (d : Device) (e : Nat) (f : Engine → Engine) : (d.modEng e f).lanes = d.lanes := rfl
@[simp] theorem Device.modEng_recorder (d : Device) (e : Nat) (f : Engine → Engine) : (d.modEng e f).recorder = d.recorder := rfl
@[simp] theorem Device.modEng_ots (d : Device) (e : Nat) (f : Engine → Engine) : (d.modEng e f).ots = d.ots := rfl

/-! ### modCtx -/

@[simp] theorem Device.modCtx_phase (d : Device) (c : Nat) (f : Ctx → Ctx) : (d.modCtx c f).phase = d.phase := rfl
@[simp] theorem Device.modCtx_now (d : Device) (c : Nat) (f : Ctx → Ctx) : (d.modCtx c f).now = d.now := rfl
@[simp] theorem Device.modCtx_pins (d : Device) (c : Nat) (f : Ctx → Ctx) : (d.modCtx c f).pins = d.pins := rfl
@[simp] theorem Device.modCtx_store (d : Device) (c : Nat) (f : Ctx → Ctx) : (d.modCtx c f).store = d.store := rfl
@[simp] theorem Device.modCtx_image (d : Device) (c : Nat) (f : Ctx → Ctx) : (d.modCtx c f).image = d.image := rfl
@[simp] theorem Device.modCtx_ctl (d : Device) (c : Nat) (f : Ctx → Ctx) : (d.modCtx c f).ctl = d.ctl := rfl
@[simp] theorem Device.modCtx_req (d : Device) (c : Nat) (f : Ctx → Ctx) : (d.modCtx c f).req = d.req := rfl
@[simp] theorem Device.modCtx_i3c (d : Device) (c : Nat) (f : Ctx → Ctx) : (d.modCtx c f).i3c = d.i3c := rfl
@[simp] theorem Device.modCtx_boot (d : Device) (c : Nat) (f : Ctx → Ctx) : (d.modCtx c f).boot = d.boot := rfl
@[simp] theorem Device.modCtx_trust (d : Device) (c : Nat) (f : Ctx → Ctx) : (d.modCtx c f).trust = d.trust := rfl
@[simp] theorem Device.modCtx_attest (d : Device) (c : Nat) (f : Ctx → Ctx) : (d.modCtx c f).attest = d.attest := rfl
@[simp] theorem Device.modCtx_therm (d : Device) (c : Nat) (f : Ctx → Ctx) : (d.modCtx c f).therm = d.therm := rfl
@[simp] theorem Device.modCtx_toll (d : Device) (c : Nat) (f : Ctx → Ctx) : (d.modCtx c f).toll = d.toll := rfl
@[simp] theorem Device.modCtx_sealRegs (d : Device) (c : Nat) (f : Ctx → Ctx) : (d.modCtx c f).sealRegs = d.sealRegs := rfl
@[simp] theorem Device.modCtx_sealSt (d : Device) (c : Nat) (f : Ctx → Ctx) : (d.modCtx c f).sealSt = d.sealSt := rfl
@[simp] theorem Device.modCtx_itn (d : Device) (c : Nat) (f : Ctx → Ctx) : (d.modCtx c f).itn = d.itn := rfl
@[simp] theorem Device.modCtx_well (d : Device) (c : Nat) (f : Ctx → Ctx) : (d.modCtx c f).well = d.well := rfl
@[simp] theorem Device.modCtx_stk (d : Device) (c : Nat) (f : Ctx → Ctx) : (d.modCtx c f).stk = d.stk := rfl
@[simp] theorem Device.modCtx_ne (d : Device) (c : Nat) (f : Ctx → Ctx) : (d.modCtx c f).ne = d.ne := rfl
@[simp] theorem Device.modCtx_vis (d : Device) (c : Nat) (f : Ctx → Ctx) : (d.modCtx c f).vis = d.vis := rfl
@[simp] theorem Device.modCtx_ctxs (d : Device) (c : Nat) (f : Ctx → Ctx) : (d.modCtx c f).ctxs = vmod d.ctxs c f := rfl
@[simp] theorem Device.modCtx_parts (d : Device) (c : Nat) (f : Ctx → Ctx) : (d.modCtx c f).parts = d.parts := rfl
@[simp] theorem Device.modCtx_streams (d : Device) (c : Nat) (f : Ctx → Ctx) : (d.modCtx c f).streams = d.streams := rfl
@[simp] theorem Device.modCtx_rfe (d : Device) (c : Nat) (f : Ctx → Ctx) : (d.modCtx c f).rfe = d.rfe := rfl
@[simp] theorem Device.modCtx_serai (d : Device) (c : Nat) (f : Ctx → Ctx) : (d.modCtx c f).serai = d.serai := rfl
@[simp] theorem Device.modCtx_scan (d : Device) (c : Nat) (f : Ctx → Ctx) : (d.modCtx c f).scan = d.scan := rfl
@[simp] theorem Device.modCtx_lanes (d : Device) (c : Nat) (f : Ctx → Ctx) : (d.modCtx c f).lanes = d.lanes := rfl
@[simp] theorem Device.modCtx_recorder (d : Device) (c : Nat) (f : Ctx → Ctx) : (d.modCtx c f).recorder = d.recorder := rfl
@[simp] theorem Device.modCtx_ots (d : Device) (c : Nat) (f : Ctx → Ctx) : (d.modCtx c f).ots = d.ots := rfl

/-! ### modPart -/

@[simp] theorem Device.modPart_phase (d : Device) (p : Nat) (f : Part → Part) : (d.modPart p f).phase = d.phase := rfl
@[simp] theorem Device.modPart_now (d : Device) (p : Nat) (f : Part → Part) : (d.modPart p f).now = d.now := rfl
@[simp] theorem Device.modPart_pins (d : Device) (p : Nat) (f : Part → Part) : (d.modPart p f).pins = d.pins := rfl
@[simp] theorem Device.modPart_store (d : Device) (p : Nat) (f : Part → Part) : (d.modPart p f).store = d.store := rfl
@[simp] theorem Device.modPart_image (d : Device) (p : Nat) (f : Part → Part) : (d.modPart p f).image = d.image := rfl
@[simp] theorem Device.modPart_ctl (d : Device) (p : Nat) (f : Part → Part) : (d.modPart p f).ctl = d.ctl := rfl
@[simp] theorem Device.modPart_req (d : Device) (p : Nat) (f : Part → Part) : (d.modPart p f).req = d.req := rfl
@[simp] theorem Device.modPart_i3c (d : Device) (p : Nat) (f : Part → Part) : (d.modPart p f).i3c = d.i3c := rfl
@[simp] theorem Device.modPart_boot (d : Device) (p : Nat) (f : Part → Part) : (d.modPart p f).boot = d.boot := rfl
@[simp] theorem Device.modPart_trust (d : Device) (p : Nat) (f : Part → Part) : (d.modPart p f).trust = d.trust := rfl
@[simp] theorem Device.modPart_attest (d : Device) (p : Nat) (f : Part → Part) : (d.modPart p f).attest = d.attest := rfl
@[simp] theorem Device.modPart_therm (d : Device) (p : Nat) (f : Part → Part) : (d.modPart p f).therm = d.therm := rfl
@[simp] theorem Device.modPart_toll (d : Device) (p : Nat) (f : Part → Part) : (d.modPart p f).toll = d.toll := rfl
@[simp] theorem Device.modPart_sealRegs (d : Device) (p : Nat) (f : Part → Part) : (d.modPart p f).sealRegs = d.sealRegs := rfl
@[simp] theorem Device.modPart_sealSt (d : Device) (p : Nat) (f : Part → Part) : (d.modPart p f).sealSt = d.sealSt := rfl
@[simp] theorem Device.modPart_itn (d : Device) (p : Nat) (f : Part → Part) : (d.modPart p f).itn = d.itn := rfl
@[simp] theorem Device.modPart_well (d : Device) (p : Nat) (f : Part → Part) : (d.modPart p f).well = d.well := rfl
@[simp] theorem Device.modPart_stk (d : Device) (p : Nat) (f : Part → Part) : (d.modPart p f).stk = d.stk := rfl
@[simp] theorem Device.modPart_ne (d : Device) (p : Nat) (f : Part → Part) : (d.modPart p f).ne = d.ne := rfl
@[simp] theorem Device.modPart_vis (d : Device) (p : Nat) (f : Part → Part) : (d.modPart p f).vis = d.vis := rfl
@[simp] theorem Device.modPart_ctxs (d : Device) (p : Nat) (f : Part → Part) : (d.modPart p f).ctxs = d.ctxs := rfl
@[simp] theorem Device.modPart_parts (d : Device) (p : Nat) (f : Part → Part) : (d.modPart p f).parts = vmod d.parts p f := rfl
@[simp] theorem Device.modPart_streams (d : Device) (p : Nat) (f : Part → Part) : (d.modPart p f).streams = d.streams := rfl
@[simp] theorem Device.modPart_rfe (d : Device) (p : Nat) (f : Part → Part) : (d.modPart p f).rfe = d.rfe := rfl
@[simp] theorem Device.modPart_serai (d : Device) (p : Nat) (f : Part → Part) : (d.modPart p f).serai = d.serai := rfl
@[simp] theorem Device.modPart_scan (d : Device) (p : Nat) (f : Part → Part) : (d.modPart p f).scan = d.scan := rfl
@[simp] theorem Device.modPart_lanes (d : Device) (p : Nat) (f : Part → Part) : (d.modPart p f).lanes = d.lanes := rfl
@[simp] theorem Device.modPart_recorder (d : Device) (p : Nat) (f : Part → Part) : (d.modPart p f).recorder = d.recorder := rfl
@[simp] theorem Device.modPart_ots (d : Device) (p : Nat) (f : Part → Part) : (d.modPart p f).ots = d.ots := rfl

/-! ### modStrm -/

@[simp] theorem Device.modStrm_phase (d : Device) (x : Nat) (f : Stream → Stream) : (d.modStrm x f).phase = d.phase := rfl
@[simp] theorem Device.modStrm_now (d : Device) (x : Nat) (f : Stream → Stream) : (d.modStrm x f).now = d.now := rfl
@[simp] theorem Device.modStrm_pins (d : Device) (x : Nat) (f : Stream → Stream) : (d.modStrm x f).pins = d.pins := rfl
@[simp] theorem Device.modStrm_store (d : Device) (x : Nat) (f : Stream → Stream) : (d.modStrm x f).store = d.store := rfl
@[simp] theorem Device.modStrm_image (d : Device) (x : Nat) (f : Stream → Stream) : (d.modStrm x f).image = d.image := rfl
@[simp] theorem Device.modStrm_ctl (d : Device) (x : Nat) (f : Stream → Stream) : (d.modStrm x f).ctl = d.ctl := rfl
@[simp] theorem Device.modStrm_req (d : Device) (x : Nat) (f : Stream → Stream) : (d.modStrm x f).req = d.req := rfl
@[simp] theorem Device.modStrm_i3c (d : Device) (x : Nat) (f : Stream → Stream) : (d.modStrm x f).i3c = d.i3c := rfl
@[simp] theorem Device.modStrm_boot (d : Device) (x : Nat) (f : Stream → Stream) : (d.modStrm x f).boot = d.boot := rfl
@[simp] theorem Device.modStrm_trust (d : Device) (x : Nat) (f : Stream → Stream) : (d.modStrm x f).trust = d.trust := rfl
@[simp] theorem Device.modStrm_attest (d : Device) (x : Nat) (f : Stream → Stream) : (d.modStrm x f).attest = d.attest := rfl
@[simp] theorem Device.modStrm_therm (d : Device) (x : Nat) (f : Stream → Stream) : (d.modStrm x f).therm = d.therm := rfl
@[simp] theorem Device.modStrm_toll (d : Device) (x : Nat) (f : Stream → Stream) : (d.modStrm x f).toll = d.toll := rfl
@[simp] theorem Device.modStrm_sealRegs (d : Device) (x : Nat) (f : Stream → Stream) : (d.modStrm x f).sealRegs = d.sealRegs := rfl
@[simp] theorem Device.modStrm_sealSt (d : Device) (x : Nat) (f : Stream → Stream) : (d.modStrm x f).sealSt = d.sealSt := rfl
@[simp] theorem Device.modStrm_itn (d : Device) (x : Nat) (f : Stream → Stream) : (d.modStrm x f).itn = d.itn := rfl
@[simp] theorem Device.modStrm_well (d : Device) (x : Nat) (f : Stream → Stream) : (d.modStrm x f).well = d.well := rfl
@[simp] theorem Device.modStrm_stk (d : Device) (x : Nat) (f : Stream → Stream) : (d.modStrm x f).stk = d.stk := rfl
@[simp] theorem Device.modStrm_ne (d : Device) (x : Nat) (f : Stream → Stream) : (d.modStrm x f).ne = d.ne := rfl
@[simp] theorem Device.modStrm_vis (d : Device) (x : Nat) (f : Stream → Stream) : (d.modStrm x f).vis = d.vis := rfl
@[simp] theorem Device.modStrm_ctxs (d : Device) (x : Nat) (f : Stream → Stream) : (d.modStrm x f).ctxs = d.ctxs := rfl
@[simp] theorem Device.modStrm_parts (d : Device) (x : Nat) (f : Stream → Stream) : (d.modStrm x f).parts = d.parts := rfl
@[simp] theorem Device.modStrm_streams (d : Device) (x : Nat) (f : Stream → Stream) : (d.modStrm x f).streams = vmod d.streams x f := rfl
@[simp] theorem Device.modStrm_rfe (d : Device) (x : Nat) (f : Stream → Stream) : (d.modStrm x f).rfe = d.rfe := rfl
@[simp] theorem Device.modStrm_serai (d : Device) (x : Nat) (f : Stream → Stream) : (d.modStrm x f).serai = d.serai := rfl
@[simp] theorem Device.modStrm_scan (d : Device) (x : Nat) (f : Stream → Stream) : (d.modStrm x f).scan = d.scan := rfl
@[simp] theorem Device.modStrm_lanes (d : Device) (x : Nat) (f : Stream → Stream) : (d.modStrm x f).lanes = d.lanes := rfl
@[simp] theorem Device.modStrm_recorder (d : Device) (x : Nat) (f : Stream → Stream) : (d.modStrm x f).recorder = d.recorder := rfl
@[simp] theorem Device.modStrm_ots (d : Device) (x : Nat) (f : Stream → Stream) : (d.modStrm x f).ots = d.ots := rfl

/-! ### modUnit -/

@[simp] theorem Device.modUnit_phase (d : Device) (u : Nat) (f : Vision → Vision) : (d.modUnit u f).phase = d.phase := rfl
@[simp] theorem Device.modUnit_now (d : Device) (u : Nat) (f : Vision → Vision) : (d.modUnit u f).now = d.now := rfl
@[simp] theorem Device.modUnit_pins (d : Device) (u : Nat) (f : Vision → Vision) : (d.modUnit u f).pins = d.pins := rfl
@[simp] theorem Device.modUnit_store (d : Device) (u : Nat) (f : Vision → Vision) : (d.modUnit u f).store = d.store := rfl
@[simp] theorem Device.modUnit_image (d : Device) (u : Nat) (f : Vision → Vision) : (d.modUnit u f).image = d.image := rfl
@[simp] theorem Device.modUnit_ctl (d : Device) (u : Nat) (f : Vision → Vision) : (d.modUnit u f).ctl = d.ctl := rfl
@[simp] theorem Device.modUnit_req (d : Device) (u : Nat) (f : Vision → Vision) : (d.modUnit u f).req = d.req := rfl
@[simp] theorem Device.modUnit_i3c (d : Device) (u : Nat) (f : Vision → Vision) : (d.modUnit u f).i3c = d.i3c := rfl
@[simp] theorem Device.modUnit_boot (d : Device) (u : Nat) (f : Vision → Vision) : (d.modUnit u f).boot = d.boot := rfl
@[simp] theorem Device.modUnit_trust (d : Device) (u : Nat) (f : Vision → Vision) : (d.modUnit u f).trust = d.trust := rfl
@[simp] theorem Device.modUnit_attest (d : Device) (u : Nat) (f : Vision → Vision) : (d.modUnit u f).attest = d.attest := rfl
@[simp] theorem Device.modUnit_therm (d : Device) (u : Nat) (f : Vision → Vision) : (d.modUnit u f).therm = d.therm := rfl
@[simp] theorem Device.modUnit_toll (d : Device) (u : Nat) (f : Vision → Vision) : (d.modUnit u f).toll = d.toll := rfl
@[simp] theorem Device.modUnit_sealRegs (d : Device) (u : Nat) (f : Vision → Vision) : (d.modUnit u f).sealRegs = d.sealRegs := rfl
@[simp] theorem Device.modUnit_sealSt (d : Device) (u : Nat) (f : Vision → Vision) : (d.modUnit u f).sealSt = d.sealSt := rfl
@[simp] theorem Device.modUnit_itn (d : Device) (u : Nat) (f : Vision → Vision) : (d.modUnit u f).itn = d.itn := rfl
@[simp] theorem Device.modUnit_well (d : Device) (u : Nat) (f : Vision → Vision) : (d.modUnit u f).well = d.well := rfl
@[simp] theorem Device.modUnit_stk (d : Device) (u : Nat) (f : Vision → Vision) : (d.modUnit u f).stk = d.stk := rfl
@[simp] theorem Device.modUnit_ne (d : Device) (u : Nat) (f : Vision → Vision) : (d.modUnit u f).ne = d.ne := rfl
@[simp] theorem Device.modUnit_vis (d : Device) (u : Nat) (f : Vision → Vision) : (d.modUnit u f).vis = vmod d.vis u f := rfl
@[simp] theorem Device.modUnit_ctxs (d : Device) (u : Nat) (f : Vision → Vision) : (d.modUnit u f).ctxs = d.ctxs := rfl
@[simp] theorem Device.modUnit_parts (d : Device) (u : Nat) (f : Vision → Vision) : (d.modUnit u f).parts = d.parts := rfl
@[simp] theorem Device.modUnit_streams (d : Device) (u : Nat) (f : Vision → Vision) : (d.modUnit u f).streams = d.streams := rfl
@[simp] theorem Device.modUnit_rfe (d : Device) (u : Nat) (f : Vision → Vision) : (d.modUnit u f).rfe = d.rfe := rfl
@[simp] theorem Device.modUnit_serai (d : Device) (u : Nat) (f : Vision → Vision) : (d.modUnit u f).serai = d.serai := rfl
@[simp] theorem Device.modUnit_scan (d : Device) (u : Nat) (f : Vision → Vision) : (d.modUnit u f).scan = d.scan := rfl
@[simp] theorem Device.modUnit_lanes (d : Device) (u : Nat) (f : Vision → Vision) : (d.modUnit u f).lanes = d.lanes := rfl
@[simp] theorem Device.modUnit_recorder (d : Device) (u : Nat) (f : Vision → Vision) : (d.modUnit u f).recorder = d.recorder := rfl
@[simp] theorem Device.modUnit_ots (d : Device) (u : Nat) (f : Vision → Vision) : (d.modUnit u f).ots = d.ots := rfl

/-! ### modPort -/

@[simp] theorem Device.modPort_phase (d : Device) (p : Nat) (f : Scan → Scan) : (d.modPort p f).phase = d.phase := rfl
@[simp] theorem Device.modPort_now (d : Device) (p : Nat) (f : Scan → Scan) : (d.modPort p f).now = d.now := rfl
@[simp] theorem Device.modPort_pins (d : Device) (p : Nat) (f : Scan → Scan) : (d.modPort p f).pins = d.pins := rfl
@[simp] theorem Device.modPort_store (d : Device) (p : Nat) (f : Scan → Scan) : (d.modPort p f).store = d.store := rfl
@[simp] theorem Device.modPort_image (d : Device) (p : Nat) (f : Scan → Scan) : (d.modPort p f).image = d.image := rfl
@[simp] theorem Device.modPort_ctl (d : Device) (p : Nat) (f : Scan → Scan) : (d.modPort p f).ctl = d.ctl := rfl
@[simp] theorem Device.modPort_req (d : Device) (p : Nat) (f : Scan → Scan) : (d.modPort p f).req = d.req := rfl
@[simp] theorem Device.modPort_i3c (d : Device) (p : Nat) (f : Scan → Scan) : (d.modPort p f).i3c = d.i3c := rfl
@[simp] theorem Device.modPort_boot (d : Device) (p : Nat) (f : Scan → Scan) : (d.modPort p f).boot = d.boot := rfl
@[simp] theorem Device.modPort_trust (d : Device) (p : Nat) (f : Scan → Scan) : (d.modPort p f).trust = d.trust := rfl
@[simp] theorem Device.modPort_attest (d : Device) (p : Nat) (f : Scan → Scan) : (d.modPort p f).attest = d.attest := rfl
@[simp] theorem Device.modPort_therm (d : Device) (p : Nat) (f : Scan → Scan) : (d.modPort p f).therm = d.therm := rfl
@[simp] theorem Device.modPort_toll (d : Device) (p : Nat) (f : Scan → Scan) : (d.modPort p f).toll = d.toll := rfl
@[simp] theorem Device.modPort_sealRegs (d : Device) (p : Nat) (f : Scan → Scan) : (d.modPort p f).sealRegs = d.sealRegs := rfl
@[simp] theorem Device.modPort_sealSt (d : Device) (p : Nat) (f : Scan → Scan) : (d.modPort p f).sealSt = d.sealSt := rfl
@[simp] theorem Device.modPort_itn (d : Device) (p : Nat) (f : Scan → Scan) : (d.modPort p f).itn = d.itn := rfl
@[simp] theorem Device.modPort_well (d : Device) (p : Nat) (f : Scan → Scan) : (d.modPort p f).well = d.well := rfl
@[simp] theorem Device.modPort_stk (d : Device) (p : Nat) (f : Scan → Scan) : (d.modPort p f).stk = d.stk := rfl
@[simp] theorem Device.modPort_ne (d : Device) (p : Nat) (f : Scan → Scan) : (d.modPort p f).ne = d.ne := rfl
@[simp] theorem Device.modPort_vis (d : Device) (p : Nat) (f : Scan → Scan) : (d.modPort p f).vis = d.vis := rfl
@[simp] theorem Device.modPort_ctxs (d : Device) (p : Nat) (f : Scan → Scan) : (d.modPort p f).ctxs = d.ctxs := rfl
@[simp] theorem Device.modPort_parts (d : Device) (p : Nat) (f : Scan → Scan) : (d.modPort p f).parts = d.parts := rfl
@[simp] theorem Device.modPort_streams (d : Device) (p : Nat) (f : Scan → Scan) : (d.modPort p f).streams = d.streams := rfl
@[simp] theorem Device.modPort_rfe (d : Device) (p : Nat) (f : Scan → Scan) : (d.modPort p f).rfe = d.rfe := rfl
@[simp] theorem Device.modPort_serai (d : Device) (p : Nat) (f : Scan → Scan) : (d.modPort p f).serai = d.serai := rfl
@[simp] theorem Device.modPort_scan (d : Device) (p : Nat) (f : Scan → Scan) : (d.modPort p f).scan = vmod d.scan p f := rfl
@[simp] theorem Device.modPort_lanes (d : Device) (p : Nat) (f : Scan → Scan) : (d.modPort p f).lanes = d.lanes := rfl
@[simp] theorem Device.modPort_recorder (d : Device) (p : Nat) (f : Scan → Scan) : (d.modPort p f).recorder = d.recorder := rfl
@[simp] theorem Device.modPort_ots (d : Device) (p : Nat) (f : Scan → Scan) : (d.modPort p f).ots = d.ots := rfl

/-! ### modItn -/

@[simp] theorem Device.modItn_phase (d : Device) (f : Itinerary → Itinerary) : (d.modItn f).phase = d.phase := rfl
@[simp] theorem Device.modItn_now (d : Device) (f : Itinerary → Itinerary) : (d.modItn f).now = d.now := rfl
@[simp] theorem Device.modItn_pins (d : Device) (f : Itinerary → Itinerary) : (d.modItn f).pins = d.pins := rfl
@[simp] theorem Device.modItn_store (d : Device) (f : Itinerary → Itinerary) : (d.modItn f).store = d.store := rfl
@[simp] theorem Device.modItn_image (d : Device) (f : Itinerary → Itinerary) : (d.modItn f).image = d.image := rfl
@[simp] theorem Device.modItn_ctl (d : Device) (f : Itinerary → Itinerary) : (d.modItn f).ctl = d.ctl := rfl
@[simp] theorem Device.modItn_req (d : Device) (f : Itinerary → Itinerary) : (d.modItn f).req = d.req := rfl
@[simp] theorem Device.modItn_i3c (d : Device) (f : Itinerary → Itinerary) : (d.modItn f).i3c = d.i3c := rfl
@[simp] theorem Device.modItn_boot (d : Device) (f : Itinerary → Itinerary) : (d.modItn f).boot = d.boot := rfl
@[simp] theorem Device.modItn_trust (d : Device) (f : Itinerary → Itinerary) : (d.modItn f).trust = d.trust := rfl
@[simp] theorem Device.modItn_attest (d : Device) (f : Itinerary → Itinerary) : (d.modItn f).attest = d.attest := rfl
@[simp] theorem Device.modItn_therm (d : Device) (f : Itinerary → Itinerary) : (d.modItn f).therm = d.therm := rfl
@[simp] theorem Device.modItn_toll (d : Device) (f : Itinerary → Itinerary) : (d.modItn f).toll = d.toll := rfl
@[simp] theorem Device.modItn_sealRegs (d : Device) (f : Itinerary → Itinerary) : (d.modItn f).sealRegs = d.sealRegs := rfl
@[simp] theorem Device.modItn_sealSt (d : Device) (f : Itinerary → Itinerary) : (d.modItn f).sealSt = d.sealSt := rfl
@[simp] theorem Device.modItn_itn (d : Device) (f : Itinerary → Itinerary) : (d.modItn f).itn = f d.itn := rfl
@[simp] theorem Device.modItn_well (d : Device) (f : Itinerary → Itinerary) : (d.modItn f).well = d.well := rfl
@[simp] theorem Device.modItn_stk (d : Device) (f : Itinerary → Itinerary) : (d.modItn f).stk = d.stk := rfl
@[simp] theorem Device.modItn_ne (d : Device) (f : Itinerary → Itinerary) : (d.modItn f).ne = d.ne := rfl
@[simp] theorem Device.modItn_vis (d : Device) (f : Itinerary → Itinerary) : (d.modItn f).vis = d.vis := rfl
@[simp] theorem Device.modItn_ctxs (d : Device) (f : Itinerary → Itinerary) : (d.modItn f).ctxs = d.ctxs := rfl
@[simp] theorem Device.modItn_parts (d : Device) (f : Itinerary → Itinerary) : (d.modItn f).parts = d.parts := rfl
@[simp] theorem Device.modItn_streams (d : Device) (f : Itinerary → Itinerary) : (d.modItn f).streams = d.streams := rfl
@[simp] theorem Device.modItn_rfe (d : Device) (f : Itinerary → Itinerary) : (d.modItn f).rfe = d.rfe := rfl
@[simp] theorem Device.modItn_serai (d : Device) (f : Itinerary → Itinerary) : (d.modItn f).serai = d.serai := rfl
@[simp] theorem Device.modItn_scan (d : Device) (f : Itinerary → Itinerary) : (d.modItn f).scan = d.scan := rfl
@[simp] theorem Device.modItn_lanes (d : Device) (f : Itinerary → Itinerary) : (d.modItn f).lanes = d.lanes := rfl
@[simp] theorem Device.modItn_recorder (d : Device) (f : Itinerary → Itinerary) : (d.modItn f).recorder = d.recorder := rfl
@[simp] theorem Device.modItn_ots (d : Device) (f : Itinerary → Itinerary) : (d.modItn f).ots = d.ots := rfl

/-! ### modSeal -/

@[simp] theorem Device.modSeal_phase (d : Device) (f : SealRegs → SealRegs) : (d.modSeal f).phase = d.phase := rfl
@[simp] theorem Device.modSeal_now (d : Device) (f : SealRegs → SealRegs) : (d.modSeal f).now = d.now := rfl
@[simp] theorem Device.modSeal_pins (d : Device) (f : SealRegs → SealRegs) : (d.modSeal f).pins = d.pins := rfl
@[simp] theorem Device.modSeal_store (d : Device) (f : SealRegs → SealRegs) : (d.modSeal f).store = d.store := rfl
@[simp] theorem Device.modSeal_image (d : Device) (f : SealRegs → SealRegs) : (d.modSeal f).image = d.image := rfl
@[simp] theorem Device.modSeal_ctl (d : Device) (f : SealRegs → SealRegs) : (d.modSeal f).ctl = d.ctl := rfl
@[simp] theorem Device.modSeal_req (d : Device) (f : SealRegs → SealRegs) : (d.modSeal f).req = d.req := rfl
@[simp] theorem Device.modSeal_i3c (d : Device) (f : SealRegs → SealRegs) : (d.modSeal f).i3c = d.i3c := rfl
@[simp] theorem Device.modSeal_boot (d : Device) (f : SealRegs → SealRegs) : (d.modSeal f).boot = d.boot := rfl
@[simp] theorem Device.modSeal_trust (d : Device) (f : SealRegs → SealRegs) : (d.modSeal f).trust = d.trust := rfl
@[simp] theorem Device.modSeal_attest (d : Device) (f : SealRegs → SealRegs) : (d.modSeal f).attest = d.attest := rfl
@[simp] theorem Device.modSeal_therm (d : Device) (f : SealRegs → SealRegs) : (d.modSeal f).therm = d.therm := rfl
@[simp] theorem Device.modSeal_toll (d : Device) (f : SealRegs → SealRegs) : (d.modSeal f).toll = d.toll := rfl
@[simp] theorem Device.modSeal_sealRegs (d : Device) (f : SealRegs → SealRegs) : (d.modSeal f).sealRegs = f d.sealRegs := rfl
@[simp] theorem Device.modSeal_sealSt (d : Device) (f : SealRegs → SealRegs) : (d.modSeal f).sealSt = d.sealSt := rfl
@[simp] theorem Device.modSeal_itn (d : Device) (f : SealRegs → SealRegs) : (d.modSeal f).itn = d.itn := rfl
@[simp] theorem Device.modSeal_well (d : Device) (f : SealRegs → SealRegs) : (d.modSeal f).well = d.well := rfl
@[simp] theorem Device.modSeal_stk (d : Device) (f : SealRegs → SealRegs) : (d.modSeal f).stk = d.stk := rfl
@[simp] theorem Device.modSeal_ne (d : Device) (f : SealRegs → SealRegs) : (d.modSeal f).ne = d.ne := rfl
@[simp] theorem Device.modSeal_vis (d : Device) (f : SealRegs → SealRegs) : (d.modSeal f).vis = d.vis := rfl
@[simp] theorem Device.modSeal_ctxs (d : Device) (f : SealRegs → SealRegs) : (d.modSeal f).ctxs = d.ctxs := rfl
@[simp] theorem Device.modSeal_parts (d : Device) (f : SealRegs → SealRegs) : (d.modSeal f).parts = d.parts := rfl
@[simp] theorem Device.modSeal_streams (d : Device) (f : SealRegs → SealRegs) : (d.modSeal f).streams = d.streams := rfl
@[simp] theorem Device.modSeal_rfe (d : Device) (f : SealRegs → SealRegs) : (d.modSeal f).rfe = d.rfe := rfl
@[simp] theorem Device.modSeal_serai (d : Device) (f : SealRegs → SealRegs) : (d.modSeal f).serai = d.serai := rfl
@[simp] theorem Device.modSeal_scan (d : Device) (f : SealRegs → SealRegs) : (d.modSeal f).scan = d.scan := rfl
@[simp] theorem Device.modSeal_lanes (d : Device) (f : SealRegs → SealRegs) : (d.modSeal f).lanes = d.lanes := rfl
@[simp] theorem Device.modSeal_recorder (d : Device) (f : SealRegs → SealRegs) : (d.modSeal f).recorder = d.recorder := rfl
@[simp] theorem Device.modSeal_ots (d : Device) (f : SealRegs → SealRegs) : (d.modSeal f).ots = d.ots := rfl

/-! ### modSealSt -/

@[simp] theorem Device.modSealSt_phase (d : Device) (f : SealState → SealState) : (d.modSealSt f).phase = d.phase := rfl
@[simp] theorem Device.modSealSt_now (d : Device) (f : SealState → SealState) : (d.modSealSt f).now = d.now := rfl
@[simp] theorem Device.modSealSt_pins (d : Device) (f : SealState → SealState) : (d.modSealSt f).pins = d.pins := rfl
@[simp] theorem Device.modSealSt_store (d : Device) (f : SealState → SealState) : (d.modSealSt f).store = d.store := rfl
@[simp] theorem Device.modSealSt_image (d : Device) (f : SealState → SealState) : (d.modSealSt f).image = d.image := rfl
@[simp] theorem Device.modSealSt_ctl (d : Device) (f : SealState → SealState) : (d.modSealSt f).ctl = d.ctl := rfl
@[simp] theorem Device.modSealSt_req (d : Device) (f : SealState → SealState) : (d.modSealSt f).req = d.req := rfl
@[simp] theorem Device.modSealSt_i3c (d : Device) (f : SealState → SealState) : (d.modSealSt f).i3c = d.i3c := rfl
@[simp] theorem Device.modSealSt_boot (d : Device) (f : SealState → SealState) : (d.modSealSt f).boot = d.boot := rfl
@[simp] theorem Device.modSealSt_trust (d : Device) (f : SealState → SealState) : (d.modSealSt f).trust = d.trust := rfl
@[simp] theorem Device.modSealSt_attest (d : Device) (f : SealState → SealState) : (d.modSealSt f).attest = d.attest := rfl
@[simp] theorem Device.modSealSt_therm (d : Device) (f : SealState → SealState) : (d.modSealSt f).therm = d.therm := rfl
@[simp] theorem Device.modSealSt_toll (d : Device) (f : SealState → SealState) : (d.modSealSt f).toll = d.toll := rfl
@[simp] theorem Device.modSealSt_sealRegs (d : Device) (f : SealState → SealState) : (d.modSealSt f).sealRegs = d.sealRegs := rfl
@[simp] theorem Device.modSealSt_sealSt (d : Device) (f : SealState → SealState) : (d.modSealSt f).sealSt = f d.sealSt := rfl
@[simp] theorem Device.modSealSt_itn (d : Device) (f : SealState → SealState) : (d.modSealSt f).itn = d.itn := rfl
@[simp] theorem Device.modSealSt_well (d : Device) (f : SealState → SealState) : (d.modSealSt f).well = d.well := rfl
@[simp] theorem Device.modSealSt_stk (d : Device) (f : SealState → SealState) : (d.modSealSt f).stk = d.stk := rfl
@[simp] theorem Device.modSealSt_ne (d : Device) (f : SealState → SealState) : (d.modSealSt f).ne = d.ne := rfl
@[simp] theorem Device.modSealSt_vis (d : Device) (f : SealState → SealState) : (d.modSealSt f).vis = d.vis := rfl
@[simp] theorem Device.modSealSt_ctxs (d : Device) (f : SealState → SealState) : (d.modSealSt f).ctxs = d.ctxs := rfl
@[simp] theorem Device.modSealSt_parts (d : Device) (f : SealState → SealState) : (d.modSealSt f).parts = d.parts := rfl
@[simp] theorem Device.modSealSt_streams (d : Device) (f : SealState → SealState) : (d.modSealSt f).streams = d.streams := rfl
@[simp] theorem Device.modSealSt_rfe (d : Device) (f : SealState → SealState) : (d.modSealSt f).rfe = d.rfe := rfl
@[simp] theorem Device.modSealSt_serai (d : Device) (f : SealState → SealState) : (d.modSealSt f).serai = d.serai := rfl
@[simp] theorem Device.modSealSt_scan (d : Device) (f : SealState → SealState) : (d.modSealSt f).scan = d.scan := rfl
@[simp] theorem Device.modSealSt_lanes (d : Device) (f : SealState → SealState) : (d.modSealSt f).lanes = d.lanes := rfl
@[simp] theorem Device.modSealSt_recorder (d : Device) (f : SealState → SealState) : (d.modSealSt f).recorder = d.recorder := rfl
@[simp] theorem Device.modSealSt_ots (d : Device) (f : SealState → SealState) : (d.modSealSt f).ots = d.ots := rfl

/-! ### modLanes -/

@[simp] theorem Device.modLanes_phase (d : Device) (f : Lanes → Lanes) : (d.modLanes f).phase = d.phase := rfl
@[simp] theorem Device.modLanes_now (d : Device) (f : Lanes → Lanes) : (d.modLanes f).now = d.now := rfl
@[simp] theorem Device.modLanes_pins (d : Device) (f : Lanes → Lanes) : (d.modLanes f).pins = d.pins := rfl
@[simp] theorem Device.modLanes_store (d : Device) (f : Lanes → Lanes) : (d.modLanes f).store = d.store := rfl
@[simp] theorem Device.modLanes_image (d : Device) (f : Lanes → Lanes) : (d.modLanes f).image = d.image := rfl
@[simp] theorem Device.modLanes_ctl (d : Device) (f : Lanes → Lanes) : (d.modLanes f).ctl = d.ctl := rfl
@[simp] theorem Device.modLanes_req (d : Device) (f : Lanes → Lanes) : (d.modLanes f).req = d.req := rfl
@[simp] theorem Device.modLanes_i3c (d : Device) (f : Lanes → Lanes) : (d.modLanes f).i3c = d.i3c := rfl
@[simp] theorem Device.modLanes_boot (d : Device) (f : Lanes → Lanes) : (d.modLanes f).boot = d.boot := rfl
@[simp] theorem Device.modLanes_trust (d : Device) (f : Lanes → Lanes) : (d.modLanes f).trust = d.trust := rfl
@[simp] theorem Device.modLanes_attest (d : Device) (f : Lanes → Lanes) : (d.modLanes f).attest = d.attest := rfl
@[simp] theorem Device.modLanes_therm (d : Device) (f : Lanes → Lanes) : (d.modLanes f).therm = d.therm := rfl
@[simp] theorem Device.modLanes_toll (d : Device) (f : Lanes → Lanes) : (d.modLanes f).toll = d.toll := rfl
@[simp] theorem Device.modLanes_sealRegs (d : Device) (f : Lanes → Lanes) : (d.modLanes f).sealRegs = d.sealRegs := rfl
@[simp] theorem Device.modLanes_sealSt (d : Device) (f : Lanes → Lanes) : (d.modLanes f).sealSt = d.sealSt := rfl
@[simp] theorem Device.modLanes_itn (d : Device) (f : Lanes → Lanes) : (d.modLanes f).itn = d.itn := rfl
@[simp] theorem Device.modLanes_well (d : Device) (f : Lanes → Lanes) : (d.modLanes f).well = d.well := rfl
@[simp] theorem Device.modLanes_stk (d : Device) (f : Lanes → Lanes) : (d.modLanes f).stk = d.stk := rfl
@[simp] theorem Device.modLanes_ne (d : Device) (f : Lanes → Lanes) : (d.modLanes f).ne = d.ne := rfl
@[simp] theorem Device.modLanes_vis (d : Device) (f : Lanes → Lanes) : (d.modLanes f).vis = d.vis := rfl
@[simp] theorem Device.modLanes_ctxs (d : Device) (f : Lanes → Lanes) : (d.modLanes f).ctxs = d.ctxs := rfl
@[simp] theorem Device.modLanes_parts (d : Device) (f : Lanes → Lanes) : (d.modLanes f).parts = d.parts := rfl
@[simp] theorem Device.modLanes_streams (d : Device) (f : Lanes → Lanes) : (d.modLanes f).streams = d.streams := rfl
@[simp] theorem Device.modLanes_rfe (d : Device) (f : Lanes → Lanes) : (d.modLanes f).rfe = d.rfe := rfl
@[simp] theorem Device.modLanes_serai (d : Device) (f : Lanes → Lanes) : (d.modLanes f).serai = d.serai := rfl
@[simp] theorem Device.modLanes_scan (d : Device) (f : Lanes → Lanes) : (d.modLanes f).scan = d.scan := rfl
@[simp] theorem Device.modLanes_lanes (d : Device) (f : Lanes → Lanes) : (d.modLanes f).lanes = f d.lanes := rfl
@[simp] theorem Device.modLanes_recorder (d : Device) (f : Lanes → Lanes) : (d.modLanes f).recorder = d.recorder := rfl
@[simp] theorem Device.modLanes_ots (d : Device) (f : Lanes → Lanes) : (d.modLanes f).ots = d.ots := rfl

/-! ### modOts -/

@[simp] theorem Device.modOts_phase (d : Device) (f : Otson → Otson) : (d.modOts f).phase = d.phase := rfl
@[simp] theorem Device.modOts_now (d : Device) (f : Otson → Otson) : (d.modOts f).now = d.now := rfl
@[simp] theorem Device.modOts_pins (d : Device) (f : Otson → Otson) : (d.modOts f).pins = d.pins := rfl
@[simp] theorem Device.modOts_store (d : Device) (f : Otson → Otson) : (d.modOts f).store = d.store := rfl
@[simp] theorem Device.modOts_image (d : Device) (f : Otson → Otson) : (d.modOts f).image = d.image := rfl
@[simp] theorem Device.modOts_ctl (d : Device) (f : Otson → Otson) : (d.modOts f).ctl = d.ctl := rfl
@[simp] theorem Device.modOts_req (d : Device) (f : Otson → Otson) : (d.modOts f).req = d.req := rfl
@[simp] theorem Device.modOts_i3c (d : Device) (f : Otson → Otson) : (d.modOts f).i3c = d.i3c := rfl
@[simp] theorem Device.modOts_boot (d : Device) (f : Otson → Otson) : (d.modOts f).boot = d.boot := rfl
@[simp] theorem Device.modOts_trust (d : Device) (f : Otson → Otson) : (d.modOts f).trust = d.trust := rfl
@[simp] theorem Device.modOts_attest (d : Device) (f : Otson → Otson) : (d.modOts f).attest = d.attest := rfl
@[simp] theorem Device.modOts_therm (d : Device) (f : Otson → Otson) : (d.modOts f).therm = d.therm := rfl
@[simp] theorem Device.modOts_toll (d : Device) (f : Otson → Otson) : (d.modOts f).toll = d.toll := rfl
@[simp] theorem Device.modOts_sealRegs (d : Device) (f : Otson → Otson) : (d.modOts f).sealRegs = d.sealRegs := rfl
@[simp] theorem Device.modOts_sealSt (d : Device) (f : Otson → Otson) : (d.modOts f).sealSt = d.sealSt := rfl
@[simp] theorem Device.modOts_itn (d : Device) (f : Otson → Otson) : (d.modOts f).itn = d.itn := rfl
@[simp] theorem Device.modOts_well (d : Device) (f : Otson → Otson) : (d.modOts f).well = d.well := rfl
@[simp] theorem Device.modOts_stk (d : Device) (f : Otson → Otson) : (d.modOts f).stk = d.stk := rfl
@[simp] theorem Device.modOts_ne (d : Device) (f : Otson → Otson) : (d.modOts f).ne = d.ne := rfl
@[simp] theorem Device.modOts_vis (d : Device) (f : Otson → Otson) : (d.modOts f).vis = d.vis := rfl
@[simp] theorem Device.modOts_ctxs (d : Device) (f : Otson → Otson) : (d.modOts f).ctxs = d.ctxs := rfl
@[simp] theorem Device.modOts_parts (d : Device) (f : Otson → Otson) : (d.modOts f).parts = d.parts := rfl
@[simp] theorem Device.modOts_streams (d : Device) (f : Otson → Otson) : (d.modOts f).streams = d.streams := rfl
@[simp] theorem Device.modOts_rfe (d : Device) (f : Otson → Otson) : (d.modOts f).rfe = d.rfe := rfl
@[simp] theorem Device.modOts_serai (d : Device) (f : Otson → Otson) : (d.modOts f).serai = d.serai := rfl
@[simp] theorem Device.modOts_scan (d : Device) (f : Otson → Otson) : (d.modOts f).scan = d.scan := rfl
@[simp] theorem Device.modOts_lanes (d : Device) (f : Otson → Otson) : (d.modOts f).lanes = d.lanes := rfl
@[simp] theorem Device.modOts_recorder (d : Device) (f : Otson → Otson) : (d.modOts f).recorder = d.recorder := rfl
@[simp] theorem Device.modOts_ots (d : Device) (f : Otson → Otson) : (d.modOts f).ots = f d.ots := rfl

/-! ### modRec -/

@[simp] theorem Device.modRec_phase (d : Device) (f : Recorder → Recorder) : (d.modRec f).phase = d.phase := rfl
@[simp] theorem Device.modRec_now (d : Device) (f : Recorder → Recorder) : (d.modRec f).now = d.now := rfl
@[simp] theorem Device.modRec_pins (d : Device) (f : Recorder → Recorder) : (d.modRec f).pins = d.pins := rfl
@[simp] theorem Device.modRec_store (d : Device) (f : Recorder → Recorder) : (d.modRec f).store = d.store := rfl
@[simp] theorem Device.modRec_image (d : Device) (f : Recorder → Recorder) : (d.modRec f).image = d.image := rfl
@[simp] theorem Device.modRec_ctl (d : Device) (f : Recorder → Recorder) : (d.modRec f).ctl = d.ctl := rfl
@[simp] theorem Device.modRec_req (d : Device) (f : Recorder → Recorder) : (d.modRec f).req = d.req := rfl
@[simp] theorem Device.modRec_i3c (d : Device) (f : Recorder → Recorder) : (d.modRec f).i3c = d.i3c := rfl
@[simp] theorem Device.modRec_boot (d : Device) (f : Recorder → Recorder) : (d.modRec f).boot = d.boot := rfl
@[simp] theorem Device.modRec_trust (d : Device) (f : Recorder → Recorder) : (d.modRec f).trust = d.trust := rfl
@[simp] theorem Device.modRec_attest (d : Device) (f : Recorder → Recorder) : (d.modRec f).attest = d.attest := rfl
@[simp] theorem Device.modRec_therm (d : Device) (f : Recorder → Recorder) : (d.modRec f).therm = d.therm := rfl
@[simp] theorem Device.modRec_toll (d : Device) (f : Recorder → Recorder) : (d.modRec f).toll = d.toll := rfl
@[simp] theorem Device.modRec_sealRegs (d : Device) (f : Recorder → Recorder) : (d.modRec f).sealRegs = d.sealRegs := rfl
@[simp] theorem Device.modRec_sealSt (d : Device) (f : Recorder → Recorder) : (d.modRec f).sealSt = d.sealSt := rfl
@[simp] theorem Device.modRec_itn (d : Device) (f : Recorder → Recorder) : (d.modRec f).itn = d.itn := rfl
@[simp] theorem Device.modRec_well (d : Device) (f : Recorder → Recorder) : (d.modRec f).well = d.well := rfl
@[simp] theorem Device.modRec_stk (d : Device) (f : Recorder → Recorder) : (d.modRec f).stk = d.stk := rfl
@[simp] theorem Device.modRec_ne (d : Device) (f : Recorder → Recorder) : (d.modRec f).ne = d.ne := rfl
@[simp] theorem Device.modRec_vis (d : Device) (f : Recorder → Recorder) : (d.modRec f).vis = d.vis := rfl
@[simp] theorem Device.modRec_ctxs (d : Device) (f : Recorder → Recorder) : (d.modRec f).ctxs = d.ctxs := rfl
@[simp] theorem Device.modRec_parts (d : Device) (f : Recorder → Recorder) : (d.modRec f).parts = d.parts := rfl
@[simp] theorem Device.modRec_streams (d : Device) (f : Recorder → Recorder) : (d.modRec f).streams = d.streams := rfl
@[simp] theorem Device.modRec_rfe (d : Device) (f : Recorder → Recorder) : (d.modRec f).rfe = d.rfe := rfl
@[simp] theorem Device.modRec_serai (d : Device) (f : Recorder → Recorder) : (d.modRec f).serai = d.serai := rfl
@[simp] theorem Device.modRec_scan (d : Device) (f : Recorder → Recorder) : (d.modRec f).scan = d.scan := rfl
@[simp] theorem Device.modRec_lanes (d : Device) (f : Recorder → Recorder) : (d.modRec f).lanes = d.lanes := rfl
@[simp] theorem Device.modRec_recorder (d : Device) (f : Recorder → Recorder) : (d.modRec f).recorder = f d.recorder := rfl
@[simp] theorem Device.modRec_ots (d : Device) (f : Recorder → Recorder) : (d.modRec f).ots = d.ots := rfl

/-! ### modRfe -/

@[simp] theorem Device.modRfe_phase (d : Device) (f : Rfe → Rfe) : (d.modRfe f).phase = d.phase := rfl
@[simp] theorem Device.modRfe_now (d : Device) (f : Rfe → Rfe) : (d.modRfe f).now = d.now := rfl
@[simp] theorem Device.modRfe_pins (d : Device) (f : Rfe → Rfe) : (d.modRfe f).pins = d.pins := rfl
@[simp] theorem Device.modRfe_store (d : Device) (f : Rfe → Rfe) : (d.modRfe f).store = d.store := rfl
@[simp] theorem Device.modRfe_image (d : Device) (f : Rfe → Rfe) : (d.modRfe f).image = d.image := rfl
@[simp] theorem Device.modRfe_ctl (d : Device) (f : Rfe → Rfe) : (d.modRfe f).ctl = d.ctl := rfl
@[simp] theorem Device.modRfe_req (d : Device) (f : Rfe → Rfe) : (d.modRfe f).req = d.req := rfl
@[simp] theorem Device.modRfe_i3c (d : Device) (f : Rfe → Rfe) : (d.modRfe f).i3c = d.i3c := rfl
@[simp] theorem Device.modRfe_boot (d : Device) (f : Rfe → Rfe) : (d.modRfe f).boot = d.boot := rfl
@[simp] theorem Device.modRfe_trust (d : Device) (f : Rfe → Rfe) : (d.modRfe f).trust = d.trust := rfl
@[simp] theorem Device.modRfe_attest (d : Device) (f : Rfe → Rfe) : (d.modRfe f).attest = d.attest := rfl
@[simp] theorem Device.modRfe_therm (d : Device) (f : Rfe → Rfe) : (d.modRfe f).therm = d.therm := rfl
@[simp] theorem Device.modRfe_toll (d : Device) (f : Rfe → Rfe) : (d.modRfe f).toll = d.toll := rfl
@[simp] theorem Device.modRfe_sealRegs (d : Device) (f : Rfe → Rfe) : (d.modRfe f).sealRegs = d.sealRegs := rfl
@[simp] theorem Device.modRfe_sealSt (d : Device) (f : Rfe → Rfe) : (d.modRfe f).sealSt = d.sealSt := rfl
@[simp] theorem Device.modRfe_itn (d : Device) (f : Rfe → Rfe) : (d.modRfe f).itn = d.itn := rfl
@[simp] theorem Device.modRfe_well (d : Device) (f : Rfe → Rfe) : (d.modRfe f).well = d.well := rfl
@[simp] theorem Device.modRfe_stk (d : Device) (f : Rfe → Rfe) : (d.modRfe f).stk = d.stk := rfl
@[simp] theorem Device.modRfe_ne (d : Device) (f : Rfe → Rfe) : (d.modRfe f).ne = d.ne := rfl
@[simp] theorem Device.modRfe_vis (d : Device) (f : Rfe → Rfe) : (d.modRfe f).vis = d.vis := rfl
@[simp] theorem Device.modRfe_ctxs (d : Device) (f : Rfe → Rfe) : (d.modRfe f).ctxs = d.ctxs := rfl
@[simp] theorem Device.modRfe_parts (d : Device) (f : Rfe → Rfe) : (d.modRfe f).parts = d.parts := rfl
@[simp] theorem Device.modRfe_streams (d : Device) (f : Rfe → Rfe) : (d.modRfe f).streams = d.streams := rfl
@[simp] theorem Device.modRfe_rfe (d : Device) (f : Rfe → Rfe) : (d.modRfe f).rfe = f d.rfe := rfl
@[simp] theorem Device.modRfe_serai (d : Device) (f : Rfe → Rfe) : (d.modRfe f).serai = d.serai := rfl
@[simp] theorem Device.modRfe_scan (d : Device) (f : Rfe → Rfe) : (d.modRfe f).scan = d.scan := rfl
@[simp] theorem Device.modRfe_lanes (d : Device) (f : Rfe → Rfe) : (d.modRfe f).lanes = d.lanes := rfl
@[simp] theorem Device.modRfe_recorder (d : Device) (f : Rfe → Rfe) : (d.modRfe f).recorder = d.recorder := rfl
@[simp] theorem Device.modRfe_ots (d : Device) (f : Rfe → Rfe) : (d.modRfe f).ots = d.ots := rfl

/-! ### modSerai -/

@[simp] theorem Device.modSerai_phase (d : Device) (f : Serai → Serai) : (d.modSerai f).phase = d.phase := rfl
@[simp] theorem Device.modSerai_now (d : Device) (f : Serai → Serai) : (d.modSerai f).now = d.now := rfl
@[simp] theorem Device.modSerai_pins (d : Device) (f : Serai → Serai) : (d.modSerai f).pins = d.pins := rfl
@[simp] theorem Device.modSerai_store (d : Device) (f : Serai → Serai) : (d.modSerai f).store = d.store := rfl
@[simp] theorem Device.modSerai_image (d : Device) (f : Serai → Serai) : (d.modSerai f).image = d.image := rfl
@[simp] theorem Device.modSerai_ctl (d : Device) (f : Serai → Serai) : (d.modSerai f).ctl = d.ctl := rfl
@[simp] theorem Device.modSerai_req (d : Device) (f : Serai → Serai) : (d.modSerai f).req = d.req := rfl
@[simp] theorem Device.modSerai_i3c (d : Device) (f : Serai → Serai) : (d.modSerai f).i3c = d.i3c := rfl
@[simp] theorem Device.modSerai_boot (d : Device) (f : Serai → Serai) : (d.modSerai f).boot = d.boot := rfl
@[simp] theorem Device.modSerai_trust (d : Device) (f : Serai → Serai) : (d.modSerai f).trust = d.trust := rfl
@[simp] theorem Device.modSerai_attest (d : Device) (f : Serai → Serai) : (d.modSerai f).attest = d.attest := rfl
@[simp] theorem Device.modSerai_therm (d : Device) (f : Serai → Serai) : (d.modSerai f).therm = d.therm := rfl
@[simp] theorem Device.modSerai_toll (d : Device) (f : Serai → Serai) : (d.modSerai f).toll = d.toll := rfl
@[simp] theorem Device.modSerai_sealRegs (d : Device) (f : Serai → Serai) : (d.modSerai f).sealRegs = d.sealRegs := rfl
@[simp] theorem Device.modSerai_sealSt (d : Device) (f : Serai → Serai) : (d.modSerai f).sealSt = d.sealSt := rfl
@[simp] theorem Device.modSerai_itn (d : Device) (f : Serai → Serai) : (d.modSerai f).itn = d.itn := rfl
@[simp] theorem Device.modSerai_well (d : Device) (f : Serai → Serai) : (d.modSerai f).well = d.well := rfl
@[simp] theorem Device.modSerai_stk (d : Device) (f : Serai → Serai) : (d.modSerai f).stk = d.stk := rfl
@[simp] theorem Device.modSerai_ne (d : Device) (f : Serai → Serai) : (d.modSerai f).ne = d.ne := rfl
@[simp] theorem Device.modSerai_vis (d : Device) (f : Serai → Serai) : (d.modSerai f).vis = d.vis := rfl
@[simp] theorem Device.modSerai_ctxs (d : Device) (f : Serai → Serai) : (d.modSerai f).ctxs = d.ctxs := rfl
@[simp] theorem Device.modSerai_parts (d : Device) (f : Serai → Serai) : (d.modSerai f).parts = d.parts := rfl
@[simp] theorem Device.modSerai_streams (d : Device) (f : Serai → Serai) : (d.modSerai f).streams = d.streams := rfl
@[simp] theorem Device.modSerai_rfe (d : Device) (f : Serai → Serai) : (d.modSerai f).rfe = d.rfe := rfl
@[simp] theorem Device.modSerai_serai (d : Device) (f : Serai → Serai) : (d.modSerai f).serai = f d.serai := rfl
@[simp] theorem Device.modSerai_scan (d : Device) (f : Serai → Serai) : (d.modSerai f).scan = d.scan := rfl
@[simp] theorem Device.modSerai_lanes (d : Device) (f : Serai → Serai) : (d.modSerai f).lanes = d.lanes := rfl
@[simp] theorem Device.modSerai_recorder (d : Device) (f : Serai → Serai) : (d.modSerai f).recorder = d.recorder := rfl
@[simp] theorem Device.modSerai_ots (d : Device) (f : Serai → Serai) : (d.modSerai f).ots = d.ots := rfl

/-! ### modTrust -/

@[simp] theorem Device.modTrust_phase (d : Device) (f : Trust → Trust) : (d.modTrust f).phase = d.phase := rfl
@[simp] theorem Device.modTrust_now (d : Device) (f : Trust → Trust) : (d.modTrust f).now = d.now := rfl
@[simp] theorem Device.modTrust_pins (d : Device) (f : Trust → Trust) : (d.modTrust f).pins = d.pins := rfl
@[simp] theorem Device.modTrust_store (d : Device) (f : Trust → Trust) : (d.modTrust f).store = d.store := rfl
@[simp] theorem Device.modTrust_image (d : Device) (f : Trust → Trust) : (d.modTrust f).image = d.image := rfl
@[simp] theorem Device.modTrust_ctl (d : Device) (f : Trust → Trust) : (d.modTrust f).ctl = d.ctl := rfl
@[simp] theorem Device.modTrust_req (d : Device) (f : Trust → Trust) : (d.modTrust f).req = d.req := rfl
@[simp] theorem Device.modTrust_i3c (d : Device) (f : Trust → Trust) : (d.modTrust f).i3c = d.i3c := rfl
@[simp] theorem Device.modTrust_boot (d : Device) (f : Trust → Trust) : (d.modTrust f).boot = d.boot := rfl
@[simp] theorem Device.modTrust_trust (d : Device) (f : Trust → Trust) : (d.modTrust f).trust = f d.trust := rfl
@[simp] theorem Device.modTrust_attest (d : Device) (f : Trust → Trust) : (d.modTrust f).attest = d.attest := rfl
@[simp] theorem Device.modTrust_therm (d : Device) (f : Trust → Trust) : (d.modTrust f).therm = d.therm := rfl
@[simp] theorem Device.modTrust_toll (d : Device) (f : Trust → Trust) : (d.modTrust f).toll = d.toll := rfl
@[simp] theorem Device.modTrust_sealRegs (d : Device) (f : Trust → Trust) : (d.modTrust f).sealRegs = d.sealRegs := rfl
@[simp] theorem Device.modTrust_sealSt (d : Device) (f : Trust → Trust) : (d.modTrust f).sealSt = d.sealSt := rfl
@[simp] theorem Device.modTrust_itn (d : Device) (f : Trust → Trust) : (d.modTrust f).itn = d.itn := rfl
@[simp] theorem Device.modTrust_well (d : Device) (f : Trust → Trust) : (d.modTrust f).well = d.well := rfl
@[simp] theorem Device.modTrust_stk (d : Device) (f : Trust → Trust) : (d.modTrust f).stk = d.stk := rfl
@[simp] theorem Device.modTrust_ne (d : Device) (f : Trust → Trust) : (d.modTrust f).ne = d.ne := rfl
@[simp] theorem Device.modTrust_vis (d : Device) (f : Trust → Trust) : (d.modTrust f).vis = d.vis := rfl
@[simp] theorem Device.modTrust_ctxs (d : Device) (f : Trust → Trust) : (d.modTrust f).ctxs = d.ctxs := rfl
@[simp] theorem Device.modTrust_parts (d : Device) (f : Trust → Trust) : (d.modTrust f).parts = d.parts := rfl
@[simp] theorem Device.modTrust_streams (d : Device) (f : Trust → Trust) : (d.modTrust f).streams = d.streams := rfl
@[simp] theorem Device.modTrust_rfe (d : Device) (f : Trust → Trust) : (d.modTrust f).rfe = d.rfe := rfl
@[simp] theorem Device.modTrust_serai (d : Device) (f : Trust → Trust) : (d.modTrust f).serai = d.serai := rfl
@[simp] theorem Device.modTrust_scan (d : Device) (f : Trust → Trust) : (d.modTrust f).scan = d.scan := rfl
@[simp] theorem Device.modTrust_lanes (d : Device) (f : Trust → Trust) : (d.modTrust f).lanes = d.lanes := rfl
@[simp] theorem Device.modTrust_recorder (d : Device) (f : Trust → Trust) : (d.modTrust f).recorder = d.recorder := rfl
@[simp] theorem Device.modTrust_ots (d : Device) (f : Trust → Trust) : (d.modTrust f).ots = d.ots := rfl

/-! ### modAttest -/

@[simp] theorem Device.modAttest_phase (d : Device) (f : Attest → Attest) : (d.modAttest f).phase = d.phase := rfl
@[simp] theorem Device.modAttest_now (d : Device) (f : Attest → Attest) : (d.modAttest f).now = d.now := rfl
@[simp] theorem Device.modAttest_pins (d : Device) (f : Attest → Attest) : (d.modAttest f).pins = d.pins := rfl
@[simp] theorem Device.modAttest_store (d : Device) (f : Attest → Attest) : (d.modAttest f).store = d.store := rfl
@[simp] theorem Device.modAttest_image (d : Device) (f : Attest → Attest) : (d.modAttest f).image = d.image := rfl
@[simp] theorem Device.modAttest_ctl (d : Device) (f : Attest → Attest) : (d.modAttest f).ctl = d.ctl := rfl
@[simp] theorem Device.modAttest_req (d : Device) (f : Attest → Attest) : (d.modAttest f).req = d.req := rfl
@[simp] theorem Device.modAttest_i3c (d : Device) (f : Attest → Attest) : (d.modAttest f).i3c = d.i3c := rfl
@[simp] theorem Device.modAttest_boot (d : Device) (f : Attest → Attest) : (d.modAttest f).boot = d.boot := rfl
@[simp] theorem Device.modAttest_trust (d : Device) (f : Attest → Attest) : (d.modAttest f).trust = d.trust := rfl
@[simp] theorem Device.modAttest_attest (d : Device) (f : Attest → Attest) : (d.modAttest f).attest = f d.attest := rfl
@[simp] theorem Device.modAttest_therm (d : Device) (f : Attest → Attest) : (d.modAttest f).therm = d.therm := rfl
@[simp] theorem Device.modAttest_toll (d : Device) (f : Attest → Attest) : (d.modAttest f).toll = d.toll := rfl
@[simp] theorem Device.modAttest_sealRegs (d : Device) (f : Attest → Attest) : (d.modAttest f).sealRegs = d.sealRegs := rfl
@[simp] theorem Device.modAttest_sealSt (d : Device) (f : Attest → Attest) : (d.modAttest f).sealSt = d.sealSt := rfl
@[simp] theorem Device.modAttest_itn (d : Device) (f : Attest → Attest) : (d.modAttest f).itn = d.itn := rfl
@[simp] theorem Device.modAttest_well (d : Device) (f : Attest → Attest) : (d.modAttest f).well = d.well := rfl
@[simp] theorem Device.modAttest_stk (d : Device) (f : Attest → Attest) : (d.modAttest f).stk = d.stk := rfl
@[simp] theorem Device.modAttest_ne (d : Device) (f : Attest → Attest) : (d.modAttest f).ne = d.ne := rfl
@[simp] theorem Device.modAttest_vis (d : Device) (f : Attest → Attest) : (d.modAttest f).vis = d.vis := rfl
@[simp] theorem Device.modAttest_ctxs (d : Device) (f : Attest → Attest) : (d.modAttest f).ctxs = d.ctxs := rfl
@[simp] theorem Device.modAttest_parts (d : Device) (f : Attest → Attest) : (d.modAttest f).parts = d.parts := rfl
@[simp] theorem Device.modAttest_streams (d : Device) (f : Attest → Attest) : (d.modAttest f).streams = d.streams := rfl
@[simp] theorem Device.modAttest_rfe (d : Device) (f : Attest → Attest) : (d.modAttest f).rfe = d.rfe := rfl
@[simp] theorem Device.modAttest_serai (d : Device) (f : Attest → Attest) : (d.modAttest f).serai = d.serai := rfl
@[simp] theorem Device.modAttest_scan (d : Device) (f : Attest → Attest) : (d.modAttest f).scan = d.scan := rfl
@[simp] theorem Device.modAttest_lanes (d : Device) (f : Attest → Attest) : (d.modAttest f).lanes = d.lanes := rfl
@[simp] theorem Device.modAttest_recorder (d : Device) (f : Attest → Attest) : (d.modAttest f).recorder = d.recorder := rfl
@[simp] theorem Device.modAttest_ots (d : Device) (f : Attest → Attest) : (d.modAttest f).ots = d.ots := rfl

/-! ### modI3c -/

@[simp] theorem Device.modI3c_phase (d : Device) (f : I3c → I3c) : (d.modI3c f).phase = d.phase := rfl
@[simp] theorem Device.modI3c_now (d : Device) (f : I3c → I3c) : (d.modI3c f).now = d.now := rfl
@[simp] theorem Device.modI3c_pins (d : Device) (f : I3c → I3c) : (d.modI3c f).pins = d.pins := rfl
@[simp] theorem Device.modI3c_store (d : Device) (f : I3c → I3c) : (d.modI3c f).store = d.store := rfl
@[simp] theorem Device.modI3c_image (d : Device) (f : I3c → I3c) : (d.modI3c f).image = d.image := rfl
@[simp] theorem Device.modI3c_ctl (d : Device) (f : I3c → I3c) : (d.modI3c f).ctl = d.ctl := rfl
@[simp] theorem Device.modI3c_req (d : Device) (f : I3c → I3c) : (d.modI3c f).req = d.req := rfl
@[simp] theorem Device.modI3c_i3c (d : Device) (f : I3c → I3c) : (d.modI3c f).i3c = f d.i3c := rfl
@[simp] theorem Device.modI3c_boot (d : Device) (f : I3c → I3c) : (d.modI3c f).boot = d.boot := rfl
@[simp] theorem Device.modI3c_trust (d : Device) (f : I3c → I3c) : (d.modI3c f).trust = d.trust := rfl
@[simp] theorem Device.modI3c_attest (d : Device) (f : I3c → I3c) : (d.modI3c f).attest = d.attest := rfl
@[simp] theorem Device.modI3c_therm (d : Device) (f : I3c → I3c) : (d.modI3c f).therm = d.therm := rfl
@[simp] theorem Device.modI3c_toll (d : Device) (f : I3c → I3c) : (d.modI3c f).toll = d.toll := rfl
@[simp] theorem Device.modI3c_sealRegs (d : Device) (f : I3c → I3c) : (d.modI3c f).sealRegs = d.sealRegs := rfl
@[simp] theorem Device.modI3c_sealSt (d : Device) (f : I3c → I3c) : (d.modI3c f).sealSt = d.sealSt := rfl
@[simp] theorem Device.modI3c_itn (d : Device) (f : I3c → I3c) : (d.modI3c f).itn = d.itn := rfl
@[simp] theorem Device.modI3c_well (d : Device) (f : I3c → I3c) : (d.modI3c f).well = d.well := rfl
@[simp] theorem Device.modI3c_stk (d : Device) (f : I3c → I3c) : (d.modI3c f).stk = d.stk := rfl
@[simp] theorem Device.modI3c_ne (d : Device) (f : I3c → I3c) : (d.modI3c f).ne = d.ne := rfl
@[simp] theorem Device.modI3c_vis (d : Device) (f : I3c → I3c) : (d.modI3c f).vis = d.vis := rfl
@[simp] theorem Device.modI3c_ctxs (d : Device) (f : I3c → I3c) : (d.modI3c f).ctxs = d.ctxs := rfl
@[simp] theorem Device.modI3c_parts (d : Device) (f : I3c → I3c) : (d.modI3c f).parts = d.parts := rfl
@[simp] theorem Device.modI3c_streams (d : Device) (f : I3c → I3c) : (d.modI3c f).streams = d.streams := rfl
@[simp] theorem Device.modI3c_rfe (d : Device) (f : I3c → I3c) : (d.modI3c f).rfe = d.rfe := rfl
@[simp] theorem Device.modI3c_serai (d : Device) (f : I3c → I3c) : (d.modI3c f).serai = d.serai := rfl
@[simp] theorem Device.modI3c_scan (d : Device) (f : I3c → I3c) : (d.modI3c f).scan = d.scan := rfl
@[simp] theorem Device.modI3c_lanes (d : Device) (f : I3c → I3c) : (d.modI3c f).lanes = d.lanes := rfl
@[simp] theorem Device.modI3c_recorder (d : Device) (f : I3c → I3c) : (d.modI3c f).recorder = d.recorder := rfl
@[simp] theorem Device.modI3c_ots (d : Device) (f : I3c → I3c) : (d.modI3c f).ots = d.ots := rfl

/-! ### write -/

@[simp] theorem Device.write_phase (d : Device) (a : Nat) (bs : List Byte) : (d.write a bs).phase = d.phase := rfl
@[simp] theorem Device.write_now (d : Device) (a : Nat) (bs : List Byte) : (d.write a bs).now = d.now := rfl
@[simp] theorem Device.write_pins (d : Device) (a : Nat) (bs : List Byte) : (d.write a bs).pins = d.pins := rfl
@[simp] theorem Device.write_store (d : Device) (a : Nat) (bs : List Byte) : (d.write a bs).store = d.store.writeCut d.sealRegs (bs.length / tileBytes + 2) a bs := rfl
@[simp] theorem Device.write_image (d : Device) (a : Nat) (bs : List Byte) : (d.write a bs).image = d.image := rfl
@[simp] theorem Device.write_ctl (d : Device) (a : Nat) (bs : List Byte) : (d.write a bs).ctl = d.ctl := rfl
@[simp] theorem Device.write_req (d : Device) (a : Nat) (bs : List Byte) : (d.write a bs).req = d.req := rfl
@[simp] theorem Device.write_i3c (d : Device) (a : Nat) (bs : List Byte) : (d.write a bs).i3c = d.i3c := rfl
@[simp] theorem Device.write_boot (d : Device) (a : Nat) (bs : List Byte) : (d.write a bs).boot = d.boot := rfl
@[simp] theorem Device.write_trust (d : Device) (a : Nat) (bs : List Byte) : (d.write a bs).trust = d.trust := rfl
@[simp] theorem Device.write_attest (d : Device) (a : Nat) (bs : List Byte) : (d.write a bs).attest = d.attest := rfl
@[simp] theorem Device.write_therm (d : Device) (a : Nat) (bs : List Byte) : (d.write a bs).therm = d.therm := rfl
@[simp] theorem Device.write_toll (d : Device) (a : Nat) (bs : List Byte) : (d.write a bs).toll = d.toll := rfl
@[simp] theorem Device.write_sealRegs (d : Device) (a : Nat) (bs : List Byte) : (d.write a bs).sealRegs = d.sealRegs := rfl
@[simp] theorem Device.write_sealSt (d : Device) (a : Nat) (bs : List Byte) : (d.write a bs).sealSt = d.sealSt := rfl
@[simp] theorem Device.write_itn (d : Device) (a : Nat) (bs : List Byte) : (d.write a bs).itn = d.itn := rfl
@[simp] theorem Device.write_well (d : Device) (a : Nat) (bs : List Byte) : (d.write a bs).well = d.well := rfl
@[simp] theorem Device.write_stk (d : Device) (a : Nat) (bs : List Byte) : (d.write a bs).stk = d.stk := rfl
@[simp] theorem Device.write_ne (d : Device) (a : Nat) (bs : List Byte) : (d.write a bs).ne = d.ne := rfl
@[simp] theorem Device.write_vis (d : Device) (a : Nat) (bs : List Byte) : (d.write a bs).vis = d.vis := rfl
@[simp] theorem Device.write_ctxs (d : Device) (a : Nat) (bs : List Byte) : (d.write a bs).ctxs = d.ctxs := rfl
@[simp] theorem Device.write_parts (d : Device) (a : Nat) (bs : List Byte) : (d.write a bs).parts = d.parts := rfl
@[simp] theorem Device.write_streams (d : Device) (a : Nat) (bs : List Byte) : (d.write a bs).streams = d.streams := rfl
@[simp] theorem Device.write_rfe (d : Device) (a : Nat) (bs : List Byte) : (d.write a bs).rfe = d.rfe := rfl
@[simp] theorem Device.write_serai (d : Device) (a : Nat) (bs : List Byte) : (d.write a bs).serai = d.serai := rfl
@[simp] theorem Device.write_scan (d : Device) (a : Nat) (bs : List Byte) : (d.write a bs).scan = d.scan := rfl
@[simp] theorem Device.write_lanes (d : Device) (a : Nat) (bs : List Byte) : (d.write a bs).lanes = d.lanes := rfl
@[simp] theorem Device.write_recorder (d : Device) (a : Nat) (bs : List Byte) : (d.write a bs).recorder = d.recorder := rfl
@[simp] theorem Device.write_ots (d : Device) (a : Nat) (bs : List Byte) : (d.write a bs).ots = d.ots := rfl

/-! ### event -/

@[simp] theorem Device.event_phase (d : Device) (ev : Event) (a b c : Nat) : (d.event ev a b c).phase = d.phase := rfl
@[simp] theorem Device.event_now (d : Device) (ev : Event) (a b c : Nat) : (d.event ev a b c).now = d.now := rfl
@[simp] theorem Device.event_pins (d : Device) (ev : Event) (a b c : Nat) : (d.event ev a b c).pins = d.pins := rfl
@[simp] theorem Device.event_store (d : Device) (ev : Event) (a b c : Nat) : (d.event ev a b c).store = d.store := rfl
@[simp] theorem Device.event_image (d : Device) (ev : Event) (a b c : Nat) : (d.event ev a b c).image = d.image := rfl
@[simp] theorem Device.event_ctl (d : Device) (ev : Event) (a b c : Nat) : (d.event ev a b c).ctl = d.ctl := rfl
@[simp] theorem Device.event_req (d : Device) (ev : Event) (a b c : Nat) : (d.event ev a b c).req = d.req := rfl
@[simp] theorem Device.event_i3c (d : Device) (ev : Event) (a b c : Nat) : (d.event ev a b c).i3c = { d.i3c with fresh := d.i3c.fresh ++ [(ev, a % 256, b % 256, c % 2 ^ 32)] } := rfl
@[simp] theorem Device.event_boot (d : Device) (ev : Event) (a b c : Nat) : (d.event ev a b c).boot = d.boot := rfl
@[simp] theorem Device.event_trust (d : Device) (ev : Event) (a b c : Nat) : (d.event ev a b c).trust = d.trust := rfl
@[simp] theorem Device.event_attest (d : Device) (ev : Event) (a b c : Nat) : (d.event ev a b c).attest = d.attest := rfl
@[simp] theorem Device.event_therm (d : Device) (ev : Event) (a b c : Nat) : (d.event ev a b c).therm = d.therm := rfl
@[simp] theorem Device.event_toll (d : Device) (ev : Event) (a b c : Nat) : (d.event ev a b c).toll = d.toll := rfl
@[simp] theorem Device.event_sealRegs (d : Device) (ev : Event) (a b c : Nat) : (d.event ev a b c).sealRegs = d.sealRegs := rfl
@[simp] theorem Device.event_sealSt (d : Device) (ev : Event) (a b c : Nat) : (d.event ev a b c).sealSt = d.sealSt := rfl
@[simp] theorem Device.event_itn (d : Device) (ev : Event) (a b c : Nat) : (d.event ev a b c).itn = d.itn := rfl
@[simp] theorem Device.event_well (d : Device) (ev : Event) (a b c : Nat) : (d.event ev a b c).well = d.well := rfl
@[simp] theorem Device.event_stk (d : Device) (ev : Event) (a b c : Nat) : (d.event ev a b c).stk = d.stk := rfl
@[simp] theorem Device.event_ne (d : Device) (ev : Event) (a b c : Nat) : (d.event ev a b c).ne = d.ne := rfl
@[simp] theorem Device.event_vis (d : Device) (ev : Event) (a b c : Nat) : (d.event ev a b c).vis = d.vis := rfl
@[simp] theorem Device.event_ctxs (d : Device) (ev : Event) (a b c : Nat) : (d.event ev a b c).ctxs = d.ctxs := rfl
@[simp] theorem Device.event_parts (d : Device) (ev : Event) (a b c : Nat) : (d.event ev a b c).parts = d.parts := rfl
@[simp] theorem Device.event_streams (d : Device) (ev : Event) (a b c : Nat) : (d.event ev a b c).streams = d.streams := rfl
@[simp] theorem Device.event_rfe (d : Device) (ev : Event) (a b c : Nat) : (d.event ev a b c).rfe = d.rfe := rfl
@[simp] theorem Device.event_serai (d : Device) (ev : Event) (a b c : Nat) : (d.event ev a b c).serai = d.serai := rfl
@[simp] theorem Device.event_scan (d : Device) (ev : Event) (a b c : Nat) : (d.event ev a b c).scan = d.scan := rfl
@[simp] theorem Device.event_lanes (d : Device) (ev : Event) (a b c : Nat) : (d.event ev a b c).lanes = d.lanes := rfl
@[simp] theorem Device.event_recorder (d : Device) (ev : Event) (a b c : Nat) : (d.event ev a b c).recorder = d.recorder := rfl
@[simp] theorem Device.event_ots (d : Device) (ev : Event) (a b c : Nat) : (d.event ev a b c).ots = d.ots := rfl

/-! ### reset -/

@[simp] theorem Device.reset_phase (nor : List (Nat × Byte)) (powerUp free : Nat) :
    (Device.reset nor powerUp free).phase = .preLock := rfl
@[simp] theorem Device.reset_now (nor : List (Nat × Byte)) (powerUp free : Nat) :
    (Device.reset nor powerUp free).now = 0 := rfl
@[simp] theorem Device.reset_pins (nor : List (Nat × Byte)) (powerUp free : Nat) :
    (Device.reset nor powerUp free).pins = { alertLow := false, addrSel := 0, lasersOn := false, xspiFloating := false, powerUp := powerUp } := rfl
@[simp] theorem Device.reset_store (nor : List (Nat × Byte)) (powerUp free : Nat) :
    (Device.reset nor powerUp free).store = { mem := [], seals := [], fillScr := Vector.replicate 6 1, glitches := [], nor := nor, freeCtr := free } := rfl
@[simp] theorem Device.reset_image (nor : List (Nat × Byte)) (powerUp free : Nat) :
    (Device.reset nor powerUp free).image = .none := rfl
@[simp] theorem Device.reset_ctl (nor : List (Nat × Byte)) (powerUp free : Nat) :
    (Device.reset nor powerUp free).ctl = .reset := rfl
@[simp] theorem Device.reset_req (nor : List (Nat × Byte)) (powerUp free : Nat) :
    (Device.reset nor powerUp free).req = .reset := rfl
@[simp] theorem Device.reset_i3c (nor : List (Nat × Byte)) (powerUp free : Nat) :
    (Device.reset nor powerUp free).i3c = .reset := rfl
@[simp] theorem Device.reset_boot (nor : List (Nat × Byte)) (powerUp free : Nat) :
    (Device.reset nor powerUp free).boot = .reset := rfl
@[simp] theorem Device.reset_trust (nor : List (Nat × Byte)) (powerUp free : Nat) :
    (Device.reset nor powerUp free).trust = .reset := rfl
@[simp] theorem Device.reset_attest (nor : List (Nat × Byte)) (powerUp free : Nat) :
    (Device.reset nor powerUp free).attest = .reset := rfl
@[simp] theorem Device.reset_therm (nor : List (Nat × Byte)) (powerUp free : Nat) :
    (Device.reset nor powerUp free).therm = .reset := rfl
@[simp] theorem Device.reset_toll (nor : List (Nat × Byte)) (powerUp free : Nat) :
    (Device.reset nor powerUp free).toll = .reset := rfl
@[simp] theorem Device.reset_sealRegs (nor : List (Nat × Byte)) (powerUp free : Nat) :
    (Device.reset nor powerUp free).sealRegs = .reset := rfl
@[simp] theorem Device.reset_sealSt (nor : List (Nat × Byte)) (powerUp free : Nat) :
    (Device.reset nor powerUp free).sealSt = .reset := rfl
@[simp] theorem Device.reset_itn (nor : List (Nat × Byte)) (powerUp free : Nat) :
    (Device.reset nor powerUp free).itn = .reset := rfl
@[simp] theorem Device.reset_well (nor : List (Nat × Byte)) (powerUp free : Nat) :
    (Device.reset nor powerUp free).well = .reset := rfl
@[simp] theorem Device.reset_stk (nor : List (Nat × Byte)) (powerUp free : Nat) :
    (Device.reset nor powerUp free).stk = { arbiters := [], freeChoice := 0, refreshed := [], nextRow := 0, windows := 0 } := rfl
@[simp] theorem Device.reset_ne (nor : List (Nat × Byte)) (powerUp free : Nat) :
    (Device.reset nor powerUp free).ne = Vector.replicate 6 .reset := rfl
@[simp] theorem Device.reset_vis (nor : List (Nat × Byte)) (powerUp free : Nat) :
    (Device.reset nor powerUp free).vis = Vector.replicate 7 .reset := rfl
@[simp] theorem Device.reset_ctxs (nor : List (Nat × Byte)) (powerUp free : Nat) :
    (Device.reset nor powerUp free).ctxs = Vector.replicate 64 .reset := rfl
@[simp] theorem Device.reset_parts (nor : List (Nat × Byte)) (powerUp free : Nat) :
    (Device.reset nor powerUp free).parts = Vector.replicate 8 .reset := rfl
@[simp] theorem Device.reset_streams (nor : List (Nat × Byte)) (powerUp free : Nat) :
    (Device.reset nor powerUp free).streams = Vector.replicate 32 .reset := rfl
@[simp] theorem Device.reset_rfe (nor : List (Nat × Byte)) (powerUp free : Nat) :
    (Device.reset nor powerUp free).rfe = .reset := rfl
@[simp] theorem Device.reset_serai (nor : List (Nat × Byte)) (powerUp free : Nat) :
    (Device.reset nor powerUp free).serai = .reset := rfl
@[simp] theorem Device.reset_scan (nor : List (Nat × Byte)) (powerUp free : Nat) :
    (Device.reset nor powerUp free).scan = Vector.replicate 16 .reset := rfl
@[simp] theorem Device.reset_lanes (nor : List (Nat × Byte)) (powerUp free : Nat) :
    (Device.reset nor powerUp free).lanes = .reset := rfl
@[simp] theorem Device.reset_recorder (nor : List (Nat × Byte)) (powerUp free : Nat) :
    (Device.reset nor powerUp free).recorder = .reset := rfl
@[simp] theorem Device.reset_ots (nor : List (Nat × Byte)) (powerUp free : Nat) :
    (Device.reset nor powerUp free).ots = .reset := rfl

/-! ### The state -/

@[simp] theorem State.run_pending (s : State) (t : Nat) (f : Device → Device) : (s.run t f).pending = s.pending := rfl
@[simp] theorem State.run_dev (s : State) (t : Nat) (f : Device → Device) :
    (s.run t f).dev = (f (s.dev.atTime t)).settle := rfl
@[simp] theorem State.runI_pending (s : State) (t : Nat) (f : Device → Device) : (s.runI t f).pending = s.pending := by
  simp only [State.runI, State.run_pending]
@[simp] theorem State.runI_dev (s : State) (t : Nat) (f : Device → Device) :
    (s.runI t f).dev = (f (s.dev.atTime t)).pump.settle := by
  simp only [State.runI, State.run_dev]

end Sys2Proof.Machine
end

