-- ==== Sys2Proof/Laws/Memory.lean ====
section
/-! SUPPORT. Memory: its canonical form is kept by every operation that changes it, a read after a write gives the bytes
written, and a write leaves every other byte. -/
namespace Sys2Proof.Machine

/-- The canonical form, said of pairs: addresses strictly rise and no listed byte is 0. -/
theorem memory_wf_iff (m : List (Nat × Byte)) :
    Memory.wf m = true ↔ m.Pairwise (fun x y => x.1 < y.1) ∧ ∀ c ∈ m, c.2 ≠ 0 := by
  induction m with
  | nil => simp [Memory.wf]
  | cons c rest ih =>
    obtain ⟨a, b⟩ := c
    cases rest with
    | nil => simp [Memory.wf]
    | cons c' rest =>
      obtain ⟨a', b'⟩ := c'
      simp only [Memory.wf, Bool.and_eq_true, bne_iff_ne, ne_eq, decide_eq_true_eq, ih, List.pairwise_cons, List.mem_cons,
        forall_eq_or_imp, Prod.forall]
      constructor
      · rintro ⟨⟨hb, hlt⟩, ⟨hall, hp⟩, hb', hz⟩
        exact ⟨⟨⟨hlt, fun x y h => Nat.lt_trans hlt (hall x y h)⟩, hall, hp⟩, hb, hb', hz⟩
      · rintro ⟨⟨⟨hlt, -⟩, hall, hp⟩, hb, hb', hz⟩
        exact ⟨⟨hb, hlt⟩, ⟨hall, hp⟩, hb', hz⟩

/-- What is listed of a run of bytes lies in the run, rises, and is not 0. -/
theorem memListed_mem (a : Nat) (bs : List Byte) :
    ∀ c ∈ memListed a bs, a ≤ c.1 ∧ c.1 < a + bs.length ∧ c.2 ≠ 0 := by
  induction bs generalizing a with
  | nil => simp [memListed]
  | cons b bs ih =>
    intro c hc
    simp only [memListed] at hc
    split at hc
    · obtain ⟨h1, h2, h3⟩ := ih (a + 1) c hc
      simp only [List.length_cons]
      exact ⟨by omega, by omega, h3⟩
    · rcases List.mem_cons.mp hc with rfl | hc
      · simp only [List.length_cons]
        exact ⟨le_refl _, by omega, ‹_›⟩
      · obtain ⟨h1, h2, h3⟩ := ih (a + 1) c hc
        simp only [List.length_cons]
        exact ⟨by omega, by omega, h3⟩

theorem memListed_rising (a : Nat) (bs : List Byte) : (memListed a bs).Pairwise (fun x y => x.1 < y.1) := by
  induction bs generalizing a with
  | nil => simp [memListed]
  | cons b bs ih =>
    simp only [memListed]
    split
    · exact ih (a + 1)
    · exact List.pairwise_cons.mpr ⟨fun c hc => (memListed_mem (a + 1) bs c hc).1, ih (a + 1)⟩

/-- A write keeps the canonical form. -/
theorem memPut_wf (m : List (Nat × Byte)) (a : Nat) (bs : List Byte) (h : Memory.wf m = true) :
    Memory.wf (memPut m a bs) = true := by
  obtain ⟨hp, hz⟩ := (memory_wf_iff m).mp h
  refine (memory_wf_iff _).mpr ⟨?_, ?_⟩
  · refine List.pairwise_append.mpr ⟨hp.filter _, List.pairwise_append.mpr ⟨memListed_rising a bs, hp.filter _, ?_⟩, ?_⟩
    · intro x hx y hy
      have h1 := memListed_mem a bs x hx
      have h2 := (List.mem_filter.mp hy).2
      simp only [decide_eq_true_eq] at h2
      omega
    · intro x hx y hy
      have h1 := (List.mem_filter.mp hx).2
      simp only [decide_eq_true_eq] at h1
      rcases List.mem_append.mp hy with hy | hy
      · have := memListed_mem a bs y hy
        omega
      · have h2 := (List.mem_filter.mp hy).2
        simp only [decide_eq_true_eq] at h2
        omega
  · intro c hc
    rcases List.mem_append.mp hc with hc | hc
    · exact hz c (List.mem_filter.mp hc).1
    · rcases List.mem_append.mp hc with hc | hc
      · exact (memListed_mem a bs c hc).2.2
      · exact hz c (List.mem_filter.mp hc).1

/-- The close's rebuilding gives the canonical form, whatever it is given. -/
theorem memCanon_wf (m : List (Nat × Byte)) : Memory.wf (memCanon m) = true := by
  unfold memCanon
  suffices h : ∀ acc : List (Nat × Byte), Memory.wf acc = true →
      Memory.wf (m.foldl (fun m c => memPut m c.1 [c.2]) acc) = true from h [] rfl
  induction m with
  | nil => intro acc h; exact h
  | cons c m ih => intro acc h; exact ih _ (memPut_wf _ _ _ h)

/-- What stands within a window is in canonical form. -/
theorem memWindow_wf (m : List (Nat × Byte)) (a n : Nat) (h : Memory.wf m = true) : Memory.wf (memWindow m a n) = true := by
  obtain ⟨hp, hz⟩ := (memory_wf_iff m).mp h
  exact (memory_wf_iff _).mpr ⟨hp.filter _, fun c hc => hz c (List.mem_filter.mp hc).1⟩

theorem store_close_wf (st : Store) : Memory.wf st.close.mem = true := by
  unfold Store.close
  split
  · assumption
  · exact memCanon_wf _

@[simp] theorem store_close_of_wf (st : Store) (h : Memory.wf st.mem = true) : st.close = st := by
  simp [Store.close, h]

/-- Setting a seal leaves memory. -/
@[simp] theorem sealPut_mem (st : Store) (tile : Nat) (v : BitVec 64) : (sealPut st tile v).mem = st.mem := rfl

theorem writeInTile_mem (st : Store) (g : Nat) (a : Nat) (bs : List Byte) :
    (st.writeInTile g a bs).mem = memPut st.mem a bs := rfl

/-- A sealed write keeps the canonical form. -/
theorem writeCut_wf (regs : SealRegs) (fuel : Nat) (st : Store) (a : Nat) (bs : List Byte)
    (h : Memory.wf st.mem = true) : Memory.wf (st.writeCut regs fuel a bs).mem = true := by
  induction fuel generalizing st a bs with
  | zero => exact h
  | succ n ih =>
    rw [Store.writeCut]
    split
    · exact h
    · exact ih _ _ _ (by rw [writeInTile_mem]; exact memPut_wf _ _ _ h)

theorem device_write_wf (d : Device) (a : Nat) (bs : List Byte) (h : Memory.wf d.store.mem = true) :
    Memory.wf (d.write a bs).store.mem = true := writeCut_wf _ _ _ _ _ h

/-- Free bytes change no byte of memory. -/
@[simp] theorem freeBytes_mem (d : Device) (n : Nat) : (d.freeBytes n).2.store.mem = d.store.mem := rfl

/-! ### Reading one byte -/

theorem memGet_append (l r : List (Nat × Byte)) (x : Nat) :
    memGet (l ++ r) x = if (l.any fun c => c.1 = x) then memGet l x else memGet r x := by
  induction l with
  | nil => simp
  | cons c l ih =>
    obtain ⟨a, b⟩ := c
    by_cases h : a = x
    · simp [memGet, h]
    · simp [memGet, h, ih]

theorem memGet_absent (m : List (Nat × Byte)) (x : Nat) (h : ∀ c ∈ m, c.1 ≠ x) : memGet m x = 0 := by
  induction m with
  | nil => rfl
  | cons c m ih =>
    obtain ⟨a, b⟩ := c
    have ha := h (a, b) List.mem_cons_self
    simp only [memGet, if_neg ha]
    exact ih fun c hc => h c (List.mem_cons_of_mem _ hc)

/-- A filter that keeps every entry of an address keeps what the address reads as. -/
theorem memGet_filter (m : List (Nat × Byte)) (x : Nat) (p : Nat × Byte → Bool) (h : ∀ b, p (x, b) = true) :
    memGet (m.filter p) x = memGet m x := by
  induction m with
  | nil => rfl
  | cons c m ih =>
    obtain ⟨a, b⟩ := c
    by_cases hp : p (a, b) = true
    · simp only [List.filter_cons, hp, if_true, memGet, ih]
    · have ha : a ≠ x := by rintro rfl; exact hp (h b)
      simp [hp, memGet, ha, ih]

theorem memGet_listed (a : Nat) (bs : List Byte) (i : Nat) : memGet (memListed a bs) (a + i) = bs.getD i 0 := by
  induction bs generalizing a i with
  | nil => simp [memListed, memGet]
  | cons b bs ih =>
    cases i with
    | zero =>
      simp only [memListed]
      split
      · rename_i h
        rw [memGet_absent]
        · simp [h]
        · intro c hc
          have := (memListed_mem _ _ c hc).1
          omega
      · simp [memGet]
    | succ i =>
      have e : a + (i + 1) = a + 1 + i := by omega
      simp only [memListed]
      split
      · rw [e, ih]; simp
      · simp only [memGet, if_neg (show ¬ a = a + (i + 1) by omega)]
        rw [e, ih]; simp

/-- Read after write: within the bytes written, the byte written. -/
theorem memGet_memPut_in (m : List (Nat × Byte)) (a : Nat) (bs : List Byte) (i : Nat) (h : i < bs.length) :
    memGet (memPut m a bs) (a + i) = bs.getD i 0 := by
  have h1 : (m.filter (fun c => c.1 < a)).any (fun c => decide (c.1 = a + i)) = false := by
    rw [List.any_eq_false]
    intro c hc
    have := (List.mem_filter.mp hc).2
    simp only [decide_eq_true_eq] at this ⊢
    omega
  have h2 : memGet (m.filter (fun c => decide (a + bs.length ≤ c.1))) (a + i) = 0 := by
    refine memGet_absent _ _ fun c hc => ?_
    have := (List.mem_filter.mp hc).2
    simp only [decide_eq_true_eq] at this
    omega
  rw [memPut, memGet_append, h1]
  simp only [Bool.false_eq_true, if_false]
  rw [memGet_append, h2]
  split
  · exact memGet_listed a bs i
  · rename_i h3
    have h4 := memGet_listed a bs i
    rw [memGet_absent] at h4
    · exact h4
    · intro c hc he
      exact h3 (List.any_eq_true.mpr ⟨c, hc, by simpa using he⟩)

/-- A write leaves every other byte. -/
theorem memGet_memPut_out (m : List (Nat × Byte)) (a : Nat) (bs : List Byte) (x : Nat)
    (h : x < a ∨ a + bs.length ≤ x) : memGet (memPut m a bs) x = memGet m x := by
  have hl : (memListed a bs).any (fun c => decide (c.1 = x)) = false := by
    rw [List.any_eq_false]
    intro c hc
    have := memListed_mem a bs c hc
    simp only [decide_eq_true_eq]
    omega
  rw [memPut, memGet_append, memGet_append, hl]
  simp only [Bool.false_eq_true, if_false]
  rcases h with h | h
  · rw [memGet_filter m x _ (by simpa using h)]
    split
    · rfl
    · rename_i hn
      rw [memGet_absent (m := m.filter _)]
      · symm
        refine memGet_absent _ _ fun c hc he => hn ?_
        exact List.any_eq_true.mpr ⟨c, List.mem_filter.mpr ⟨hc, by simp [he, h]⟩, by simp [he]⟩
      · intro c hc
        have := (List.mem_filter.mp hc).2
        simp only [decide_eq_true_eq] at this
        omega
  · rw [if_neg, memGet_filter m x _ (by simpa using h)]
    intro hn
    obtain ⟨c, hc, he⟩ := List.any_eq_true.mp hn
    have := (List.mem_filter.mp hc).2
    simp only [decide_eq_true_eq] at this he
    omega

/-- A sealed write leaves every byte outside its run. -/
theorem writeCut_get_out (regs : SealRegs) (fuel : Nat) (st : Store) (a : Nat) (bs : List Byte) (x : Nat)
    (h : x < a ∨ a + bs.length ≤ x) : memGet (st.writeCut regs fuel a bs).mem x = memGet st.mem x := by
  induction fuel generalizing st a bs with
  | zero => rfl
  | succ n ih =>
    rw [Store.writeCut]
    split
    · rfl
    · rw [ih, writeInTile_mem, memGet_memPut_out]
      · rcases h with h | h
        · exact .inl h
        · right
          simp only [List.length_take]
          omega
      · simp only [List.length_drop]
        omega

theorem device_write_get_out (d : Device) (a : Nat) (bs : List Byte) (x : Nat) (h : x < a ∨ a + bs.length ≤ x) :
    memGet (d.write a bs).store.mem x = memGet d.store.mem x := writeCut_get_out _ _ _ _ _ _ h

/-! ### The reset -/

theorem reset_memory_wf : Memory.wf State.reset.dev.store.mem = true := rfl

end Sys2Proof.Machine
end

