-- ==== Sys2Proof/Laws/Ops.lean ====
section
/-! SUPPORT. What the shared operations do: vectors by number, the close of a command (`settle`), the waits that a command
satisfies (`pump`), and the two shapes of a meaning (`run`, `runI`). -/
namespace Sys2Proof.Machine

/-! ### Vectors by number -/

@[simp] theorem vget_vmod_same {α : Type} {n : Nat} (v : Vector α n) (i : Nat) (f : α → α) (x : α) (h : i < n) :
    vget (vmod v i f) i x = f (vget v i x) := by
  simp [vget, vmod, h]

@[simp] theorem vget_vmod_ne {α : Type} {n : Nat} (v : Vector α n) (i j : Nat) (f : α → α) (x : α) (h : i ≠ j) :
    vget (vmod v i f) j x = vget v j x := by
  unfold vget vmod
  split
  · rw [Vector.getElem?_setIfInBounds_ne h]
  · rfl

theorem vmod_out {α : Type} {n : Nat} (v : Vector α n) (i : Nat) (f : α → α) (h : n ≤ i) : vmod v i f = v := by
  simp [vmod, Nat.not_lt.mpr h]

@[simp] theorem vget_vset_same {α : Type} {n : Nat} (v : Vector α n) (i : Nat) (a x : α) (h : i < n) :
    vget (vset v i a) i x = a := by
  simp [vget, vset, h]

@[simp] theorem vget_vset_ne {α : Type} {n : Nat} (v : Vector α n) (i j : Nat) (a x : α) (h : i ≠ j) :
    vget (vset v i a) j x = vget v j x := by
  unfold vget vset
  rw [Vector.getElem?_setIfInBounds_ne h]

/-! ### The close of a command -/

@[simp] theorem flush_fresh (r : I3c) (now : Nat) : (r.flush now).fresh = [] := by
  unfold I3c.flush
  split
  · rename_i h
    simpa using h
  · rfl

/-- With no event of the running command the queue is as it was. -/
theorem flush_of_quiet (r : I3c) (now : Nat) (h : r.fresh = []) : r.flush now = r := by
  simp [I3c.flush, h]

theorem settle_wf (d : Device) : Memory.wf d.settle.store.mem = true := store_close_wf _

@[simp] theorem settle_fresh (d : Device) : d.settle.i3c.fresh = [] := flush_fresh _ _

@[simp] theorem settle_alertLow (d : Device) : d.settle.pins.alertLow = d.settle.alert := rfl

/-- The close changes nothing of a device whose memory is canonical, whose command raised no event and whose ALERT_N is
as R712 drives it. -/
theorem settle_of_quiet (d : Device) (hm : Memory.wf d.store.mem = true) (hf : d.i3c.fresh = [])
    (ha : d.pins.alertLow = d.alert) : d.settle = d := by
  unfold Device.settle
  rw [store_close_of_wf _ hm, flush_of_quiet _ _ hf, ← ha]

/-- Every outcome of a meaning is in the invariant. -/
theorem run_inv (s : State) (t : Nat) (f : Device → Device) : (s.run t f).Inv :=
  ⟨settle_wf _, settle_fresh _, settle_alertLow _⟩

theorem runI_inv (s : State) (t : Nat) (f : Device → Device) : (s.runI t f).Inv := run_inv _ _ _

/-! ### Waits -/

theorem tryRelease_none (d : Device) (e : Nat) (h : ∀ r, (d.eng e).run = some r → r.wait = none) : d.tryRelease e = none := by
  unfold Device.tryRelease
  split
  · rfl
  · rename_i r hr
    split
    · rfl
    · rw [h r hr]

theorem pumpEngines_of_still (fuel : Nat) (d : Device) (h : ∀ e < 6, ∀ r, (d.eng e).run = some r → r.wait = none) :
    Device.pumpEngines fuel d = d := by
  cases fuel with
  | zero => rfl
  | succ n =>
    have hn : (List.range 6).findSome? d.tryRelease = none := by
      rw [List.findSome?_eq_none_iff]
      intro e he
      exact tryRelease_none d e (h e (List.mem_range.mp he))
    rw [Device.pumpEngines, hn]

/-- Nothing waits, so a command satisfies nothing. -/
theorem pump_of_still (d : Device) (h : d.Still) : d.pump = d := by
  obtain ⟨hr, hv, hw⟩ := h
  have hfold {α : Type} (l : List Nat) (f : α → Nat → α) (x : α) (hf : ∀ u ∈ l, f x u = x) : l.foldl f x = x := by
    induction l with
    | nil => rfl
    | cons u l ih =>
      rw [List.foldl_cons, hf u List.mem_cons_self]
      exact ih fun v hv => hf v (List.mem_cons_of_mem _ hv)
  have h1 : Device.pumpEngines 64 d = d := pumpEngines_of_still _ _ fun e he r hr' => (hr e he r hr').1
  have h0 : d.pumpLost = d := by
    unfold Device.pumpLost
    refine hfold _ _ _ fun e he => ?_
    cases hr' : (d.eng e).run with
    | none => rfl
    | some r => simp [(hr e (List.mem_range.mp he) r hr').1]
  have h2 : d.pumpVision = d := by
    unfold Device.pumpVision
    refine hfold _ _ _ fun u hu => ?_
    rw [hv u (List.mem_range.mp hu)]
  have h3 : d.pumpCommits = d := by
    unfold Device.pumpCommits
    refine hfold _ _ _ fun e he => ?_
    cases hr' : (d.eng e).run with
    | none => rfl
    | some r => simp [(hr e (List.mem_range.mp he) r hr').2.2]
  have h4 : d.pumpRequest = d := by
    unfold Device.pumpRequest
    rw [hw]
  unfold Device.pump
  rw [h1, h0, h2, h3, h4]

/-- What stands still is decided by the engines, the vision units and the request alone. -/
theorem still_congr (d d' : Device) (hn : d'.ne = d.ne) (hv : d'.vis = d.vis) (hq : d'.req.watch = d.req.watch) :
    d'.Still ↔ d.Still := by
  unfold Device.Still Device.eng Device.unit
  rw [hn, hv, hq]

/-! ### The shapes of a meaning -/

/-- A meaning that leaves memory, events, phase, alert sources and ALERT_N closes with no further change. -/
theorem run_eq (s : State) (t : Nat) (f : Device → Device) (d : Device) (hd : f (s.dev.atTime t) = d)
    (hm : Memory.wf d.store.mem = true) (hf : d.i3c.fresh = []) (ha : d.pins.alertLow = d.alert) :
    s.run t f = { s with dev := d } := by
  unfold State.run
  rw [hd, settle_of_quiet d hm hf ha]

theorem runI_eq (s : State) (t : Nat) (f : Device → Device) (d : Device) (hd : f (s.dev.atTime t) = d)
    (hs : d.Still) (hm : Memory.wf d.store.mem = true) (hf : d.i3c.fresh = []) (ha : d.pins.alertLow = d.alert) :
    s.runI t f = { s with dev := d } := by
  unfold State.runI
  exact run_eq s t _ d (by simp only [hd, pump_of_still d hs]) hm hf ha

end Sys2Proof.Machine
end

