-- ==== Sys2Proof/WellFormed.lean ====
section
/-! DEFINITION. Which commands are well formed: operands that the outside can send at all. Every command has a
meaning whether or not it is well formed; the checks name the bounds that the spec's own formats set. -/
namespace Sys2Proof

/-- Entries of an itinerary at most (Table 10.1). -/
def entryMax : Nat := 32768

/-- An Otson frame at most: header, one tile of data and CRC-32 (R539, Table 12.11). -/
def frameMax : Nat := 16404

/-- A private write at most: tag, offset, 64 words and the pad byte (R680, R681). -/
def transferMax : Nat := 262

/-- The operands of a command are within the bounds of the formats that carry them. -/
def Instr.wf : Instr → Bool
  | .boot _ _ => true
  | .resetNAssert _ _ => true
  | .pwrOkFall _ => true
  | .refclkLoss _ _ => true
  | .timePpsEdge _ => true
  | .thermalTrip _ _ _ => true
  | .trainToRun _ _ => true
  | .lightPresent _ _ => true
  | .codewordLock _ _ => true
  | .superframeLock _ _ => true
  | .lossOfActive _ _ => true
  | .lossOfLight _ _ => true
  | .alignBlock _ _ _ _ _ => true
  | .frameStartPacket _ _ _ _ => true
  | .longPacket _ _ _ _ payload _ => decide (payload.length < 65536)
  | .frameEndPacket _ _ _ _ => true
  | .containerTimeout _ _ _ => true
  | .replayRecordArrival _ _ record => decide (28 ≤ record.length)
  | .replayedPacketRelease _ _ => true
  | .hello _ _ frame => decide (20 ≤ frame.length) && decide (frame.length ≤ frameMax)
  | .helloTimeout _ => true
  | .readReq _ _ frame => decide (20 ≤ frame.length) && decide (frame.length ≤ frameMax)
  | .readResp _ _ frame => decide (20 ≤ frame.length) && decide (frame.length ≤ frameMax)
  | .otsonResetFrame _ _ frame => decide (20 ≤ frame.length) && decide (frame.length ≤ frameMax)
  | .otsonFrameSend _ _ => true
  | .otsonRequestTimeout _ _ _ => true
  | .majorCycleBoundary _ => true
  | .entryDue _ entry => decide (entry < entryMax)
  | .listLaunch _ _ => true
  | .deadlineSkip _ entry => decide (entry < entryMax)
  | .budgetOverrun _ _ => true
  | .yieldWaitExpiry _ _ => true
  | .saveComplete _ _ => true
  | .boundaryYield _ _ => true
  | .restore _ _ _ => true
  | .restoreComplete _ _ => true
  | .bestEffortSliceExpiry _ _ => true
  | .preEmptionMarkReached _ _ => true
  | .semaphoreWatchdog _ _ _ => true
  | .handshakeTimeout _ _ _ => true
  | .tollPeriodStart _ _ => true
  | .meterHold _ _ => true
  | .conv _ _ _ _ => true
  | .matmul _ _ _ _ => true
  | .attn _ _ => true
  | .pool _ _ => true
  | .cropresize _ _ => true
  | .rasterTile _ _ => true
  | .add _ _ => true
  | .sub _ _ => true
  | .mul _ _ => true
  | .fma _ _ => true
  | .min _ _ => true
  | .max _ _ => true
  | .clamp _ _ => true
  | .affine _ _ => true
  | .exp2 _ _ => true
  | .log2 _ _ => true
  | .rcp _ _ => true
  | .rsqrt _ _ => true
  | .sigmoid _ _ => true
  | .tanh _ _ => true
  | .rsum _ _ => true
  | .rmax _ _ => true
  | .rmin _ _ => true
  | .softmax _ _ => true
  | .norm _ _ => true
  | .cvt _ _ => true
  | .mxq _ _ => true
  | .copy _ _ => true
  | .tileReloadComplete _ tile => decide (tile % 16384 = 0)
  | .wait _ _ => true
  | .waitLimitExpiry _ _ => true
  | .signal _ _ => true
  | .semAcquire _ _ => true
  | .semRelease _ _ => true
  | .reproject _ _ => true
  | .anchorSelection _ _ => true
  | .guideDecisionTime _ _ => true
  | .triangleBinning _ => true
  | .flushJobStart _ _ => true
  | .flushJobEnd _ _ => true
  | .visionJobStart _ _ => true
  | .visionWaitExpiry _ _ => true
  | .flowJob _ _ => true
  | .stereoJob _ => true
  | .remapJob _ _ => true
  | .layer0Drain _ => true
  | .stage5LineWrite _ _ => true
  | .ringToFifoMove _ _ => true
  | .lineSlotStart _ _ => true
  | .shadowComparison _ entry => decide (entry < entryMax)
  | .scrubCheck _ => true
  | .errorScoreDecay _ => true
  | .rejoinAutoStart _ _ => true
  | .dramRefresh _ _ => true
  | .refreshWindow _ => true
  | .arbiterRequest _ _ request _ => decide (1 ≤ request.len)
  | .arbiterGrant _ _ => true
  | .requesterWithdrawal _ _ _ => true
  | .holdExpiry _ _ => true
  | .referenceCut _ _ => true
  | .epochStart _ _ => true
  | .batchAssembly _ _ => true
  | .weightDigestComplete _ _ => true
  | .itnTuneApprove _ _ _ => true
  | .sealRejoinReq _ _ => true
  | .attestationStart _ _ => true
  | .attestationResponse _ => true
  | .sessionKeyPreparation _ => true
  | .backgroundSlotErase _ => true
  | .abort _ => true
  | .preempt _ => true
  | .teardown _ => true
  | .otsonReset _ => true
  | .mode _ => true
  | .enec _ _ => true
  | .disec _ _ => true
  | .enthdr0 _ => true
  | .rstact _ _ => true
  | .targetResetPattern _ => true
  | .entdaa _ _ => true
  | .setdasa _ _ _ => true
  | .setnewda _ _ => true
  | .getpid _ => true
  | .getbcr _ => true
  | .getdcr _ => true
  | .getstatus _ => true
  | .getmxds _ => true
  | .registerWrite _ _ bytes => decide (bytes.length ≤ transferMax)
  | .readSetup _ _ bytes => decide (bytes.length ≤ transferMax)
  | .privateRead _ _ => true
  | .loRegisterRead _ _ => true
  | .ibi _ _ bytesRead => decide (bytesRead ≤ 8)
  | .rejoinComplete _ _ _ => true

end Sys2Proof
end

