-- ==== Sys2Proof/Tests/Slice0.lean ====
section
/-! SUPPORT. Tests. A theorem test_… runs one step on a small state, its expected value taken from the spec; a theorem
witness_… shows a state and operands that meet the hypotheses of the statement that it names, clause by clause. -/
namespace Sys2Proof.Tests
set_option Elab.async false
open Sys2Proof Sys2Proof.Machine

/-! ### Small states -/

/-- `State.Inv` and `Device.Still`, as one computation. -/
def calm (s : State) : Bool :=
  Memory.wf s.dev.store.mem && s.dev.i3c.fresh.isEmpty && (s.dev.pins.alertLow == s.dev.alert) &&
  (List.range 6).all (fun e => match (s.dev.eng e).run with
    | none => true
    | some r => r.wait.isNone && r.remote.isNone && !r.awaitShadow) &&
  (List.range 7).all (fun u => (s.dev.unit u).run.isNone) && s.dev.req.watch.isNone

theorem calm_inv (s : State) (h : calm s = true) : s.Inv := by
  simp only [calm, Bool.and_eq_true, List.isEmpty_iff, beq_iff_eq] at h
  exact ⟨h.1.1.1.1.1, h.1.1.1.1.2, h.1.1.1.2⟩

theorem calm_still (s : State) (h : calm s = true) : s.dev.Still := by
  simp only [calm, Bool.and_eq_true, List.isEmpty_iff, beq_iff_eq, List.all_eq_true, List.mem_range, Option.isNone_iff_eq_none] at h
  refine ⟨fun e he r hr => ?_, h.1.2, h.2⟩
  have := h.1.1.2 e he
  rw [hr] at this
  simpa [and_assoc] using this

/-- `State.Inv` alone. -/
def sound (s : State) : Bool :=
  Memory.wf s.dev.store.mem && s.dev.i3c.fresh.isEmpty && (s.dev.pins.alertLow == s.dev.alert)

theorem sound_inv (s : State) (h : sound s = true) : s.Inv := by
  simp only [sound, Bool.and_eq_true, List.isEmpty_iff, beq_iff_eq] at h
  exact ⟨h.1.1, h.1.2, h.2⟩

/-- `Device.Alone`, as one computation. -/
def aloneOn (d : Device) (e : Nat) : Bool :=
  (List.range 6).all (fun i => i == e || (d.eng i).run.isNone) && (List.range 7).all (fun u => (d.unit u).run.isNone) &&
    d.req.watch.isNone

theorem aloneOn_alone (d : Device) (e : Nat) (h : aloneOn d e = true) : d.Alone e := by
  simp only [aloneOn, Bool.and_eq_true, List.all_eq_true, List.mem_range, Option.isNone_iff_eq_none, Bool.or_eq_true, beq_iff_eq] at h
  refine ⟨fun i hi hne => ?_, h.1.2, h.2⟩
  rcases h.1.1 i hi with h1 | h1
  · exact absurd h1 hne
  · exact h1

/-- `Device.VisionAlone`, as one computation. -/
def visionOn (d : Device) (u : Nat) : Bool :=
  (List.range 6).all (fun e => (d.eng e).run.isNone) && (List.range 7).all (fun w => w == u || (d.unit w).run.isNone) &&
    d.req.watch.isNone

theorem visionOn_alone (d : Device) (u : Nat) (h : visionOn d u = true) : d.VisionAlone u := by
  simp only [visionOn, Bool.and_eq_true, List.all_eq_true, List.mem_range, Option.isNone_iff_eq_none, Bool.or_eq_true, beq_iff_eq] at h
  refine ⟨fun e he r hr => ?_, fun w hw hne => ?_, h.2⟩
  · rw [h.1.1 e he] at hr
    cases hr
  · rcases h.1.2 w hw with h1 | h1
    · exact absurd h1 hne
    · exact h1

def st (d : Device) : State := { pending := [], dev := d }

/-- Entry 0: latency-critical, context 1. Entry 1: best-effort, context 2. Entry 2: a vision job on unit 0. -/
def entryLc : Entry :=
  { offset := 100, ctx := 1, bestEffort := false, target := 0, saveOk := false, units := 0b111111, stream := 0, convoy := false,
    bind := 0, slot := 0, group := 0, budget := 1, launch := 0, deadline := 50 }
def entryBe : Entry := { entryLc with ctx := 2, bestEffort := true, saveOk := true, launch := 1, deadline := 0 }
def entryVis : Entry := { entryLc with ctx := 3, target := 1, units := 0, launch := 2 }

def launchAt (n : Nat) : LaunchDesc :=
  { addr := 0x40000 + 0x4000 * n, record := 0x20000 + 0x4000 * n, credits := 0, yieldWait := 10, row0 := 0, rows := 0 }

def ctxAt (c : Nat) : CtxRec := { ctx := c, part := 0, tuning := false, compositor := false, saveF := 1, saveBase := 0x1000000 * c }

def itin : Itin :=
  { index := 0, lockstep := true, cycleNs := 1000000, groups0 := 1
    parts := [{ part := 0, engines := 0b111111, credits := 4, wayTiles := 4, save := true, beSlice := 20 }]
    ctxs := [ctxAt 1, ctxAt 2, ctxAt 3], convoys := [], entries := [entryLc, entryBe, entryVis]
    launches := [launchAt 0, launchAt 1, launchAt 2], marks := [] }

/-- A device of one chip past T0 = 0 with this itinerary and every generation number at 1. -/
def base : Device :=
  { Device.reset [] with
    phase := .running
    image := { Image.none with itins := [itin], recBytes := 65536 }
    itn := { Itinerary.reset with t0 := some 0, groupEn := 1 }
    ctl := { Ctl.reset with locked := true, chips := 1 }
    parts := Vector.replicate 8 { Part.reset with freeCredits := 4 }
    sealRegs := { SealRegs.reset with genDram := 1, genWell := 1, genScr := Vector.replicate 6 1 } }

def dueOf (entry count : Nat) : Due :=
  { index := 0, entry := entry, count := count, at_ := 100000, repro := none, shadow := false, relaunch := false
    producer := false, tile := none, anchors := [] }

/-- A run of an entry of a list of commands. -/
def runOf (entry ctx : Nat) (be : Bool) (cmds : List (List Byte)) : Run :=
  { due := dueOf entry 0, ctx := ctx, bestEffort := be, bind := none, streams := [], slot := 0, addr := 0x40000
    cmds := cmds, descs := [], footprint := 64, idx := 0, steps := 100, started := 50, fused := false, inCmd := false
    wait := none, remote := none, dests := [], heads := [], sigA := 0, sigB := 0, degraded := false, credits := 0
    awaitShadow := false, overrun := false }

/-- Engine 0 runs a list. -/
def running (r : Run) : Device := base.modEng 0 (fun x => { x with run := some r, pre := .running })

theorem base_calm : calm (st base) = true := by decide +kernel

/-! ### Well-formedness: an ill-formed command for each check -/

def someHead : PacketHead :=
  { kind := 0, blocksOk := true, uncorr := 0, corr := 0, eccErrors := 0, frameVc := 3, headerVc := 3 }

theorem test_wf_payload : (Instr.longPacket 0 0 someHead 0 (List.replicate 65536 0) true).wf = false := by
  rw [Instr.wf, List.length_replicate]
  rfl
theorem test_wf_record : (Instr.replayRecordArrival 0 0 (List.replicate 27 0)).wf = false := by decide +kernel
theorem test_wf_hello : (Instr.hello 0 true (List.replicate 19 0)).wf = false := by decide +kernel
theorem test_wf_read_req : (Instr.readReq 0 true (List.replicate 19 0)).wf = false := by decide +kernel
theorem test_wf_read_resp : (Instr.readResp 0 true (List.replicate 16405 0)).wf = false := by
  rw [Instr.wf, List.length_replicate]
  rfl
theorem test_wf_reset_frame : (Instr.otsonResetFrame 0 true []).wf = false := by decide +kernel
theorem test_wf_entry_due : (Instr.entryDue 0 32768).wf = false := by decide +kernel
theorem test_wf_deadline_skip : (Instr.deadlineSkip 0 32768).wf = false := by decide +kernel
theorem test_wf_tile : (Instr.tileReloadComplete 0 1).wf = false := by decide +kernel
theorem test_wf_shadow : (Instr.shadowComparison 0 32768).wf = false := by decide +kernel
theorem test_wf_request :
    (Instr.arbiterRequest 0 .serai { req := 0, latencyCritical := true, len := 0, ctx := none, tag := 0, ladder := false } 0).wf = false := by decide +kernel
theorem test_wf_register_write : (Instr.registerWrite 0 .sdr (List.replicate 263 0)).wf = false := by
  rw [Instr.wf, List.length_replicate]
  rfl
theorem test_wf_read_setup : (Instr.readSetup 0 .sdr (List.replicate 263 0)).wf = false := by
  rw [Instr.wf, List.length_replicate]
  rfl
theorem test_wf_ibi : (Instr.ibi 0 true 9).wf = false := by decide +kernel
theorem test_wf_good : (Instr.longPacket 0 0 someHead 0 [1, 2] true).wf = true := by decide +kernel
/-! ### Witnesses: queue, stops, memory, pins -/

theorem witness_queue_kept : ∃ s', exec (.timePpsEdge 5) (st base) = .next s' := ⟨_, rfl⟩
theorem witness_forbidden_pulse : exec (.resetNAssert 0 100) (st base) = .fault .resetPulseForbidden := rfl
theorem test_pulse_999 : exec (.resetNAssert 0 999) State.reset = .fault .resetPulseForbidden := rfl

theorem witness_step_invariant : State.reset.Inv ∧ ∃ s', step { State.reset with pending := [.timePpsEdge 5] } = .next s' :=
  ⟨sound_inv _ (by decide +kernel), _, rfl⟩

theorem witness_memory : Memory.wf base.store.mem = true ∧ base.sealed (3 * tileBytes) = true := by decide +kernel
theorem test_write_reads_back : (base.write 16383 [1, 2]).peek 16382 4 = [0, 1, 2, 0] := by decide +kernel
theorem test_partial_write_sealed :
    (base.write 16383 [1, 2]).sealed 0 = true ∧ (base.write 16383 [1, 2]).sealed 16384 = true := by decide +kernel
theorem witness_full_tile : (List.replicate tileBytes (0 : Byte)).length = tileBytes := List.length_replicate

theorem witness_reset_pulse : (st base).Inv ∧ base.phase ≠ .off ∧ { base with phase := .off }.phase = .off :=
  ⟨sound_inv _ (by decide +kernel), by decide +kernel, rfl⟩
theorem witness_reset_pulse_off : (st { base with phase := .off }).Inv := sound_inv _ (by decide +kernel)

theorem witness_shutdown : (st base).Inv ∧ base.phase ≠ .off ∧ base.i3c.queue.length < 32 :=
  ⟨sound_inv _ (by decide +kernel), by decide +kernel, by decide +kernel⟩
/-- THERM_TRIP resets to 0x6E0 or 0x780 by ordered code: 0x7000 is below neither's range of the witnesses. -/
def tripped : Device := { base with therm := { base.therm with tripAt := 0x6E0 } }
theorem witness_trip : (st tripped).Inv ∧ tripped.phase ≠ .off ∧ signed16 tripped.therm.tripAt ≤ 0x6E0 ∧
    (0x6DF : Int) < signed16 tripped.therm.tripAt ∧ tripped.i3c.queue.length < 32 :=
  ⟨sound_inv _ (by decide +kernel), by decide +kernel, by decide +kernel, by decide +kernel, by decide +kernel⟩

theorem witness_pps : (st base).Inv ∧ base.phase ≠ .off ∧
    base.ctl.pps.any (fun last => decide (max base.now 7 < last + 10000000)) = false :=
  ⟨sound_inv _ (by decide +kernel), by decide +kernel, by decide +kernel⟩
def ppsSeen : Device := { base with ctl := { base.ctl with pps := some 5 } }
theorem witness_pps_ignored : (st ppsSeen).Inv ∧ ppsSeen.phase ≠ .off ∧
    ppsSeen.ctl.pps.any (fun last => decide (max ppsSeen.now 10000004 < last + 10000000)) = true :=
  ⟨sound_inv _ (by decide +kernel), by decide +kernel, by decide +kernel⟩

/-! ### Witnesses: lanes, containers, replay -/

/-- Receive lane 3 in a state, with a role. -/
def rxIn (d : Device) (l : Nat) (x : RxState) (role : Byte) : Device := d.modRx l (fun y => { y with state := x, role := role })

def pairsStand (d : Device) : Bool := [true, false].all (fun e => (d.ots.pair e).up == d.pairSees e)
theorem pairs_of (d : Device) (h : pairsStand d = true) : ∀ east, (d.ots.pair east).up = d.pairSees east := by
  simp only [pairsStand, List.all_cons, List.all_nil, Bool.and_true, Bool.and_eq_true, beq_iff_eq] at h
  intro east
  cases east
  · exact h.2
  · exact h.1

def laneMet (d : Device) (l : Nat) (x : RxState) : Bool :=
  calm (st d) && pairsStand d && d.phase != .off && d.phase != .inert && !isOtson (d.rxLane l).role && (d.rxLane l).state == x

theorem witness_lane_search : laneMet (rxIn base 3 .dark 0x20) 3 .dark = true ∧ laneMet (rxIn base 3 .cwSearch 0x20) 3 .cwSearch = true ∧
    laneMet (rxIn base 3 .sfSearch 0x20) 3 .sfSearch = true := by decide +kernel
theorem witness_lane_loss : laneMet (rxIn base 3 .active 0x20) 3 .active = true ∧ (rxIn base 3 .active 0x20).lanes.open_ = [] := by decide +kernel

def training : Device := base.modTx 2 (fun y => { y with state := .train, since := 40, role := 0x10 })
theorem witness_train : calm (st training) = true ∧ (training.txLane 2).state = .train ∧
    (training.txLane 2).since + 100000 ≤ max training.now 100040 ∧ isOtson (training.txLane 2).role = false := by decide +kernel
theorem test_train_at_100us : ∀ s', exec (.trainToRun 100040 2) (st training) = .next s' → (s'.dev.txLane 2).state = .run := by
  intro s' h
  cases h
  decide +kernel
theorem test_train_before_100us : ∀ s', exec (.trainToRun 100039 2) (st training) = .next s' → (s'.dev.txLane 2).state = .train := by
  intro s' h
  cases h
  decide +kernel

/-- CSI-2: RAW16 goes high byte first; RAW20 as two 10-bit words; 10-8-10 codes 0x07 (+7), 0x45 (+42), 0x85 (8 × 5, rounded). -/
theorem test_csi_packing : packGroup 16 [0x1234] = [0x12, 0x34] ∧ packGroup 20 [0x2AF0D, 0] = [0x2A, 0xC3, 0, 0, 0x07] ∧
    raw10to8.line false [0x10, 0x20, 0x07, 0x45, 0x85] [] = [66, 130, 73, 172, 44] := by decide +kernel
theorem witness_align : laneMet (rxIn base 3 .active 0x20) 3 .active = true := by decide +kernel
/-- The east pair is up: lanes 16 and 17 ACTIVE both ways. -/
def eastUp (d : Device) : Device :=
  let d := [16, 17].foldl (fun (d : Device) l =>
    ((rxIn d l .active 0x30).modRx l (fun y => { y with farTx := 2, farRx := 3 })).modTx l (fun y => { y with state := .run, role := 0x30 })) d
  { d with ots := { d.ots with east := { d.ots.east with up := true, credits := Vector.replicate 2 64 } } }
theorem witness_align_otson : calm (st (eastUp base)) = true ∧ isOtson ((eastUp base).rxLane 16).role = true ∧
    ((eastUp base).rxLane 16).state = .active ∧ pairsStand (eastUp base) = true ∧ ((eastUp base).ots.pair true).up = true := by decide +kernel

/-- Stream 0's images come by lane 3, VC 3: 4 × 2 pixels of three 8-bit channels. -/
def input0 : InputRec :=
  { stream := 0, lane := 3, vc := 3, resim := false, format := 0, channels := 3, compMask := 1, width := 4, height := 2
    rxBase := #v[0x600000, 0x604000], rxBytes := 16384, refBase := 0 }
def fed : Device :=
  rxIn { base with image := { base.image with inputs := [input0] } } 3 .active 0x20
def fedOpen (c : Container) : Device := { fed with lanes := { fed.lanes with open_ := [c] } }
theorem fed_open (d : Device) (h : d.phase = .running) (h1 : (d.rxLane 3).state = .active) (h2 : (d.rxLane 3).role = 0x20)
    (h3 : d.ctl.replay = false) : d.feedOpen 3 := ⟨.inl h, h1, h2, h3⟩

theorem witness_frame_start : (st fed).Inv ∧ fed.Still ∧ fed.feedOpen 3 ∧ headClean someHead ∧
    (fed.inputAt 3 someHead.frameVc.toNat).isSome = true ∧ fed.openAt 3 someHead.frameVc.toNat = none :=
  ⟨calm_inv _ (by decide +kernel), calm_still (st fed) (by decide +kernel), fed_open _ rfl (by decide +kernel) (by decide +kernel) rfl,
    ⟨rfl, rfl, rfl, rfl, by decide +kernel⟩, by decide +kernel, by decide +kernel⟩

def commandBox : Container :=
  { lane := 3, vc := 31, stream := none, fsData := 9, openedAt := 0, dt := none, bytes := [], packets := 0, header := [], buf := none
    opened := false, badLines := [], dead := false }
def commandHead : PacketHead := { someHead with frameVc := 31, headerVc := 15 }
/-- VERSION 1, K = 9 and a mode change that sets nothing. -/
def commandBytes : List Byte := leBytes 2 1 ++ leBytes 2 0 ++ leBytes 4 9 ++ List.replicate 56 0
theorem witness_command_packet : (st (fedOpen commandBox)).Inv ∧ (fedOpen commandBox).Still ∧ (fedOpen commandBox).feedOpen 3 ∧
    headClean commandHead ∧ (fedOpen commandBox).openAt 3 commandHead.frameVc.toNat = some commandBox ∧ commandBytes.length = 64 ∧
    field commandBytes 0 2 = 1 ∧ field commandBytes 2 2 = 0 ∧ commandBox.fsData = field commandBytes 4 4 % 2 ^ 16 ∧
    modeShape (commandBytes.drop 8) = true :=
  ⟨calm_inv _ (by decide +kernel), calm_still (st (fedOpen commandBox)) (by decide +kernel), fed_open _ rfl (by decide +kernel) (by decide +kernel) rfl,
    ⟨rfl, rfl, rfl, rfl, by decide +kernel⟩, by decide +kernel, by decide +kernel, by decide +kernel, by decide +kernel, by decide +kernel, by decide +kernel⟩
/-- An image header of 4 × 2 pixels, FORMAT 0x24, 3 channels, tag 7. -/
def imageHeader : List Byte :=
  leBytes 4 0 ++ leBytes 4 7 ++ leBytes 2 4 ++ leBytes 2 2 ++ [0x24, 0, 3, 0] ++ leBytes 4 24 ++ List.replicate 108 0
def imageBox : Container :=
  { commandBox with vc := 3, stream := some 0, fsData := 7, dt := some 0x30, header := imageHeader, buf := some 0, opened := true }
def packetLen : Nat := lineBytes (hdrFormat imageHeader) (hdrWidth imageHeader)
theorem witness_image_packet : calm (st (fedOpen imageBox)) = true ∧ (fedOpen imageBox).openAt 3 someHead.frameVc.toNat = some imageBox ∧
    someHead.frameVc.toNat ≠ 31 ∧ (fedOpen imageBox).inputAt 3 someHead.frameVc.toNat = some input0 ∧ imageBox.dead = false ∧
    imageBox.header.length = 128 ∧ hdrComp imageBox.header = 0 ∧ imageBox.packets <
      packetCount (hdrFormat imageBox.header) 0 (hdrChannels imageBox.header) (hdrHeight imageBox.header) ∧
    (List.replicate packetLen (0 : Byte)).length = packetLen ∧ max (fedOpen imageBox).now 9 < imageBox.openedAt + 100000000 := by decide +kernel

theorem witness_image_rows : lengthOk (hdrFormat imageHeader) (hdrComp imageHeader) (hdrWidth imageHeader) packetLen = true ∧
    (packetRows imageHeader 0 (List.replicate packetLen 0)).isSome = true := by decide +kernel
/-- The same image received whole, and a stream whose slot 7 starts after now. -/
def profile0 : Profile :=
  { profile := 0, dt := 0x2A, lsLe := false, cfa := 0, width := 4, height := 2, lineNs := 1000, frameLines := 10, embBytes := 128
    white := 255, black := 0, kShot := 0, read2 := 0, lbLines := 4, wmark := 1, embStatic := [] }
def port0 : PortRec :=
  { stream := 0, port := 0, vc := 0, profile := 0, fsOffset := 20, noiseSeed := 0, lbBase := 0x700000, laUs := 5, lgUs := 3 }
def streamed (d : Device) : Device := { d with image := { d.image with profiles := [profile0], ports := [port0] } }
def wholeBox : Container := { imageBox with packets := 2, bytes := imageHeader ++ List.replicate 24 0 }
def boxed : Device := streamed (fedOpen wholeBox)
theorem witness_anchor_accepted : calm (st boxed) = true ∧ boxed.openAt 3 someHead.frameVc.toNat = some wholeBox ∧
    wholeBox.complete = true ∧ (boxed.atTime 9).unwrap 0 wholeBox.tag = some 7 ∧
    (boxed.atTime 9).slotPassed 0 7 (max boxed.now 9) = false ∧ (boxed.strm 0).tags.contains 7 = false ∧
    (boxed.strm 0).held.any (fun a => a.tag = 7) = false ∧ (boxed.strm 0).inUse.any (fun a => a.tag = 7) = false ∧ max boxed.now 9 < wholeBox.openedAt + 100000000 := by decide +kernel

/-- Slot 7 was selected at its decision time, without the anchor whose Frame End comes at the same instant. -/
def decidedBox (d : Device) : Device :=
  ({ d with image := { d.image with ssbs := [(0, 0x500000)] } } : Device).modStrm 0 (fun x => { x with decided := 8 })
theorem witness_anchor_at_decision : ((decidedBox boxed).strm 0).decided = 7 + 1 ∧ (decidedBox boxed).hasSsb 0 = true ∧
    (decidedBox boxed).decisionTime 0 7 = 65020 ∧ (decidedBox boxed).slotPassed 0 7 65020 = false ∧ (decidedBox boxed).allDues = [] ∧
    (decidedBox boxed).allRuns = [] ∧ max (decidedBox boxed).now 65020 = 65020 := by decide +kernel
theorem witness_container_timeout : calm (st (fedOpen commandBox)) = true ∧
    (fedOpen commandBox).openAt commandBox.lane.val (31#5).toNat = some commandBox ∧ commandBox.vc = (31#5).toNat ∧ commandBox.dt ≠ some 0x31 ∧
    commandBox.dt ≠ some 0x32 ∧ commandBox.openedAt + 100000000 ≤ max (fedOpen commandBox).now 100000000 ∧
    (fedOpen commandBox).i3c.queue.length < 32 := by decide +kernel

/-- A packet record of lane 3: a Frame Start, stamped 500 ns after T0. -/
def recordHead : List Byte := [0, 3, 0, 0] ++ leBytes 4 0 ++ leBytes 8 500 ++ leBytes 4 4 ++ leBytes 4 77 ++ [0, 0, 0, 0]
def recordWhole : List Byte := recordHead ++ leBytes 4 (crc32 recordHead).toNat
def replaying (d : Device) : Device :=
  rxIn { d with ctl := { d.ctl with replay := true } } 20 .active 0x41
theorem witness_replay_record : calm (st (replaying base)) = true ∧ ((replaying base).rxLane 20).role = 0x41 ∧
    ((replaying base).rxLane 20).state = .active ∧ replayWhole recordWhole = true ∧ field recordWhole 0 1 = 0 ∧
    (replaying base).recorder.replayUsed + recordWhole.length ≤ (replaying base).image.recBytes := by decide +kernel
def heldRecord : ReplayRec := { lane := 3, stream := 0, flags := 0, index := 0, stamp := 500, seq := 77, body := [0, 0, 0, 0], arrived := 100 }
def held (d : Device) (x : ReplayRec) : Device := (replaying d).modRec (fun r => { r with replay := [x], replayUsed := 32 })
theorem witness_replay_release : calm (st (held base heldRecord)) = true ∧ (held base heldRecord).ctl.replay = true ∧
    (held base heldRecord).recorder.replay.find? (fun y => y.seq = heldRecord.seq) = some heldRecord ∧ heldRecord.lane < 24 ∧
    4 ≤ heldRecord.body.length ∧ (held base heldRecord).itn.t0.isSome = true ∧
    (∀ y ∈ (held base heldRecord).recorder.replay, y.stream = heldRecord.stream → heldRecord.index ≤ y.index) ∧
    (held base heldRecord).t0 + heldRecord.stamp.toNat ≤ max (held base heldRecord).now 500 := by decide +kernel
/-- The record of 500 ns after T0 comes 600 ns after it, with none of its stream held. -/
theorem witness_replay_late : (replaying base).phase = .running ∧ (replaying base).t0 + (500 : Int).toNat < max (replaying base).now 620 ∧
    (replaying base).recorder.replay = [] ∧ field recordWhole 1 1 < 24 ∧ ((recordWhole.drop 24).take (field recordWhole 16 4)).length = 4 ∧
    sfield recordWhole 8 8 = 500 ∧ (replaying base).t0 = 0 := by decide +kernel
theorem test_replay_late : ∀ s', exec (.replayRecordArrival 620 20 recordWhole) (st (replaying base)) = .next s' →
    s'.dev.ctl.replayLate = 1 ∧ s'.dev.recorder.replay = [] := by
  intro s' h
  cases h
  decide +kernel
theorem witness_replay_waits : max (held base heldRecord).now 499 < (held base heldRecord).t0 + heldRecord.stamp.toNat := by decide +kernel

/-! ### Witnesses: the Otson link -/

/-- A device of a ring of 2 that waits for HELLO, its east pair up; both neighbours are device 1. -/
def waiting (west : Option (Nat × Nat × List Byte)) : Device :=
  let d := eastUp { base with phase := .awaitChips, itn := { base.itn with t0 := none }, image := { base.image with ringN := 2 } }
  d.modOts (fun o => { o with west := { o.west with hello := west } })
def helloHead : OtsHead := { type := 0, src := 1, dst := 0, epoch := 0, tag := 0, status := 0, hops := 0, addr := 0, len := 64 }
def helloFrame : List Byte := otsFrame helloHead ([2, 1] ++ List.replicate 30 0)
theorem witness_hello_agrees : calm (st (waiting (some (2, 1, [])))) = true ∧ ((waiting (some (2, 1, []))).ots.pair true).up = true ∧
    field helloFrame 0 1 = 0 ∧ otsCrcOk helloFrame = true ∧ (otsHeadOf helloFrame).dst = (waiting (some (2, 1, []))).ringPos ∧
    (waiting (some (2, 1, []))).helloAgrees true
      (field (otsData helloFrame) 0 1, field (otsData helloFrame) 1 1, ((otsData helloFrame).drop 32).take 32) = true ∧
    ((waiting (some (2, 1, []))).ots.pair (!true)).hello.any ((waiting (some (2, 1, []))).helloAgrees (!true)) = true ∧
    max (waiting (some (2, 1, []))).now 500000000 ≤ (waiting (some (2, 1, []))).ots.enabledAt + 500000000 := by decide +kernel
theorem witness_hello_alone : calm (st (waiting none)) = true ∧
    ((waiting none).ots.pair (!true)).hello.any ((waiting none).helloAgrees (!true)) = false := by decide +kernel
/-- Lane 5, of a stream port, trains since 0; it is the last of order 11. -/
def trainingFor (west : Option (Nat × Nat × List Byte)) : Device := (waiting west).modTx 5 (fun y => { y with state := .train, role := 0x10, since := 0 })
theorem witness_last_lane : (waiting none).lanesRun = true ∧ (trainingFor none).lanesRun = false ∧ calm (st (trainingFor none)) = true ∧
    ((trainingFor none).modTx 5 (fun y => { y with state := .run })).lanesRun = true ∧ (trainingFor none).bothAgree = false ∧
    ((trainingFor (some (2, 1, []))).modOts (fun o => { o with east := { o.east with hello := some (2, 1, []) } })).bothAgree = true := by
  decide +kernel
theorem witness_hello_timeout : (waiting none).ots.enabledAt + 500000000 ≤ max (waiting none).now 500000000 ∧
    (waiting none).boot.unrepaired = 0 ∧ (waiting none).i3c.queue.length < 32 ∧
    max (waiting none).now 499999999 < (waiting none).ots.enabledAt + 500000000 := by decide +kernel

def linked : Device := eastUp { base with image := { base.image with ringN := 2 } }
def reqHead (a n : Nat) : OtsHead := { helloHead with type := 1, tag := 5, addr := a, len := n }
def reqMet (f : List Byte) : Bool := (linked.ots.pair true).up && field f 0 1 == 1 && otsCrcOk f && (otsHeadOf f).dst == linked.ringPos
theorem witness_read_inside : calm (st linked) = true ∧ reqMet (otsFrame (reqHead 0x20000 16384) []) = true ∧
    regionOf 0x20000 = .dram ∧ regionOf (0x20000 + 16384 - 1) = .dram ∧ ∀ k ∈ tilesOf 0x20000 16384, linked.passes k = true := by decide +kernel
theorem witness_read_outside : reqMet (otsFrame (reqHead 0x900000000 64) []) = true ∧ regionOf 0x900000000 ≠ .dram ∧
    regionOf 0x900000000 ≠ .well := by decide +kernel
theorem witness_read_empty : reqMet (otsFrame (reqHead 0x20000 0) []) = true := by decide +kernel

def outReq : OutReq :=
  { part := 0, credit := 5, engine := some 0, ctx := 1, due := dueOf 0 0, issued := 1000, east := true, destPos := 0, addr := 0x20000, len := 4, chunk := 0
    live := true }
def asking (d : Device) : Device := d.modOts (fun o => { o with outstanding := [outReq] })
def respFrame (e : Nat) : List Byte := otsFrame { reqHead 0x20000 4 with type := 2, epoch := e } [1, 2, 3, 4]
def respMet (d : Device) (f : List Byte) : Bool :=
  calm (st d) && (d.ots.pair true).up && field f 0 1 == 2 && otsCrcOk f && (otsHeadOf f).dst == d.ringPos
theorem witness_few_hops : (otsHeadOf helloFrame).hops ≤ 2 ∧ (otsHeadOf (respFrame 0)).hops ≤ 2 ∧
    (otsHeadOf (otsFrame (reqHead 0x20000 16384) [])).hops ≤ 2 := by decide +kernel
theorem test_hops_above_two : ∀ s', exec (.otsonResetFrame 9 true (otsFrame { helloHead with type := 3, len := 0, hops := 3 } [])) (st linked) = .next s' →
    s'.dev.ots.fwdDrops = 1 ∧ s'.dev.ots.resets = 0 := by
  intro s' h
  cases h
  decide +kernel
theorem witness_response : respMet (asking linked) (respFrame 0) = true ∧ (otsHeadOf (respFrame 0)).status = 0 ∧
    olderEpoch (BitVec.ofNat 8 (otsHeadOf (respFrame 0)).epoch) ((asking linked).ots.pair true).epoch = false ∧
    (asking linked).ots.outstanding.find? (fun q => q.part = (otsHeadOf (respFrame 0)).tag / 256 % 8 &&
      q.credit = (otsHeadOf (respFrame 0)).tag % 256 && !(asking linked).arrived q) = some outReq ∧ outReq.live = true ∧
    max (asking linked).now 9 ≤ outReq.issued + 2000000 := by decide +kernel
theorem witness_response_old : respMet linked (respFrame 255) = true ∧
    olderEpoch (BitVec.ofNat 8 (otsHeadOf (respFrame 255)).epoch) (linked.ots.pair true).epoch = true := by decide +kernel

def resetFrame : List Byte := otsFrame { helloHead with type := 3, len := 0 } []
theorem witness_reset_frame : calm (st (asking linked)) = true ∧ ((asking linked).ots.pair true).up = true ∧ field resetFrame 0 1 = 3 ∧
    otsCrcOk resetFrame = true ∧ (otsHeadOf resetFrame).dst = (asking linked).ringPos ∧
    (∀ c < 64, ((asking linked).ctx c).kept = none) := by decide +kernel
theorem test_reset_frame_epoch : ∀ s', exec (.otsonResetFrame 9 true resetFrame) (st linked) = .next s' →
    (s'.dev.ots.pair true).epoch = 1 ∧ s'.dev.ots.resets = 1 := by
  intro s' h
  cases h
  decide +kernel

def sending (credits : Nat) : Device :=
  linked.modOts (fun o => o.modPair true (fun p => { p with sendQ := [resetFrame], credits := Vector.replicate 2 credits }))
theorem witness_frame_out : sound (st (sending 1)) = true ∧ ((sending 1).ots.pair true).sendQ = [resetFrame] ∧
    ((sending 1).ots.pair true).up = true ∧ ceilDiv resetFrame.length 512 ≤ vget ((sending 1).ots.pair true).credits 0 0 ∧
    (sending 1).laneRuns (otsLane true ((sending 1).ots.pair true).nextLane) = true ∧
    vget ((sending 0).ots.pair true).credits 0 0 < ceilDiv resetFrame.length 512 := by decide +kernel

def plainMet (d : Device) (r : Run) : Bool :=
  (d.serveOf r.due).any (fun v => v.entry.target == 0 && v.bind == none) && (d.tuneEntry r.due.entry).isNone && !d.isCompositor r.ctx &&
    (d.shadowOf r.due).isNone && !r.due.shadow && r.due.repro.isNone && !r.due.relaunch && r.bind == none
theorem plain_of (d : Device) (r : Run) (h : plainMet d r = true) : d.plainRun r := by
  simp only [plainMet, Bool.and_eq_true, Option.any_eq_true, beq_iff_eq, Option.isNone_iff_eq_none, Bool.not_eq_true'] at h
  obtain ⟨⟨⟨⟨⟨⟨⟨⟨v, hv, h1⟩, h2⟩, h3⟩, h4⟩, h5⟩, h6⟩, h7⟩, h8⟩ := h
  exact ⟨⟨v, hv, h1⟩, h2, h3, h4, h5, h6, h7, h8⟩

def opCmd (op : Nat) : List Byte := BitVec.ofNat 8 op :: List.replicate 63 0
def copying : Run := { runOf 0 1 false [opCmd opCOPY] with inCmd := true, remote := some { issued := 1, moved := 0, total := 1, len := 64, data := [] } }
def stuck : Device := asking (running copying)
theorem witness_request_timeout : stuck.Alone 0 ∧ stuck.plainRun copying ∧ (stuck.eng 0).run = some copying ∧ copying.due = outReq.due ∧
    copying.remote.isSome = true ∧
    stuck.ots.outstanding.find? (fun q => q.part = (0 : Fin 8).val && q.credit = (5#8).toNat && q.live) = some outReq ∧
    stuck.arrived outReq = false ∧ outReq.issued + 2000000 ≤ max stuck.now 2001000 ∧ max stuck.now 2000999 < outReq.issued + 2000000 :=
  ⟨aloneOn_alone _ _ (by decide +kernel), plain_of _ _ (by decide +kernel), by decide +kernel⟩
/-! ### Witnesses: the itinerary unit -/

theorem witness_boundary : calm (st base) = true ∧ base.active.isSome = true ∧
    base.t0 + (base.itn.k + 1) * base.cycleNs ≤ max base.now 1000000 ∧ max base.now 999999 < base.t0 + (base.itn.k + 1) * base.cycleNs ∧
    base.itn.t0.isSome = true ∧ base.ctl.replay = false ∧ base.image.tunes = [] ∧ base.itn.active = 0 ∧ base.itn.switchTo = none ∧
    (∀ e < 6, (base.eng e).rejoin = .none) ∧ (∀ m ∈ base.req.modes, m.k ≠ base.itn.k + 1) := by decide +kernel
theorem test_boundary_counts : ∀ s', exec (.majorCycleBoundary 1000000) (st base) = .next s' → s'.dev.itn.k = 1 ∧ s'.dev.itn.cycles = 1 := by
  intro s' h
  cases h
  decide +kernel

def lockstepped (d : Device) : Device := { d with ctl := { d.ctl with lockstep := true } }
def dueMet (d : Device) (e : Nat) : Bool :=
  calm (st d) && (d.active == some itin) && !d.itn.fallen.contains e && d.itn.t0.isSome && decide (d.cycleStart + 1000 * 100 ≤ max d.now 100000) &&
    d.ctl.lockstep && !d.unitsGone 0b111111 && (d.tuneEntry e).isNone && (d.shadowOf (dueOf e 0)).isNone
theorem witness_entry_due : dueMet (lockstepped base) 0 = true ∧ itin.entries[0]? = some entryLc ∧
    (lockstepped base).itn.groupEn.getLsbD entryLc.group = true ∧ ((lockstepped base).serveOf (dueOf 0 0)).isSome = true ∧
    ((lockstepped base).ctx 1).mode ≠ .quarantined := by decide +kernel
theorem witness_entry_due_be : dueMet (lockstepped base) 1 = true ∧ itin.entries[1]? = some entryBe ∧
    ((lockstepped base).serveOf (dueOf 1 0)).isSome = true ∧ ((lockstepped base).ctx 2).ready.length < 64 := by decide +kernel
def groupsOff : Device := { base with itn := { base.itn with groupEn := 0 } }
theorem witness_entry_due_off : calm (st groupsOff) = true ∧ groupsOff.itn.groupEn.getLsbD entryLc.group = false ∧
    (∀ n < 6, (groupsOff.eng n).marked = none) := by decide +kernel
theorem test_entry_before_offset : exec (.entryDue 99999 0) (st (lockstepped base)) = .next (st ((lockstepped base).atTime 99999)) := by
  rfl

/-- A list of one SIGNAL of flag 1 by 1, and its header. -/
def signalCmd : List Byte := opCmd 10 |>.set 16 1 |>.set 18 1
def listHead (n : Nat) : List Byte :=
  leBytes 2 1 ++ leBytes 2 n ++ leBytes 2 0 ++ leBytes 2 0 ++ leBytes 6 0x40000 ++ leBytes 2 0 ++ leBytes 2 1 ++ List.replicate 46 0
def withList (cmd : List Byte) : Device :=
  (base.write 0x40000 (listHead 1 ++ cmd)).modItn (fun i => { i with waiting := [dueOf 0 0] })
def listMet (d : Device) : Bool :=
  calm (st d) && d.engineFree 0 && !d.owed 0 && ((d.atTime 100000).criticalOrder.find? (fun y => (d.atTime 100000).startable 0 y &&
    (d.atTime 100000).setReady y) == some (dueOf 0 0)) &&
  (match d.serveOf (dueOf 0 0) with
    | none => false
    | some v =>
      let a := v.launch.addr
      let hdr := d.peek a 64
      let n := field hdr 2 2
      let da := field hdr 8 6
      v.bind.isNone && decide (v.entry.ctx < 64) && inWellOrDram a && inWellOrDram (a + 63) && inWellOrDram (a + 63 + 64 * n) &&
        inWellOrDram da && inWellOrDram (da + 32 * 0 - 1) && (headerFails hdr).isNone && field hdr 4 2 == 0 &&
        (tilesOf a 64 ++ tilesOf (a + 64) (64 * n) ++ tilesOf da 0).all d.passes)
def listFailure (d : Device) : Option Failure :=
  match d.serveOf (dueOf 0 0) with
  | none => none
  | some v => listFails (d.launchEnv 0 v) (d.peek v.launch.addr 64) [(d.peek (v.launch.addr + 64) 64).take 64] [] []
theorem witness_list_launch : listMet (withList signalCmd) = true ∧ listFailure (withList signalCmd) = none ∧
    hasRaster [signalCmd] = false := by decide +kernel
theorem witness_list_fails : listMet (withList (opCmd 13)) = true ∧ (listFailure (withList (opCmd 13))).isSome = true := by decide +kernel
theorem test_list_launch : ∀ s', exec (.listLaunch 100000 0) (st (withList signalCmd)) = .next s' →
    ((s'.dev.eng 0).run.map (·.cmds)) = some [signalCmd] ∧ s'.dev.itn.waiting = [] := by
  intro s' h
  cases h
  decide +kernel
theorem test_list_bad_opcode : ∀ s', exec (.listLaunch 100000 0) (st (withList (opCmd 13))) = .next s' →
    (s'.dev.eng 0).run = none ∧ (s'.dev.eng 0).regs.lastStatus = word (11 + 1 * 256) := by
  intro s' h
  cases h
  decide +kernel

def late : Device := base.modItn (fun i => { i with waiting := [dueOf 0 0] })
theorem witness_deadline : calm (st late) = true ∧ late.itn.waiting.filter (fun y => y.entry = (dueOf 0 0).entry) = [dueOf 0 0] ∧
    (late.serveOf (dueOf 0 0)).any (fun v => !v.entry.bestEffort && v.entry.deadline == 50 && v.entry.target == 0 && v.bind.isNone) = true ∧
    (dueOf 0 0).at_ + 1000 * 50 ≤ max late.now 150000 ∧ (dueOf 0 0).shadow = false := by decide +kernel
theorem test_deadline_record : ∀ s', exec (.deadlineSkip 150000 0) (st late) = .next s' →
    s'.dev.itn.waiting = [] ∧ memGet s'.dev.store.mem 0x20000 = 7 := by
  intro s' h
  cases h
  decide +kernel

def spent : Run := { runOf 0 1 false [signalCmd] with steps := 1024 }
theorem witness_budget : calm (st (running spent)) = true ∧ ((running spent).eng 0).run = some spent ∧
    ((running spent).serveOf spent.due).any (fun v => v.entry.budget * 1024 == spent.steps) = true ∧ spent.bestEffort = false ∧
    spent.overrun = false := by decide +kernel
theorem witness_budget_lockstep : calm (st (lockstepped (running spent))) = true ∧ (lockstepped (running spent)).ctl.lockstep = true := by decide +kernel
theorem witness_budget_below : ((running (runOf 0 1 false [])).serveOf (dueOf 0 0)).any (fun v =>
    decide ((runOf 0 1 false []).steps < v.entry.budget * 1024)) = true := by decide +kernel

def besteffort : Run := runOf 1 2 true [signalCmd]
def asked (pre : PreState) (r : Run) : Device :=
  base.modEng 0 (fun x => { x with run := some r, pre := pre, request := some (1000, 10), slice := some (2, 20000) })
theorem witness_yield : calm (st (asked .requested besteffort)) = true ∧ ((asked .requested besteffort).atTime 5).yieldAsked 0 = true ∧
    ((asked .requested besteffort).eng 0).run = some besteffort ∧ besteffort.yieldPoint = true ∧
    (asked .requested besteffort).yields besteffort = true := by decide +kernel
def contended : Device := (asked .running besteffort).modCtx 3 (fun c => { c with ready := [dueOf 1 0], mode := .queued })
theorem witness_slice : calm (st contended) = true ∧ (contended.eng 0).pre = .running ∧ contended.ctl.lockstep = false ∧
    (contended.eng 0).slice = some (2, 20000) ∧ contended.partOfEngine 0 = some 0 ∧ 20000 ≤ max contended.now 20000 ∧
    (contended.readyCtxs 0).any (· ≠ 2) = true := by decide +kernel
/-- A best-effort launch that has issued 100 steps, under a mark. -/
def marked (step : Nat) : Device :=
  let d := lockstepped (asked .running besteffort)
  { d with image := { d.image with itins := [{ itin with marks := [{ lcEntry := 0, beEntry := 1, step := step }] }] } }
theorem witness_mark : calm (st (marked 100)) = true ∧ (marked 100).ctl.lockstep = true ∧
    (marked 100).markOf besteffort = some { lcEntry := 0, beEntry := 1, step := 100 } ∧ besteffort.steps = 100 ∧
    besteffort.atBoundary = true ∧ (marked 100).yields besteffort = true ∧ ((marked 100).eng 0).pre = .running := by decide +kernel
theorem witness_mark_past : calm (st (marked 99)) = true ∧
    (marked 99).markOf besteffort = some { lcEntry := 0, beEntry := 1, step := 99 } := by decide +kernel
/-- R461: STEP lies in the SIGNAL's decode, before its one instruction. -/
theorem witness_mark_inside : calm (st (marked 110)) = true ∧ (marked 110).ready 0 = some besteffort ∧
    isOp opSIGNAL besteffort.cmd = true ∧
    (marked 110).markInside besteffort synIssue = some ({ lcEntry := 0, beEntry := 1, step := 110 }, 0) ∧
    (marked 120).markInside besteffort synIssue = none := by decide +kernel

def inCommand : Run := { besteffort with inCmd := true }
theorem witness_yield_wait : calm (st (asked .requested inCommand)) = true ∧ ((asked .requested inCommand).eng 0).request = some (1000, 10) ∧
    ((asked .requested inCommand).entryOf inCommand.due.index inCommand.due.entry).any (fun y => y.saveOk) = true ∧
    1000 + 1000 * 10 ≤ max (asked .requested inCommand).now 11000 ∧ max (asked .requested inCommand).now 10999 < 1000 + 1000 * 10 ∧
    (asked .requested inCommand).yields inCommand = true ∧ inCommand.yieldPoint = false := by decide +kernel
theorem witness_save_stalled : let d := (asked .requested inCommand).modEng 0 (fun x => { x with stalled := true })
    calm (st d) = true ∧ d.ready 0 = none ∧ (d.eng 0).run = some inCommand := by decide +kernel
def acc0 : Acc := { a := 5, ef := 0, et := 0, n := 1, nan := false, pinf := false, ninf := false, mode := false }
def saving : Device := (asked .saving inCommand).modEng 0 (fun x => { x with acc := [(127, 255, acc0)] })
theorem witness_save : calm (st saving) = true ∧ (saving.eng 0).pre = .saving ∧ (saving.eng 0).run = some inCommand ∧ inCommand.ctx < 64 ∧
    saving.ctxRec inCommand.ctx = some (ctxAt 2) ∧ (ctxAt 2).saveBase + imageBytes (ctxAt 2).saveF ≤ dramEnd ∧
    (∀ x ∈ (saving.eng 0).acc, x.1 < 128 ∧ x.2.1 < 256) ∧
    (∀ i < (ctxAt 2).saveF, saving.passes (scratchBase 0 + i * tileBytes) = true) ∧
    (∀ i < 6, (saving.eng i).retired = true ∨ (saving.eng i).score < saving.sealSt.retireThresh) := by decide +kernel

def keptIn (mode : CtxMode) : Device :=
  base.modCtx 2 (fun c => { c with kept := some besteffort, keptOn := some 0, keptSaved := mode = .saved, mode := mode })
theorem witness_resume : calm (st (keptIn .yielded)) = true ∧ ((keptIn .yielded).ctx 2).kept = some besteffort ∧
    (keptIn .yielded).ctxRec 2 = some (ctxAt 2) ∧ ((keptIn .yielded).atTime 5).mayResume 0 2 = true ∧
    ((keptIn .yielded).ctx 2).keptSaved = false ∧ besteffort.wait = none ∧ besteffort.remote = none ∧ besteffort.awaitShadow = false := by decide +kernel
def noWindow : Device := lockstepped (keptIn .saved)
theorem witness_restore : calm (st noWindow) = true ∧ (noWindow.ctx 2).kept = some besteffort ∧ (noWindow.atTime 5).mayResume 0 2 = true ∧
    (noWindow.ctx 2).keptSaved = true ∧ (∀ k ∈ tilesOf (ctxAt 2).saveBase (imageBytes (ctxAt 2).saveF), noWindow.passes k = true) := by decide +kernel
def restoring : Device := (keptIn .saved).modEng 0 (fun x => { x with pre := .restoring, moving := some 2 })
theorem witness_restored : calm (st restoring) = true ∧ (restoring.eng 0).pre = .restoring ∧ (restoring.eng 0).moving = some 2 ∧
    (restoring.eng 0).run = none ∧ (ctxAt 2).saveBase + imageBytes (ctxAt 2).saveF ≤ dramEnd := by decide +kernel

/-- Context 1 runs a list and has held semaphore 3 since 1 µs. -/
def holding : Device :=
  let d := (running (runOf 0 1 false [signalCmd])).modCtx 1 (fun c => { c with mode := .running })
  d.modSem 3 (fun x => { x with holders := [(1, 1000)] })
theorem witness_watchdog : holding.Alone 0 ∧ holding.plainRun (runOf 0 1 false [signalCmd]) ∧ sound (st holding) = true ∧
    (holding.eng 0).run = some (runOf 0 1 false [signalCmd]) ∧ (holding.ctx 1).mode = .running ∧ (holding.ctx 1).kept = none ∧
    (holding.ctx 1).ready = [] ∧ holding.itn.waiting = [] ∧ (∀ u < 7, (holding.unit u).queue = []) ∧ holding.rfe.sets = [] ∧
    (∀ i < 6, (holding.eng i).retired = true ∨ (holding.eng i).score + 8 < holding.sealSt.retireThresh) ∧
    (holding.sem 3).holders.find? (fun h => h.1 = 1) = some (1, 1000) ∧ 1000 + 50000 ≤ max holding.now 51000 :=
  ⟨aloneOn_alone _ _ (by decide +kernel), plain_of _ _ (by decide +kernel), by decide +kernel⟩
theorem witness_handshake : calm (st base) = true ∧ base.i3c.queue.length < 32 := by decide +kernel

def tolled : Device := { tripped with toll := { base.toll with period := 1 } }
def cool : Readings := { sensors := Vector.replicate 16 400, vddNe := 780, vddBd := 800, busyNs := Vector.replicate 6 0, acInstructions := 0 }
theorem witness_toll_period : calm (st tolled) = true ∧ tolled.itn.t0.isSome = true ∧ tolled.t0 + 100000 * tolled.toll.period ≤ max tolled.now 100000 ∧
    tolled.toll.period ≠ 0 ∧ (hottest cool.sensors).2 < signed16 tolled.therm.tripAt ∧
    max tolled.now 99999 < tolled.t0 + 100000 * tolled.toll.period := by decide +kernel
def full : Device :=
  { tolled with toll := { tolled.toll with
      bePct := 80, cap := 0, meters := vmod tolled.toll.meters 5 (fun m => { m with budget := Vector.replicate 4 0 }) } }
theorem witness_meter : calm (st full) = true ∧ (vget full.toll.meters 5 .reset).full = true ∧ (vget full.toll.meters 6 .reset).full = false ∧
    full.toll.energyBudget ≤ vget (vget full.toll.meters 72 .reset).use 3 0 ∧ full.toll.deviceHeld = false := by decide +kernel
/-! ### Witnesses: the commands of a list -/

def lastRun : Run := { runOf 0 1 false [signalCmd] with descs := [] }
theorem witness_last_command : calm (st (running lastRun)) = true ∧ (running lastRun).ready 0 = some lastRun ∧
    isOp opSIGNAL lastRun.cmd = true ∧ lastRun.idx + 1 = lastRun.cmds.length ∧ plainMet (running lastRun) lastRun = true ∧
    ((running lastRun).serveOf lastRun.due).isSome = true ∧ lastRun.degraded = false ∧ lastRun.ctx < 64 ∧
    (running lastRun).itn.waiting = [] ∧ (running lastRun).rfe.sets = [] := by decide +kernel
theorem test_last_command : ∀ s', exec (.signal 7000 0) (st (running lastRun)) = .next s' →
    s'.dev.flag 1 = 1 ∧ memGet s'.dev.store.mem 0x20004 = 120 ∧ memGet s'.dev.store.mem 0x20008 = 7 := by
  intro s' h
  cases h
  decide +kernel

/-- Tensors of one FP32 element in DRAM, tile by tile: A, B, C and an output. -/
def one32 (n : Nat) : Desc :=
  { base := 0x80000 + 0x4000 * n, tensorId := n, fmt := 13, layout := 0, comp := 0, channels := 1, width := 1, height := 1
    rowPitch := 64, planeStride := 64, scaleOffset := 0 }
/-- Engine 0 at the first of two commands. -/
def at2 (cmd : List Byte) (descs : List Desc) : Run := { runOf 0 1 false [cmd, signalCmd] with descs := descs }
def on (cmd : List Byte) (descs : List Desc) : Device := running (at2 cmd descs)
def atMet (d : Device) (r : Run) : Bool :=
  calm (st d) && d.phase == .running && d.ready 0 == some r && decide (r.idx + 1 < r.cmds.length) && !r.due.shadow &&
    (d.shadowOf r.due).isNone && (!d.ctl.lockstep || (d.marksAhead r).isEmpty) && (d.rowsDropped r).isEmpty && !r.failed && r.xfer.isNone
theorem at_of (d : Device) (r : Run) (h : atMet d r = true) : (st d).Inv ∧ d.Still ∧ d.atCommand 0 r := by
  simp only [atMet, Bool.and_eq_true, beq_iff_eq, decide_eq_true_eq, Bool.not_eq_true', Option.isNone_iff_eq_none, Bool.or_eq_true,
    List.isEmpty_iff] at h
  obtain ⟨⟨⟨⟨⟨⟨⟨⟨⟨h1, h2⟩, h3⟩, h4⟩, h5⟩, h6⟩, h7⟩, h8⟩, h9⟩, h10⟩ := h
  exact ⟨calm_inv _ h1, calm_still (st d) h1, h2, h3, h4, h5, h6, h7, h8, h9, h10⟩
def readMet (d : Device) (r : Run) (p : Plan) : Bool :=
  (badSpan 0 p.copy r.footprint p.all).isNone && (spanTiles 0 (p.all.filter (fun s => !s.store))).all d.passes &&
    (List.range 6).all (fun i => (d.eng i).retired || decide ((d.eng i).score < d.sealSt.retireThresh))
theorem read_of (d : Device) (r : Run) (p : Plan) (h : readMet d r p = true) : d.mayRead 0 r p := by
  simp only [readMet, Bool.and_eq_true, Option.isNone_iff_eq_none, List.all_eq_true, List.mem_range, Bool.or_eq_true,
    decide_eq_true_eq] at h
  exact ⟨h.1.1, h.1.2, h.2⟩

def waitCmd (target limit : Nat) : List Byte := opCmd 9 |>.set 16 1 |>.set 18 (BitVec.ofNat 8 target) |>.set 20 (BitVec.ofNat 8 limit)
theorem witness_signal : atMet (on signalCmd []) (at2 signalCmd []) = true ∧ isOp opSIGNAL (at2 signalCmd []).cmd = true := by decide +kernel
theorem witness_wait_reached : atMet (on (waitCmd 0 9) []) (at2 (waitCmd 0 9) []) = true ∧ isOp opWAIT (at2 (waitCmd 0 9) []).cmd = true ∧
    (BitVec.ofNat 16 (field (at2 (waitCmd 0 9) []).cmd 18 2) - (on (waitCmd 0 9) []).flag 1).toInt ≤ 0 := by decide +kernel
theorem witness_wait_pends : atMet (on (waitCmd 1 9) []) (at2 (waitCmd 1 9) []) = true ∧
    0 < (BitVec.ofNat 16 (field (at2 (waitCmd 1 9) []).cmd 18 2) - (on (waitCmd 1 9) []).flag 1).toInt := by decide +kernel
def pends (limit : Nat) : Run := { at2 (waitCmd 1 9) [] with inCmd := true, wait := some (.flag 1 1 1000 limit) }
theorem witness_wait_limit : sound (st (running (pends 9))) = true ∧ aloneOn (running (pends 9)) 0 = true ∧
    ((running (pends 9)).eng 0).run = some (pends 9) ∧ (pends 9).wait = some (.flag 1 1 1000 9) ∧ (pends 9).awaitShadow = false ∧
    (pends 9).remote = none ∧ (running (pends 9)).flagReached 1 1 = false ∧ 1000 + 1000 * 9 ≤ max (running (pends 9)).now 10000 ∧
    ((running (pends 9)).eng 0).pre ≠ .saving ∧ plainMet (running (pends 9)) (pends 9) = true ∧
    max (running (pends 9)).now 9999 < 1000 + 1000 * 9 := by decide +kernel
theorem witness_wait_forever : sound (st (running (pends 0))) = true ∧ aloneOn (running (pends 0)) 0 = true ∧
    ((running (pends 0)).eng 0).run = some (pends 0) ∧ (running (pends 0)).flagReached 1 1 = false := by decide +kernel

def semCmd (op : Byte) : List Byte := opCmd 11 |>.set 16 3 |>.set 17 op
def withSem (d : Device) (n : Nat) (h : List (Nat × Nat)) : Device := d.modSem 3 (fun x => { x with count := n, holders := h })
theorem witness_sem_acquire : atMet (withSem (on (semCmd 0) []) 1 []) (at2 (semCmd 0) []) = true ∧
    isOp opSEM (at2 (semCmd 0) []).cmd = true ∧ ((withSem (on (semCmd 0) []) 1 []).eng 0).pre = .running ∧
    field (at2 (semCmd 0) []).cmd 17 1 = 0 ∧ ((withSem (on (semCmd 0) []) 1 []).sem 3).waiters = [] ∧
    ((withSem (on (semCmd 0) []) 1 []).sem 3).count ≠ 0 := by decide +kernel
theorem witness_sem_waits : atMet (withSem (on (semCmd 0) []) 0 []) (at2 (semCmd 0) []) = true ∧
    ((withSem (on (semCmd 0) []) 0 []).sem 3).count = 0 := by decide +kernel
theorem witness_sem_release : atMet (withSem (on (semCmd 1) []) 0 [(1, 5)]) (at2 (semCmd 1) []) = true ∧
    field (at2 (semCmd 1) []).cmd 17 1 = 1 ∧ ((withSem (on (semCmd 1) []) 0 [(1, 5)]).sem 3).heldBy 1 = true ∧
    ((withSem (on (semCmd 1) []) 0 []).sem 3).heldBy 1 = false ∧
    ((withSem (on (semCmd 1) []) 0 [(1, 5)]).sem 3).overdue 1 50005 = false ∧
    ((withSem (on (semCmd 1) []) 0 [(1, 5)]).sem 3).overdue 1 50006 = true := by decide +kernel

def vecCmd (op : Nat) : List Byte := opCmd 7 |>.set 16 (BitVec.ofNat 8 op) |>.set 18 1 |>.set 19 2 |>.set 20 3
/-- The operands; the destination of MXQ is MXFP8. -/
def vecDescs (op : Nat) : List Desc :=
  [one32 0, one32 1, one32 2, if op = 0x21 then { one32 3 with fmt := 5, scaleOffset := 64 } else one32 3]
theorem witness_vec : vecCommands.all (fun p =>
    let r := at2 (vecCmd p.1) (vecDescs p.1)
    atMet (running r) r && isOp opVEC r.cmd && r.vop == p.1 && readMet (running r) r r.vecPlan &&
      (r.vop != 0x21 || isMx r.vecDst.fmt)) = true := by decide +kernel
def addOn : Device := (on (vecCmd 1) (vecDescs 1)).write 0x80000 (leBytes 4 0x3F800000) |>.write 0x84000 (leBytes 4 0x40000000)
theorem test_vec_add : ∀ s', exec (.add 5 0) (st addOn) = .next s' → s'.dev.peek 0x8C000 4 = leBytes 4 0x40400000 := by
  intro s' h
  cases h
  decide +kernel

def poolCmd : List Byte := opCmd 4 |>.set 17 3 |>.set 20 0x11 |>.set 36 1
def four32 : List Desc := vecDescs 0
theorem witness_pool : atMet (on poolCmd four32) (at2 poolCmd four32) = true ∧ isOp opPOOL (at2 poolCmd four32).cmd = true ∧
    readMet (on poolCmd four32) (at2 poolCmd four32) (at2 poolCmd four32).poolPlan = true := by decide +kernel
def cropCmd : List Byte := opCmd 5 |>.set 17 3 |>.set 18 1 |>.set 20 1 |>.set 22 1 |>.set 24 1
/-- A POOL inside its command when YIELD_WAIT has expired. -/
def poolAsked : Device := (asked .requested { at2 poolCmd four32 with due := besteffort.due, ctx := 2, bestEffort := true, inCmd := true })
theorem witness_save_pool : calm (st poolAsked) = true ∧ (poolAsked.ready 0).isSome = true ∧
    (poolAsked.eng 0).run.any (fun r => isOp opPOOL r.cmd && !r.yieldPoint) = true := by decide +kernel
theorem witness_crop : atMet (on cropCmd four32) (at2 cropCmd four32) = true ∧ isOp opCROPRESIZE (at2 cropCmd four32).cmd = true ∧
    readMet (on cropCmd four32) (at2 cropCmd four32)
      ((at2 cropCmd four32).cropPlan ((on cropCmd four32).cropBoxes 0 (at2 cropCmd four32))) = true := by decide +kernel
def reprojCmd : List Byte := opCmd 12 |>.set 17 1 |>.set 18 3
def rowItin : Itin := { itin with launches := [{ launchAt 0 with rows := 1 }, launchAt 1, launchAt 2] }
def reprojOn : Device :=
  let d := on reprojCmd four32
  { d with image := { d.image with itins := [rowItin] } }
theorem witness_reproject : atMet reprojOn (at2 reprojCmd four32) = true ∧ isOp opREPROJECT (at2 reprojCmd four32).cmd = true ∧
    (reprojOn.serveOf (at2 reprojCmd four32).due).any (fun v =>
      let r := at2 reprojCmd four32
      v.launch.rows == 1 &&
        readMet reprojOn r (r.reprojPlan (r.reprojAt (reprojOn.reprojDist r) (reprojOn.tensorWindow 0 (descAt r.descs r.cmd 17))) v.launch)) =
      true := by decide +kernel

/-- Tensors of one INT8 element. -/
def int8 (n : Nat) : Desc := { one32 n with fmt := 0 }
def matCmd : List Byte := opCmd 2 |>.set 6 13 |>.set 17 1 |>.set 18 2 |>.set 19 0xFF |>.set 24 1 |>.set 28 1 |>.set 32 1
def matDescs : List Desc := [int8 0, int8 1, one32 2]
theorem witness_matmul : atMet (on matCmd matDescs) (at2 matCmd matDescs) = true ∧ isOp opMATMUL (at2 matCmd matDescs).cmd = true ∧
    readMet (on matCmd matDescs) (at2 matCmd matDescs) ((at2 matCmd matDescs).matPlan ((on matCmd matDescs).matArray 0 (at2 matCmd matDescs) [])) =
      true := by decide +kernel
/-- The instructions of a product have its steps (Table 4.15), and a product stopped at its drain and gone on has used the same
steps in all and left the same entries and charges (R184, R191). -/
theorem test_matmul_cut : let d := on matCmd matDescs
    let r := at2 matCmd matDescs
    let a := d.matArray 0 r []
    let cut := d.cutCommand 0 3 1 []
    (issueUse (d.matIssues 0 r)).steps = a.cost.full + a.cost.empty ∧
    (cut.eng 0).run.map (fun r => (r.pos.kind, r.pos.issued, r.steps)) = some (kindDRN, 3, r.steps + 16 + 129) ∧
    (cut.matmul 0 (((cut.eng 0).run).getD r) [] []).toll = ((d.startCommand 0 r).matmul 0 r.begun [] []).toll := by decide +kernel
def convCmd (keep : Byte) : List Byte :=
  opCmd 1 |>.set 6 13 |>.set 17 1 |>.set 18 2 |>.set 19 0xFF |>.set 20 0x13 |>.set 24 1 |>.set 36 1 |>.set 37 keep |>.set 38 3
def convDescs : List Desc := [{ int8 0 with height := 3 }, one32 1, { int8 2 with rowPitch := 0 }, { int8 3 with height := 2 }]
def convMet (keep : Byte) : Bool :=
  let r := at2 (convCmd keep) convDescs
  let d := on (convCmd keep) convDescs
  let i := descAt r.descs r.cmd 16
  let l := descAt r.descs r.cmd 38
  atMet d r && isOp opCONV r.cmd && readMet d r (r.convPlan (d.convArray 0 r (d.convJob 0 r) [])) && r.convKeeps == (keep == 1) &&
    l.fmt == i.fmt && l.layout == i.layout && l.channels == i.channels && l.width == i.width
theorem witness_conv : convMet 0 = true ∧ convMet 1 = true := by decide +kernel

/-- A run of an array command that touches nothing, with `n` failing passes. -/
def passes (n : Nat) : ArrayRun := { cost := { ArrayCost.zero with marks := List.replicate n ([0], [0]) }, acc := [] }
theorem witness_product_failure : ((on matCmd []).eng 0).run = some (at2 matCmd []) ∧ (at2 matCmd []).idx + 1 < (at2 matCmd []).cmds.length ∧
    plainMet (on matCmd []) (at2 matCmd []) = true ∧ (Plan.of []).overlaps 0 = false ∧ 0 < (passes 1).fails ∧
    (∀ i < 6, ((on matCmd []).eng i).retired = true ∨
      ((on matCmd []).eng i).score + 2 * ((passes 1).fails + (passes 1).fails) + 8 < (on matCmd []).sealSt.retireThresh) ∧
    (passes 0).fails = 0 := by decide +kernel
/-- A product of 1 with 1 that comes out as 1 + 1 marks its vector and its column (R130); a right one marks neither. -/
def oneJob (faults : List PeFault) : ArrayJob :=
  productJob 0 faults 0 0 1 1 1 13 0 true true (fun _ _ => some (intNum 1 0)) (fun _ _ => intNum 1 0) (fun _ => none)
theorem test_marks : (oneJob []).cost.marks = [] ∧
    (oneJob [{ job := 0, group := 0, chunk := 0, set := 0, slot := 0, vector := 0, column := 0, delta := 1 }]).cost.marks = [([0], [0])] := by
  decide +kernel

def attnCmd : List Byte :=
  opCmd 3 |>.set 6 13 |>.set 17 1 |>.set 18 2 |>.set 19 3 |>.set 20 0xFF |>.set 21 1 |>.set 22 1 |>.set 24 1 |>.set 28 1 |>.set 37 1
def attnDescs : List Desc := [int8 0, int8 1, int8 2, one32 3]
theorem witness_attention : atMet (on attnCmd attnDescs) (at2 attnCmd attnDescs) = true ∧ isOp opATTN (at2 attnCmd attnDescs).cmd = true ∧
    readMet (on attnCmd attnDescs) (at2 attnCmd attnDescs)
      ((at2 attnCmd attnDescs).attnPlan ((on attnCmd attnDescs).attnJob 0 (at2 attnCmd attnDescs) []).all
        ((on attnCmd attnDescs).attnRows (at2 attnCmd attnDescs))) = true := by decide +kernel

def copyCmd (dev : Byte) : List Byte := opCmd 8 |>.set 17 1 |>.set 18 dev
theorem witness_copy : atMet (on (copyCmd 0) four32) (at2 (copyCmd 0) four32) = true ∧ isOp opCOPY (at2 (copyCmd 0) four32).cmd = true ∧
    field (at2 (copyCmd 0) four32).cmd 18 1 % 4 = 0 ∧
    readMet (on (copyCmd 0) four32) (at2 (copyCmd 0) four32) ((at2 (copyCmd 0) four32).copyPlan 0) = true := by decide +kernel
theorem witness_copy_no_credit : atMet (on (copyCmd 1) four32) (at2 (copyCmd 1) four32) = true ∧
    field (at2 (copyCmd 1) four32).cmd 18 1 % 4 ≠ 0 ∧ (at2 (copyCmd 1) four32).credits = 0 ∧
    plainMet (on (copyCmd 1) four32) (at2 (copyCmd 1) four32) = true := by decide +kernel

def raster0 : RasterRec :=
  { stream := 0, kind := 0, order := 0, fMax := 2, flushEngine := 0, width := 32, height := 32, binBase := 0, quota := 64
    geoBytes := 0x8000, geoBase := #v[0x200000, 0x208000], flushBase := #v[0x300000, 0x304000] }
def set0 (phase : SetPhase) : GeoSet :=
  { recIdx := 0, buf := 0, stream := 0, kind := 0, slot := 0, frame := 0, width := 32, height := 32, order := 0, tSpan := 0, mScale := 0
    ndraw := 1, ntri := 0, nvert := 0, phase := phase, tail := [], total := 0, draw := none, drawsDone := 0, vertsDone := 0 }
def prog0 : GeoProg :=
  { trisDone := 0, drawEnds := [], trailer := none, digest := [], nextTri := 0, nextBlock := 0, partials := 0, denied := false
    incomplete := false, fault := none, flush := none, flushAt := 0, accepted := true }
def rastering (d : Device) (sets : List SetRec) : Device :=
  { d with image := { d.image with rasters := [raster0] }, rfe := { d.rfe with sets := sets } }
def rasterCmd : List Byte := opCmd 6 |>.set 20 1 |>.set 22 1 |>.set 25 1 |>.set 26 2 |>.set 27 3 |>.set 28 4
def plane (n size fmt : Nat) : Desc := { one32 n with fmt := fmt, width := 32, height := 32, rowPitch := 64 * size }
def rasterDescs : List Desc := [plane 0 4 13, plane 1 4 14, plane 2 1 1, plane 3 4 14, plane 4 4 14]
def rasterMet (sets : List SetRec) : Bool :=
  let r := at2 rasterCmd rasterDescs
  let d := rastering (running r) sets
  atMet d r && isOp opRASTER r.cmd && (match d.tileSet r (field r.cmd 32 4) with
    | none => false
    | some (rr, some (g, _)) => readMet d r (d.rasterPlan r rr g) && !sets.isEmpty
    | some (rr, none) => readMet d r (Plan.of (r.rasterOut rr)) && sets.isEmpty)
theorem witness_raster : rasterMet [(set0 .accepted, prog0)] = true := by decide +kernel
theorem witness_raster_no_set : rasterMet [] = true := by decide +kernel
/-! ### Witnesses: streams and the raster front end -/

/-- Stream 0 with a state block at 0x500000 whose G is 1. -/
def keptStream : Device :=
  let d := streamed base
  ({ d with image := { d.image with ssbs := [(0, 0x500000)] } }).write 0x500002 [1]
theorem witness_anchor_selection : calm (st keptStream) = true ∧ (keptStream.atTime 5).decidedSlot 0 = some 0 ∧ keptStream.hasSsb 0 = true ∧
    keptStream.anchorAligned 0 0 = true ∧ ((keptStream.atTime 5).usableAnchor 0 0).map (·.tag) ≠ some 0 := by decide +kernel
theorem witness_no_slot : (base.atTime 5).decidedSlot 0 = none := by decide +kernel
theorem witness_guide_decision : (rastering (streamed base) []).rasterRec 0 0 = some raster0 ∧
    ((rastering (streamed base) []).atTime 5000).guideSlot 0 = some 0 ∧ (rastering (streamed base) []).isResim 0 = false ∧
    ((rastering (streamed base) []).slot 0 0).guideOk ≠ some true ∧ calm (st (rastering (streamed base) [])) = true := by decide +kernel

/-- The set of record 0, buffer 0 is served at triangle 1 of 2; its first vertex stands at pixel (4, 4) or is zero. -/
def served : SetRec := (set0 .receiving, { prog0 with nextTri := 1, trisDone := 2, accepted := false })
def binning (verts : List Byte) : Device :=
  let d := rastering base [served]
  ({ d with rfe := { d.rfe with serving := some (0, 0) } }).write 0x200000 verts
def corner : List Byte := (List.replicate 4 (leBytes 3 1152)).flatten
def binMet (d : Device) : Bool :=
  calm (st d) && d.keepsServing == some served && served.pending && d.image.rasters[served.1.recIdx]? == some raster0
theorem witness_bin_offscreen : binMet (binning []) = true ∧
    (((binning []).atTime 5).triangle (raster0.geoBaseOf 0) served.1.nvert served.2.nextTri).tiles raster0 = [] := by decide +kernel
theorem witness_bin : binMet (binning corner) = true ∧ served.2.denied = false ∧
    (((binning corner).atTime 5).triangle (raster0.geoBaseOf 0) served.1.nvert served.2.nextTri).tiles raster0 = [0] ∧
    ([0].filter (((binning corner).atTime 5).needsBlock raster0 0)).length ≤ raster0.block0 0 + raster0.quota - served.2.nextBlock := by decide +kernel

def flushing (running : Bool) : SetRec := (set0 .receiving, { prog0 with flush := some (2, running, 0) })
theorem witness_flush_start : calm (st (rastering base [flushing false])) = true ∧
    (sortBy ((rastering base [flushing false]).atTime 5).setBefore (rastering base [flushing false]).rfe.sets).find?
      (((rastering base [flushing false]).atTime 5).flushReady 2) = some (flushing false) := by decide +kernel
theorem witness_flush_end : calm (st (rastering base [flushing true])) = true ∧
    (rastering base [flushing true]).flushSet 2 = some (flushing true) ∧
    (rastering base [flushing true]).image.rasters[(flushing true).1.recIdx]? = some raster0 ∧
    (∀ i < 6, ((((rastering base [flushing true]).atTime 5).flushAll 2 (flushing true)).eng i).retired = true ∨
      ((((rastering base [flushing true]).atTime 5).flushAll 2 (flushing true)).eng i).score < (rastering base [flushing true]).sealSt.retireThresh) := by
  decide +kernel

/-! ### Witnesses: the vision units -/

/-- A plane of 16 × 16 elements of a format, in tile n from 0x80000. -/
def vplane (n fmt size : Nat) : Desc :=
  { base := 0x80000 + 0x4000 * n, tensorId := 0, fmt := fmt, layout := 0, comp := 0, channels := 1, width := 16, height := 16
    rowPitch := 64 * size, planeStride := 1024 * size, scaleOffset := 0 }
/-- A flow job, one window row range of 1 row: job record at 0x48000, record at 0x60000. -/
def jobHead (kind mode n : Nat) (waitFlag limit : Nat) : List Byte :=
  leBytes 2 1 ++ leBytes 1 kind ++ leBytes 1 mode ++ leBytes 6 0x4C000 ++ leBytes 1 n ++ leBytes 1 0 ++ leBytes 2 waitFlag ++ leBytes 2 1 ++
    leBytes 2 limit ++ leBytes 2 0xFFFF ++ leBytes 4 0 ++ leBytes 6 0x60000 ++ leBytes 2 (if kind = 2 ∨ (kind = 0 ∧ mode = 1) then 8 else 0)
def flowDescs : List Desc := [vplane 0 1 1, vplane 1 1 1, vplane 2 14 1, vplane 3 14 1, vplane 4 1 1]
def flowJobRec (w l : Nat) : List Byte := jobHead 0 1 5 w l ++ [0, 1, 2, 3, 4, 0xFF, 100, 0] ++ leBytes 2 0 ++ leBytes 2 1 ++ List.replicate 20 0
def stereoDescs : List Desc :=
  [vplane 0 1 1, vplane 1 1 1, vplane 3 14 1, vplane 4 1 1, { vplane 5 1 1 with rowPitch := 1536, planeStride := 24576 }]
def stereoJobRec : List Byte := jobHead 1 0 5 0xFFFF 0 ++ [0, 1, 2, 3, 4, 0] ++ leBytes 2 0 ++ [1, 2, 0, 0] ++ List.replicate 20 0
def remapDescs : List Desc := [vplane 0 1 1, vplane 1 1 1, { vplane 2 14 1 with channels := 2, width := 2, height := 2 }]
def remapJobRec : List Byte := jobHead 2 0 3 0xFFFF 0 ++ [0, 1, 2, 0] ++ leBytes 2 0 ++ leBytes 2 1 ++ List.replicate 24 0

def vLaunch : VLaunch := { due := dueOf 2 0, ctx := 3, addr := 0x48000 }
def vQueued (job : List Byte) (descs : List Desc) : Device :=
  ((base.write 0x48000 job).write 0x4C000 (descs.flatMap Desc.bytes)).modUnit 0 (fun x => { x with queue := [vLaunch] })
def jobMet (d : Device) : Bool :=
  let job := d.peek vLaunch.addr 64
  let a := field job 4 6
  let n := field job 10 1
  calm (st d) && (d.unit 0).queue == [vLaunch] && !(d.unit 0).stalled && (d.serveOf vLaunch.due).any (fun v => v.bind.isNone) &&
    (d.serveOf vLaunch.due).any (fun v => !(d.atTime 5).pastDeadline vLaunch.due v) && !vLaunch.due.relaunch && vLaunch.due.tile.isNone && !d.heldCtx vLaunch.ctx (d.visionBe vLaunch) && inOneRegion vLaunch.addr 64 &&
    inOneRegion a (32 * n) && (visionRecordAddr job).isSome && (tilesOf vLaunch.addr 64 ++ tilesOf a (32 * n)).all d.passes
def jobFailure (d : Device) : Option (Nat × Status) :=
  let job := d.peek vLaunch.addr 64
  let n := field job 10 1
  let raws := (List.range n).map (fun i => ((d.peek (field job 4 6) (32 * n)).drop (32 * i)).take 32)
  if jobHeaderOk 0 job then jobFails job raws (raws.map descOf) else some (1, .unsupported)
theorem witness_job_start : jobMet (vQueued (flowJobRec 1 9) flowDescs) = true ∧ jobFailure (vQueued (flowJobRec 1 9) flowDescs) = none := by
  decide +kernel
theorem witness_job_fails : jobMet (vQueued remapJobRec remapDescs) = true ∧
    jobFailure (vQueued remapJobRec remapDescs) = some (1, .unsupported) := by decide +kernel

def vRun (job : List Byte) (descs : List Desc) (ok : Bool) : VRun :=
  { launch := vLaunch, job := job, descs := descs, waitStart := 1000, satisfied := ok }
def vOn (u : Nat) (r : VRun) : Device := base.modUnit u (fun x => { x with run := some r })
def vMet (u : Nat) (r : VRun) : Bool :=
  let d := vOn u r
  sound (st d) && visionOn d u && d.phase == .running && (d.unit u).run == some r && r.satisfied &&
    !d.heldCtx r.launch.ctx (d.visionBe r.launch) && !d.sealSt.reloads.any (fun x => x.2.1 = some (6 + u)) &&
    field r.job 2 1 == unitKind u && jobFormatsOk r.job r.descs && (d.serveOf r.launch.due).any (fun v => v.bind != some .stripe) &&
    !r.launch.due.relaunch
theorem witness_job_wait : sound (st (vOn 0 (vRun (flowJobRec 1 9) flowDescs false))) = true ∧
    visionOn (vOn 0 (vRun (flowJobRec 1 9) flowDescs false)) 0 = true ∧ field (flowJobRec 1 9) 12 2 ≠ 0xFFFF ∧
    (vOn 0 (vRun (flowJobRec 1 9) flowDescs false)).flagReached (field (flowJobRec 1 9) 12 2) (field (flowJobRec 1 9) 14 2) = false ∧
    field (flowJobRec 1 9) 16 2 ≠ 0 ∧ 1000 + 1000 * field (flowJobRec 1 9) 16 2 < max (vOn 0 (vRun [] [] false)).now 10001 ∧
    max (vOn 0 (vRun [] [] false)).now 10000 ≤ 1000 + 1000 * field (flowJobRec 1 9) 16 2 := by decide +kernel

def flowRun : VRun := vRun (flowJobRec 0xFFFF 0) flowDescs true
theorem witness_flow : vMet 0 flowRun = true ∧
    ∀ k ∈ spanTiles 0 (((vOn 0 flowRun).flowSpans flowRun).filter (fun w => !w.store)), (vOn 0 flowRun).passes k = true := by decide +kernel
def stereoRun : VRun := vRun stereoJobRec stereoDescs true
theorem witness_stereo : vMet 2 stereoRun = true ∧
    ∀ k ∈ spanTiles 0 stereoRun.stereoInputs ++ spanTiles 0 [{ addr := 0x94000, len := 24576, store := false }],
      (vOn 2 stereoRun).passes k = true := by decide +kernel
def remapRun : VRun := vRun remapJobRec remapDescs true
theorem witness_remap : vMet 3 remapRun = true ∧
    ∀ k ∈ spanTiles 0 ((remapRun.remapSpans ((vOn 3 remapRun).tensorWindow 0 (descAt remapDescs remapJobRec 34))).filter (fun w => !w.store)),
      (vOn 3 remapRun).passes k = true := by decide +kernel

/-- Stream 0 is a re-simulation stream with one accepted anchor, and the vision entry is bound to its slots. -/
def resimOn : Device :=
  let d := (vOn 0 flowRun).modStrm 0 (fun x => { x with tags := [0] })
  { d with image := { d.image with
      inputs := [{ input0 with resim := true }], itins := [{ itin with entries := [entryLc, entryBe, { entryVis with bind := 3 }] }] } }
theorem witness_flow_still : (resimOn.serveOf flowRun.launch.due).any (fun w =>
    w.bind.isSome && w.streams.any (fun k => resimOn.isResim k && (((resimOn.strm k).tags.filter (fun a => a ≤ w.slot)).length == 1))) = true ∧
    resimOn.flowStill flowRun = true := by decide +kernel

/-! ### Witnesses: composition and scan-out -/

def landed (l : Landing) : Device :=
  let d := streamed base
  { d with image := { d.image with landBase := 0x400000 }, serai := { d.serai with landings := [l] } }
def landing0 : Landing :=
  { producer := 0, slotIdx := 0, stream := 0, layer := 0, status := .ok, fallback := false, frame := 0, row0 := 0, rows := 2, entry := 0
    decl := 0, desc := { one32 0 with channels := 3, width := 4, height := 2, planeStride := 128 }, at_ := 5 }
theorem witness_landing : calm (st (landed landing0)) = true ∧ (landed landing0).ctl.lockstep = false ∧
    (landed landing0).freeDrain = some (landing0, false) ∧ (landed landing0).serai.waiting = [] ∧
    (landed landing0).landingFits landing0 = true ∧ (landed landing0).layersOf 0 = [] ∧
    (∀ w ∈ { addr := 0x400000, len := 64, store := false } :: landing0.desc.rowSpans false [0, 1], w.strays = false) ∧
    (∀ k ∈ spanTiles 0 ({ addr := 0x400000, len := 64, store := false } :: landing0.desc.rowSpans false [0, 1]),
      (landed landing0).passes k = true) := by decide +kernel
/-- A landing of one row in the local scratch window. -/
def landingLocal : Landing := { landing0 with rows := 1, desc := { landing0.desc with base := localBase } }
theorem witness_landing_strays : sound (st (landed landingLocal)) = true ∧ (landed landingLocal).landingFits landingLocal = true ∧
    (landed landingLocal).freeDrain = some (landingLocal, false) ∧ ((List.range landingLocal.rows).map (landingLocal.row0 + ·)) = [0] ∧
    (∀ k ∈ spanTiles 0 [{ addr := 0x400000, len := 64, store := false }], (landed landingLocal).passes k = true) ∧
    ((landingLocal.desc.rowSpans false [0]).find? Span.strays).isSome = true := by decide +kernel
def seraiTable : SlotTable := { kind := 4, inst := 0, entries := [{ req := 0, revoke := false, alt := false, count := 1, entry := 0 }] }
def tabled : Device :=
  let d := lockstepped base
  { d with image := { d.image with slotTables := [(0, [seraiTable])] } }
theorem witness_landing_waits : calm (st tabled) = true ∧ tabled.ctl.lockstep = true ∧ tabled.slotTable .serai = some seraiTable ∧
    (tabled.atTime 5).tableDrain seraiTable.entries 2 (tabled.arb .serai).tablePos (tabled.arb .serai).served = ((0, 0), none) := by decide +kernel

def rowOf (y : Nat) : Nat × Nat × Nat × List (List Word) := (0, 0, y, List.replicate 4 [0, 0, 0])
def composing (d : Device) : Device := { d with serai := { d.serai with composed := [rowOf 0] } }
theorem witness_stage5 : calm (st (composing (streamed base))) = true ∧ (composing (streamed base)).portRec 0 = some port0 ∧
    (composing (streamed base)).profileOf 0 = some profile0 ∧ (composing (streamed base)).stage5Room port0 profile0 0 0 = true ∧
    ((composing (streamed base)).port 0).ahead profile0.height 0 0 = some 0 := by decide +kernel
def ringed : Device := (streamed base).modSlot 0 0 (fun x => { x with rows := [1] })
theorem witness_ring_move : calm (st ringed) = true ∧ ringed.ringLine port0 profile0 = some (0, 1) ∧
    (∀ k ∈ tilesOf (ringAddr port0 profile0 1) profile0.lineLen, ringed.passes k = true) := by decide +kernel
/-- Port 0 at line slot j of slot 0. -/
def atLine (j : Nat) (fifo : List (Nat × List Byte)) : Device :=
  let d := (streamed base).modStrm 0 (fun x => { x with fifo := fifo })
  { d with scan := vmod d.scan 0 (fun x => { x with nextLine := j, running := true }) }
def lineMet (d : Device) : Bool :=
  calm (st d) && d.portStreams 0 == [port0] && d.profileOf 0 == some profile0
def lit (d : Device) : Device := d.modTx 5 (fun y => { y with state := .run, role := 0x10 })
theorem witness_port_runs : (atLine 0 []).portRuns 0 = false ∧ (lit (atLine 0 [])).portRuns 0 = true ∧ lineMet (lit (atLine 0 [])) = true := by
  decide +kernel
theorem test_line_sent : ∀ s', exec (.lineSlotStart 4020 0) (st (lit (atLine 4 []))) = .next s' →
    (s'.dev.port 0).sent.map (·.dt) = [1] ∧ (s'.dev.txLane 5).frames = 1 := by
  intro s' h
  cases h
  decide +kernel
theorem witness_line_slot : lineMet (atLine 0 []) = true ∧ (atLine 0 []).frameStart 0 0 + 0 * 1000 ≤ max (atLine 0 []).now 20 ∧
    max (atLine 0 []).now 19 < (atLine 0 []).frameStart 0 0 + 0 * 1000 ∧ 0 + 1 < profile0.frameLines := by decide +kernel
theorem witness_line_fifo : lineMet (atLine 1 [(lineKey 0 0, [1, 2, 3, 4])]) = true ∧ (atLine 1 [(lineKey 0 0, [1, 2, 3, 4])]).codeZero 0 0 = false ∧
    (((atLine 1 [(lineKey 0 0, [1, 2, 3, 4])]).strm 0).fifo.find? (fun f => f.1 = lineKey 0 0)).isSome = true ∧
    (atLine 1 []).frameStart 0 0 + 1 * 1000 ≤ max (atLine 1 []).now 1020 := by decide +kernel
theorem witness_line_underrun : lineMet (atLine 2 []) = true ∧ ((atLine 2 []).strm 0).fifo = [] ∧ (atLine 2 []).codeZero 0 0 = false ∧
    ((atLine 2 []).slot 0 0).rows.contains 1 = false := by decide +kernel
theorem witness_line_end : lineMet (atLine 4 []) = true ∧ 4 = profile0.height + 2 ∧ 4 + 1 < profile0.frameLines := by decide +kernel
theorem test_underrun_line : ∀ s', exec (.lineSlotStart 2020 0) (st (atLine 2 [])) = .next s' → (s'.dev.port 0).underrun = 1 := by
  intro s' h
  cases h
  decide +kernel
/-! ### Witnesses: shadows, seals and engine scores, arbiters -/

/-- A signature of entry 0's launch 0, of the primary on engine 1 or the shadow on engine 2. -/
def sig (shadow : Bool) (w : Word) : ShadowSig :=
  { index := base.itn.active, entry := 0, count := 0, shadow := shadow, engine := if shadow then 2 else 1, a := w, b := 0 }
def withSigs (d : Device) (w : Word) : Device := d.modSealSt (fun x => { x with sigs := [sig false 5, sig true w] })
def probe (d : Device) : Option Serve :=
  (d.atTime 9).serveOf (Due.named d.itn.active 0 0 (max d.now 9))
def sigsMet (d : Device) (w : Word) : Bool :=
  sound (st d) && d.phase == .running && d.sealSt.sigs.filter (fun y => y.entry = 0) == [sig false 5, sig true w] &&
    (List.range 6).all (fun i => (d.eng i).retired || decide ((d.eng i).score + 8 < d.sealSt.retireThresh))
theorem witness_shadow_equal : sigsMet (withSigs base 5) 5 = true ∧ calm (st (withSigs base 5)) = true := by decide +kernel
theorem witness_shadow_unequal : sigsMet (withSigs base 6) 6 = true ∧ calm (st (withSigs base 6)) = true ∧
    (probe (withSigs base 6)).any (fun v => v.bind.isNone) = true := by decide +kernel
/-- Entry 0 is bound to the slots of stream 0. -/
def boundItin : Itin := { itin with entries := [{ entryLc with bind := 2 }, entryBe, entryVis] }
def bound : Device := withSigs { base with image := { base.image with itins := [boundItin] } } 6
theorem witness_shadow_slot : sigsMet bound 6 = true ∧ calm (st bound) = true ∧
    (probe bound).any (fun v => v.bind.isSome && v.streams == [0]) = true ∧ bound.i3c.mask.getLsbD 0 = true ∧
    bound.i3c.queue.length < 32 := by decide +kernel
def awaiting : Run := { runOf 0 1 false [signalCmd] with awaitShadow := true, idx := 1 }
theorem witness_shadow_blocking : sigsMet (withSigs (running awaiting) 6) 6 = true ∧ aloneOn (withSigs (running awaiting) 6) 0 = true ∧
    ((withSigs (running awaiting) 6).eng 0).run = some awaiting ∧ awaiting.awaitShadow = true ∧ awaiting.due.index = base.itn.active ∧ awaiting.degraded = false ∧
    ((withSigs (running awaiting) 6).serveOf awaiting.due).any (fun v => v.bind.isNone && v.entry.target == 0) = true ∧
    (withSigs (running awaiting) 6).tuneEntry 0 = none ∧ (withSigs (running awaiting) 6).isCompositor awaiting.ctx = false ∧
    (withSigs (running awaiting) 6).itn.waiting = [] ∧ (withSigs (running awaiting) 6).rfe.sets = [] := by decide +kernel

def scrubbing (d : Device) (pos : Nat) : Device := d.modSealSt (fun x => { x with scrubEn := true, scrubPos := pos })
theorem witness_scrub : calm (st (scrubbing base 0)) = true ∧ (scrubbing base 0).sealSt.scrubEn = true ∧
    ((scrubbing base 0).atTime 5).t0 + 760000 * ((scrubbing base 0).sealSt.scrubPasses * scrubTiles + 0) ≤ ((scrubbing base 0).atTime 5).now ∧
    (scrubbing base 0).passes (0 * tileBytes) = true := by decide +kernel
theorem witness_scrub_not_due : ((scrubbing base 1).atTime 5).now < ((scrubbing base 1).atTime 5).t0 +
    760000 * ((scrubbing base 1).sealSt.scrubPasses * scrubTiles + (scrubbing base 1).sealSt.scrubPos) := by decide +kernel
/-- Tile 40's stored bytes no longer agree with its seal. -/
def flipped : Device := { base with store := { base.store with mem := memPut base.store.mem (40 * tileBytes) [1] } }
theorem witness_scrub_fails : calm (st (scrubbing flipped 40)) = true ∧ (scrubbing flipped 40).sealed (40 * tileBytes) = false ∧
    ((scrubbing flipped 40).atTime 30400000).t0 + 760000 * (0 * scrubTiles + 40) ≤ ((scrubbing flipped 40).atTime 30400000).now ∧
    (scrubbing flipped 40).image.ranges = [] ∧ (scrubbing flipped 40).i3c.mask.getLsbD 3 = true ∧ 40 < scrubTiles := by decide +kernel
theorem witness_decay : (base.atTime 60000000000).t0 + 60000000000 * (base.sealSt.decays + 1) ≤ (base.atTime 60000000000).now ∧
    (base.atTime 59999999999).now < (base.atTime 59999999999).t0 + 60000000000 * (base.sealSt.decays + 1) := by decide +kernel

def tile40 : Nat := 40 * tileBytes
def range40 : RangeRec :=
  { base := tile40, entry := 0, tiles := 1, lrs := 0, index := 0, recompute := false, imageBacked := true, norOffset := 0 }
def reloading (d : Device) : Device :=
  ({ d with image := { d.image with ranges := [range40] } }).modSealSt (fun x => { x with reloads := [(tile40, some 1, true)] })
theorem witness_reload_none : base.sealSt.reloads = [] ∧ calm (st base) = true := by decide +kernel
/-- The tile lost its bytes; its seal is `v`. -/
def spoiled (v : BitVec 64) : Device := reloading { base with store := { base.store with seals := [(tile40, v)] } }
theorem witness_reload_calm : ∀ v, (spoiled v).Still ∧ (st (spoiled v)).Inv := fun _ =>
  ⟨calm_still (st (reloading base)) (by decide +kernel), calm_inv (st (reloading base)) (by decide +kernel)⟩
theorem witness_reload_waits : (reloading base).sealSt.reloads.filter (fun y => y.1 = tile40) = [(tile40, some 1, true)] ∧
    (∀ i < 6, ((reloading base).eng i).retired = true ∨ ((reloading base).eng i).score < (reloading base).sealSt.retireThresh) := by decide +kernel
theorem spoiled_seal (v : BitVec 64) : sealGet (spoiled v).store tile40 = v := by
  simp [spoiled, reloading, sealGet, Device.modSealSt]
theorem spoiled_nor (v : BitVec 64) (a n : Nat) : (spoiled v).norRead a n = base.norRead a n := by
  unfold Device.norRead
  have h : (spoiled v).store.nor = base.store.nor := rfl
  rw [h]
/-- A reload brings the NOR's bytes whose seal is the stored one, into a memory that lists nothing, and the tile passes. -/
theorem reload_into_nothing (d : Device) (tile : Nat) (r : RangeRec) (bs : List Byte) (g : Nat)
    (h : d.image.ranges.find? (fun r => r.holds tile && r.imageBacked) = some r) (hm : d.store.mem = [])
    (hg : d.store.glitches = [])
    (hb : d.norRead (norImage + r.norOffset + (tile - r.base)) tileBytes = bs)
    (hd : d.sealRegs.gen (domainOf tile) = g)
    (hs : sealGet d.store tile =
      let sum := sealShare tile (memListed tile bs)
      sealPack (tile / tileBytes + sum.1) (g + sum.2)) :
    (d.reload tile).1 = true ∧ (d.reload tile).2.passes tile = true := by
  subst hb hd
  have hl : (d.norRead (norImage + r.norOffset + (tile - r.base)) tileBytes).length = tileBytes := by simp [Device.norRead]
  have hw : memWindow (memListed tile (d.norRead (norImage + r.norOffset + (tile - r.base)) tileBytes)) tile tileBytes =
      memListed tile (d.norRead (norImage + r.norOffset + (tile - r.base)) tileBytes) := by
    rw [memWindow, List.filter_eq_self]
    intro c hc
    have hb := memListed_mem _ _ c hc
    rw [hl] at hb
    simp; omega
  have hx : d.reload tile = (true,
      let x := (d.modSeal (fun r => { r with recomputes := satInc r.recomputes })).repeated
      { x with store := { x.store with
          mem := memPut x.store.mem tile (d.norRead (norImage + r.norOffset + (tile - r.base)) tileBytes) } }) := by
    have h1 : (d.modSeal (fun r => { r with recomputes := satInc r.recomputes })).repeated.store = d.store := by
      unfold Device.repeated
      split <;> rfl
    unfold Device.reload
    rw [h]
    simp only []
    rw [if_pos]
    rw [h1]
    exact hs.symm
  rw [hx]
  have h1 : (d.modSeal (fun r => { r with recomputes := satInc r.recomputes })).repeated.store = d.store := by
    unfold Device.repeated
    split <;> rfl
  have h2 (n : Nat) : (d.modSeal (fun r => { r with recomputes := satInc r.recomputes })).repeated.sealRegs.gen n = d.sealRegs.gen n := by
    unfold Device.repeated
    split <;> rfl
  have hp : ∀ bs, memPut [] tile bs = memListed tile bs := fun bs => by simp [memPut]
  refine ⟨rfl, ?_⟩
  simp only [sealGet] at hs
  simp only [Device.passes, Device.sealed, sealGet, sealOf, h1, h2, hm, hg, hp, hw]
  simp only [Bool.and_eq_true, decide_eq_true_eq, List.contains_nil, Bool.not_false, true_and]
  generalize d.store.seals.find? (fun c => decide (c.1 = tile)) = o at hs ⊢
  cases o with
  | none => simp only [sealFill] at hs ⊢; rw [hs]
  | some c => simp only at hs ⊢; rw [hs]
theorem range_holds : (range40.holds tile40 && range40.imageBacked) = true := by decide +kernel
theorem range_found : [range40].find? (fun r => r.holds tile40 && r.imageBacked) = some range40 :=
  List.find?_cons_of_pos range_holds
theorem witness_reload : ∃ v, ((spoiled v).reload tile40).1 = true ∧ ((spoiled v).reload tile40).2.passes tile40 = true :=
  ⟨_, reload_into_nothing _ tile40 range40 _ (base.sealRegs.gen (domainOf tile40)) range_found rfl rfl (spoiled_nor _ _ _) rfl (spoiled_seal _)⟩

theorem witness_rejoin_request : calm (st (base.modEng 1 (fun x => { x with retired := true }))) = true ∧
    ((base.modEng 1 (fun x => { x with retired := true })).eng 1).rejoin = .none ∧ ((base.modEng 1 id).eng 1).asleep = false := by decide +kernel
def autoOn (d : Device) : Device := (d.modEng 1 (fun x => { x with retired := true, retiredAt := 5 })).modSealSt (fun x => { x with rejoinCtl := 0x101 })
theorem witness_rejoin_auto : calm (st (autoOn base)) = true ∧ bit (autoOn base).sealSt.rejoinCtl.toNat 0 = true ∧
    ((autoOn base).eng 1).retired = true ∧ ((autoOn base).eng 1).asleep = false ∧
    5 + 1000000000 * bits (autoOn base).sealSt.rejoinCtl.toNat 15 8 ≤ max (autoOn base).now 1000000005 ∧
    ((autoOn base).eng 1).rejoin = .none ∧
    max (autoOn base).now 1000000004 < 5 + 1000000000 * bits (autoOn base).sealSt.rejoinCtl.toNat 15 8 := by decide +kernel
def testing : Device := base.modEng 1 (fun x => { x with retired := true, rejoin := .testing })
/-- Tests that find nothing. -/
def found : RejoinFacts := { bankRows := 48, weightRows := 16, accRows := 16, logicOk := true, testsOk := true, signature := 0 }
theorem witness_rejoin_tests : calm (st testing) = true ∧ (testing.eng 1).rejoin = .testing ∧ sparesCover found = true ∧ found.testsOk = true ∧
    testing.image.selfTest = none ∧ sparesCover { found with bankRows := 49 } = false ∧ { found with testsOk := false }.testsOk = false := by
  decide +kernel
theorem test_rejoin_covered : sparesCover { found with weightRows := 17 } = false ∧ sparesCover { found with accRows := 17 } = false ∧
    sparesCover { found with logicOk := false } = false := by decide +kernel
/-- The seal of tile 40, little-endian in the seal region, whose end holds nothing. -/
theorem test_seal_region : sealAddr 0 = 0x2FFA00000 ∧ sealAddr (786047 * tileBytes) + 8 = 0x2FFFFF400 ∧
    base.store.sealByte 0x2FFFFF400 = none ∧
    (List.range 8).map (fun i => flipped.store.sealByte (sealAddr (40 * tileBytes) + i)) =
      (List.range 8).map (fun i => some (BitVec.ofNat 8 ((sealGet flipped.store (40 * tileBytes)).toNat / 256 ^ i))) := by decide +kernel

/-- A best-effort request of requester 3 for 10 handshakes, and a latency-critical one of requester 4. -/
def beReq : ArbReq := { req := 3, latencyCritical := false, len := 10, ctx := none, tag := 0, ladder := false }
def lcReq : ArbReq := { req := 4, latencyCritical := true, len := 2, ctx := none, tag := 0, ladder := false }
def busy (d : Device) (g : Option (ArbReq × Nat)) (w : List (Nat × ArbReq)) : Device :=
  d.setArb { d.arb .serai with granted := g, waiting := w }
theorem witness_arb_waits : sound (st base) = true ∧ base.phase ≠ .off ∧ base.phase ≠ .inert ∧ base.ctl.lockstep = false ∧
    (base.arb .serai).granted = none ∧ (base.arb .serai).freedAt = none := by decide +kernel
theorem witness_places : (1 : BitVec 26) >>> 7 = (2 : BitVec 26) >>> 7 ∧ (128 : BitVec 26) >>> 12 = (129 : BitVec 26) >>> 12 ∧
    wellBank 128 = wellBank 129 ∧ dramPlace 5 = dramPlace 5 ∧ (1535 : BitVec 11) < 1536 ∧ scratchPlace 5 = scratchPlace 5 := by
  decide +kernel
/-- A[14:8] = 1, A[21:15] = 3, A[28:22] = 64: channel 66, on DD2. -/
theorem test_dram_place : dramPlace 0x10018107 =
    { channel := 66, die := 2, burst := 3, bank := 0, row := 32, byte := 7 } := by decide +kernel
/-- a[11:7] = 5, a[16:12] = 6: bank 3. -/
theorem test_well_bank : wellBank 0x6280 = 3 := by decide +kernel
theorem test_scratch_place : scratchPlace 0x17FFFFF = { bank := 127, row := 24575, byte := 7 } := by decide +kernel
theorem witness_arb_marked :
    let d := base.setArb { base.arb .serai with granted := some (beReq, 0), revoking := some 4, waiting := [(5, lcReq)] }
    sound (st d) = true ∧ d.ctl.lockstep = false ∧ (d.arb .serai).granted = some (beReq, 0) ∧ (d.arb .serai).revoking = some 4 ∧
      (d.arb .serai).waiting = [(5, lcReq)] ∧ lcReq ≠ beReq := by decide +kernel
theorem test_withdrawal_wins : ∀ s' s'', exec (.arbiterRequest 5 .serai lcReq 4) (st (busy base (some (beReq, 0)) [])) = .next s' →
    exec (.requesterWithdrawal 5 .serai 3) s' = .next s'' →
    (s''.dev.arb .serai).kept = [] ∧ (s''.dev.arb .serai).deadHandshakes = 1 ∧ s''.dev.serai.freeChoice = 0 ∧
      (s''.dev.arb .serai).waiting.head? = some (max base.now 5, lcReq) := by
  intro s' s'' h h'
  cases h
  cases h'
  decide +kernel
theorem witness_arb_revokes : ((busy base (some (beReq, 0)) []).arb .serai).revoking = none ∧
    ((busy base (some (beReq, 0)) []).arb .serai).granted = some (beReq, 0) ∧ lcReq.latencyCritical = true ∧
    beReq.latencyCritical = false ∧ ((busy base (some (beReq, 0)) []).arb .serai).kept.length < 8 ∧ 4 < beReq.len ∧
    sound (st (busy base (some (beReq, 0)) [])) = true := by decide +kernel
theorem witness_arb_grants : ((busy base none [(5, beReq)]).arb .serai).waiting = [(5, beReq)] ∧ sound (st (busy base none [(5, beReq)])) = true := by
  decide +kernel
theorem witness_arb_withdraws : ((busy base (some (beReq, 0)) []).arb .serai).granted = some (beReq, 0) ∧
    ((busy base none [(5, beReq)]).arb .serai).granted = none := by decide +kernel
theorem witness_arb_table : sound (st (busy tabled none [(5, { beReq with req := 0 })])) = true ∧
    (busy tabled none [(5, { beReq with req := 0 })]).slotTable .serai = some seraiTable ∧
    (((busy tabled none [(5, { beReq with req := 0 })]).atTime 9).tableNext seraiTable seraiTable.entries.length
      ((busy tabled none [(5, { beReq with req := 0 })]).arb .serai).tablePos).map (·.2.req) = some 0 := by decide +kernel
theorem witness_arb_ladder : let d := busy tabled none [(5, { beReq with ladder := true })]
    sound (st d) = true ∧ (d.arb .serai).waiting.find? (fun w => w.2.ladder) = some (5, { beReq with ladder := true }) := by decide +kernel
/-- COUNT below, at and above the handshakes left. -/
theorem witness_arb_count : ∀ y ∈ ([(false, 1), (true, 1), (true, 10), (true, 20)].map fun b =>
      ({ req := 3, revoke := b.1, alt := false, count := b.2, entry := 0 } : SlotEntry)),
    let d := tabled.setArb { tabled.arb .serai with granted := some (beReq, 0), entry := some y }
    sound (st d) = true ∧ (d.arb .serai).granted = some (beReq, 0) ∧ (d.arb .serai).served < y.count := by
  decide +kernel
theorem witness_arb_early : base.phase = .running ∧ (busy { base with phase := .preLock } (some (beReq, 0)) []).phase ≠ .running ∧
    sound (st (busy { base with phase := .preLock } (some (beReq, 0)) [])) = true := by decide +kernel
theorem witness_arb_table_alone : ((busy tabled none []).arb .serai).entry = none ∧ ((busy tabled none []).arb .serai).revoking = none ∧
    (∀ w ∈ ((busy tabled none []).arb .serai).waiting, w.2.ladder = false) ∧ ((busy tabled none []).arb .serai).granted = none ∧
    ((tabled.atTime 9).tableNext seraiTable seraiTable.entries.length (tabled.arb .serai).tablePos).isSome = true := by decide +kernel

theorem witness_refresh_outside : sound (st (lockstepped base)) = true ∧ (lockstepped base).ctl.lockstep = true ∧
    1500 ≤ (((lockstepped base).atTime (base.t0 + 2000)).now - ((lockstepped base).atTime (base.t0 + 2000)).t0) % 125000 := by decide +kernel
theorem witness_refresh : sound (st (lockstepped base)) = true ∧ (lockstepped base).ctl.lockstep = true ∧ base.ctl.lockstep = false ∧
    ((lockstepped base).atTime 5).t0 + 125000 * (lockstepped base).stk.windows ≤ ((lockstepped base).atTime 5).now ∧
    (((lockstepped base).atTime 5).now - ((lockstepped base).atTime 5).t0) % 125000 < 1500 ∧
    (lockstepped base).stk.nextRow < 1536 := by decide +kernel
/-! ### Witnesses: identity and attestation -/

def session0 : SessionKey := { leaf := 9, next := 0, seeds := [], certificate := [], released := false }
def trusted (session : SessionKey) : Trust :=
  { base.trust with usable := true, block := some 0, nextLeaf := 0, preparing := true, session := some session }
/-- The cached nodes of the path of leaf 0 and their siblings. -/
def pathNodes : List (Nat × Nat) := (List.range 10).flatMap (fun i => [(10 + i, 0), (10 + i, 1)]) ++ [(20, 0)]
@[irreducible] def wanted (p : Nat × Nat) : List Byte := fitTo 32 (identityNode (trusted session0).idSeeds p.1 p.2)
def pathNor : List (Nat × Byte) :=
  pathNodes.flatMap (fun p => (List.range 32).map (fun i => (0x20000 + 32 * treeIndex p.1 p.2 + i, (wanted p).getD i 0)))
theorem wanted_length (p : Nat × Nat) : (wanted p).length = 32 := by simp [wanted, fitTo]; omega
theorem norGet_unique (l : List (Nat × Byte)) (a : Nat) (b : Byte) (h : (a, b) ∈ l) (hu : ∀ c ∈ l, c.1 = a → c.2 = b) :
    norGet l a = b := by
  induction l with
  | nil => cases h
  | cons c l ih =>
    obtain ⟨x, y⟩ := c
    simp only [norGet]
    split
    · exact hu (x, y) List.mem_cons_self ‹_›
    · rcases List.mem_cons.mp h with h1 | h1
      · cases h1
        exact absurd rfl ‹_›
      · exact ih h1 (fun c hc => hu c (List.mem_cons_of_mem _ hc))
theorem treeIndex_apart : ∀ p ∈ pathNodes, ∀ q ∈ pathNodes, treeIndex p.1 p.2 = treeIndex q.1 q.2 → p = q := by decide +kernel
theorem path_reads (d : Device) (hn : d.store.nor = pathNor) (p : Nat × Nat) (hp : p ∈ pathNodes) : d.treeNode p.1 p.2 = wanted p := by
  unfold Device.treeNode Device.norRead
  rw [hn]
  apply List.ext_getElem
  · rw [wanted_length]; simp
  · intro i h1 h2
    rw [wanted_length] at h2
    rw [List.getElem_map, List.getElem_range]
    apply norGet_unique
    · rw [memWindow, List.mem_filter]
      refine ⟨List.mem_flatMap.mpr ⟨p, hp, List.mem_map.mpr ⟨i, List.mem_range.mpr h2, ?_⟩⟩, by simp; omega⟩
      simp [List.getD_eq_getElem?_getD, wanted_length, h2]
    · intro c hc ha
      rw [memWindow, List.mem_filter] at hc
      obtain ⟨q, hq, hc⟩ := List.mem_flatMap.mp hc.1
      obtain ⟨j, hj, rfl⟩ := List.mem_map.mp hc
      rw [List.mem_range] at hj
      have hx : treeIndex p.1 p.2 = treeIndex q.1 q.2 := by simp only at ha; omega
      have hi : j = i := by simp only at ha; omega
      subst hi
      have := treeIndex_apart p hp q hq hx
      subst this
      simp [List.getD_eq_getElem?_getD, wanted_length, h2]

/-- The path of leaf 0 agrees, or ID_CERT has no subject at all. -/
def preparing (cert : List Byte) : Device :=
  { base with
    store := { base.store with nor := pathNor }
    trust := trusted session0
    attest := { base.attest with idCert := cert } }
def goodCert : List Byte := List.replicate 56 0 ++ (List.replicate 4 0 ++ wanted (20, 0))
theorem subject_root (w : List Byte) (hl : w.length = 32) :
    ((subjectOf (List.replicate 56 0 ++ (List.replicate 4 0 ++ w))).drop 4).take 32 = w := by
  rw [subjectOf, List.drop_left' (List.length_replicate ..)]
  have ht : (List.replicate 4 (0 : Byte) ++ w).take 68 = List.replicate 4 0 ++ w := List.take_of_length_le (by simp [hl])
  rw [ht, List.drop_left' (List.length_replicate ..), List.take_of_length_le (by simp [hl])]
theorem good_subject : ((subjectOf goodCert).drop 4).take 32 = wanted (20, 0) := by
  unfold goodCert
  exact subject_root _ (wanted_length _)
theorem path_members : ∀ i < 11, (10 + i, 0) ∈ pathNodes ∧ (i = 10 ∨ (10 + i, 0 ^^^ 1) ∈ pathNodes) := by decide +kernel
theorem path_agrees (d : Device) (hn : d.store.nor = pathNor) (ht : d.trust = trusted session0)
    (hc : ((subjectOf d.attest.idCert).drop 4).take 32 = wanted (20, 0)) : d.treePath 0 = true := by
  have h := path_reads d hn
  simp only [wanted] at h hc
  unfold Device.treePath
  rw [ht]
  generalize (trusted session0).idSeeds = seeds at h hc ⊢
  simp only [Bool.and_eq_true, List.all_eq_true, decide_eq_true_eq, List.mem_range]
  refine ⟨fun i hi => ?_, hc⟩
  have hz : 0 / 1024 / 2 ^ i = 0 := by rw [Nat.zero_div]
  simp only [hz]
  have h1 := h _ (path_members i hi).1
  dsimp only at h1
  refine ⟨h1, ?_⟩
  simp only [Bool.or_eq_true, decide_eq_true_eq]
  rcases (path_members i hi).2 with h2 | h2
  · exact .inl h2
  · have h3 := h _ h2
    dsimp only at h3
    exact .inr h3
theorem path_good : (preparing goodCert).treePath 0 = true := path_agrees _ rfl rfl good_subject
theorem path_bad : (preparing []).treePath 0 = false := by
  have hc : ((subjectOf (preparing []).attest.idCert).drop 4).take 32 = [] := rfl
  have hl := wanted_length (20, 0)
  simp only [Device.treePath, hc, Bool.and_eq_false_iff, decide_eq_false_iff_not]
  refine .inr fun h => ?_
  rw [wanted] at hl
  have hs : (preparing []).trust = trusted session0 := rfl
  rw [hs] at h
  rw [← h] at hl
  cases hl
theorem witness_preparation : (∀ cert, (st (preparing cert)).Inv ∧ (preparing cert).Still ∧ (preparing cert).phase = .running ∧
    (preparing cert).trust.preparing = true ∧ (preparing cert).trust.prepared = none ∧ (preparing cert).trust.usable = true ∧
    (preparing cert).trust.block = some 0 ∧ (preparing cert).trust.nextLeaf = 0 ∧ (preparing cert).trust.session = some session0) ∧
    0 < 16 * 0 + 16 ∧ session0.next < sessionLeaves :=
  ⟨fun _ => ⟨calm_inv (st base) base_calm, calm_still (st base) base_calm, rfl, rfl, rfl, rfl, rfl, rfl, rfl⟩, by decide +kernel, by decide +kernel⟩
theorem witness_no_preparation : base.trust.preparing = false ∧ base.attest.eraseSlot = none ∧ calm (st base) = true := by decide +kernel
theorem witness_erase : calm (st { base with attest := { base.attest with eraseSlot := some 1 } }) = true := by decide +kernel

def attesting (usable : Bool) : Device :=
  { base with
    trust := { trusted { session0 with next := 959 } with usable := usable }
    attest := { base.attest with busy := some (List.replicate 9 0, false) } }
theorem witness_attestation : calm (st (attesting true)) = true ∧ (attesting true).attest.busy = some (List.replicate 9 0, false) ∧
    (attesting true).trust.usable = true ∧ (attesting true).trust.session = some { session0 with next := 959 } ∧ 959 + 1 < sessionLeaves ∧
    (attesting false).trust.usable = false ∧ base.attest.busy = none ∧ (1 : Word).getLsbD 0 = true ∧ (0 : Word).getLsbD 0 = false := by decide +kernel
theorem witness_attestation_last : (attesting true).advances 9 = true ∧ (attesting true).advances 8 = false := by decide +kernel
/-! ### Witnesses: tuning -/

def tune0 : TuneRec :=
  { stream := 0, enable := true, policy := 0, refEvery := 1, boxes := 1, w64 := 255, w128 := 0, w256 := 0, valMod := 0, capacity := 8
    refLimit := 10, adoptSteps := 1, tseed := 7, lr := 0, b1 := 0, b2 := 0, eps2 := 0, wd := 0, margin := 0, replayBase := 0x100000
    slotTiles := 1, stateBase := 0x180000, bank1Base := 0x190000, bank2Base := 0x194000, holdBase := 0x198000, eHold := 0xFFFF, eCut := 0xFFFF
    eTrain := 0xFFFF, eExport := 0xFFFF, eEval := 0xFFFF }
def package0 : Package :=
  { package := 0, dest := 0x1A0000, w := 1, t := 1, bank0Offset := 0, bank0Bytes := 32, initOffset := 0, initBytes := 0, stateBytes := 0
    rowBytes := 0, digest := [] }
/-- Stream 0 is tuned, with references of 256 × 256 pixels. -/
def tuned (f : Tune → Tune) : Device :=
  ({ base with image := { base.image with
      tunes := [tune0], packages := [package0], rasters := [{ raster0 with width := 256, height := 256 }] } }).modTune 0 f
def hold (r : Option (Nat × List Nat)) : Hold := { slot := 3, buf := 0, expiry := 1000, filled := true, anchor := [], motion := [], reference := r }
/-- The earliest hold that has not expired at time 5. -/
def holdHead (d : Device) : Option Hold :=
  (sortBy (fun (a b : Hold) => a.slot < b.slot) ((d.tune 0).holds.filter (fun h => decide ((d.atTime 5).now ≤ h.expiry)))).head?
theorem witness_cut_none : sound (st (tuned (fun x => { x with holds := [hold none] }))) = true ∧
    holdHead (tuned (fun x => { x with holds := [hold none] })) = some (hold none) := by decide +kernel
def clashes (d : Device) : Bool :=
  (d.tune 0).epochRunning && ((List.range tune0.boxes).map (fun k => tune0.boxes * (d.tune 0).refs + k)).any (fun n =>
    (tune0.epochList (d.tune 0).epoch).any (fun m => m % tune0.capacity = n % tune0.capacity))
theorem witness_cut : sound (st (tuned (fun x => { x with holds := [hold (some (9, []))] }))) = true ∧
    (tuned (fun x => { x with holds := [hold (some (9, []))] })).tuneRec 0 = some tune0 ∧
    (tuned (fun x => { x with holds := [hold (some (9, []))] })).tuning 0 = true ∧
    holdHead (tuned (fun x => { x with holds := [hold (some (9, []))] })) = some (hold (some (9, []))) ∧
    clashes (tuned (fun x => { x with holds := [hold (some (9, []))] })) = false ∧ 1 ≤ tune0.boxes ∧ tune0.boxes ≤ tune0.capacity ∧
    tune0.capacity ≤ 4096 := by decide +kernel
/-- The same stream with an input record, so that its references have a buffer. -/
def tunedIn : Device :=
  let d := tuned (fun x => { x with holds := [hold (some (9, []))] })
  { d with image := { d.image with inputs := [input0] } }
theorem witness_cut_target : sound (st tunedIn) = true ∧ tunedIn.inputRec 0 = some input0 ∧ holdHead tunedIn = some (hold (some (9, []))) ∧
    tunedIn.tuneRec 0 = some tune0 ∧ tunedIn.tuning 0 = true ∧ clashes tunedIn = false ∧
    tunedIn.image.rasters.find? (fun g => g.stream = 0 && g.kind = 0) = some { raster0 with width := 256, height := 256 } ∧
    (let size := bucketSize (drawBox tune0 256 256 (tunedIn.tune 0).refs 0).1
     3 * (size * size) ≤ tune0.slotTiles * tileBytes) := by decide +kernel
/-- The header of a 256 × 256 reference, FORMAT 0x24, on a lane that feeds stream 0. -/
def refHeader : List Byte :=
  leBytes 2 1 ++ [0, 1] ++ leBytes 4 7 ++ leBytes 2 256 ++ leBytes 2 256 ++ [0x24, 0, 0, 0] ++ leBytes 4 196608 ++ List.replicate 108 0
def headBox : Container := { imageBox with dt := none, header := [], bytes := [], buf := none, opened := false }
def refOn : Device :=
  let d := rxIn tunedIn 3 .active 0x20
  { d with lanes := { d.lanes with open_ := [headBox] } }
theorem witness_header_packet : calm (st refOn) = true ∧ refOn.openAt 3 someHead.frameVc.toNat = some headBox ∧
    refOn.inputAt 3 someHead.frameVc.toNat = some input0 ∧ headBox.dead = false ∧ headBox.header = [] ∧ headBox.dt = none ∧
    (match ((refOn.atTime 9).takePacket 3 someHead (.long 0x32 refHeader true)).checkHeader input0
        { headBox with dt := some 0x32, header := refHeader, bytes := refHeader } true 9 refHeader with
      | .ok b => b == none
      | .error _ => false) = true := by decide +kernel
/-- A later packet of a geometry container, whose set stands or does not. -/
def geometryBox (o : Bool) : Container := { imageBox with dt := some 0x31, packets := 1, opened := o }
theorem witness_geometry_packet : ∀ o ∈ [false, true], calm (st (fedOpen (geometryBox o))) = true ∧
    (fedOpen (geometryBox o)).openAt 3 someHead.frameVc.toNat = some (geometryBox o) ∧ 0 < (geometryBox o).packets ∧
    (fedOpen (geometryBox o)).inputAt 3 someHead.frameVc.toNat = some input0 := by decide +kernel
/-- An expired hold goes, and its reference is dropped. -/
theorem witness_hold_expired : sound (st (tuned (fun x => { x with holds := [{ hold (some (9, [])) with expiry := 2 }] }))) = true ∧
    holdHead (tuned (fun x => { x with holds := [{ hold (some (9, [])) with expiry := 2 }] })) = none := by decide +kernel
theorem witness_cut_clash : clashes (tuned (fun x => { x with holds := [hold (some (9, []))], epochRunning := true })) = true := by decide +kernel

theorem witness_epoch : sound (st (tuned (fun x => { x with samples := 2 }))) = true ∧ tune0.enable = true ∧
    (0 + 1) * (tune0.capacity / 4) ≤ ((tuned (fun x => { x with samples := 2 })).tune 0).samples ∧
    ((tuned id).tune 0).samples < (((tuned id).tune 0).epoch + 1) * (tune0.capacity / 4) ∧ ((tuned id).tune 0).epochRunning = false := by decide +kernel
/-- The walk stands at sample 7, of bucket 2, whose open batch lacks one. -/
def walking (walk : List Nat) : Device := tuned (fun x =>
  { x with
    epochRunning := true, walk := walk, manifest := [(7, 2, false)]
    open_ := [{ number := 0, epoch := 0, bucket := 2, samples := [6], skipped := [], nskip := 0, first := 0, slot := [] }] })
theorem witness_epoch_end : sound (st (walking [])) = true ∧ (walking []).tuning 0 = true ∧ ((walking []).tune 0).epochRunning = true ∧
    ((walking []).tune 0).queue.length < 4 ∧ ((walking []).tune 0).walk.length ≤ ((walking []).tune 0).walkPos := by decide +kernel
theorem witness_batch : sound (st (walking [7])) = true ∧ ((walking [7]).tune 0).walk[((walking [7]).tune 0).walkPos]? = some 7 ∧
    tune0.isValidation 7 = false ∧ ((walking [7]).tune 0).manifest.find? (fun m => m.1 = 7) = some (7, 2, false) ∧
    (∀ i < (walking [7]).patchTiles tune0 2, (walking [7]).passes (tune0.slotAddr 7 + i * tileBytes) = true) ∧
    (openBatch ((walking [7]).tune 0) 2 0).samples.length + 1 = bucketBatch 2 := by decide +kernel

def cand0 : Candidate :=
  { c := 5, bank := 1, exported := true, digest := none, evalDone := false, lossC := 0, lossA := 0, approved := false, readyAt := none }
def candidate (c : Candidate) : Device := tuned (fun x => { x with cand := some c })
theorem witness_digest : sound (st (candidate cand0)) = true ∧ ((candidate cand0).tune 0).cand = some cand0 ∧
    (candidate cand0).package ((candidate cand0).ssbModel 0) = some package0 ∧ cand0.exported = true := by decide +kernel
theorem witness_approve : sound (st (candidate { cand0 with readyAt := some 4 })) = true ∧ 4 < max (candidate cand0).now 5 ∧
    cand0.c % 2 ^ 16 = (5 : BitVec 16).toNat ∧ cand0.readyAt = none := by decide +kernel

/-! ### Witnesses: requests -/

/-- A request of a type, INDEX or engine and flags, ARG, and the bytes from 8. -/
def request (type a b arg : Nat) (body : List Byte) : List Byte := leBytes 1 type ++ [0] ++ leBytes 1 a ++ leBytes 1 b ++ leBytes 4 arg ++ body
def requested (b : List Byte) (d : Device) : Device := { d with req := { d.req with pending := some b } }
def abortOf (entry arg : Nat) : List Byte := request 1 0 0 arg (leBytes 2 entry)
def abortMet (b : List Byte) (d : Device) : Bool :=
  sound (st d) && d.req.pending == some b && d.req.watch.isNone && field b 0 1 == 1 && d.phase == .running && field b 2 1 == d.itn.active &&
    d.entryOf 0 (field b 8 2) == some entryLc && entryLc.target == 0
theorem witness_abort_next : abortMet (abortOf 0 0xFFFFFFFF) (requested (abortOf 0 0xFFFFFFFF) base) = true ∧ calm (st (requested (abortOf 0 0xFFFFFFFF) base)) = true ∧
    (requested (abortOf 0 0xFFFFFFFF) base).liveLaunches 0 0 = [] ∧ field (abortOf 0 0xFFFFFFFF) 4 4 = 0xFFFFFFFF ∧
    (0, 0, base.nextCount 0) ∉ base.itn.aborted := by decide +kernel
theorem witness_abort_absent : (requested (abortOf 9 0) base).entryOf 0 (field (abortOf 9 0) 8 2) = none ∧
    calm (st (requested (abortOf 9 0) base)) = true := by decide +kernel
def ended0 : Ended := { index := 0, entry := 0, count := 0, status := .ok }
def endedOnce : Device := base.modItn (fun i => { i with ended := [ended0] })
theorem witness_abort_done : abortMet (abortOf 0 0) (requested (abortOf 0 0) endedOnce) = true ∧ calm (st (requested (abortOf 0 0) endedOnce)) = true ∧
    (requested (abortOf 0 0) endedOnce).liveLaunches 0 0 = [] ∧ field (abortOf 0 0) 4 4 ≠ 0xFFFFFFFF ∧
    endedOnce.itn.ended.find? (fun y => y.index = 0 && y.entry = 0 && y.count % 2 ^ 32 = 0) = some ended0 ∧ committed ended0.status = true := by
  decide +kernel
theorem witness_abort_waiting : abortMet (abortOf 0 0) (requested (abortOf 0 0) late) = true ∧ calm (st (requested (abortOf 0 0) late)) = true ∧
    (requested (abortOf 0 0) late).liveLaunches 0 0 = [(dueOf 0 0, .waiting)] ∧ (dueOf 0 0).count % 2 ^ 32 = field (abortOf 0 0) 4 4 ∧
    ((requested (abortOf 0 0) late).serveOf (dueOf 0 0)).any (fun v => v.bind.isNone && v.entry == entryLc) = true ∧ late.rfe.sets = [] := by decide +kernel
theorem witness_abort_running : abortMet (abortOf 0 0) (requested (abortOf 0 0) (running lastRun)) = true ∧
    aloneOn { running lastRun with req := base.req } 0 = true ∧ ((requested (abortOf 0 0) (running lastRun)).eng 0).run = some lastRun ∧
    plainMet (requested (abortOf 0 0) (running lastRun)) lastRun = true ∧
    (requested (abortOf 0 0) (running lastRun)).liveLaunches 0 0 = [(lastRun.due, .engine 0)] ∧ (running lastRun).rfe.sets = [] := by decide +kernel

def preemptOf (e flags : Nat) : List Byte := request 2 e flags 0 []
theorem witness_preempt_none : calm (st (requested (preemptOf 0 0) base)) = true ∧ field (preemptOf 0 0) 0 1 = 2 ∧ field (preemptOf 0 0) 2 1 = 0 ∧
    ((requested (preemptOf 0 0) base).eng 0).run = none := by decide +kernel
theorem witness_preempt : calm (st (requested (preemptOf 0 0) (running besteffort))) = true ∧
    ((requested (preemptOf 0 0) (running besteffort)).eng 0).run = some besteffort ∧ besteffort.bestEffort = true ∧
    ((running besteffort).eng 0).retired = false ∧ ((running besteffort).eng 0).pre = .running ∧ bit (field (preemptOf 0 0) 3 1) 0 = false ∧
    bit (field (preemptOf 0 1) 3 1) 0 = true ∧ ((running besteffort).entryOf besteffort.due.index besteffort.due.entry).any (fun y => y.saveOk) = true ∧
    (running besteffort).yields besteffort = true ∧ calm (st (requested (preemptOf 0 1) (running besteffort))) = true := by decide +kernel
def teardownOf (c : Nat) : List Byte := request 3 c 0 0 []
theorem witness_teardown : calm (st (requested (teardownOf 5) base)) = true ∧ field (teardownOf 5) 0 1 = 3 ∧ field (teardownOf 5) 2 1 = 5 ∧
    (base.ctx 5).mode ≠ .quarantined ∧ (base.ctx 5).ready = [] ∧ (base.ctx 5).kept = none ∧ base.itn.waiting = [] ∧ base.rfe.sets = [] ∧
    (∀ u < 7, (base.unit u).queue = []) ∧ (∀ e < 6, (base.eng e).moving ≠ some 5 ∧ (base.eng e).run = none) := by decide +kernel
theorem witness_teardown_again : ((requested (teardownOf 5) (base.modCtx 5 (fun c => { c with mode := .quarantined }))).ctx 5).mode = .quarantined ∧
    calm (st (requested (teardownOf 5) (base.modCtx 5 (fun c => { c with mode := .quarantined })))) = true := by decide +kernel
def otsonResetOf (pair : Nat) : List Byte := request 4 pair 0 0 []
def twoChips : Device := { base with ctl := { base.ctl with chips := 2 } }
theorem witness_otson_reset : calm (st (requested (otsonResetOf 0) twoChips)) = true ∧ field (otsonResetOf 0) 0 1 = 4 ∧ 1 < twoChips.ctl.chips ∧
    base.ctl.chips ≤ 1 ∧ (field (otsonResetOf 0) 2 1 = 0 ↔ true = true) ∧ (∀ k < 64, (twoChips.ctx k).kept = none) := by decide +kernel
theorem witness_otson_reset_west : (field (otsonResetOf 1) 2 1 = 0 ↔ false = true) ∧ calm (st (requested (otsonResetOf 1) twoChips)) = true := by decide +kernel

def modeOf (k : Nat) : List Byte := request 5 0 0 k (List.replicate 56 0)
def modeOk (d : Device) : Bool := d.phase == .running && !d.ctl.replay && !d.modeAbsent ((modeOf 3).drop 8) && !d.modeRefused ((modeOf 3).drop 8)
theorem witness_mode : calm (st (requested (modeOf 3) base)) = true ∧ field (modeOf 3) 0 1 = 5 ∧ modeOk base = true ∧ base.req.modes.length < 16 ∧
    field (modeOf 3) 4 4 = 3 ∧ base.itn.k < 3 ∧ (base.atTime 2000000).now + 1000000 ≤ (base.atTime 2000000).t0 + 3 * (base.atTime 2000000).cycleNs ∧
    (base.atTime 2000001).t0 + 3 * (base.atTime 2000001).cycleNs < (base.atTime 2000001).now + 1000000 ∧
    field (modeOf 0xFFFFFFFF) 4 4 = 0xFFFFFFFF ∧ 0 < base.cycleNs := by decide +kernel
theorem witness_mode_refused : { base with ctl := { base.ctl with replay := true } }.ctl.replay = true ∧
    calm (st (requested (modeOf 3) { base with ctl := { base.ctl with replay := true } })) = true := by decide +kernel
def waitingMode : PendingMode := { k := 9, fromI3c := true, order := (0, 0), body := [] }
theorem witness_mode_full : 16 ≤ { base.req with modes := List.replicate 16 waitingMode }.modes.length ∧
    calm (st (requested (modeOf 3) { base with req := { base.req with modes := List.replicate 16 waitingMode } })) = true := by decide +kernel
/-! ### Witnesses: the I3C target and the boot -/

def addressed (d : Device) : Device := d.modI3c (fun r => { r with dynAddr := some 0x08 })
theorem witness_common : sound (st base) = true ∧ base.phase ≠ .off ∧ base.i3c.dynAddr = none ∧ sound (st (addressed base)) = true ∧
    (addressed base).i3c.dynAddr.isSome = true ∧ (0x2C#7).toNat = 0x2C + base.pins.addrSel.toNat ∧
    (0x2D#7).toNat ≠ 0x2C + base.pins.addrSel.toNat := by decide +kernel
theorem test_getbcr : ∀ s', exec (.getbcr 5) (st (addressed base)) = .next s' → s'.dev.i3c.reply = [0x06] := by
  intro s' h
  cases h
  decide +kernel

def arming (a : Armed) (seen : Bool) : Device := base.modI3c (fun r => { r with armed := a, patternSeen := seen })
theorem witness_target_reset : sound (st (arming .whole false)) = true ∧ (arming .whole false).i3c.armed = .whole ∧
    (arming .peripheral false).i3c.armed = .peripheral ∧ (arming .none true).i3c.armed = .none ∧ (arming .none true).i3c.patternSeen = true ∧
    (arming .none false).i3c.patternSeen = false ∧ base.phase ≠ .off := by decide +kernel

def inHdr (d : Device) : Device := d.modI3c (fun r => { r with hdr := true })
def unlocked (d : Device) : Device := { d with ctl := { d.ctl with locked := false }, phase := .preLock }
def inertOne (d : Device) : Device := { d with phase := .inert, pins := { d.pins with alertLow := true } }
theorem witness_write : calm (st (addressed base)) = true ∧ (addressed base).phase ≠ .inert ∧ (addressed base).phase ≠ .off ∧
    (addressed base).ctl.locked = true ∧ bits (0x05 : Byte).toNat 7 6 = 0 := by decide +kernel
theorem witness_write_hdr : calm (st (inHdr (addressed base))) = true ∧ (inHdr (addressed base)).i3c.hdr = true := by decide +kernel
theorem witness_write_early : calm (st (unlocked (addressed base))) = true ∧ (unlocked (addressed base)).ctl.locked = false := by decide +kernel
theorem witness_write_inert : (inertOne (addressed base)).phase = .inert ∧ (inertOne (addressed base)).Still ∧ (inertOne base).alert = true :=
  ⟨rfl, calm_still (st base) base_calm, by decide +kernel⟩
theorem witness_read_setup : bits (0x45 : Byte).toNat 7 6 = 1 ∧ 0x10 % 4 = 0 ∧ 1 ≤ (2 : Byte).toNat ∧ (2 : Byte).toNat ≤ 64 ∧
    0x10 + 4 * (2 : Byte).toNat ≤ registerLimit ∧ 0x10 + 4 * (64 : Byte).toNat ≤ registerLimit := by decide +kernel
def asked64 (d : Device) : Device := d.modI3c (fun r => { r with setup := some (0x45, 0x10, 2) })
theorem witness_read : calm (st (asked64 (addressed base))) = true ∧ (addressed base).i3c.setup = none ∧
    (asked64 (addressed base)).i3c.setup = some (0x45, 0x10, 2) ∧ (0x20 : Byte) ≠ 0xA0 := by decide +kernel
theorem test_time_base_read : ∀ s', exec (.loRegisterRead 0x100000002 0x10) (st base) = .next s' →
    s'.dev.i3c.reply = [2, 0, 0, 0] ∧ s'.dev.ctl.timeHi = 1 := by
  intro s' h
  cases h
  decide +kernel

/-- R684: 0x1A passes an event that another command queued at its instant; the SEQ values stay in ascending order. -/
theorem test_events_of_one_instant :
    let d := base.modI3c (fun i => { i with
      seq := 4
      queue := [{ event := .partialRender, seq := 3, arg0 := 1, arg1 := 0, arg2 := 9, at_ := some (max base.now 5) }] })
    ∀ s', exec (.handshakeTimeout 5 none none) (st d) = .next s' →
      s'.dev.i3c.queue.map (fun e => (e.event, e.seq)) = [(.fatal, 3), (.partialRender, 4)] := by
  intro d s' h
  cases h
  decide +kernel
def event0 : IbiEvent := { event := .partialRender, seq := 3, arg0 := 1, arg1 := 0, arg2 := 9, at_ := none }
def eventful (en : Bool) : Device := (addressed base).modI3c (fun r => { r with queue := [event0], enint := en })
theorem witness_ibi : sound (st (eventful true)) = true ∧ (eventful true).i3c.queue = [event0] ∧ (eventful true).i3c.dynAddr.isSome = true ∧
    (eventful true).i3c.enint = true ∧ (eventful false).i3c.enint = false ∧ sound (st (eventful false)) = true := by decide +kernel
theorem test_ibi_payload : ∀ s', exec (.ibi 5 true 8) (st (eventful true)) = .next s' →
    s'.dev.i3c.reply = [0x12, 3, 1, 0, 9, 0, 0, 0] ∧ s'.dev.i3c.queue = [] := by
  intro s' h
  cases h
  decide +kernel

def facts (bad : BitVec 6) (base : Bool) : BootFacts :=
  { addrSel := 1, badEngines := bad, badBase := base, bistSram := [], bistDram := [], programs := [], cut := none, lockUs := 700 }
theorem witness_boot : calm State.reset = true ∧ State.reset.dev.boot.order = 0 ∧ State.reset.dev.phase = .preLock ∧
    imgHeadOk (State.reset.dev.norRead norImage 256) = false ∧ (facts 0 true).badBase = true ∧ 2 ≤ bitsSet (facts 3 false).badEngines ∧
    State.reset.dev.boot.cause = 0 := by decide +kernel
theorem witness_boot_cut : ({ facts 0 true with cut := some .beforeProgram } : BootFacts).cut.isSome = true ∧ (facts 0 true).cut = none := by
  decide +kernel
/-- A program of the NOR reads back as the next outcome of the list says, and right once the list is used up. -/
theorem test_program_outcome :
    let d (l : List Bool) : Device := { base with attest := { base.attest with programs := l }, trust := { base.trust with usable := true } }
    ((d [true]).program 0 0 []).1 = false ∧ ((d [false, true]).program 0 0 []).1 = true ∧ ((d []).program 0 0 []).1 = true ∧
      ((d [true]).program 0 0 []).2.attest.programs = [] := by decide +kernel
theorem witness_boot_done : base.phase ≠ .preLock ∧ base.phase ≠ .off ∧ calm (st base) = true := by decide +kernel
def blankNor : Device := Device.reset ((List.range 256).map (fun i => (norImage + i, 0)))
theorem witness_boot_unsigned : calm (st blankNor) = true ∧ blankNor.boot.order = 0 ∧ blankNor.phase = .preLock := by decide +kernel
theorem blank_head : blankNor.norRead norImage 256 = List.replicate 256 0 := by decide +kernel
theorem witness_boot_signature :
    let h := imgHeadOf (blankNor.norRead norImage 256)
    imageSigned (blankNor.norRead (norImage + h.sigOffset) h.sigBytes) (blankNor.norRead norImage (256 + 64 * h.nsect)) = false := by
  decide +kernel

end Sys2Proof.Tests
end

section
/-! SUPPORT. The tuning of a stream (chapter 9): the expiry of its holds and the cut of a reference into samples (R402 to R413). -/
namespace Sys2Proof.Machine

/-! ### Memory -/

/-- Read after a sealed write: within its run, the byte written. -/
theorem writeCut_get_in (regs : SealRegs) (fuel : Nat) (st : Store) (a : Nat) (bs : List Byte) (i : Nat)
    (hi : i < bs.length) (hfuel : a % tileBytes + bs.length ≤ fuel * tileBytes) :
    memGet (st.writeCut regs fuel a bs).mem (a + i) = bs.getD i 0 := by
  induction fuel generalizing st a bs i with
  | zero => omega
  | succ n ih =>
    have hroom : a % tileBytes < tileBytes := Nat.mod_lt _ (by decide)
    have hne : bs.isEmpty = false := by cases bs <;> simp_all
    simp only [Store.writeCut, hne, Bool.false_eq_true, if_false]
    generalize hr : tileBytes - a % tileBytes = room
    by_cases hlt : i < room
    · rw [writeCut_get_out _ _ _ _ _ _ (.inl (by omega)), writeInTile_mem,
        memGet_memPut_in _ _ _ _ (by simp only [List.length_take]; omega)]
      simp [List.getD_eq_getElem?_getD, hlt]
    · have hnext : (a + room) % tileBytes = 0 := by
        have hdiv := Nat.div_add_mod' a tileBytes
        rw [show a + room = (a / tileBytes + 1) * tileBytes by rw [Nat.succ_mul]; omega]
        exact Nat.mul_mod_left _ _
      rw [Nat.succ_mul] at hfuel
      rw [show a + i = a + room + (i - room) by omega,
        ih _ (a + room) (bs.drop room) (i - room) (by rw [List.length_drop]; omega) (by rw [hnext, List.length_drop]; omega)]
      simp [List.getD_eq_getElem?_getD, show room + (i - room) = i by omega]

theorem device_write_get_in (d : Device) (a : Nat) (bs : List Byte) (i : Nat) (hi : i < bs.length) :
    memGet (d.write a bs).store.mem (a + i) = bs.getD i 0 := by
  refine writeCut_get_in _ _ _ _ _ _ hi ?_
  have := Nat.mod_lt a (show 0 < tileBytes by decide)
  have := Nat.div_add_mod bs.length tileBytes
  have := Nat.mod_lt bs.length (show 0 < tileBytes by decide)
  rw [Nat.add_mul, Nat.mul_comm _ tileBytes]
  omega

theorem memGetN_getD (mem : List (Nat × Byte)) (a n i : Nat) (hi : i < n) :
    (memGetN mem a n).getD i 0 = memGet mem (a + i) := by
  simp only [memGetN, List.getD_eq_getElem?_getD, List.getElem?_map, List.getElem?_range hi, Option.map_some, Option.getD_some]
  exact memGet_filter mem (a + i) _ fun b => by simp; omega

/-! ### Streams by number -/

theorem vmod_congr {α : Type} {n : Nat} (v : Vector α n) (i : Nat) (f g : α → α) (x : α)
    (h : f (vget v i x) = g (vget v i x)) : vmod v i f = vmod v i g := by
  unfold vmod vget at *
  split
  · simp_all
  · rfl

@[simp] theorem vmod_id {α : Type} {n : Nat} (v : Vector α n) (i : Nat) : vmod v i (fun x => x) = v := by
  unfold vmod
  split
  · rename_i x hx
    ext j hj
    by_cases h : i = j
    · subst h; simp_all
    · simp [h]
  · rfl

theorem vmod_vmod {α : Type} {n : Nat} (v : Vector α n) (i : Nat) (f g : α → α) :
    vmod (vmod v i f) i g = vmod v i (fun x => g (f x)) := by
  by_cases h : i < n
  · simp [vmod, h]
  · simp [vmod, h]

@[simp] theorem tune_modTune (d : Device) (s : Nat) (f : Tune → Tune) (h : s < 32) :
    (d.modTune s f).tune s = f (d.tune s) := by
  simp [Device.tune, Device.strm, Device.modTune, h]

@[simp] theorem treg_modTreg (d : Device) (s : Nat) (f : TuneRegs → TuneRegs) (h : s < 32) :
    ((d.modTreg s f).strm s).treg = f (d.strm s).treg := by
  simp [Device.strm, Device.modTreg, h]

/-- A field of a stream that a change keeps is as it was, whether or not the device has the stream. -/
theorem strm_modStrm_field {α : Type} (p : Stream → α) (d : Device) (s : Nat) (f : Stream → Stream) (h : ∀ x, p (f x) = p x) :
    p ((d.modStrm s f).strm s) = p (d.strm s) := by
  by_cases hs : s < 32
  · simp [Device.strm, hs, h]
  · simp only [Device.strm, Device.modStrm_streams, vmod_out _ _ _ (Nat.not_lt.mp hs)]

@[simp] theorem treg_modTune (d : Device) (s : Nat) (f : Tune → Tune) : ((d.modTune s f).strm s).treg = (d.strm s).treg :=
  strm_modStrm_field Stream.treg _ _ _ fun _ => rfl

@[simp] theorem tune_modTreg (d : Device) (s : Nat) (f : TuneRegs → TuneRegs) : (d.modTreg s f).tune s = d.tune s :=
  strm_modStrm_field Stream.tune _ _ _ fun _ => rfl

theorem modStrm_congr (d : Device) (s : Nat) (f g : Stream → Stream) (h : f (d.strm s) = g (d.strm s)) :
    d.modStrm s f = d.modStrm s g := by
  rw [Device.modStrm, vmod_congr d.streams s f g .reset h, ← Device.modStrm]

theorem modTune_congr (d : Device) (s : Nat) (f g : Tune → Tune) (h : f (d.tune s) = g (d.tune s)) :
    d.modTune s f = d.modTune s g :=
  modStrm_congr d s _ _ (congrArg (fun y => { d.strm s with tune := y }) h)

theorem modTreg_congr (d : Device) (s : Nat) (f g : TuneRegs → TuneRegs) (h : f (d.strm s).treg = g (d.strm s).treg) :
    d.modTreg s f = d.modTreg s g :=
  modStrm_congr d s _ _ (congrArg (fun y => { d.strm s with treg := y }) h)

/-! ### The holds that have expired -/

/-- Dropped references are counted, and nothing else changes. -/
theorem foldl_refDrop (s : Nat) (l : List Hold) (d : Device) :
    l.foldl (fun (d : Device) _ => d.refDrop s) d =
      d.modTreg s (fun z => { z with refDrops := l.foldl (fun n _ => satInc n) z.refDrops }) := by
  induction l generalizing d with
  | nil => simp [Device.modTreg, Device.modStrm]
  | cons h l ih =>
    rw [List.foldl_cons, ih]
    simp [Device.refDrop, Device.modTreg, Device.modStrm, vmod_vmod]

/-- The holds of stream `s` that have not expired at an instant (R402). -/
def Device.liveHolds (d : Device) (s at_ : Nat) : List Hold := (d.tune s).holds.filter (fun h => decide (at_ ≤ h.expiry))

/-- The stream's count of dropped references once the holds that have expired are freed. -/
def Device.dropsExpired (d : Device) (s at_ : Nat) : Nat :=
  ((d.tune s).holds.filter (fun h => decide (h.expiry < at_) && h.reference.isSome)).foldl (fun n _ => satInc n)
    (d.strm s).treg.refDrops

/-- R402: what the expiry of holds changes. -/
theorem expireHolds_eq (d : Device) (s at_ : Nat) :
    d.expireHolds s at_ = (d.modTune s (fun z => { z with holds := d.liveHolds s at_ })).modTreg s (fun z =>
      { z with refDrops := d.dropsExpired s at_ }) := by
  have hgone : ((d.tune s).holds.filter (fun h => decide (h.expiry < at_))).filter (fun h => h.reference.isSome) =
      (d.tune s).holds.filter (fun h => decide (h.expiry < at_) && h.reference.isSome) := by
    rw [List.filter_filter]
    simp only [Bool.and_comm]
  simp only [Device.expireHolds, foldl_refDrop, hgone]
  rw [modTune_congr d s _ (fun z => { z with holds := d.liveHolds s at_ }) rfl]
  refine modTreg_congr _ _ _ _ ?_
  simp only [treg_modTune, Device.dropsExpired]

/-! ### Boxes -/

theorem mix64_lt (seed tensorId index : Nat) : mix64 seed tensorId index < 2 ^ 64 := by
  unfold mix64
  refine Nat.xor_lt_two_pow (Nat.mod_lt _ (by decide)) ?_
  exact Nat.lt_of_le_of_lt (Nat.div_le_self _ _) (Nat.mod_lt _ (by decide))

theorem bucketSize_le (z : Nat) : bucketSize z ≤ 256 := by
  unfold bucketSize
  split
  · decide
  · split <;> decide

theorem dvd_bucketSize (z : Nat) : 64 ∣ bucketSize z := by
  unfold bucketSize
  split
  · decide
  · split <;> decide

/-- R407: a corner drawn for a side of `size` pixels leaves room for `n` of them. -/
theorem corner_le (m size n : Nat) (hm : m < 2 ^ 64) (hn : n ≤ size) :
    4 * (m / 2 ^ 32 * ((size - n) / 4 + 1) / 2 ^ 32) + n ≤ size := by
  have hdraw : m / 2 ^ 32 < 2 ^ 32 := by omega
  have hlt : m / 2 ^ 32 * ((size - n) / 4 + 1) / 2 ^ 32 < (size - n) / 4 + 1 :=
    Nat.div_lt_of_lt_mul (Nat.mul_lt_mul_of_pos_right hdraw (Nat.succ_pos _))
  omega

/-- R406, R407: a box lies in its reference. -/
theorem drawBox_inside (r : TuneRec) (wr hr q k : Nat) (hw : 256 ≤ wr) (hh : 256 ≤ hr) :
    (drawBox r wr hr q k).2.1 + bucketSize (drawBox r wr hr q k).1 ≤ wr ∧
      (drawBox r wr hr q k).2.2 + bucketSize (drawBox r wr hr q k).1 ≤ hr :=
  ⟨corner_le _ _ _ (mix64_lt _ _ _) ((bucketSize_le _).trans hw), corner_le _ _ _ (mix64_lt _ _ _) ((bucketSize_le _).trans hh)⟩

/-! ### Patches -/

/-- Element `j` of block `i`, when every block has `n` elements. -/
theorem getD_flatMap {α β : Type} (l : List α) (f : α → List β) (n i j : Nat) (a : α) (x : β) (hn : ∀ b ∈ l, (f b).length = n)
    (ha : l[i]? = some a) (hj : j < n) : (l.flatMap f).getD (i * n + j) x = (f a).getD j x := by
  induction l generalizing i with
  | nil => simp at ha
  | cons b l ih =>
    have hb := hn b List.mem_cons_self
    rw [List.flatMap_cons]
    cases i with
    | zero =>
      obtain rfl : b = a := by simpa using ha
      rw [List.getD_append _ _ _ _ (by omega)]
      simp
    | succ i =>
      rw [List.getD_append_right _ _ _ _ (by rw [Nat.succ_mul]; omega), hb,
        show (i + 1) * n + j - n = i * n + j by rw [Nat.succ_mul]; omega]
      exact ih i (fun c hc => hn c (List.mem_cons_of_mem _ hc)) (by simpa using ha)

theorem length_flatMap {α β : Type} (l : List α) (f : α → List β) (n : Nat) (hn : ∀ b ∈ l, (f b).length = n) :
    (l.flatMap f).length = l.length * n := by
  rw [List.length_flatMap, List.map_congr_left hn, List.map_const', List.sum_replicate, smul_eq_mul]

/-- The rows of a target patch need no filling: its sizes are multiples of the pitch unit. -/
theorem patchRow_of_dvd (l : List Byte) (h : 64 ∣ l.length) : patchRow l = l := by
  obtain ⟨k, hk⟩ := h
  simp only [patchRow, roundUp, ceilDiv, hk]
  rw [show (64 * k + 64 - 1) / 64 * 64 - 64 * k = 0 by omega]
  simp

/-- A row of a target patch. -/
def targetRow (bytes : List Byte) (pitch n x y v : Nat) : List Byte :=
  (List.range n).map (fun u => bytes.getD ((y + v) * pitch + x + u) 0)

theorem targetPlane_eq (bytes : List Byte) (pitch n x y : Nat) (hn : 64 ∣ n) :
    targetPlane bytes pitch n x y = (List.range n).flatMap (targetRow bytes pitch n x y) := by
  unfold targetPlane
  congr 1
  funext v
  exact patchRow_of_dvd _ (by simpa using hn)

@[simp] theorem targetPlane_length (bytes : List Byte) (pitch n x y : Nat) (hn : 64 ∣ n) :
    (targetPlane bytes pitch n x y).length = n * n := by
  rw [targetPlane_eq _ _ _ _ _ hn, length_flatMap _ _ n (by simp [targetRow]), List.length_range]

theorem targetPlane_getD (bytes : List Byte) (pitch n x y u v : Nat) (hn : 64 ∣ n) (hu : u < n) (hv : v < n) :
    (targetPlane bytes pitch n x y).getD (v * n + u) 0 = bytes.getD ((y + v) * pitch + x + u) 0 := by
  rw [targetPlane_eq _ _ _ _ _ hn, getD_flatMap _ _ n v u v 0 (by simp [targetRow]) (by simp [hv]) hu]
  simp [targetRow, hu]

theorem le_roundUp (a b : Nat) (hb : 0 < b) : a ≤ roundUp a b := by
  have := Nat.div_add_mod' (a + b - 1) b
  have := Nat.mod_lt (a + b - 1) hb
  unfold roundUp ceilDiv
  omega

/-- Place `j` of row `i` lies in a table of `m` rows of `n` places. -/
theorem index_lt {m n i j : Nat} (hi : i < m) (hj : j < n) : i * n + j < m * n :=
  calc i * n + j < (i + 1) * n := by rw [Nat.succ_mul]; omega
    _ ≤ m * n := Nat.mul_le_mul_right n hi

/-- A plane of a tuning reference, whose FORMAT is 0x24 (R403). -/
def refPlane (g : RasterRec) : PlaneShape := { width := g.width, height := g.height, elem := 1 }

@[simp] theorem refPlane_pitch (g : RasterRec) : (refPlane g).pitch = roundUp g.width 64 := by
  simp [PlaneShape.pitch, refPlane]

/-- Table 9.2: the target patch of a box, all three planes of it, from the reference that stands in the stream's buffer. -/
def Device.targetPatch (d : Device) (i : InputRec) (g : RasterRec) (n x y : Nat) : List Byte :=
  (List.replicate 3 (refPlane g)).zipIdx.flatMap (fun b => targetPlane
    (d.peek (i.refBase + 16384 + b.2 * inputStride (List.replicate 3 (refPlane g))) (b.1.height * b.1.pitch)) b.1.pitch n x y)

theorem targetPatch_length (d : Device) (i : InputRec) (g : RasterRec) (n x y : Nat) (hn : 64 ∣ n) :
    (d.targetPatch i g n x y).length = 3 * (n * n) := by
  rw [Device.targetPatch, length_flatMap _ _ (n * n) (fun b _ => targetPlane_length _ _ _ _ _ hn)]
  simp

theorem targetPatch_getD (d : Device) (i : InputRec) (g : RasterRec) (n x y p v u : Nat) (hn : 64 ∣ n) (hx : x + n ≤ g.width)
    (hy : y + n ≤ g.height) (hp : p < 3) (hv : v < n) (hu : u < n) :
    (d.targetPatch i g n x y).getD (p * (n * n) + v * n + u) 0 =
      memGet d.store.mem (i.refBase + 16384 + p * inputStride (List.replicate 3 (refPlane g)) + (y + v) * roundUp g.width 64 + x + u) := by
  have hplane : (List.replicate 3 (refPlane g)).zipIdx[p]? = some (refPlane g, p) := by
    rw [List.getElem?_zipIdx, List.getElem?_replicate, if_pos hp]
    simp
  have hpixel : (y + v) * roundUp g.width 64 + (x + u) < g.height * roundUp g.width 64 :=
    index_lt (by omega) (by have := le_roundUp g.width 64 (by decide); omega)
  rw [Nat.add_assoc, Device.targetPatch, getD_flatMap _ _ (n * n) p (v * n + u) (refPlane g, p) 0
    (fun b _ => targetPlane_length _ _ _ _ _ hn) hplane (index_lt hv hu), targetPlane_getD _ _ _ _ _ _ _ hn hu hv,
    refPlane_pitch, Nat.add_assoc _ x u]
  exact (memGetN_getD _ _ _ _ hpixel).trans (by simp only [Nat.add_assoc])

/-- The patches of a sample begin with the target patch, as far as the slot holds them. -/
theorem cutPatches_eq (d : Device) (r : TuneRec) (h : Hold) (z x y : Nat) (i : InputRec) (g : RasterRec)
    (hi : d.inputRec r.stream = some i) (hg : d.image.rasters.find? (fun g => g.stream = r.stream && g.kind = 0) = some g) :
    ∃ rest, d.cutPatches r h z x y = (d.targetPatch i g (bucketSize z) x y ++ rest).take (r.slotTiles * tileBytes) := by
  simp only [Device.cutPatches, hi, hg, toTiles, List.append_assoc]
  exact ⟨_, rfl⟩

theorem cutPatches_length_le (d : Device) (r : TuneRec) (h : Hold) (z x y : Nat) :
    (d.cutPatches r h z x y).length ≤ r.slotTiles * tileBytes := by
  unfold Device.cutPatches
  split
  · exact List.length_take_le _ _
  · exact Nat.zero_le _

/-- A slot that holds the whole target patch begins with it. -/
theorem cutPatches_target (d : Device) (r : TuneRec) (h : Hold) (z x y : Nat) (i : InputRec) (g : RasterRec) (j : Nat)
    (hi : d.inputRec r.stream = some i) (hg : d.image.rasters.find? (fun g => g.stream = r.stream && g.kind = 0) = some g)
    (hj : j < 3 * (bucketSize z * bucketSize z)) (hfit : 3 * (bucketSize z * bucketSize z) ≤ r.slotTiles * tileBytes) :
    j < (d.cutPatches r h z x y).length ∧
      (d.cutPatches r h z x y).getD j 0 = (d.targetPatch i g (bucketSize z) x y).getD j 0 := by
  obtain ⟨rest, hrest⟩ := cutPatches_eq d r h z x y i g hi hg
  have hlen := targetPatch_length d i g (bucketSize z) x y (dvd_bucketSize z)
  rw [hrest]
  refine ⟨by simp only [List.length_take, List.length_append]; omega, ?_⟩
  rw [List.getD_eq_getElem?_getD, List.getElem?_take_of_lt (by omega), ← List.getD_eq_getElem?_getD,
    List.getD_append _ _ _ _ (by omega)]

/-! ### The samples of a cut -/

/-- A sample that a cut puts into the replay buffer (R406 to R410). -/
structure CutSample where
  number : Nat
  bucket : Nat
  x : Nat
  y : Nat
  crcBad : Bool
  patches : List Byte

/-- Sample `k` of reference `q`, cut from the reference and from hold `h` as they stand in `d`. -/
def Device.cutSample (d : Device) (r : TuneRec) (h : Hold) (bad : List Nat) (q k : Nat) : CutSample :=
  let b := drawBox r (d.refDims r.stream).1 (d.refDims r.stream).2 q k
  { number := r.boxes * q + k, bucket := b.1, x := b.2.1, y := b.2.2
    crcBad := bad.any (fun l => decide (b.2.2 ≤ l) && decide (l < b.2.2 + bucketSize b.1))
    patches := d.cutPatches r h b.1 b.2.1 b.2.2 }

/-- The sample put into the replay buffer and the manifest. -/
def Device.put (d : Device) (r : TuneRec) (c : CutSample) : Device :=
  d.putSample r c.number c.bucket c.x c.y c.crcBad c.patches

/-- All samples of the list put, one after another. -/
def Device.putAll (d : Device) (r : TuneRec) (l : List CutSample) : Device := l.foldl (fun d c => d.put r c) d

/-- The samples that the cut of reference `q` puts. -/
def Device.cutSamples (d : Device) (r : TuneRec) (h : Hold) (bad : List Nat) (q : Nat) : List CutSample :=
  (List.range r.boxes).map (d.cutSample r h bad q)

/-- R413: whether a cut of the next reference would write a slot of the running epoch. -/
def TuneRec.clash (r : TuneRec) (y : Tune) : Bool :=
  y.epochRunning && ((List.range r.boxes).map (fun k => r.boxes * y.refs + k)).any (fun n =>
    (r.epochList y.epoch).any (fun m => m % r.capacity = n % r.capacity))

/-- The device with hold `h` freed. -/
def Device.freeHold (d : Device) (s : Nat) (h : Hold) : Device :=
  d.modTune s (fun z => { z with holds := z.holds.filter (fun w => w.slot ≠ h.slot) })

theorem cut_of_clash (d : Device) (r : TuneRec) (h : Hold) (bad : List Nat) (hc : r.clash (d.tune r.stream) = true) :
    d.cut r h bad = ((d.modTune r.stream (fun z =>
      { z with holds := z.holds.map (fun w => if w.slot = h.slot then { w with reference := none } else w) })).refDrop
        r.stream).itnFreeChoice :=
  if_pos hc

theorem cut_of_no_clash (d : Device) (r : TuneRec) (h : Hold) (bad : List Nat) (hc : r.clash (d.tune r.stream) = false) :
    d.cut r h bad =
      (((d.freeHold r.stream h).putAll r ((d.freeHold r.stream h).cutSamples r h bad (d.tune r.stream).refs)).modTune r.stream
        (fun z => { z with refs := z.refs + 1 })).modTreg r.stream (fun z => { z with refsCut := satInc z.refsCut }) := by
  refine (if_neg (ne_true_of_eq_false hc)).trans ?_
  rw [Device.putAll, Device.cutSamples, List.foldl_map]
  rfl

/-! ### The replay buffer -/

/-- The bytes of the replay buffer that sample `n` takes: its manifest entry and its slot (R409). -/
def TuneRec.owns (r : TuneRec) (n a : Nat) : Prop :=
  (r.replayBase + 8 * (n % r.capacity) ≤ a ∧ a < r.replayBase + 8 * (n % r.capacity) + 8) ∨
    (r.slotAddr n ≤ a ∧ a < r.slotAddr n + r.slotTiles * tileBytes)

/-- The replay buffer of a tuning stream. -/
def TuneRec.replay (r : TuneRec) : Span :=
  { addr := r.replayBase, len := 32768 + r.capacity * r.slotTiles * tileBytes, store := true }

theorem slot_room (r : TuneRec) (n m : Nat) (h : n % r.capacity < m) :
    r.slotAddr n + r.slotTiles * tileBytes ≤ r.replayBase + 32768 + m * r.slotTiles * tileBytes := by
  have := Nat.mul_le_mul_right (r.slotTiles * tileBytes) h
  simp only [TuneRec.slotAddr, Nat.mul_assoc, Nat.succ_mul] at *
  omega

theorem le_slotAddr (r : TuneRec) (n : Nat) : r.replayBase + 32768 ≤ r.slotAddr n := Nat.le_add_right _ _

/-- Samples stand in the replay buffer. -/
theorem owns_within (r : TuneRec) (n a : Nat) (hlo : 1 ≤ r.capacity) (hhi : r.capacity ≤ 4096) (h : r.owns n a) :
    r.replay.addr ≤ a ∧ a < r.replay.addr + r.replay.len := by
  have hmod := Nat.mod_lt n hlo
  have := slot_room r n r.capacity hmod
  have := le_slotAddr r n
  simp only [TuneRec.replay]
  rcases h with h | h <;> omega

/-- Samples of different slots share no byte. -/
theorem owns_disjoint (r : TuneRec) (m n a : Nat) (hlo : 1 ≤ r.capacity) (hhi : r.capacity ≤ 4096)
    (hmn : m % r.capacity ≠ n % r.capacity) (h : r.owns n a) : ¬ r.owns m a := by
  have := Nat.mod_lt n hlo
  have := Nat.mod_lt m hlo
  have := le_slotAddr r m
  have := le_slotAddr r n
  unfold TuneRec.owns at *
  rcases Nat.lt_or_gt_of_ne hmn with hlt | hlt
  · have : r.slotAddr m + r.slotTiles * tileBytes ≤ r.slotAddr n := slot_room r m _ hlt
    omega
  · have : r.slotAddr n + r.slotTiles * tileBytes ≤ r.slotAddr m := slot_room r n _ hlt
    omega

theorem manifestBytes_length (n z x y : Nat) (b : Bool) : (manifestBytes n z x y b).length = 8 := rfl

theorem put_get_out (d : Device) (r : TuneRec) (c : CutSample) (a : Nat) (hlen : c.patches.length ≤ r.slotTiles * tileBytes)
    (ha : ¬ r.owns c.number a) : memGet (d.put r c).store.mem a = memGet d.store.mem a := by
  unfold TuneRec.owns at ha
  have hm := manifestBytes_length c.number c.bucket c.x c.y c.crcBad
  exact (device_write_get_out _ (r.slotAddr c.number) c.patches _ (by omega)).trans
    (device_write_get_out d _ _ _ (by rw [hm]; omega))

theorem put_get_manifest (d : Device) (r : TuneRec) (c : CutSample) (i : Nat) (hlo : 1 ≤ r.capacity) (hhi : r.capacity ≤ 4096)
    (hi : i < 8) : memGet (d.put r c).store.mem (r.replayBase + 8 * (c.number % r.capacity) + i) =
      (manifestBytes c.number c.bucket c.x c.y c.crcBad).getD i 0 := by
  have := Nat.mod_lt c.number hlo
  have := le_slotAddr r c.number
  exact (device_write_get_out _ (r.slotAddr c.number) c.patches _ (.inl (by omega))).trans
    (device_write_get_in d _ _ _ (by rw [manifestBytes_length]; exact hi))

theorem put_get_slot (d : Device) (r : TuneRec) (c : CutSample) (i : Nat) (hi : i < c.patches.length) :
    memGet (d.put r c).store.mem (r.slotAddr c.number + i) = c.patches.getD i 0 :=
  device_write_get_in (d.write _ _) _ _ _ hi

theorem put_tune (d : Device) (r : TuneRec) (c : CutSample) (hs : r.stream < 32) :
    (d.put r c).tune r.stream = { d.tune r.stream with
      samples := (d.tune r.stream).samples + 1
      manifest := (d.tune r.stream).manifest.filter (fun m => m.1 % r.capacity ≠ c.number % r.capacity) ++
        [(c.number, c.bucket, c.crcBad)] } :=
  tune_modTune (Device.write _ _ _) _ _ hs

/-! ### All samples of a cut -/

/-- A cut changes nothing but memory, its seals and the streams. -/
theorem putAll_eq (r : TuneRec) (l : List CutSample) (d : Device) :
    d.putAll r l = { d with store := (d.putAll r l).store, streams := (d.putAll r l).streams } := by
  induction l generalizing d with
  | nil => rfl
  | cons c l ih => exact ih (d.put r c)

/-- What every put of the list keeps, the puts of the whole list keep. -/
theorem putAll_keeps (r : TuneRec) (P : Device → Prop) (l : List CutSample) (d : Device) (h : P d)
    (hkeep : ∀ (e : Device), ∀ c ∈ l, P e → P (e.put r c)) : P (d.putAll r l) :=
  List.foldlRecOn l _ h fun e he c hc => hkeep e c hc he

theorem putAll_wf (r : TuneRec) (l : List CutSample) (d : Device) (h : Memory.wf d.store.mem = true) :
    Memory.wf (d.putAll r l).store.mem = true :=
  putAll_keeps r (fun e => Memory.wf e.store.mem = true) l d h fun e _ _ he =>
    device_write_wf (e.write _ _) _ _ (device_write_wf e _ _ he)

theorem putAll_treg (r : TuneRec) (l : List CutSample) (d : Device) :
    ((d.putAll r l).strm r.stream).treg = (d.strm r.stream).treg :=
  putAll_keeps r (fun e => (e.strm r.stream).treg = (d.strm r.stream).treg) l d rfl fun _ _ _ he =>
    (treg_modTune (Device.write _ _ _) _ _).trans he

theorem putAll_get_out (r : TuneRec) (l : List CutSample) (d : Device) (a : Nat)
    (hlen : ∀ c ∈ l, c.patches.length ≤ r.slotTiles * tileBytes) (ha : ∀ c ∈ l, ¬ r.owns c.number a) :
    memGet (d.putAll r l).store.mem a = memGet d.store.mem a :=
  putAll_keeps r (fun e => memGet e.store.mem a = memGet d.store.mem a) l d rfl fun e c hc he =>
    (put_get_out e r c a (hlen c hc) (ha c hc)).trans he

theorem putAll_tune (r : TuneRec) (l : List CutSample) (d : Device) (hs : r.stream < 32) :
    (d.putAll r l).tune r.stream = { d.tune r.stream with
      samples := (d.tune r.stream).samples + l.length
      manifest := ((d.putAll r l).tune r.stream).manifest } := by
  induction l generalizing d with
  | nil => rfl
  | cons c l ih =>
    rw [show d.putAll r (c :: l) = (d.put r c).putAll r l from rfl, ih (d.put r c), put_tune d r c hs, List.length_cons,
      Nat.add_comm l.length, Nat.add_assoc]

/-- What a sample's put brings about, and no put of another slot undoes, stands when all are put. -/
theorem putAll_of_mem (r : TuneRec) (P : Device → Prop) (c : CutSample) (l : List CutSample) (d : Device)
    (hset : ∀ d : Device, P (d.put r c))
    (hkeep : ∀ (d : Device), ∀ b ∈ l, b.number % r.capacity ≠ c.number % r.capacity → P d → P (d.put r b))
    (hl : l.Pairwise (fun a b => a.number % r.capacity ≠ b.number % r.capacity)) (hc : c ∈ l) : P (d.putAll r l) := by
  obtain ⟨pre, post, rfl⟩ := List.append_of_mem hc
  have hpost := (List.pairwise_cons.mp (List.pairwise_append.mp hl).2.1).1
  rw [Device.putAll, List.foldl_append, List.foldl_cons]
  exact putAll_keeps r P post _ (hset _) fun e b hb => hkeep e b (by simp [hb]) (hpost b hb).symm

/-! ### The cut -/

theorem cutSamples_length (d : Device) (r : TuneRec) (h : Hold) (bad : List Nat) (q : Nat) :
    (d.cutSamples r h bad q).length = r.boxes := by simp [Device.cutSamples]

theorem cutSamples_patches_le (d : Device) (r : TuneRec) (h : Hold) (bad : List Nat) (q : Nat) :
    ∀ c ∈ d.cutSamples r h bad q, c.patches.length ≤ r.slotTiles * tileBytes := by
  simp only [Device.cutSamples, List.forall_mem_map]
  exact fun k _ => cutPatches_length_le _ _ _ _ _ _

theorem cutSample_mem (d : Device) (r : TuneRec) (h : Hold) (bad : List Nat) (q k : Nat) (hk : k < r.boxes) :
    d.cutSample r h bad q k ∈ d.cutSamples r h bad q :=
  List.mem_map_of_mem (List.mem_range.mpr hk)

theorem cutSample_eq (d : Device) (r : TuneRec) (h : Hold) (bad : List Nat) (q k : Nat) (g : RasterRec)
    (hg : d.image.rasters.find? (fun g => g.stream = r.stream && g.kind = 0) = some g) :
    d.cutSample r h bad q k =
      let box := drawBox r g.width g.height q k
      { number := r.boxes * q + k, bucket := box.1, x := box.2.1, y := box.2.2
        crcBad := bad.any (fun l => decide (box.2.2 ≤ l) && decide (l < box.2.2 + bucketSize box.1))
        patches := d.cutPatches r h box.1 box.2.1 box.2.2 } := by
  have hdims : d.refDims r.stream = (g.width, g.height) := by simp only [Device.refDims, hg]
  simp only [Device.cutSample, hdims]

/-- No more boxes than slots: the samples of one reference take different slots. -/
theorem cutSamples_slots (d : Device) (r : TuneRec) (h : Hold) (bad : List Nat) (q : Nat) (hb : r.boxes ≤ r.capacity) :
    (d.cutSamples r h bad q).Pairwise (fun a b => a.number % r.capacity ≠ b.number % r.capacity) := by
  refine List.pairwise_map.mpr (List.nodup_range.pairwise_of_forall_ne fun j hj k hk hne hmod => hne ?_)
  have hjk : j % r.capacity = k % r.capacity := Nat.ModEq.add_left_cancel' (r.boxes * q) hmod
  have := List.mem_range.mp hj
  have := List.mem_range.mp hk
  rwa [Nat.mod_eq_of_lt (by omega), Nat.mod_eq_of_lt (by omega)] at hjk

/-- Sample `c` stands in the replay buffer and in the manifest. -/
structure Device.HasSample (e : Device) (r : TuneRec) (c : CutSample) : Prop where
  entry : ∀ i < 8, memGet e.store.mem (r.replayBase + 8 * (c.number % r.capacity) + i) =
    (manifestBytes c.number c.bucket c.x c.y c.crcBad).getD i 0
  listed : (c.number, c.bucket, c.crcBad) ∈ (e.tune r.stream).manifest
  slot : ∀ i < c.patches.length, memGet e.store.mem (r.slotAddr c.number + i) = c.patches.getD i 0

theorem putAll_hasSample (d : Device) (r : TuneRec) (h : Hold) (bad : List Nat) (q k : Nat) (hs : r.stream < 32)
    (hk : k < r.boxes) (hb : r.boxes ≤ r.capacity) (hhi : r.capacity ≤ 4096) :
    (d.putAll r (d.cutSamples r h bad q)).HasSample r (d.cutSample r h bad q k) := by
  generalize hc : d.cutSample r h bad q k = c
  have hmem : c ∈ d.cutSamples r h bad q := hc ▸ cutSample_mem d r h bad q k hk
  have hslots := cutSamples_slots d r h bad q hb
  have hlo : 1 ≤ r.capacity := by omega
  have hlen := cutSamples_patches_le d r h bad q
  have hkept (a : Nat) (ha : r.owns c.number a) (v : Byte) (f : Device) (b : CutSample) (hbm : b ∈ d.cutSamples r h bad q)
      (hne : b.number % r.capacity ≠ c.number % r.capacity) (hv : memGet f.store.mem a = v) :
      memGet (f.put r b).store.mem a = v :=
    (put_get_out f r b a (hlen b hbm) (owns_disjoint r _ _ a hlo hhi hne ha)).trans hv
  refine ⟨fun i hi => ?_, ?_, fun i hi => ?_⟩
  · exact putAll_of_mem r (fun f => memGet f.store.mem _ = _) c _ _ (fun f => put_get_manifest f r c i hlo hhi hi)
      (hkept _ (.inl ⟨by omega, by omega⟩) _) hslots hmem
  · refine putAll_of_mem r (fun f => (c.number, c.bucket, c.crcBad) ∈ (f.tune r.stream).manifest) c _ _ (fun f => ?_)
      (fun f b _ hne hin => ?_) hslots hmem
    · simp [put_tune f r c hs]
    · rw [put_tune f r b hs]
      exact List.mem_append_left _ (List.mem_filter.mpr ⟨hin, by simpa using hne.symm⟩)
  · have := hlen c hmem
    exact putAll_of_mem r (fun f => memGet f.store.mem _ = _) c _ _ (fun f => put_get_slot f r c i hi)
      (hkept _ (.inr ⟨by omega, by omega⟩) _) hslots hmem

/-- Whether or not it is performed, a cut changes memory, its seals, the streams and the itinerary unit alone. -/
theorem cut_same (d : Device) (r : TuneRec) (h : Hold) (bad : List Nat) : d.cut r h bad =
    { d with store := (d.cut r h bad).store, streams := (d.cut r h bad).streams, itn := (d.cut r h bad).itn } := by
  cases hc : r.clash (d.tune r.stream) with
  | true =>
    rw [cut_of_clash d r h bad hc]
    rfl
  | false =>
    rw [cut_of_no_clash d r h bad hc, putAll_eq]
    rfl

theorem cut_wf (d : Device) (r : TuneRec) (h : Hold) (bad : List Nat) (hm : Memory.wf d.store.mem = true) :
    Memory.wf (d.cut r h bad).store.mem = true := by
  cases hc : r.clash (d.tune r.stream) with
  | true =>
    rw [cut_of_clash d r h bad hc]
    exact hm
  | false =>
    rw [cut_of_no_clash d r h bad hc]
    exact putAll_wf _ _ _ hm

section
variable (d : Device) (r : TuneRec) (h : Hold) (bad : List Nat) (hc : r.clash (d.tune r.stream) = false)
include hc

theorem cut_itn : (d.cut r h bad).itn = d.itn := by
  rw [cut_of_no_clash d r h bad hc, putAll_eq]
  rfl

theorem cut_tune (hs : r.stream < 32) : (d.cut r h bad).tune r.stream = { d.tune r.stream with
    holds := (d.tune r.stream).holds.filter (fun w => w.slot ≠ h.slot)
    refs := (d.tune r.stream).refs + 1
    samples := (d.tune r.stream).samples + r.boxes
    manifest := ((d.cut r h bad).tune r.stream).manifest } := by
  rw [cut_of_no_clash d r h bad hc, tune_modTreg, tune_modTune _ _ _ hs, putAll_tune _ _ _ hs, cutSamples_length,
    Device.freeHold, tune_modTune _ _ _ hs]

theorem cut_treg (hs : r.stream < 32) : ((d.cut r h bad).strm r.stream).treg =
    { (d.strm r.stream).treg with refsCut := satInc (d.strm r.stream).treg.refsCut } := by
  rw [cut_of_no_clash d r h bad hc, treg_modTreg _ _ _ hs, treg_modTune, putAll_treg, Device.freeHold, treg_modTune]

/-- R409: a cut changes no byte outside the replay buffer. -/
theorem cut_get_out (a : Nat) (hlo : 1 ≤ r.capacity) (hhi : r.capacity ≤ 4096)
    (ha : a < r.replay.addr ∨ r.replay.addr + r.replay.len ≤ a) :
    memGet (d.cut r h bad).store.mem a = memGet d.store.mem a := by
  rw [cut_of_no_clash d r h bad hc]
  refine putAll_get_out r _ _ a (cutSamples_patches_le _ r h bad _) fun c _ hown => ?_
  have := owns_within r c.number a hlo hhi hown
  omega

theorem cut_hasSample (k : Nat) (hs : r.stream < 32) (hk : k < r.boxes) (hb : r.boxes ≤ r.capacity) (hhi : r.capacity ≤ 4096) :
    (d.cut r h bad).HasSample r ((d.freeHold r.stream h).cutSample r h bad (d.tune r.stream).refs k) := by
  obtain ⟨hentry, hlisted, hslot⟩ := putAll_hasSample (d.freeHold r.stream h) r h bad (d.tune r.stream).refs k hs hk hb hhi
  rw [cut_of_no_clash d r h bad hc]
  exact ⟨hentry, by rwa [tune_modTreg, tune_modTune _ _ _ hs], hslot⟩

/-- The slot of a sample begins with the pixels of its box in the reference (Table 9.2). -/
theorem cut_target (k : Nat) (i : InputRec) (g : RasterRec) (hs : r.stream < 32) (hk : k < r.boxes) (hb : r.boxes ≤ r.capacity)
    (hhi : r.capacity ≤ 4096) (hi : d.inputRec r.stream = some i)
    (hg : d.image.rasters.find? (fun g => g.stream = r.stream && g.kind = 0) = some g) (hw : 256 ≤ g.width)
    (hh : 256 ≤ g.height) :
    let box := drawBox r g.width g.height (d.tune r.stream).refs k
    let n := bucketSize box.1
    3 * (n * n) ≤ r.slotTiles * tileBytes → ∀ p < 3, ∀ v < n, ∀ u < n,
      memGet (d.cut r h bad).store.mem (r.slotAddr (r.boxes * (d.tune r.stream).refs + k) + p * (n * n) + v * n + u) =
        memGet d.store.mem (i.refBase + 16384 + p * inputStride (inputPlanes 0x24 0 g.width g.height) +
          (box.2.2 + v) * roundUp g.width 64 + box.2.1 + u) := by
  intro box n hfit p hp v hv u hu
  obtain ⟨hx, hy⟩ := drawBox_inside r g.width g.height (d.tune r.stream).refs k hw hh
  have hslot := (cut_hasSample d r h bad hc k hs hk hb hhi).slot
  have hj : p * (n * n) + v * n + u < 3 * (n * n) := by
    rw [Nat.add_assoc]
    exact index_lt hp (index_lt hv hu)
  obtain ⟨hlt, htarget⟩ := cutPatches_target (d.freeHold r.stream h) r h box.1 box.2.1 box.2.2 i g _ hi hg hj hfit
  rw [cutSample_eq (d.freeHold r.stream h) r h bad _ k g hg] at hslot
  rw [Nat.add_assoc (r.slotAddr _), Nat.add_assoc (r.slotAddr _)]
  exact (hslot _ hlt).trans (htarget.trans
    (targetPatch_getD (d.freeHold r.stream h) i g n box.2.1 box.2.2 p v u (dvd_bucketSize _) hx hy hp hv hu))

end

/-! ### The two commands -/

/-- A command that changes memory, the streams and the itinerary unit alone closes with no further change. -/
theorem settle_of_same (s : State) (t : Nat) (d : Device) (hs : s.Inv)
    (hd : d = { s.dev.atTime t with store := d.store, streams := d.streams, itn := d.itn })
    (hm : Memory.wf d.store.mem = true) : d.settle = d := by
  obtain ⟨-, hfresh, halert⟩ := hs
  refine settle_of_quiet d hm ?_ ?_
  · rw [hd]
    exact hfresh
  · rw [hd]
    exact halert

section
variable (t : Nat) (x : Fin 32) (s : State)

/-- The device of a command of stream `x` at time `t`, once the holds that have expired are freed. -/
def State.expired : Device := (s.dev.atTime t).expireHolds x.val (s.dev.atTime t).now

/-- The earliest hold that has not expired by then (R405). -/
def State.firstHold : Option Hold :=
  (sortBy (fun (a b : Hold) => a.slot < b.slot) (s.dev.liveHolds x.val (max s.dev.now t))).head?

theorem expireHolds_atTime : (s.dev.atTime t).expireHolds x.val (s.dev.atTime t).now = s.expired t x := rfl

theorem expired_eq : s.expired t x =
    ((s.dev.atTime t).modTune x.val (fun z => { z with holds := s.dev.liveHolds x.val (max s.dev.now t) })).modTreg x.val (fun z =>
      { z with refDrops := s.dev.dropsExpired x.val (max s.dev.now t) }) := expireHolds_eq _ _ _

theorem expired_same : s.expired t x = { s.dev.atTime t with streams := (s.expired t x).streams } := by
  rw [expired_eq]
  rfl

theorem expired_tune : (s.expired t x).tune x.val =
    { s.dev.tune x.val with holds := s.dev.liveHolds x.val (max s.dev.now t) } := by
  rw [expired_eq, tune_modTreg, tune_modTune _ _ _ x.isLt]
  rfl

theorem expired_treg : ((s.expired t x).strm x.val).treg =
    { (s.dev.strm x.val).treg with refDrops := s.dev.dropsExpired x.val (max s.dev.now t) } := by
  rw [expired_eq, treg_modTreg _ _ _ x.isLt, treg_modTune]
  rfl

theorem expired_store : (s.expired t x).store = s.dev.store := by
  rw [expired_same]
  rfl

theorem expired_image : (s.expired t x).image = s.dev.image := by
  rw [expired_same]
  rfl

theorem expired_tuneRec : (s.expired t x).tuneRec x.val = s.dev.tuneRec x.val := by
  rw [expired_same]
  rfl

theorem expired_tuning : (s.expired t x).tuning x.val = s.dev.tuning x.val := by
  simp only [Device.tuning, expired_tuneRec, expired_tune]

theorem expired_settle (hs : s.Inv) : (s.expired t x).settle = s.expired t x :=
  settle_of_same s t _ hs (by rw [expired_same]) (by rw [expired_store]; exact hs.1)

/-- R402: the expiry of the holds is all that `holdExpiry` does. -/
theorem exec_holdExpiry (hs : s.Inv) (hrun : s.dev.phase = .running) :
    exec (.holdExpiry t x) s = .next (s.withDev (s.expired t x)) := by
  rw [← expired_settle t x s hs]
  simp only [exec, execHoldExpiry, State.run, Device.whenRunning, Device.atTime_phase, hrun, if_true]
  rfl

/-- R405: the cut waits while the earliest hold is not filled or has no accepted reference. -/
theorem exec_referenceCut_wait (h : Hold) (hs : s.Inv) (hrun : s.dev.phase = .running) (hh : s.firstHold t x = some h)
    (hwait : h.reference = none ∨ h.filled = false) :
    exec (.referenceCut t x) s = .next (s.withDev (s.expired t x)) := by
  obtain ⟨rest, hrest⟩ := List.head?_eq_some_iff.mp hh
  have hholds : ((s.expired t x).tune x.val).holds = s.dev.liveHolds x.val (max s.dev.now t) := by rw [expired_tune]
  rw [← expired_settle t x s hs]
  simp only [exec, execReferenceCut, State.run, Device.whenRunning, Device.atTime_phase, hrun, if_true, expireHolds_atTime, hholds,
    hrest, expired_tuneRec, expired_tuning]
  cases s.dev.tuneRec x.val with
  | none => rfl
  | some r =>
    cases href : h.reference with
    | none =>
      simp only [href]
      rfl
    | some v =>
      have hempty : h.filled = false := hwait.resolve_left (by simp [href])
      simp only [href, hempty, Bool.and_false, Device.guard, Bool.false_eq_true, if_false]
      rfl

/-- R405: a filled hold with an accepted reference is cut. -/
theorem exec_referenceCut_cut (r : TuneRec) (h : Hold) (stamp : Nat) (bad : List Nat) (hs : s.Inv) (hrun : s.dev.phase = .running)
    (hr : s.dev.tuneRec x.val = some r) (ht : s.dev.tuning x.val = true) (hh : s.firstHold t x = some h)
    (href : h.reference = some (stamp, bad)) (hf : h.filled = true) :
    exec (.referenceCut t x) s = .next (s.withDev ((s.expired t x).cut r h bad)) := by
  have hsettle : ((s.expired t x).cut r h bad).settle = (s.expired t x).cut r h bad :=
    settle_of_same s t _ hs (by rw [cut_same, expired_same]) (cut_wf _ _ _ _ (by rw [expired_store]; exact hs.1))
  rw [← hsettle]
  obtain ⟨rest, hrest⟩ := List.head?_eq_some_iff.mp hh
  have hholds : ((s.expired t x).tune x.val).holds = s.dev.liveHolds x.val (max s.dev.now t) := by rw [expired_tune]
  simp only [exec, execReferenceCut, State.run, Device.whenRunning, Device.atTime_phase, hrun, if_true, expireHolds_atTime, hholds,
    hrest, expired_tuneRec, hr, href, expired_tuning, ht, hf]
  rfl

end

theorem tuneRec_stream {d : Device} {x : Nat} {r : TuneRec} (h : d.tuneRec x = some r) : r.stream = x := by
  simpa using List.find?_some h

/-- Settles O49: the command is the expiry of the holds, and then the cut of the earliest hold that is left. -/
theorem referencesCut : Obligations.ReferencesCut := by
  intro t x s hs hrun d y live drops e
  have he : s.expired t x = e := expired_eq t x s
  refine ⟨?_, fun h hh hwait => ?_, ?_⟩
  · rw [← he]
    exact exec_holdExpiry t x s hs hrun
  · rw [← he]
    exact exec_referenceCut_wait t x s h hs hrun hh hwait
  intro r h stamp bad hr ht hh href hf numbers clash
  have hx : r.stream = x.val := tuneRec_stream hr
  have hexec := exec_referenceCut_cut t x s r h stamp bad hs hrun hr ht hh href hf
  have hclash : r.clash ((s.expired t x).tune r.stream) = clash := by
    rw [hx, expired_tune]
    rfl
  refine ⟨fun hc => ?_, fun hc h1 hb hhi => ⟨_, hexec, rfl, ?_⟩⟩
  · rw [hexec, cut_of_clash _ _ _ _ (hclash.trans hc), he, hx]
  replace hc := hclash.trans hc
  have hs32 : r.stream < 32 := hx ▸ x.isLt
  have htune := cut_tune (s.expired t x) r h bad hc hs32
  have htreg := cut_treg (s.expired t x) r h bad hc hs32
  have hout := cut_get_out (s.expired t x) r h bad hc
  have hitn := cut_itn (s.expired t x) r h bad hc
  have hi3c : ((s.expired t x).cut r h bad).i3c = s.dev.i3c := by rw [cut_same, expired_same]; rfl
  rw [hx, expired_tune] at htune
  rw [hx, expired_treg] at htreg
  refine ⟨congrArg Tune.holds htune, congrArg Tune.refs htune, congrArg Tune.samples htune, htreg, ?_, fun a ha => ?_, ?_, hi3c⟩
  · intro g hg k hk n box size crcBad
    have hrefs : ((s.expired t x).tune r.stream).refs = y.refs := by rw [hx, expired_tune]
    have hg' : (s.expired t x).image.rasters.find? (fun g => g.stream = r.stream && g.kind = 0) = some g := by
      rw [expired_image, hx]
      exact hg
    have hsample := cut_hasSample (s.expired t x) r h bad hc k hs32 hk hb hhi
    rw [cutSample_eq ((s.expired t x).freeHold r.stream h) r h bad _ k g hg', hrefs] at hsample
    refine ⟨hsample.entry, hx ▸ hsample.listed, fun i hi hw hh hfit => ?_⟩
    have htarget := cut_target (s.expired t x) r h bad hc k i g hs32 hk hb hhi
      (by rw [Device.inputRec, expired_image, hx]; exact hi) hg' hw hh
    rw [hrefs, expired_store] at htarget
    exact htarget hfit
  · exact (hout a (by omega) hhi (ha _ List.mem_cons_self)).trans (by rw [expired_store])
  · exact hitn.trans (by rw [expired_same]; rfl)

end Sys2Proof.Machine
end

section
/-! SUPPORT. Skips at a deadline and overruns of a budget (R441, R442, R462), and how far the model settles O23. The budget clauses
hold (`budgets_turn_best_effort`). The skip of a launch releases the sets that no list reads any longer (R310), and the release of
a set whose flush job runs lets the job seal as many more tiles as the free value `Config.flushStop` says (log 22). O23 says
that a skip writes its record alone: that holds where the job seals none (`deadlinesAndBudgets_of_flushStop`) and fails where it
seals one (`not_deadlinesAndBudgets_of_flushStop`), and nothing can be proved of the free value. -/
namespace Sys2Proof.Machine

/-! ### Engines by number -/

theorem eng_modEng (d : Device) (e : Nat) (f : Engine → Engine) (h : e < 6) : (d.modEng e f).eng e = f (d.eng e) :=
  vget_vmod_same _ _ _ _ h

/-- A field of the engines that a change of one of them keeps is as it was. -/
theorem eng_modEng_field {α : Type} (p : Engine → α) (d : Device) (e n : Nat) (f : Engine → Engine) (h : ∀ x, p (f x) = p x) :
    p ((d.modEng e f).eng n) = p (d.eng n) := by
  by_cases hn : e = n
  · subst hn
    by_cases he : e < 6
    · rw [eng_modEng d e f he, h]
    · rw [Device.eng, Device.modEng_ne, vmod_out _ _ _ (Nat.not_lt.mp he), ← Device.eng]
  · exact congrArg p (vget_vmod_ne _ _ _ _ _ hn)

/-- What stands still is decided by the lists that run, the vision units and the request alone. -/
theorem still_of_runs (d d' : Device) (h : d.Still) (hrun : ∀ e < 6, (d'.eng e).run = (d.eng e).run) (hvis : d'.vis = d.vis)
    (hreq : d'.req = d.req) : d'.Still := by
  obtain ⟨hlists, hjobs, hwatch⟩ := h
  refine ⟨fun e he r hr => hlists e he r (by rw [← hrun e he, hr]), fun u hu => ?_, by rw [hreq, hwatch]⟩
  rw [Device.unit, hvis]
  exact hjobs u hu

theorem eng_releaseMarks (d : Device) (entry n : Nat) : (d.releaseMarks entry).eng n =
    if (d.eng n).marked = some entry then { d.eng n with marked := none } else d.eng n := by
  unfold Device.releaseMarks Device.eng vget
  rcases h : d.ne[n]? with _ | x
  · simp [h, Engine.reset]
  · simp [h]

@[simp] theorem eng_releaseMarks_run (d : Device) (entry n : Nat) : ((d.releaseMarks entry).eng n).run = (d.eng n).run := by
  rw [eng_releaseMarks]
  split <;> rfl

@[simp] theorem eng_releaseMarks_regs (d : Device) (entry n : Nat) : ((d.releaseMarks entry).eng n).regs = (d.eng n).regs := by
  rw [eng_releaseMarks]
  split <;> rfl

/-! ### Budgets (R442) -/

/-- `d'` is `d` but for what is asked of the engines (R458): their lists run on. -/
structure Device.AskedOnly (d d' : Device) : Prop where
  same : d' = { d with itn := { d.itn with asked := d'.itn.asked }, ne := d'.ne }
  runs : ∀ n, (d'.eng n).run = (d.eng n).run

theorem askedOnly_refl (d : Device) : d.AskedOnly d := ⟨rfl, fun _ => rfl⟩

theorem askedOnly_modItn {d d' : Device} (h : d.AskedOnly d') (l : List (Due × Nat)) :
    d.AskedOnly (d'.modItn (fun i => { i with asked := l })) := by
  obtain ⟨hsame, hruns⟩ := h
  exact ⟨by rw [hsame]; rfl, hruns⟩

theorem askedOnly_modEng {d d' : Device} (h : d.AskedOnly d') (n : Nat) (f : Engine → Engine) (hf : ∀ y, (f y).run = y.run) :
    d.AskedOnly (d'.modEng n f) := by
  obtain ⟨hsame, hruns⟩ := h
  exact ⟨by rw [hsame]; rfl, fun m => (eng_modEng_field Engine.run d' n m f hf).trans (hruns m)⟩

/-- R458: requests of the dues that wait ask engines to give way, and change nothing else. -/
theorem askedOnly_requestAll (d : Device) : d.AskedOnly d.requestAll := by
  unfold Device.requestAll
  split
  · exact askedOnly_refl d
  refine List.foldlRecOn _ _ (askedOnly_refl d) fun d' h x _ => ?_
  split
  · exact h
  split
  · exact h
  split
  · exact h
  rename_i n _
  have hasked := askedOnly_modItn h (d'.itn.asked ++ [(x, n)])
  dsimp only
  split
  · exact hasked
  · exact askedOnly_modEng hasked n _ fun _ => rfl

theorem requestAll_of_lockstep (d : Device) (h : d.ctl.lockstep = true) : d.requestAll = d := if_pos h

/-- Engine `e` with its launch at best-effort class from here on, the overrun counted. -/
def Device.overrun (d : Device) (e : Nat) (r : Run) : Device :=
  (d.modEng e (fun y => { y with run := some { r with bestEffort := true, overrun := true } })).modItn (fun i =>
    { i with overruns := satInc i.overruns })

theorem overrun_eng_run (d : Device) (e : Nat) (r : Run) (he : e < 6) :
    ((d.overrun e r).eng e).run = some { r with bestEffort := true, overrun := true } :=
  congrArg Engine.run (eng_modEng d e _ he)

theorem still_overrun (d : Device) (e : Nat) (r : Run) (h : d.Still) (he : e < 6) (hr : (d.eng e).run = some r) :
    (d.overrun e r).Still := by
  obtain ⟨hlists, hjobs, hwatch⟩ := h
  refine ⟨fun i hi r' hr' => ?_, hjobs, hwatch⟩
  by_cases hie : e = i
  · subst hie
    rw [overrun_eng_run d e r he] at hr'
    cases hr'
    exact hlists e he r hr
  · rw [show (d.overrun e r).eng i = d.eng i from vget_vmod_ne _ _ _ _ _ hie] at hr'
    exact hlists i hi r' hr'

section
variable (t : Nat) (e : Fin 6) (r : Run) (v : Serve) (s : State) (hs : s.Inv) (hstill : s.dev.Still)
  (hphase : s.dev.phase = .running) (hr : (s.dev.eng e.val).run = some r) (hv : s.dev.serveOf r.due = some v)
include hs hstill hphase hr hv

/-- R442: the launch goes on at best-effort class, and the dues that wait ask again. -/
theorem exec_budgetOverrun_spent (hbe : r.bestEffort = false) (hover : r.overrun = false) (hsteps : v.entry.budget * 1024 ≤ r.steps) :
    exec (.budgetOverrun t e) s = .next (s.withDev ((s.dev.atTime t).overrun e.val r).requestAll) := by
  obtain ⟨hmem, hfresh, halert⟩ := hs
  obtain ⟨hsame, hruns⟩ := askedOnly_requestAll ((s.dev.atTime t).overrun e.val r)
  have hstill' : ((s.dev.atTime t).overrun e.val r).requestAll.Still :=
    still_of_runs _ _ (still_overrun (s.dev.atTime t) e.val r hstill e.isLt hr) (fun n _ => hruns n) (by rw [hsame]) (by rw [hsame])
  refine congrArg Host.Outcome.next (runI_eq s t _ _ ?_ hstill' ?_ ?_ ?_)
  · have hv' : (s.dev.atTime t).serveOf r.due = some v := hv
    have hr' : ((s.dev.atTime t).eng e.val).run = some r := hr
    simp [Device.whenRunning, hphase, hr', hv', Device.guard, hbe, hover, hsteps, Device.overrun]
  · rw [hsame]
    exact hmem
  · rw [hsame]
    exact hfresh
  · rw [hsame]
    exact halert

/-- Before the budget is used, and after its overrun, nothing happens. -/
theorem exec_budgetOverrun_rest (h : r.overrun = true ∨ r.steps < v.entry.budget * 1024) :
    exec (.budgetOverrun t e) s = .next (s.withDev (s.dev.atTime t)) := by
  obtain ⟨hmem, hfresh, halert⟩ := hs
  refine congrArg Host.Outcome.next (runI_eq s t _ _ ?_ hstill hmem hfresh halert)
  have hv' : (s.dev.atTime t).serveOf r.due = some v := hv
  have hr' : ((s.dev.atTime t).eng e.val).run = some r := hr
  have hno : (!r.bestEffort && !r.overrun && decide (v.entry.budget * 1024 ≤ r.steps)) = false := by
    rcases h with h | h <;> simp [h]
  simp [Device.whenRunning, hphase, hr', hv', Device.guard, hno]

end

/-- R442, the budget clauses of O23: they hold whatever the free values are. -/
theorem budgets_turn_best_effort (t : Nat) (e : Fin 6) (r : Run) (v : Serve) (s : State) (hs : s.Inv) (hstill : s.dev.Still)
    (hphase : s.dev.phase = .running) (hr : (s.dev.eng e.val).run = some r) (hv : s.dev.serveOf r.due = some v) :
    (r.bestEffort = false → r.overrun = false → v.entry.budget * 1024 ≤ r.steps →
      (∃ s', exec (.budgetOverrun t e) s = .next s' ∧ s'.pending = s.pending ∧
        (s'.dev.eng e.val).run = some { r with bestEffort := true, overrun := true } ∧
        s'.dev.itn = { s.dev.itn with overruns := satInc s.dev.itn.overruns, asked := s'.dev.itn.asked } ∧ s'.dev.store = s.dev.store) ∧
      (s.dev.ctl.lockstep = true → exec (.budgetOverrun t e) s = .next (s.withDev ((s.dev.atTime t).overrun e.val r)))) ∧
    (r.overrun = true ∨ r.steps < v.entry.budget * 1024 → exec (.budgetOverrun t e) s = .next (s.withDev (s.dev.atTime t))) := by
  refine ⟨fun hbe hover hsteps => ?_, exec_budgetOverrun_rest t e r v s hs hstill hphase hr hv⟩
  have hexec := exec_budgetOverrun_spent t e r v s hs hstill hphase hr hv hbe hover hsteps
  obtain ⟨hsame, hruns⟩ := askedOnly_requestAll ((s.dev.atTime t).overrun e.val r)
  refine ⟨⟨_, hexec, rfl, (hruns _).trans (overrun_eng_run _ _ _ e.isLt), ?_, ?_⟩, fun hlock => ?_⟩
  · exact congrArg Device.itn hsame
  · exact (congrArg Device.store hsame).trans rfl
  · rw [hexec, requestAll_of_lockstep ((s.dev.atTime t).overrun e.val r) hlock]

/-! ### Sets released while a flush job runs (R310, R339) -/

/-- A flush job of `d` that is stopped now seals no further tile: none runs, or the free value of its engine says so (log 22). -/
def Device.FlushesRest (d : Device) : Prop :=
  ∀ x ∈ d.rfe.sets, ∀ e done, x.2.flush = some (e, true, done) → Config.flushStop e (d.eng e).steps = 0

theorem flushSome_zero (d : Device) (e done : Nat) (x : SetRec) :
    d.flushSome e 0 done x = { d with rfe := (d.flushSome e 0 done x).rfe } := by
  unfold Device.flushSome
  split <;> rfl

theorem haltFlush_of_rest (d : Device) (x : SetRec)
    (h : ∀ e done, x.2.flush = some (e, true, done) → Config.flushStop e (d.eng e).steps = 0) :
    (d.haltFlush x).2 = { d with rfe := (d.haltFlush x).2.rfe } := by
  unfold Device.haltFlush
  split
  · rename_i e done hf
    rw [h e done hf]
    exact flushSome_zero d e done x
  · rfl

/-- Then the release of sets changes the raster front end alone. -/
theorem releaseSets_of_rest (d : Device) (h : d.FlushesRest) : d.releaseSets = { d with rfe := d.releaseSets.rfe } := by
  refine List.foldlRecOn (motive := fun d' : Device => d' = { d with rfe := d'.rfe }) _ _ rfl fun d' hd' x hx => ?_
  have hrest : (d'.haltFlush x).2 = { d' with rfe := (d'.haltFlush x).2.rfe } :=
    haltFlush_of_rest d' x (by rw [hd']; exact h x (List.mem_filter.mp hx).1)
  show (d'.haltFlush x).2.dropSet (d'.haltFlush x).1 = _
  rw [hrest, hd']
  rfl

/-! ### Skips (R441, R462) -/

theorem dropUnfilled_same (d : Device) (x : Nat) : d.dropUnfilled x = { d with streams := (d.dropUnfilled x).streams } := by
  unfold Device.dropUnfilled
  rw [foldl_refDrop]
  rfl

theorem noteEnd_same (d : Device) (x : Due) (st : Status) :
    d.noteEnd x st = d.modItn (fun i => { i with ended := (d.noteEnd x st).itn.ended }) := by
  unfold Device.noteEnd
  split <;> rfl

@[simp] theorem recordBytes_length (st : Status) (index steps endUs count : Nat) :
    (recordBytes st index steps endUs count).length = 16 := rfl

/-- The end of launch `x` of an engine that never started, noted and with its record written (R173, R692, Table 4.14). -/
def Device.recordSkip (d : Device) (x : Due) (v : Serve) (st : Status) : Device :=
  (d.noteEnd x st).write v.launch.record (recordBytes st 0 0 (d.now / 1000) x.count)

theorem recordSkip_same (d : Device) (x : Due) (v : Serve) (st : Status) : d.recordSkip x v st =
    { d with itn := { d.itn with ended := (d.recordSkip x v st).itn.ended }, store := (d.recordSkip x v st).store } := by
  rw [Device.recordSkip, noteEnd_same]
  rfl

theorem writeRecord_of_engine (d : Device) (x : Due) (v : Serve) (st : Status) (hx : x.shadow = false) (hv : v.entry.target = 0) :
    d.writeRecord x v st 0 0 = d.recordSkip x v st := by
  have hnow : (d.noteEnd x st).now = d.now := by rw [noteEnd_same]; rfl
  simp only [Device.writeRecord, Device.recordSkip, hx, hv, hnow, Bool.false_eq_true, if_false, if_true]

/-- A due bound to no stream leaves nothing uncommitted (R286). -/
theorem missedDue_of_unbound (d : Device) (x : Due) (v : Serve) (excused listed : Bool) (hv : v.bind = none) :
    d.missedDue x v excused listed = d := by
  simp only [Device.missedDue, hv, ite_self]

/-- A due of an engine's entry, bound to no stream, that launches nothing: its end is noted, its record is written, and else
streams and sets alone may change. -/
theorem skipDue_of_unbound (d : Device) (x : Due) (v : Serve) (st : Status) (hx : x.shadow = false) (hv : v.entry.target = 0)
    (hbind : v.bind = none) (hrest : d.FlushesRest) :
    d.skipDue x v st = { d.recordSkip x v st with
      streams := (d.skipDue x v st).streams, rfe := (d.skipDue x v st).rfe } := by
  simp only [Device.skipDue, hx, hv, Bool.false_eq_true, if_false, if_true, writeRecord_of_engine d x v st hx hv,
    missedDue_of_unbound _ x v _ _ hbind]
  have hclose (d' : Device) (hd' : d' = { d.recordSkip x v st with streams := d'.streams }) :
      d'.releaseSets = { d.recordSkip x v st with streams := d'.releaseSets.streams, rfe := d'.releaseSets.rfe } := by
    have hrest' : d'.FlushesRest := by
      rw [hd', recordSkip_same]
      exact hrest
    rw [releaseSets_of_rest d' hrest', hd']
  refine hclose _ ?_
  split
  · exact dropUnfilled_same _ _
  · rfl

/-- The status of a skip: R462 where the credits are short, else R441. -/
def Device.skipStatus (d : Device) (x : Due) (v : Serve) : Status := if d.creditShort x v then .noCredit else .deadlineMiss

/-- `d'` is `d` with the waiting launch `x` skipped: its record is written, and else the itinerary unit, the engines' marks, the
streams and the sets alone differ. -/
structure Device.Skips (d d' : Device) (x : Due) (v : Serve) (st : Status) : Prop where
  same : d' = { d with
    itn := d'.itn, store := (d.write v.launch.record (recordBytes st 0 0 (d.now / 1000) x.count)).store, ne := d'.ne
    streams := d'.streams, rfe := d'.rfe }
  waiting : d'.itn.waiting = d.itn.waiting.filter (· ≠ x)
  counted : d'.itn.deadlineSkips = satInc d.itn.deadlineSkips
  noCredit : d'.itn.noCredit = if st = .noCredit then satInc d.itn.noCredit else d.itn.noCredit
  runs : ∀ n, (d'.eng n).run = (d.eng n).run
  regs : ∀ n, (d'.eng n).regs = (d.eng n).regs

theorem skips_deadlineSkip (d : Device) (x : Due) (v : Serve) (st : Status) (hx : x.shadow = false) (hv : v.entry.target = 0)
    (hbind : v.bind = none) (hrest : d.FlushesRest) : d.Skips (d.deadlineSkip x v st) x v st := by
  unfold Device.deadlineSkip
  extract_lets d₁
  have hskip := skipDue_of_unbound d₁ x v st hx hv hbind hrest
  rw [recordSkip_same] at hskip
  have hstore : (d₁.recordSkip x v st).store = (d.write v.launch.record (recordBytes st 0 0 (d.now / 1000) x.count)).store := by
    rw [Device.recordSkip, noteEnd_same]
    rfl
  rw [hstore] at hskip
  rw [hskip]
  exact ⟨rfl, rfl, rfl, rfl, fun n => eng_releaseMarks_run _ x.entry n, fun n => eng_releaseMarks_regs _ x.entry n⟩

section
variable (t : Nat) (x : Due) (v : Serve) (s : State) (hs : s.Inv) (hstill : s.dev.Still) (hphase : s.dev.phase = .running)
  (honly : s.dev.itn.waiting.filter (fun y => y.entry = x.entry) = [x]) (hv : s.dev.serveOf x = some v)
  (hclass : v.entry.bestEffort = false) (hdeadline : v.entry.deadline ≠ 0)
  (hpast : x.at_ + 1000 * v.entry.deadline ≤ max s.dev.now t) (htarget : v.entry.target = 0) (hbind : v.bind = none)
  (hshadow : x.shadow = false) (hrelaunch : x.relaunch = false)
  (hqueues : ∀ u < 7, ∀ l ∈ (s.dev.unit u).queue, l.due.entry ≠ x.entry)

include hqueues in
/-- No launch of the entry is queued at a vision unit. -/
theorem queued_eq_nil (d : Device) (hvis : d.vis = s.dev.vis) :
    (List.range 7).flatMap (fun u => (d.unit u).queue.filter (fun l => l.due.entry = x.entry)) = [] := by
  refine List.flatMap_eq_nil_iff.mpr fun u hu => List.filter_eq_nil_iff.mpr fun l hl => ?_
  rw [Device.unit, hvis] at hl
  simpa using hqueues u (List.mem_range.mp hu) l hl

include hphase honly hv hclass hdeadline hpast hbind hrelaunch hqueues

/-- The command skips the launch. -/
theorem exec_deadlineSkip_eq_runI
    (hvis : ((s.dev.atTime t).deadlineSkip x v (s.dev.skipStatus x v)).vis = s.dev.vis) :
    exec (.deadlineSkip t x.entry) s = .next (s.runI t fun d => d.deadlineSkip x v (s.dev.skipStatus x v)) := by
  refine congrArg Host.Outcome.next (congrArg (fun d => { s with dev := Device.settle (Device.pump d) }) ?_)
  have hv' : (s.dev.atTime t).serveOf x = some v := hv
  have hcame : (s.dev.atTime t).deadlineCame x v = true := by
    simp [Device.deadlineCame, Serve.critical, hclass, hdeadline, hrelaunch, hpast]
  have hlate := queued_eq_nil x s hqueues _ hvis
  simp only [Device.whenRunning, Device.atTime_phase, hphase, if_true, Device.atTime_itn, honly, List.foldl_cons, List.foldl_nil, hv',
    hcame, Bool.not_true, Bool.false_eq_true, if_false, hbind, reduceCtorEq, false_and]
  exact congrArg (List.foldl _ _) hlate

include hs hstill htarget hshadow in
/-- Where no flush job that stops seals a further tile, the skip is all that changes. -/
theorem exec_deadlineSkip (hrest : s.dev.FlushesRest) : exec (.deadlineSkip t x.entry) s =
    .next (s.withDev ((s.dev.atTime t).deadlineSkip x v (s.dev.skipStatus x v))) := by
  obtain ⟨hmem, hfresh, halert⟩ := hs
  obtain ⟨hsame, -, -, -, hruns, -⟩ :=
    skips_deadlineSkip (s.dev.atTime t) x v (s.dev.skipStatus x v) hshadow htarget hbind hrest
  have hstill' : ((s.dev.atTime t).deadlineSkip x v (s.dev.skipStatus x v)).Still :=
    still_of_runs (s.dev.atTime t) _ hstill (fun n _ => hruns n) (by rw [hsame]) (by rw [hsame])
  rw [exec_deadlineSkip_eq_runI t x v s hphase honly hv hclass hdeadline hpast hbind hrelaunch hqueues (by rw [hsame]; rfl)]
  refine congrArg Host.Outcome.next (runI_eq s t _ _ rfl hstill' ?_ ?_ ?_)
  · rw [hsame]
    exact device_write_wf _ _ _ hmem
  · rw [hsame]
    exact hfresh
  · rw [hsame]
    exact halert

end

/-- Where no flush job that stops seals a further tile, O23 holds. -/
theorem deadlinesAndBudgets_of_flushStop (h : ∀ e n, Config.flushStop e n = 0) : Obligations.DeadlinesAndBudgets := by
  refine ⟨?_, budgets_turn_best_effort⟩
  intro t x v s hs hstill hphase honly hv hclass hdeadline hpast htarget hbind hshadow hrelaunch hqueues st
  have hrest : s.dev.FlushesRest := fun _ _ e _ _ => h e _
  have hexec := exec_deadlineSkip t x v s hs hstill hphase honly hv hclass hdeadline hpast htarget hbind hshadow hrelaunch hqueues hrest
  obtain ⟨hsame, hwaiting, hcounted, hnoCredit, hruns, hregs⟩ := skips_deadlineSkip (s.dev.atTime t) x v st hshadow htarget hbind hrest
  refine ⟨_, hexec, rfl, hwaiting, hcounted, ?_, fun i hi => ?_, fun a ha => ?_, fun n _ => ⟨hruns n, hregs n⟩, ?_, ?_⟩
  · refine hnoCredit.trans ?_
    cases hshort : s.dev.creditShort x v <;> simp [st, hshort]
  · exact (congrArg (fun d : Device => memGet d.store.mem (v.launch.record + i)) hsame).trans
      (device_write_get_in (s.dev.atTime t) _ _ i hi)
  · exact (congrArg (fun d : Device => memGet d.store.mem a) hsame).trans (device_write_get_out (s.dev.atTime t) _ _ a ha)
  · exact (congrArg Device.ctxs hsame).trans rfl
  · exact (congrArg Device.i3c hsame).trans rfl

/-! ### A set released while its flush job runs -/

theorem haltFlush_of_running (d : Device) (x : SetRec) (e done : Nat) (hf : x.2.flush = some (e, true, done)) :
    d.haltFlush x =
      (((d.flushSome e (Config.flushStop e (d.eng e).steps) done x).rfe.sets.find? (sameSet x)).getD x,
        d.flushSome e (Config.flushStop e (d.eng e).steps) done x) := by
  simp only [Device.haltFlush, hf]

/-- A job of one tile that seals a further tile seals that one. -/
theorem flushSome_of_one (d : Device) (e n tile : Nat) (x : SetRec) (r : RasterRec) (hr : d.image.rasters[x.1.recIdx]? = some r)
    (htile : d.flushList r x.1.buf = [tile]) (hn : n ≠ 0) :
    d.flushSome e n 0 x = (d.flushTile e r x.1 tile).putSet (x.1, { x.2 with flush := some (e, true, 1) }) := by
  obtain ⟨k, rfl⟩ := Nat.exists_eq_succ_of_ne_zero hn
  simp [Device.flushSome, hr, htile]

theorem releaseSets_of_one (d : Device) (x : SetRec) (h : d.rfe.sets.filter d.releasable = [x]) :
    d.releaseSets = (d.haltFlush x).2.dropSet (d.haltFlush x).1 := by
  simp only [Device.releaseSets, h, List.foldl_cons, List.foldl_nil]

/-- The due of an entry that is no tuning stream's. -/
theorem skipDue_of_untuned (d : Device) (x : Due) (v : Serve) (st : Status) (hx : x.shadow = false) (hv : v.entry.target = 0)
    (hbind : v.bind = none) (htune : (d.recordSkip x v st).tuneEntry x.entry = none) :
    d.skipDue x v st = (d.recordSkip x v st).releaseSets := by
  simp only [Device.skipDue, hx, hv, Bool.false_eq_true, if_false, if_true, writeRecord_of_engine d x v st hx hv,
    missedDue_of_unbound _ x v _ _ hbind, htune]

namespace SkipWhileFlushing

def entry : Entry :=
  { offset := 100, ctx := 1, bestEffort := false, target := 0, saveOk := false, units := 0b111111, stream := 0, convoy := false,
    bind := 0, slot := 0, group := 0, budget := 1, launch := 0, deadline := 50 }

def serve : Serve :=
  { entry := entry, launch := { addr := 0x40000, record := 0x20000, credits := 0, yieldWait := 10, row0 := 0, rows := 0 }
    bind := none, streams := [0], slot := 0 }

def itin : Itin :=
  { index := 0, lockstep := false, cycleNs := 1000000, groups0 := 1, parts := [], ctxs := [], convoys := [], entries := [entry]
    launches := [serve.launch], marks := [] }

def due : Due :=
  { index := 0, entry := 0, count := 0, at_ := 100000, repro := none, shadow := false, relaunch := false, producer := false
    tile := none, anchors := [] }

def raster : RasterRec :=
  { stream := 1, kind := 0, order := 0, fMax := 2, flushEngine := 0, width := 32, height := 32, binBase := 0, quota := 64
    geoBytes := 0x8000, geoBase := #v[0x200000, 0x208000], flushBase := #v[0x300000, 0x304000] }

/-- An accepted set of stream 1, which no list reads, with a flush job that runs on engine 0 and has taken no tile yet. -/
def geo : SetRec :=
  ({ recIdx := 0, buf := 0, stream := 1, kind := 0, slot := 0, frame := 0, width := 32, height := 32, order := 0, tSpan := 0
     mScale := 0, ndraw := 1, ntri := 0, nvert := 0, phase := .accepted, tail := [], total := 0, draw := none, drawsDone := 0
     vertsDone := 0 },
   { trisDone := 0, drawEnds := [], trailer := none, digest := [], nextTri := 0, nextBlock := 0, partials := 0, denied := false
     incomplete := false, fault := none, flush := some (0, true, 0), flushAt := 0, accepted := true })

/-- Past T0: the due waits, and the head table counts one entry of the set's one tile, whose seal does not agree. -/
def device : Device :=
  { Device.reset [] with
    phase := .running
    store := { (Device.reset []).store with mem := [(wellBase + 8, 1)] }
    image := { Image.none with itins := [itin], rasters := [raster] }
    itn := { Itinerary.reset with t0 := some 0, groupEn := 1, waiting := [due] }
    rfe := { Rfe.reset with sets := [geo] } }

def state : State := { pending := [], dev := device }

/-- The device once the due is skipped, before sets are released. -/
def recorded : Device :=
  ((device.atTime 150000).modItn (fun i =>
    { i with waiting := i.waiting.filter (· ≠ due), deadlineSkips := satInc i.deadlineSkips
             noCredit := if Status.deadlineMiss = .noCredit then satInc i.noCredit else i.noCredit })).recordSkip due serve .deadlineMiss

/-- The device once the job has taken the tile. -/
def flushed : Device := (recorded.flushTile 0 raster geo.1 0).putSet (geo.1, { geo.2 with flush := some (0, true, 1) })

def released : Device := flushed.dropSet ((flushed.rfe.sets.find? (sameSet geo)).getD geo)

def skipped : Device := released.itnFreeChoice.releaseMarks 0

theorem recorded_releaseSets (h : Config.flushStop 0 0 ≠ 0) : recorded.releaseSets = released := by
  have hsteps : (recorded.eng 0).steps = 0 := by decide +kernel
  have hflush : recorded.flushSome 0 (Config.flushStop 0 (recorded.eng 0).steps) 0 geo = flushed :=
    flushSome_of_one recorded 0 _ 0 geo raster (by decide +kernel) (by decide +kernel) (by rwa [hsteps])
  rw [releaseSets_of_one recorded geo (by decide +kernel), haltFlush_of_running recorded geo 0 0 rfl, hflush, released]

theorem deadlineSkip_eq (h : Config.flushStop 0 0 ≠ 0) :
    (device.atTime 150000).deadlineSkip due serve .deadlineMiss = skipped := by
  rw [skipped, ← recorded_releaseSets h, Device.deadlineSkip, skipDue_of_untuned _ _ _ _ rfl rfl rfl (by decide +kernel), ← recorded]
  rfl

/-- The tile's flags after the command: INCOMPLETE, for its reads failed. -/
theorem flags_skipped : memGet skipped.pump.settle.store.mem (wellBase + 12) = 2 := by decide +kernel

theorem state_inv : state.Inv := ⟨rfl, rfl, rfl⟩

theorem device_still : device.Still := by
  have hruns : ∀ e < 6, (device.eng e).run = none := by decide +kernel
  refine ⟨fun e he r hr => ?_, by decide +kernel, rfl⟩
  rw [hruns e he] at hr
  cases hr

end SkipWhileFlushing

open SkipWhileFlushing in
/-- Where a flush job that stops seals a further tile, the release that follows a skip writes memory outside the record, and O23's
first clause fails. -/
theorem not_deadlinesAndBudgets_of_flushStop (h : Config.flushStop 0 0 ≠ 0) : ¬ Obligations.DeadlinesAndBudgets := by
  rintro ⟨hskip, -⟩
  have hpast : due.at_ + 1000 * serve.entry.deadline ≤ max state.dev.now 150000 := by decide
  have hqueues : ∀ u < 7, ∀ l ∈ (state.dev.unit u).queue, l.due.entry ≠ due.entry := by decide +kernel
  obtain ⟨s', hexec, -, -, -, -, -, hout, -⟩ := hskip 150000 due serve state state_inv device_still rfl rfl rfl rfl (by decide) hpast
    rfl rfl rfl rfl hqueues
  have hstatus : state.dev.skipStatus due serve = .deadlineMiss := by decide +kernel
  have heq : (state.dev.atTime 150000).deadlineSkip due serve (state.dev.skipStatus due serve) = skipped := by
    rw [hstatus]
    exact deadlineSkip_eq h
  have hvis : skipped.vis = state.dev.vis := by decide +kernel
  rw [exec_deadlineSkip_eq_runI 150000 due serve state rfl rfl rfl rfl (by decide) hpast rfl rfl hqueues (by rw [heq, hvis])] at hexec
  cases hexec
  have hsame := hout (wellBase + 12) (.inr (by decide))
  rw [State.runI_dev, heq, flags_skipped] at hsame
  exact absurd hsame (by decide +kernel)

end Sys2Proof.Machine
end

section
/-! SUPPORT. Replay (R499, R500, R547): a packet record that arrives is held or meets the input path at once, a held one is released
or stays, and how far the model settles O15. With T0 fixed, the four cases are as O15 says (`exec_replayRecordArrival_held`,
`exec_replayRecordArrival_late`, `exec_replayedPacketRelease_met`, `exec_replayedPacketRelease_stays`). Its clause on late records does
not ask for T0: on a device that runs without one, which `State.Inv` and `Device.Still` allow, the model counts release times from the
present instant, so no record is late, while O15 counts them from the instant before the command
(`not_replayHoldsAndReleases`). -/
namespace Sys2Proof.Machine

/-! ### Commands that change the recorder alone -/

/-- Between two commands, a change of the recorder alone satisfies no wait, raises no event and drives no pin. -/
theorem modRec_pump_settle (s : State) (t : Nat) (f : Recorder → Recorder) (hs : s.Inv) (hstill : s.dev.Still) :
    ((s.dev.atTime t).modRec f).pump.settle = (s.dev.atTime t).modRec f := by
  obtain ⟨hmem, hfresh, halert⟩ := hs
  have hstill' : ((s.dev.atTime t).modRec f).Still := (still_congr s.dev _ rfl rfl rfl).mpr hstill
  rw [pump_of_still _ hstill', settle_of_quiet ((s.dev.atTime t).modRec f) hmem hfresh halert]

theorem atTime_pump_settle (s : State) (t : Nat) (hs : s.Inv) (hstill : s.dev.Still) :
    (s.dev.atTime t).pump.settle = s.dev.atTime t :=
  modRec_pump_settle s t id hs hstill

/-! ### Release times -/

theorem t0_atTime (d : Device) (t : Nat) (ht0 : d.itn.t0.isSome = true) : (d.atTime t).t0 = d.t0 := by
  obtain ⟨t0, h⟩ := Option.isSome_iff_exists.mp ht0
  simp [Device.t0, h]

theorem releaseAt_atTime (d : Device) (t : Nat) (x : ReplayRec) (ht0 : d.itn.t0.isSome = true) :
    (d.atTime t).releaseAt x = d.releaseAt x := by
  rw [Device.releaseAt, Device.releaseAt, t0_atTime d t ht0]

theorem replayStamp_atTime (d : Device) (t : Nat) (x : ReplayRec) (ht0 : d.itn.t0.isSome = true) :
    (d.atTime t).replayStamp x = d.replayStamp x := by
  rw [Device.replayStamp, Device.replayStamp, t0_atTime d t ht0]

/-- Without T0 a release time is counted from the present instant, so it is never past. -/
theorem not_released_of_no_t0 (d : Device) (x : ReplayRec) (ht0 : d.itn.t0 = none) : ¬ d.releaseAt x < d.now := by
  simp [Device.releaseAt, Device.t0, ht0]

/-! ### The replay ring -/

/-- No held packet of its stream goes before it (R499). -/
def Device.LeadsStream (d : Device) (x : ReplayRec) : Prop :=
  ∀ y ∈ d.recorder.replay, y.stream = x.stream → x.index ≤ y.index

theorem replayFirst_iff (d : Device) (x : ReplayRec) : d.replayFirst x = true ↔ d.LeadsStream x := by
  simp [Device.replayFirst, Device.LeadsStream]

def Device.holdReplay (d : Device) (x : ReplayRec) (bytes : Nat) : Device :=
  d.modRec (fun r => { r with replay := r.replay ++ [x], replayUsed := r.replayUsed + bytes })

/-- The packet leaves the replay ring with its record's 28 bytes around the body (Table 12.12). -/
def Device.dropReplay (d : Device) (x : ReplayRec) : Device :=
  d.modRec (fun r =>
    { r with replay := r.replay.filter (fun y => y.seq ≠ x.seq), replayUsed := r.replayUsed - (28 + x.body.length) })

/-- One more packet in CTL_REPLAY_LATE, which is a free choice of the control block too. -/
def Device.countReplayLate (d : Device) : Device :=
  { d with ctl := { d.ctl with replayLate := satInc d.ctl.replayLate, controlFree := satInc d.ctl.controlFree } }

/-- The recorded packet meets the input path with the stamp given. -/
def Device.inputReplayed (d : Device) (x : ReplayRec) (stamp : Nat) : Device :=
  d.packetIn (Fin.ofNat 24 x.lane) stamp (d.replayPacket x).1 (d.replayPacket x).2

/-- R500: a packet that arrived after its release time is counted, and either way it meets the input path. -/
theorem meetReplayed_of_whole (d : Device) (x : ReplayRec) (hlane : x.lane < 24) (hbody : 4 ≤ x.body.length) :
    d.meetReplayed x = Device.inputReplayed (if d.releaseAt x < x.arrived then d.countReplayLate else d) x (d.replayStamp x) := by
  by_cases hlate : d.releaseAt x < x.arrived
  · simp only [Device.meetReplayed, hlate, hlane, hbody, and_self, if_true]
    rfl
  · simp only [Device.meetReplayed, hlate, hlane, hbody, and_self, if_true, if_false]
    rfl

/-! ### A record arrives -/

/-- The packet record that the bytes of Table 12.12 give, as the replay ring holds it. -/
def packetRecord (b : List Byte) (arrived : Nat) : ReplayRec :=
  { lane := field b 1 1, stream := field b 2 1, flags := b.getD 3 0, index := field b 4 4, stamp := sfield b 8 8,
    seq := field b 20 4, body := (b.drop 24).take (field b 16 4), arrived := arrived }

/-- R500: at the packet's arrival its release time is past and no packet of its stream goes first. -/
def Device.Overdue (d : Device) (x : ReplayRec) : Prop :=
  d.phase = .running ∧ d.releaseAt x < x.arrived ∧ d.LeadsStream x

theorem overdue_atTime (d : Device) (t : Nat) (x : ReplayRec) (ht0 : d.itn.t0.isSome = true) :
    (d.atTime t).Overdue x ↔ d.Overdue x := by
  rw [Device.Overdue, releaseAt_atTime d t x ht0]
  rfl

section
variable (d : Device) (b : List Byte) (hkind : field b 0 1 = 0) (hroom : d.recorder.replayUsed + b.length ≤ d.image.recBytes)
include hkind hroom

theorem takeRecord_of_not_overdue (h : ¬ d.Overdue (packetRecord b d.now)) :
    d.takeRecord b = d.holdReplay (packetRecord b d.now) b.length := by
  rw [Device.Overdue, ← replayFirst_iff] at h
  simp only [Device.takeRecord, Nat.not_lt.mpr hroom, if_false, hkind]
  exact if_neg h

theorem takeRecord_of_overdue (h : d.Overdue (packetRecord b d.now)) :
    d.takeRecord b = d.meetReplayed (packetRecord b d.now) := by
  rw [Device.Overdue, ← replayFirst_iff] at h
  simp only [Device.takeRecord, Nat.not_lt.mpr hroom, if_false, hkind]
  exact if_pos h

end

section
variable (t : Nat) (l : Fin 24) (b : List Byte) (s : State) (hphase : s.dev.phase = .running ∨ s.dev.phase = .awaitChips)
  (hreplay : s.dev.ctl.replay = true) (hactive : (s.dev.rxLane l.val).state = .active) (hrole : (s.dev.rxLane l.val).role = 0x41)
  (hwhole : replayWhole b = true)
include hphase hreplay hactive hrole hwhole

theorem exec_replayRecordArrival : exec (.replayRecordArrival t l b) s =
    .next (s.withDev ((s.dev.atTime t).takeRecord b).pump.settle) := by
  have hlane : (s.dev.atTime t).rxLane l.val = s.dev.rxLane l.val := rfl
  refine congrArg (fun d : Device => Host.Outcome.next (s.withDev d.pump.settle)) ?_
  simp [Device.whenLocked, Device.guard, hphase, hlane, hreplay, hactive, hrole, hwhole]

variable (hkind : field b 0 1 = 0) (hroom : s.dev.recorder.replayUsed + b.length ≤ s.dev.image.recBytes)
include hkind hroom

/-- R547: a packet that is not overdue is held with its instant of arrival, and nothing else changes. -/
theorem exec_replayRecordArrival_held (hs : s.Inv) (hstill : s.dev.Still)
    (h : ¬ (s.dev.atTime t).Overdue (packetRecord b (max s.dev.now t))) : exec (.replayRecordArrival t l b) s =
      .next (s.withDev ((s.dev.atTime t).holdReplay (packetRecord b (max s.dev.now t)) b.length)) := by
  rw [exec_replayRecordArrival t l b s hphase hreplay hactive hrole hwhole, takeRecord_of_not_overdue (s.dev.atTime t) b hkind hroom h]
  exact congrArg (fun d => Host.Outcome.next (s.withDev d)) (modRec_pump_settle s t _ hs hstill)

/-- R500: an overdue packet is counted and meets the input path on arrival, with its recorded stamp. -/
theorem exec_replayRecordArrival_late (ht0 : s.dev.itn.t0.isSome = true)
    (h : s.dev.Overdue (packetRecord b (max s.dev.now t))) (hlane : field b 1 1 < 24)
    (hbody : 4 ≤ (packetRecord b (max s.dev.now t)).body.length) : exec (.replayRecordArrival t l b) s =
      .next (s.withDev (((s.dev.atTime t).countReplayLate.inputReplayed (packetRecord b (max s.dev.now t))
        (s.dev.replayStamp (packetRecord b (max s.dev.now t)))).pump.settle)) := by
  have hover := (overdue_atTime s.dev t _ ht0).mpr h
  rw [exec_replayRecordArrival t l b s hphase hreplay hactive hrole hwhole,
    takeRecord_of_overdue (s.dev.atTime t) b hkind hroom hover, Device.atTime_now, meetReplayed_of_whole _ _ hlane hbody,
    if_pos hover.2.1, replayStamp_atTime _ _ _ ht0]

end

/-! ### A held packet is released -/

section
variable (t : Nat) (x : ReplayRec) (s : State) (hrun : s.dev.phase = .running) (hreplay : s.dev.ctl.replay = true)
  (hheld : s.dev.recorder.replay.find? (fun y => y.seq = x.seq) = some x) (ht0 : s.dev.itn.t0.isSome = true)
include hrun hreplay hheld ht0

/-- R499, R500: at its release time the first packet of its stream leaves the replay ring for the input path, counted where it had
not arrived in time. -/
theorem exec_replayedPacketRelease_met (hlane : x.lane < 24) (hbody : 4 ≤ x.body.length) (hfirst : s.dev.LeadsStream x)
    (hdue : s.dev.releaseAt x ≤ max s.dev.now t) : exec (.replayedPacketRelease t x.seq) s =
      .next (s.withDev ((Device.inputReplayed (if s.dev.releaseAt x < x.arrived then ((s.dev.atTime t).dropReplay x).countReplayLate
        else (s.dev.atTime t).dropReplay x) x (s.dev.replayStamp x)).pump.settle)) := by
  have hat : (s.dev.atTime t).releaseAt x = s.dev.releaseAt x := releaseAt_atTime _ _ _ ht0
  have hmeet := meetReplayed_of_whole ((s.dev.atTime t).dropReplay x) x hlane hbody
  have hgone : ((s.dev.atTime t).dropReplay x).releaseAt x = s.dev.releaseAt x := hat
  have hstamp : ((s.dev.atTime t).dropReplay x).replayStamp x = s.dev.replayStamp x := replayStamp_atTime _ _ _ ht0
  rw [hgone, hstamp] at hmeet
  rw [← hmeet]
  have hfirst' : (s.dev.atTime t).replayFirst x = true := (replayFirst_iff _ x).mpr hfirst
  refine congrArg (fun d : Device => Host.Outcome.next (s.withDev d.pump.settle)) ?_
  simp only [Device.whenRunning, Device.atTime_phase, hrun, if_true, Device.atTime_recorder, hheld, Device.atTime_ctl, hreplay,
    hfirst', hat, Device.atTime_now, hdue, decide_true, Bool.and_self, Device.guard]
  rfl

/-- R499: before its release time, or behind an earlier packet of its stream, a packet stays held. -/
theorem exec_replayedPacketRelease_stays (hs : s.Inv) (hstill : s.dev.Still)
    (h : ¬ s.dev.LeadsStream x ∨ max s.dev.now t < s.dev.releaseAt x) :
    exec (.replayedPacketRelease t x.seq) s = .next (s.withDev (s.dev.atTime t)) := by
  have hat : (s.dev.atTime t).releaseAt x = s.dev.releaseAt x := releaseAt_atTime _ _ _ ht0
  have hguard : ((s.dev.atTime t).replayFirst x && decide (s.dev.releaseAt x ≤ max s.dev.now t)) = false := by
    rcases h with hbehind | hearly
    · rw [Bool.eq_false_iff.mpr fun hfirst => hbehind ((replayFirst_iff (s.dev.atTime t) x).mp hfirst), Bool.false_and]
    · simp [Nat.not_le.mpr hearly]
  refine congrArg (fun d : Device => Host.Outcome.next (s.withDev d)) (Eq.trans ?_ (atTime_pump_settle s t hs hstill))
  refine congrArg (fun d : Device => d.pump.settle) ?_
  simp only [Device.whenRunning, Device.atTime_phase, hrun, if_true, Device.atTime_recorder, hheld, Device.atTime_ctl, hreplay,
    hat, Device.atTime_now, Bool.true_and, hguard, Device.guard, Bool.false_eq_true, if_false]

end

/-! ### A record that arrives without T0 -/

namespace ReplayWithoutT0

/-- A packet record of lane 3: a Frame Start, stamped T0. -/
def record : List Byte :=
  let head : List Byte := [0, 3, 0, 0] ++ leBytes 4 0 ++ leBytes 8 0 ++ leBytes 4 4 ++ leBytes 4 0 ++ [0, 0, 0, 0]
  head ++ leBytes 4 (crc32 head).toNat

/-- A device that runs without T0, at instant 0, with an empty replay ring and lane 20 active for replay. -/
def device : Device :=
  ({ Device.reset [] with
    phase := .running
    image := { Image.none with recBytes := 64 }
    ctl := { Ctl.reset with replay := true } } : Device).modRx 20 (fun y => { y with state := .active, role := 0x41 })

def state : State := { pending := [], dev := device }

theorem state_inv : state.Inv := ⟨rfl, rfl, rfl⟩

theorem device_still : device.Still := by
  have hruns : ∀ e < 6, (device.eng e).run = none := by decide +kernel
  refine ⟨fun e he r hr => ?_, by decide +kernel, rfl⟩
  rw [hruns e he] at hr
  cases hr

theorem record_whole : replayWhole record = true := by decide +kernel

theorem record_room : device.recorder.replayUsed + record.length ≤ device.image.recBytes := by decide +kernel

/-- At instant 100 the device holds the record and counts nothing. -/
theorem exec_record : exec (.replayRecordArrival 100 20 record) state =
    .next (state.withDev ((device.atTime 100).holdReplay (packetRecord record 100) record.length)) :=
  exec_replayRecordArrival_held 100 20 record state (.inl rfl) rfl (by decide +kernel) (by decide +kernel) record_whole
    (by decide +kernel) record_room state_inv device_still fun h => not_released_of_no_t0 (device.atTime 100) _ rfl h.2.1

end ReplayWithoutT0

open ReplayWithoutT0 in
/-- Refutes O15: on a device that runs without T0, a record of stamp 0 that arrives at instant 100 is late by the statement, which
counts from instant 0, the last one before the command; the model counts from instant 100 and holds it, so that CTL_REPLAY_LATE
stays 0. -/
theorem not_replayHoldsAndReleases : ¬ Obligations.ReplayHoldsAndReleases := by
  rintro ⟨harrives, -⟩
  obtain ⟨-, hlate⟩ := harrives 100 20 record state state_inv device_still (.inl rfl) rfl (by decide +kernel) (by decide +kernel)
    record_whole (by decide +kernel) record_room
  have hexec := hlate ⟨rfl, by decide +kernel, fun y hy => nomatch hy⟩ (by decide +kernel) (by decide +kernel)
  rw [exec_record] at hexec
  have hcounts := congrArg (fun s' : State => s'.dev.ctl.replayLate) (Host.Outcome.next.inj hexec)
  exact absurd hcounts (by decide +kernel)

end Sys2Proof.Machine
end

section
/-! SUPPORT. The scrubber, the decay of error scores and the reloads of image-backed tiles (R606, R617, R618, R620). -/
namespace Sys2Proof.Machine

/-! ### Commands that raise no event and satisfy no wait -/

/-- What holds of a device between two commands while nothing in it waits: a command that ends so closes with no further change. -/
structure Device.Calm (d : Device) : Prop where
  still : d.Still
  mem : Memory.wf d.store.mem = true
  fresh : d.i3c.fresh = []
  alert : d.pins.alertLow = d.alert

theorem calm_atTime (s : State) (t : Nat) (hs : s.Inv) (hstill : s.dev.Still) : (s.dev.atTime t).Calm := by
  obtain ⟨hmem, hfresh, halert⟩ := hs
  exact ⟨hstill, hmem, hfresh, halert⟩

theorem calm_pump_settle {d : Device} (h : d.Calm) : d.pump.settle = d := by
  rw [pump_of_still d h.still, settle_of_quiet d h.mem h.fresh h.alert]

theorem calm_modSealSt {d : Device} (h : d.Calm) (f : SealState → SealState) : (d.modSealSt f).Calm := by
  obtain ⟨hstill, hmem, hfresh, halert⟩ := h
  exact ⟨hstill, hmem, hfresh, halert⟩

theorem calm_chargeDevice {d : Device} (h : d.Calm) (u : Use) : (d.chargeDevice u).Calm := by
  obtain ⟨hstill, hmem, hfresh, halert⟩ := h
  exact ⟨hstill, hmem, hfresh, halert⟩

theorem runI_whenRunning (s : State) (t : Nat) (f : Device → Device) (h : s.dev.phase = .running) :
    s.runI t (fun d => d.whenRunning f) = s.withDev (f (s.dev.atTime t)).pump.settle := by
  simp only [State.runI, State.run, State.withDev, Device.whenRunning, Device.atTime_phase, h, if_true]

/-- No engine in service stands at its retirement threshold. -/
def Device.BelowThreshold (d : Device) : Prop := ∀ i < 6, (d.eng i).retired = true ∨ (d.eng i).score < d.sealSt.retireThresh

/-- R621: below the threshold no engine retires. -/
theorem retireCheck_of_below (d : Device) (h : d.BelowThreshold) : d.retireCheck = d := by
  refine List.foldlRecOn (motive := fun d' : Device => d' = d) _ _ rfl fun d' hd' i hi => ?_
  subst hd'
  refine if_neg ?_
  rcases h i (List.mem_range.mp hi) with hret | hlow
  · simp [hret]
  · simp [Nat.not_le.mpr hlow]

/-- R682: one event that its mask lets through joins a queue with room. -/
theorem flush_of_one (r : I3c) (now : Nat) (ev : Event) (a b c : Nat) (hfresh : r.fresh = [(ev, a, b, c)])
    (hmask : r.mask.getLsbD (eventCode ev - 0x10) = true) (hroom : r.queue.length < 32) :
    r.flush now = { r with
      seq := (r.seq + 1) % 256, fresh := []
      queue := eventsInOrder now (r.queue ++
        [{ event := ev, seq := r.seq % 256, arg0 := a, arg1 := b, arg2 := c, at_ := some now }]) } := by
  simp [I3c.flush, hfresh, sortBy, insertBy, I3c.post, hmask, hroom]

theorem settle_queue_of_one (d : Device) (ev : Event) (a b c : Nat) (hfresh : d.i3c.fresh = [(ev, a, b, c)])
    (hmask : d.i3c.mask.getLsbD (eventCode ev - 0x10) = true) (hroom : d.i3c.queue.length < 32) :
    d.settle.i3c.queue = eventsInOrder d.now (d.i3c.queue ++
      [{ event := ev, seq := d.i3c.seq % 256, arg0 := a, arg1 := b, arg2 := c, at_ := some d.now }]) :=
  congrArg I3c.queue (flush_of_one d.i3c d.now ev a b c hfresh hmask hroom)

theorem settle_queue_of_quiet (d : Device) (h : d.i3c.fresh = []) : d.settle.i3c.queue = d.i3c.queue :=
  congrArg I3c.queue (flush_of_quiet d.i3c d.now h)

theorem settle_store_of_wf (d : Device) (h : Memory.wf d.store.mem = true) : d.settle.store = d.store := store_close_of_wf _ h

/-! ### The scrubber (R617, R618) -/

/-- The place of the scrubber after the check of the tile at `x`: the next tile, or tile 0 at the end of a pass. -/
def SealState.scrubNext (x y : SealState) : SealState :=
  if x.scrubPos + 1 < scrubTiles then { y with scrubPos := x.scrubPos + 1 }
  else { y with scrubPos := 0, scrubPasses := satInc y.scrubPasses }

/-- The next check is due. -/
def Device.ScrubDue (d : Device) : Prop :=
  d.sealSt.scrubEn = true ∧ d.t0 + 760000 * (d.sealSt.scrubPasses * scrubTiles + d.sealSt.scrubPos) ≤ d.now

theorem domainOf_dram (k : Nat) (h : k < scrubTiles) : domainOf (k * tileBytes) = 0 := by
  have hlt : k * tileBytes < dramEnd := by
    simp only [scrubTiles, tileBytes, dramEnd] at *
    omega
  simp only [domainOf, regionOf, hlt, if_true]

theorem gen_countFail (d : Device) (dom dom' : Nat) : (d.countFail dom).sealRegs.gen dom' = d.sealRegs.gen dom' := by
  simp only [Device.countFail, Device.modSeal]
  split
  · rfl
  split <;> rfl

theorem sealed_countFail (d : Device) (dom tile : Nat) : (d.countFail dom).sealed tile = d.sealed tile := by
  rw [Device.sealed, gen_countFail]
  rfl

theorem sealed_chargeDevice (d : Device) (u : Use) (tile : Nat) : (d.chargeDevice u).sealed tile = d.sealed tile := rfl

theorem sealed_failAgain (d : Device) (tile tile' : Nat) : (d.failAgain tile).sealed tile' = d.sealed tile' := rfl

/-- A tile that passes is charged, and that is all. -/
theorem scrubTile_of_passes (d : Device) (tile : Nat) (h : d.passes tile = true) :
    d.scrubTile tile = d.chargeDevice { dram := tileBytes } :=
  if_pos h

/-- R618: a tile outside the image-backed ranges whose seal disagrees is read twice, and left failing. -/
theorem scrubTile_of_unsealed (d : Device) (tile : Nat) (hseal : d.sealed tile = false)
    (hranges : d.image.ranges.any (fun r => r.imageBacked && r.holds tile) = false) :
    d.scrubTile tile = (((((d.chargeDevice { dram := tileBytes }).failAgain tile).countFail (domainOf tile)).chargeDevice
      { dram := tileBytes }).scrubFail tile) := by
  have hpasses : (d.chargeDevice { dram := tileBytes }).passes tile = false := by
    rw [Device.passes, sealed_chargeDevice, hseal, Bool.and_false]
  have hagain : ((((d.chargeDevice { dram := tileBytes }).failAgain tile).countFail (domainOf tile)).chargeDevice
      { dram := tileBytes }).sealed tile = false := by
    rw [sealed_chargeDevice, sealed_countFail, sealed_failAgain, sealed_chargeDevice, hseal]
  simp only [Device.scrubTile, hpasses, hagain, Bool.false_eq_true, if_false]
  exact if_neg (Bool.eq_false_iff.mp hranges)

section
variable (t : Nat) (s : State) (hrun : s.dev.phase = .running)
include hrun

theorem exec_scrubCheck_of_due (hdue : (s.dev.atTime t).ScrubDue) : exec (.scrubCheck t) s = .next (s.withDev
    (((s.dev.atTime t).scrubTile (s.dev.sealSt.scrubPos * tileBytes)).modSealSt s.dev.sealSt.scrubNext).pump.settle) := by
  refine congrArg Host.Outcome.next ((runI_whenRunning s t _ hrun).trans ?_)
  obtain ⟨hen, htime⟩ := hdue
  have hguard : ((s.dev.atTime t).sealSt.scrubEn && decide ((s.dev.atTime t).t0 + 760000 *
      ((s.dev.atTime t).sealSt.scrubPasses * scrubTiles + (s.dev.atTime t).sealSt.scrubPos) ≤ (s.dev.atTime t).now)) = true := by
    simp only [hen, htime, decide_true, Bool.and_self]
  simp only [Device.guard, hguard, if_true]
  rfl

theorem exec_scrubCheck_of_early (hs : s.Inv) (hstill : s.dev.Still) (hdue : ¬ (s.dev.atTime t).ScrubDue) :
    exec (.scrubCheck t) s = .next (s.withDev (s.dev.atTime t)) := by
  refine congrArg Host.Outcome.next ((runI_whenRunning s t _ hrun).trans ?_)
  have hguard : ((s.dev.atTime t).sealSt.scrubEn && decide ((s.dev.atTime t).t0 + 760000 *
      ((s.dev.atTime t).sealSt.scrubPasses * scrubTiles + (s.dev.atTime t).sealSt.scrubPos) ≤ (s.dev.atTime t).now)) = false :=
    Bool.eq_false_iff.mpr fun h => hdue <| by
      obtain ⟨hen, htime⟩ := Bool.and_eq_true_iff.mp h
      exact ⟨hen, of_decide_eq_true htime⟩
  simp only [Device.guard, hguard, Bool.false_eq_true, if_false, calm_pump_settle (calm_atTime s t hs hstill)]

/-- R617: the check of a tile that passes. -/
theorem exec_scrubCheck_of_passes (hs : s.Inv) (hstill : s.dev.Still) (hdue : (s.dev.atTime t).ScrubDue)
    (hpasses : s.dev.passes (s.dev.sealSt.scrubPos * tileBytes) = true) : exec (.scrubCheck t) s =
      .next (s.withDev (((s.dev.atTime t).chargeDevice { dram := tileBytes }).modSealSt s.dev.sealSt.scrubNext)) := by
  rw [exec_scrubCheck_of_due t s hrun hdue, scrubTile_of_passes (s.dev.atTime t) _ hpasses,
    calm_pump_settle (calm_modSealSt (calm_chargeDevice (calm_atTime s t hs hstill) _) _)]

end

/-- `d` once the scrubber has found a tile of stack DRAM failing and moves on as `f` says. -/
def Device.scrubFailed (d : Device) (tile : Nat) (f : SealState → SealState) : Device :=
  (((((d.chargeDevice { dram := tileBytes }).failAgain tile).countFail 0).chargeDevice { dram := tileBytes }).scrubFail tile).modSealSt f

section
variable (d : Device) (tile : Nat) (f : SealState → SealState)

theorem scrubFailed_store : (d.scrubFailed tile f).store = { d.store with glitches := (d.scrubFailed tile f).store.glitches } := rfl

theorem scrubFailed_sealSt : (d.scrubFailed tile f).sealSt = f { d.sealSt with scrubFails := satInc d.sealSt.scrubFails } := rfl

theorem scrubFailed_failsDram : (d.scrubFailed tile f).sealRegs.failsDram = satInc d.sealRegs.failsDram := rfl

/-- A failing check changes meters, counters and the list of reads that fail once, and raises an event. -/
theorem scrubFailed_same : d.scrubFailed tile f = { d with
    toll := (d.scrubFailed tile f).toll, sealRegs := (d.scrubFailed tile f).sealRegs, sealSt := (d.scrubFailed tile f).sealSt
    i3c := (d.scrubFailed tile f).i3c
    store := { d.store with glitches := (d.scrubFailed tile f).store.glitches } } := by
  simp only [Device.scrubFailed, Device.scrubFail, Device.lastFail, Device.countFail, Device.failAgain, Device.chargeDevice,
    Device.modSeal, Device.modSealSt, Device.event]

theorem still_scrubFailed (h : d.Still) : (d.scrubFailed tile f).Still := by
  rw [scrubFailed_same]
  exact h

/-- Event 0x13 with ARG1 1 (R618). -/
theorem scrubFailed_i3c : (d.scrubFailed tile f).i3c =
    { d.i3c with fresh := d.i3c.fresh ++ [(.sealFailure, domainOf tile % 256, 1, tile / tileBytes % 2 ^ 32)] } := rfl

/-! What the close of the command leaves of it. -/

theorem settle_scrubFailed_store (hwf : Memory.wf d.store.mem = true) :
    (d.scrubFailed tile f).settle.store = { d.store with glitches := (d.scrubFailed tile f).store.glitches } :=
  (settle_store_of_wf _ (by rwa [scrubFailed_store])).trans (scrubFailed_store d tile f)

theorem settle_scrubFailed_sealSt :
    (d.scrubFailed tile f).settle.sealSt = f { d.sealSt with scrubFails := satInc d.sealSt.scrubFails } :=
  scrubFailed_sealSt d tile f

theorem settle_scrubFailed_failsDram :
    (d.scrubFailed tile f).settle.sealRegs.failsDram = satInc d.sealRegs.failsDram :=
  scrubFailed_failsDram d tile f

theorem settle_scrubFailed_queue (hfresh : d.i3c.fresh = []) (hdom : domainOf tile = 0) (hk : tile / tileBytes < 2 ^ 32)
    (hmask : d.i3c.mask.getLsbD 3 = true) (hroom : d.i3c.queue.length < 32) :
    (d.scrubFailed tile f).settle.i3c.queue = eventsInOrder d.now (d.i3c.queue ++ [{
      event := .sealFailure, seq := d.i3c.seq % 256, arg0 := 0, arg1 := 1, arg2 := tile / tileBytes, at_ := some d.now }]) := by
  have hnow : (d.scrubFailed tile f).now = d.now := by rw [scrubFailed_same]
  have hi3c : (d.scrubFailed tile f).i3c = { d.i3c with fresh := [(.sealFailure, 0, 1, tile / tileBytes)] } := by
    rw [scrubFailed_i3c, hfresh, hdom, Nat.mod_eq_of_lt hk]
    rfl
  have hqueue := settle_queue_of_one (d.scrubFailed tile f) .sealFailure 0 1 (tile / tileBytes) (by rw [hi3c])
    (by rw [hi3c]; exact hmask) (by rw [hi3c]; exact hroom)
  rw [hqueue, hnow, hi3c]

end

/-- R618: the check of a tile of stack DRAM, in no image-backed range, whose seal disagrees. -/
theorem exec_scrubCheck_of_unsealed (t : Nat) (s : State) (hrun : s.dev.phase = .running) (hstill : s.dev.Still)
    (hdue : (s.dev.atTime t).ScrubDue) (hk : s.dev.sealSt.scrubPos < scrubTiles)
    (hseal : s.dev.sealed (s.dev.sealSt.scrubPos * tileBytes) = false)
    (hranges : s.dev.image.ranges.any (fun r => r.imageBacked && r.holds (s.dev.sealSt.scrubPos * tileBytes)) = false) :
    exec (.scrubCheck t) s =
      .next (s.withDev ((s.dev.atTime t).scrubFailed (s.dev.sealSt.scrubPos * tileBytes) s.dev.sealSt.scrubNext).settle) := by
  rw [exec_scrubCheck_of_due t s hrun hdue, scrubTile_of_unsealed (s.dev.atTime t) _ hseal hranges, domainOf_dram _ hk]
  exact congrArg (fun d : Device => Host.Outcome.next (s.withDev d.settle))
    (pump_of_still _ (still_scrubFailed (s.dev.atTime t) _ _ hstill))

/-! ### The decay of scores (R620) -/

/-- Every score above 0 falls by 1. -/
def Device.decay (d : Device) : Device :=
  { d with
    sealSt := { d.sealSt with decays := d.sealSt.decays + 1 }
    ne := d.ne.map (fun y => { y with score := y.score - 1 }) }

theorem decay_eng_run (d : Device) (e : Nat) : (d.decay.eng e).run = (d.eng e).run := by
  unfold Device.decay Device.eng vget
  rcases h : d.ne[e]? with _ | x
  · simp [h]
  · simp [h]

theorem calm_decay {d : Device} (h : d.Calm) : d.decay.Calm := by
  obtain ⟨hstill, hmem, hfresh, halert⟩ := h
  exact ⟨still_of_runs d _ hstill (fun e _ => decay_eng_run d e) rfl rfl, hmem, hfresh, halert⟩

section
variable (t : Nat) (s : State) (hs : s.Inv) (hstill : s.dev.Still) (hrun : s.dev.phase = .running)
include hs hstill hrun

theorem exec_errorScoreDecay_of_due
    (hdue : (s.dev.atTime t).t0 + 60000000000 * (s.dev.sealSt.decays + 1) ≤ (s.dev.atTime t).now) :
    exec (.errorScoreDecay t) s = .next (s.withDev (s.dev.atTime t).decay) := by
  refine congrArg Host.Outcome.next ((runI_whenRunning s t _ hrun).trans ?_)
  simp only [Device.guard, Device.atTime_sealSt, hdue, decide_true, if_true]
  exact congrArg s.withDev (calm_pump_settle (calm_decay (calm_atTime s t hs hstill)))

theorem exec_errorScoreDecay_of_early
    (hearly : (s.dev.atTime t).now < (s.dev.atTime t).t0 + 60000000000 * (s.dev.sealSt.decays + 1)) :
    exec (.errorScoreDecay t) s = .next (s.withDev (s.dev.atTime t)) := by
  refine congrArg Host.Outcome.next ((runI_whenRunning s t _ hrun).trans ?_)
  simp only [Device.guard, Device.atTime_sealSt, Nat.not_le.mpr hearly, decide_false, Bool.false_eq_true, if_false]
  exact congrArg s.withDev (calm_pump_settle (calm_atTime s t hs hstill))

end

/-! ### Reloads (R606) -/

theorem repeated_same (d : Device) : d.repeated = { d with ctl := d.repeated.ctl } := by
  unfold Device.repeated
  split <;> rfl

/-- A reload is counted, and repeats the read (R486). -/
def Device.countReload (d : Device) : Device := (d.modSeal (fun r => { r with recomputes := satInc r.recomputes })).repeated

theorem countReload_same (d : Device) : d.countReload =
    { d with sealRegs := { d.sealRegs with recomputes := satInc d.sealRegs.recomputes }, ctl := d.countReload.ctl } := by
  rw [Device.countReload, repeated_same]
  rfl

/-- The bytes that the NOR holds for a tile of an image-backed range. -/
def Device.backing (d : Device) (r : RangeRec) (tile : Nat) : List Byte :=
  d.norRead (norImage + r.norOffset + (tile - r.base)) tileBytes

/-- The seal of those bytes in the tile's domain. -/
def Device.backingSeal (d : Device) (r : RangeRec) (tile : Nat) : BitVec 64 :=
  let sum := sealShare tile (memListed tile (d.backing r tile))
  sealPack (tile / tileBytes + sum.1) (d.sealRegs.gen (domainOf tile) + sum.2)

section
variable (d : Device) (tile : Nat)

theorem reload_of_no_range (h : d.image.ranges.find? (fun r => r.holds tile && r.imageBacked) = none) :
    d.reload tile = (false, d) := by
  simp only [Device.reload, h]

variable (r : RangeRec) (h : d.image.ranges.find? (fun r => r.holds tile && r.imageBacked) = some r)
include h

theorem reload_of_seal_ne (hseal : d.backingSeal r tile ≠ sealGet d.store tile) : d.reload tile = (false, d.countReload) := by
  have hstore : d.countReload.store = d.store := (congrArg Device.store (countReload_same d)).trans rfl
  simp only [Device.reload, h]
  refine if_neg ?_
  show d.backingSeal r tile ≠ sealGet d.countReload.store tile
  rwa [hstore]

theorem reload_of_seal_eq (hseal : d.backingSeal r tile = sealGet d.store tile) : d.reload tile =
    (true, { d.countReload with store := { d.store with mem := memPut d.store.mem tile (d.backing r tile) } }) := by
  have hstore : d.countReload.store = d.store := (congrArg Device.store (countReload_same d)).trans rfl
  simp only [Device.reload, h]
  refine (if_pos ?_).trans ?_
  · show d.backingSeal r tile = sealGet d.countReload.store tile
    rwa [hstore]
  · rw [← hstore]
    rfl

end

theorem reload_of_range (d : Device) (tile : Nat) (r : RangeRec)
    (h : d.image.ranges.find? (fun r => r.holds tile && r.imageBacked) = some r) :
    d.reload tile = (false, d.countReload) ∨ d.reload tile =
      (true, { d.countReload with store := { d.store with mem := memPut d.store.mem tile (d.backing r tile) } }) := by
  by_cases hseal : d.backingSeal r tile = sealGet d.store tile
  · exact .inr (reload_of_seal_eq d tile r h hseal)
  · exact .inl (reload_of_seal_ne d tile r h hseal)

/-- A reload changes the tile's bytes and two counters, and nothing else. -/
theorem reload_same (d : Device) (tile : Nat) : (d.reload tile).2 =
    { d with sealRegs := (d.reload tile).2.sealRegs, ctl := (d.reload tile).2.ctl, store := (d.reload tile).2.store } := by
  cases h : d.image.ranges.find? (fun r => r.holds tile && r.imageBacked) with
  | none =>
    rw [reload_of_no_range d tile h]
  | some r =>
    rcases reload_of_range d tile r h with hr | hr <;> rw [hr, countReload_same]

theorem reload_wf (d : Device) (tile : Nat) (hm : Memory.wf d.store.mem = true) :
    Memory.wf (d.reload tile).2.store.mem = true := by
  cases h : d.image.ranges.find? (fun r => r.holds tile && r.imageBacked) with
  | none =>
    rw [reload_of_no_range d tile h]
    exact hm
  | some r =>
    rcases reload_of_range d tile r h with hr | hr
    · rw [hr, countReload_same]
      exact hm
    · rw [hr]
      exact memPut_wf _ _ _ hm

/-- R606: a reload that writes has found an image-backed range that holds the tile, and brings the NOR's bytes. -/
theorem reload_written (d : Device) (tile : Nat) (hw : (d.reload tile).1 = true) :
    ∃ r ∈ d.image.ranges, r.holds tile = true ∧ r.imageBacked = true ∧
      (d.reload tile).2.store.mem = memPut d.store.mem tile (d.backing r tile) := by
  cases h : d.image.ranges.find? (fun r => r.holds tile && r.imageBacked) with
  | none => simp [reload_of_no_range d tile h] at hw
  | some r =>
    obtain ⟨hholds, hbacked⟩ := Bool.and_eq_true_iff.mp (List.find?_some (p := fun r : RangeRec => r.holds tile && r.imageBacked) h)
    refine ⟨r, List.mem_of_find?_eq_some h, hholds, hbacked, ?_⟩
    rcases reload_of_range d tile r h with hr | hr
    · simp [hr] at hw
    · rw [hr]

theorem calm_reload {d : Device} (h : d.Calm) (tile : Nat) : (d.reload tile).2.Calm := by
  obtain ⟨hstill, hmem, hfresh, halert⟩ := h
  have hwf := reload_wf d tile hmem
  rw [reload_same] at hwf ⊢
  exact ⟨hstill, hwf, hfresh, halert⟩

@[simp] theorem backing_length (d : Device) (r : RangeRec) (tile : Nat) : (d.backing r tile).length = tileBytes := by
  simp only [Device.backing, Device.norRead, List.length_map, List.length_range]

@[simp] theorem memGetN_length (mem : List (Nat × Byte)) (a n : Nat) : (memGetN mem a n).length = n := by
  simp only [memGetN, List.length_map, List.length_range]

/-- Read after write, of the whole run. -/
theorem memGetN_memPut (m : List (Nat × Byte)) (a : Nat) (bs : List Byte) : memGetN (memPut m a bs) a bs.length = bs := by
  refine List.ext_getElem (memGetN_length _ _ _) fun i hi hi' => ?_
  have hread := (memGetN_getD (memPut m a bs) a bs.length i hi').trans (memGet_memPut_in m a bs i hi')
  rwa [List.getD_eq_getElem _ _ hi, List.getD_eq_getElem _ _ hi'] at hread

/-! ### A reload completes (R606, R618) -/

/-- The wait for the tile at `tile` is over. -/
def SealState.endReload (tile : Nat) (y : SealState) : SealState :=
  { y with reloads := y.reloads.filter (fun z => z.1 ≠ tile) }

/-- One more repair of the scrubber, when it was the scrubber that waited. -/
def SealState.countRepair (scrub : Bool) (y : SealState) : SealState :=
  { y with scrubRepairs := if scrub then satInc y.scrubRepairs else y.scrubRepairs }

theorem afterReload_of_passes (d : Device) (tile : Nat) (u : Option Nat) (scrub : Bool) (h : d.passes tile = true) :
    d.afterReload tile u scrub = d.modSealSt (SealState.countRepair scrub) := by
  have hseal : d.sealed tile = true := (Bool.and_eq_true_iff.mp h).2
  cases scrub with
  | true => exact if_pos hseal
  | false => exact if_pos h

section
variable (t tile : Nat) (s : State) (hs : s.Inv) (hstill : s.dev.Still) (hrun : s.dev.phase = .running)
include hs hstill hrun

theorem exec_tileReloadComplete_of_none (h : ∀ y ∈ s.dev.sealSt.reloads, y.1 ≠ tile) :
    exec (.tileReloadComplete t tile) s = .next (s.withDev (s.dev.atTime t)) := by
  refine congrArg Host.Outcome.next ((runI_whenRunning s t _ hrun).trans ?_)
  have hmine : s.dev.sealSt.reloads.filter (fun x => x.1 = tile) = [] := List.filter_eq_nil_iff.mpr (by simpa using h)
  simp only [Device.guard, Device.atTime_sealSt, hmine, List.isEmpty_nil, Bool.not_true, Bool.false_eq_true, if_false,
    calm_pump_settle (calm_atTime s t hs hstill)]

theorem exec_tileReloadComplete_of_one (u : Option Nat) (scrub : Bool)
    (hone : s.dev.sealSt.reloads.filter (fun y => y.1 = tile) = [(tile, u, scrub)])
    (hbelow : s.dev.BelowThreshold)
    (hpasses : (((s.dev.atTime t).modSealSt (SealState.endReload tile)).reload tile).2.passes tile = true) :
    exec (.tileReloadComplete t tile) s = .next (s.withDev
      ((((s.dev.atTime t).modSealSt (SealState.endReload tile)).reload tile).2.modSealSt (SealState.countRepair scrub))) := by
  refine congrArg Host.Outcome.next ((runI_whenRunning s t _ hrun).trans (congrArg s.withDev ?_))
  have hcalm := calm_reload (calm_modSealSt (calm_atTime s t hs hstill) (SealState.endReload tile)) tile
  have hsame := reload_same ((s.dev.atTime t).modSealSt (SealState.endReload tile)) tile
  simp only [Device.guard, Device.atTime_sealSt, hone, List.isEmpty_cons, Bool.not_false, if_true, List.foldl_cons, List.foldl_nil]
  refine (congrArg (fun d : Device => d.retireCheck.pump.settle) (afterReload_of_passes _ tile u scrub hpasses)).trans ?_
  rw [retireCheck_of_below, calm_pump_settle (calm_modSealSt hcalm _)]
  rw [hsame]
  exact hbelow

end

/-- Settles O45: one lemma per outcome of each command; the tile that fails is read off the device that the close leaves. -/
theorem scrubReloadDecay : Obligations.ScrubReloadDecay := by
  refine ⟨fun t s hs hstill hrun => ?_, fun t tile s hs hstill hrun => ⟨?_, ?_⟩⟩
  · refine ⟨exec_scrubCheck_of_early t s hrun hs hstill, exec_scrubCheck_of_passes t s hrun hs hstill,
      fun hdue hk hseal hranges hmask hroom => ⟨_, exec_scrubCheck_of_unsealed t s hrun hstill hdue hk hseal hranges, rfl, ?_⟩,
      exec_errorScoreDecay_of_due t s hs hstill hrun, exec_errorScoreDecay_of_early t s hs hstill hrun⟩
    obtain ⟨hwf, hfresh, -⟩ := hs
    have htile : s.dev.sealSt.scrubPos * tileBytes / tileBytes = s.dev.sealSt.scrubPos := Nat.mul_div_cancel _ (by decide)
    have hsame := scrubFailed_same (s.dev.atTime t) (s.dev.sealSt.scrubPos * tileBytes) s.dev.sealSt.scrubNext
    have hstore := settle_scrubFailed_store (s.dev.atTime t) (s.dev.sealSt.scrubPos * tileBytes) s.dev.sealSt.scrubNext hwf
    have hqueue := settle_scrubFailed_queue (s.dev.atTime t) (s.dev.sealSt.scrubPos * tileBytes) s.dev.sealSt.scrubNext hfresh
      (domainOf_dram _ hk) (by rw [htile]; exact hk.trans (by decide)) hmask hroom
    rw [htile] at hqueue
    exact ⟨settle_scrubFailed_failsDram _ _ _, settle_scrubFailed_sealSt _ _ _, hqueue,
      (congrArg Store.mem hstore).trans rfl, (congrArg Store.seals hstore).trans rfl, (congrArg Device.ne hsame).trans rfl,
      (congrArg Device.itn hsame).trans rfl⟩
  · exact exec_tileReloadComplete_of_none t tile s hs hstill hrun
  intro u scrub hone hbelow out hpasses
  refine ⟨exec_tileReloadComplete_of_one t tile s hs hstill hrun u scrub hone hbelow hpasses, fun hw => ?_⟩
  obtain ⟨r, hr, hholds, hbacked, hmem⟩ := reload_written _ tile hw
  refine ⟨r, hr, hholds, hbacked, ?_, fun a ha => ?_⟩
  · have hread := memGetN_memPut s.dev.store.mem tile (s.dev.backing r tile)
    rw [backing_length] at hread
    exact (congrArg (fun m => memGetN m tile tileBytes) hmem).trans hread
  · rw [hmem]
    exact memGet_memPut_out _ _ _ a (by rwa [backing_length])

end Sys2Proof.Machine
end

section
/-! SUPPORT. How the launch of an entry bound to no slot ends (R173, R174), and the comparison of a launch with its shadow (R614,
R615). -/
namespace Sys2Proof.Machine

/-! ### The end of a launch bound to no slot -/

/-- `d'` is `d` but for what the end of a launch settles beside its record and its engine: accounting, semaphores, notes of the
itinerary unit, credits, contexts, signatures, reloads and marks. -/
structure Device.Settles (d d' : Device) : Prop where
  same : d' = { d with
    toll := { d.toll with acct := d'.toll.acct }, well := d'.well
    itn := { d.itn with ended := d'.itn.ended, lateEnds := d'.itn.lateEnds }
    ots := d'.ots, parts := d'.parts, ctxs := d'.ctxs
    sealSt := { d.sealSt with sigs := d'.sealSt.sigs, reloads := d'.sealSt.reloads }, ne := d'.ne }
  engines : ∀ n, d'.eng n = { d.eng n with marked := (d'.eng n).marked }

theorem settles_refl (d : Device) : d.Settles d := ⟨rfl, fun _ => rfl⟩

theorem Device.Settles.trans {d d' d'' : Device} (h : d.Settles d') (h' : d'.Settles d'') : d.Settles d'' := by
  obtain ⟨hsame, heng⟩ := h
  obtain ⟨hsame', heng'⟩ := h'
  refine ⟨?_, fun n => ?_⟩
  · rw [hsame', hsame]
  · rw [heng' n, heng n]

theorem settles_bookTime (d : Device) (r : Run) : d.Settles (d.bookTime r) := ⟨rfl, fun _ => rfl⟩

theorem settles_withdrawSems (d : Device) (e : Nat) : d.Settles (d.withdrawSems e) := ⟨rfl, fun _ => rfl⟩

theorem settles_reloads (d : Device) (f : List (Nat × Option Nat × Bool) → List (Nat × Option Nat × Bool)) :
    d.Settles (d.modSealSt (fun x => { x with reloads := f x.reloads })) := ⟨rfl, fun _ => rfl⟩

theorem settles_sigs (d : Device) (f : List ShadowSig → List ShadowSig) :
    d.Settles (d.modSealSt (fun x => { x with sigs := f x.sigs })) := ⟨rfl, fun _ => rfl⟩

theorem settles_noteEnd (d : Device) (x : Due) (st : Status) : d.Settles (d.noteEnd x st) := by
  rw [noteEnd_same]
  exact ⟨rfl, fun _ => rfl⟩

theorem settles_countLate (d : Device) (x : Due) (v : Serve) : d.Settles (d.countLate x v) := by
  unfold Device.countLate
  split
  · exact ⟨rfl, fun _ => rfl⟩
  · exact settles_refl d

theorem settles_returnCredits (d : Device) (r : Run) : d.Settles (d.returnCredits r) := ⟨rfl, fun _ => rfl⟩

theorem settles_creditsBack (d : Device) (r : Run) : d.Settles (if r.credits = 0 then d else d.returnCredits r) := by
  split
  · exact settles_refl d
  · exact settles_returnCredits d r

theorem settles_dropSems (d : Device) (c : Nat) : d.Settles (d.dropSems c) := ⟨rfl, fun _ => rfl⟩

theorem settles_settleCtx (d : Device) (c : Nat) : d.Settles (d.settleCtx c) := ⟨rfl, fun _ => rfl⟩

theorem settles_releaseMarks (d : Device) (entry : Nat) : d.Settles (d.releaseMarks entry) := by
  refine ⟨rfl, fun n => ?_⟩
  rw [eng_releaseMarks]
  split <;> rfl

theorem settles_write {d d' : Device} (h : d.Settles d') (a : Nat) (bs : List Byte) : (d.write a bs).Settles (d'.write a bs) := by
  obtain ⟨hsame, heng⟩ := h
  refine ⟨?_, heng⟩
  rw [hsame]
  rfl

/-- Engine `e` is free, its list `r` ended with a status (R174). -/
def Device.freeEngine (d : Device) (e : Nat) (r : Run) (st : Status) : Device :=
  d.modEng e (fun x =>
    { x with
      run := none, pre := .idle, request := none, slice := none, moving := none,
      regs := { x.regs with lastStatus := word (statusCode st + r.ctx * 256 + r.lastStarted % 2 ^ 16 * 2 ^ 16) } })

theorem freeEngine_eng (d : Device) (e : Nat) (r : Run) (st : Status) (he : e < 6) : (d.freeEngine e r st).eng e =
    { d.eng e with
      run := none, pre := .idle, request := none, slice := none, moving := none,
      regs := { (d.eng e).regs with lastStatus := word (statusCode st + r.ctx * 256 + r.lastStarted % 2 ^ 16 * 2 ^ 16) } } :=
  eng_modEng d e _ he

/-- Once the only list has ended, nothing waits. -/
theorem still_freeEngine (d : Device) (e : Fin 6) (r : Run) (st : Status) (h : d.Alone e.val) : (d.freeEngine e.val r st).Still := by
  obtain ⟨hothers, hjobs, hwatch⟩ := h
  refine ⟨fun i hi q hq => ?_, hjobs, hwatch⟩
  by_cases hie : e.val = i
  · subst hie
    rw [freeEngine_eng d e.val r st hi] at hq
    cases hq
  · rw [show (d.freeEngine e.val r st).eng i = d.eng i from vget_vmod_ne _ _ _ _ _ hie, hothers i hi (Ne.symm hie)] at hq
    cases hq

theorem belowThreshold_freeEngine (d : Device) (e : Nat) (r : Run) (st : Status) (h : d.BelowThreshold) :
    (d.freeEngine e r st).BelowThreshold := by
  intro i hi
  rw [show ((d.freeEngine e r st).eng i).retired = (d.eng i).retired from eng_modEng_field Engine.retired d e i _ fun _ => rfl,
    show ((d.freeEngine e r st).eng i).score = (d.eng i).score from eng_modEng_field Engine.score d e i _ fun _ => rfl]
  exact h i hi

theorem settles_freeEngine {d d' : Device} (h : d.Settles d') (e : Nat) (r : Run) (st : Status) :
    (d.freeEngine e r st).Settles (d'.freeEngine e r st) := by
  obtain ⟨hsame, heng⟩ := h
  refine ⟨?_, fun n => ?_⟩
  · rw [hsame]
    rfl
  · by_cases hn : e = n
    · subst hn
      by_cases he : e < 6
      · simp only [Device.freeEngine, eng_modEng _ _ _ he]
        rw [heng]
      · have hout (c : Device) (f : Engine → Engine) : c.modEng e f = c := by
          simp only [Device.modEng, vmod_out _ _ _ (Nat.not_lt.mp he)]
        rw [Device.freeEngine, Device.freeEngine, hout, hout]
        exact heng e
    · have hother (c : Device) : (c.freeEngine e r st).eng n = c.eng n := vget_vmod_ne _ _ _ _ _ hn
      rw [hother, hother]
      exact heng n

/-- The list `r` is that of an entry bound to no slot, is no tuning entry's, no compositor's, no shadow's and no relaunch's, and no
geometry set stands. -/
structure Device.UnboundRun (d : Device) (r : Run) (v : Serve) : Prop where
  serve : d.serveOf r.due = some v
  target : v.entry.target = 0
  bind : v.bind = none
  tune : d.tuneEntry r.due.entry = none
  comp : d.isCompositor r.ctx = false
  shadow : r.due.shadow = false
  relaunch : r.due.relaunch = false
  sets : d.rfe.sets = []

/-- What a list serves is decided by the image, the active itinerary and the geometry sets alone. -/
theorem Device.UnboundRun.congr {d d' : Device} {r : Run} {v : Serve} (h : d.UnboundRun r v) (himage : d'.image = d.image)
    (hactive : d'.itn.active = d.itn.active) (hsets : d'.rfe = d.rfe) : d'.UnboundRun r v := by
  have hitin (i : Nat) : d'.itinOf i = d.itinOf i := by rw [Device.itinOf, himage, Device.itinOf]
  have hact : d'.active = d.active := by rw [Device.active, hitin, hactive, Device.active]
  have hperiod (x : Nat) : d'.period x = d.period x := by
    simp only [Device.period, Device.profileOf, Device.portRec, himage]
  have hcycle : d'.cycleNs = d.cycleNs := by simp only [Device.cycleNs, hact]
  have hslots (x : Nat) : d'.slotsPerCycle x = d.slotsPerCycle x := by
    rw [Device.slotsPerCycle, hperiod, hcycle, Device.slotsPerCycle]
  refine ⟨?_, h.target, h.bind, ?_, ?_, h.shadow, h.relaunch, ?_⟩
  · rw [← h.serve]
    simp only [Device.serveOf, hitin, Device.slotOf, hslots]
  · rw [← h.tune, Device.tuneEntry, himage, Device.tuneEntry]
  · rw [← h.comp]
    simp only [Device.isCompositor, Device.ctxRec, hact]
  · rw [hsets, h.sets]

theorem Device.UnboundRun.settles {d d' : Device} {r : Run} {v : Serve} (h : d.UnboundRun r v) (hd : d.Settles d') :
    d'.UnboundRun r v :=
  h.congr (by rw [hd.same]) (by rw [hd.same]) (by rw [hd.same])

theorem releaseSets_of_none (d : Device) (h : d.rfe.sets = []) : d.releaseSets = d := by
  simp only [Device.releaseSets, h, List.filter_nil, List.foldl_nil]

theorem Device.Settles.calm {d d' : Device} (h : d.Settles d') (hd : d.Calm) : d'.Calm := by
  obtain ⟨hstill, hmem, hfresh, halert⟩ := hd
  obtain ⟨hsame, heng⟩ := h
  have hstill' : d'.Still := still_of_runs d d' hstill (fun n _ => by rw [heng n]) (by rw [hsame]) (by rw [hsame])
  rw [hsame] at hstill' ⊢
  exact ⟨hstill', hmem, hfresh, halert⟩

theorem Device.Settles.belowThreshold {d d' : Device} (h : d.Settles d') (hd : d.BelowThreshold) : d'.BelowThreshold := by
  intro i hi
  have hthresh : d'.sealSt.retireThresh = d.sealSt.retireThresh := by rw [h.same]
  rw [h.engines i, hthresh]
  exact hd i hi

theorem settles_releaseSets {d d' : Device} (h : d.Settles d') (hsets : d.rfe.sets = []) : d.Settles d'.releaseSets := by
  rw [releaseSets_of_none d' (by rw [h.same]; exact hsets)]
  exact h

/-- The record of the list `r`, ended with status `st` (Table 4.14). -/
def Device.recordEnd (d : Device) (r : Run) (v : Serve) (st : Status) : Device :=
  d.write v.launch.record (recordBytes st r.lastStarted r.steps (d.now / 1000) r.due.count)

section
variable (d : Device) (e : Nat) (r : Run) (v : Serve) (st : Status) (excused : Bool) (h : d.UnboundRun r v)
include h

theorem commitRun_of_unbound : d.commitRun e r v st = d := by
  simp only [Device.commitRun, h.bind, h.tune, h.comp, Bool.false_eq_true, if_false]

theorem abandonRun_of_unbound : d.abandonRun r v excused = d := by
  simp only [Device.abandonRun, h.bind, h.tune]

theorem writeRecord_of_unbound (index steps : Nat) : d.writeRecord r.due v st index steps =
    (d.noteEnd r.due st).write v.launch.record (recordBytes st index steps (d.now / 1000) r.due.count) := by
  have hnow : (d.noteEnd r.due st).now = d.now := by rw [noteEnd_same]; rfl
  simp only [Device.writeRecord, h.shadow, h.target, hnow, Bool.false_eq_true, if_false, if_true]

/-- The launch's record is written, and beside it only what every end settles changes. -/
theorem settles_endLaunch : (d.recordEnd r v st).Settles (d.endLaunch e r st excused) := by
  have hnoted := settles_write (settles_noteEnd d r.due st) v.launch.record
    (recordBytes st r.lastStarted r.steps (d.now / 1000) r.due.count)
  have hrec := (h.settles (settles_noteEnd d r.due st)).congr (d' := (d.noteEnd r.due st).write v.launch.record
      (recordBytes st r.lastStarted r.steps (d.now / 1000) r.due.count)) rfl rfl rfl
  simp only [Device.endLaunch, h.serve, h.shadow, Bool.false_eq_true, if_false, writeRecord_of_unbound d r v st h,
    commitRun_of_unbound _ e r v st hrec, abandonRun_of_unbound _ r v excused hrec, ite_self,
    Device.endRelaunch, h.relaunch, Bool.not_false, if_true]
  refine settles_releaseSets (d := d.recordEnd r v st) ?_ h.sets
  refine Device.Settles.trans (Device.Settles.trans ?_ (settles_dropSems _ _))
    ((settles_settleCtx _ _).trans (settles_releaseMarks _ _))
  refine Device.Settles.trans ?_ ((settles_countLate _ _ _).trans (settles_creditsBack _ r))
  split
  · exact hnoted
  split
  · exact hnoted
  · exact hnoted.trans (settles_sigs _ (· ++ [ShadowSig.of e r]))

/-- Its list ended, the engine is free and the record stands. -/
theorem settles_endRun (hr : (d.eng e).run = some r) :
    ((d.freeEngine e r st).recordEnd r v st).Settles (d.endRun e st excused) := by
  have hbooked := ((settles_bookTime d r).trans (settles_withdrawSems _ e)).trans
    (settles_reloads _ (fun l => l.filter (fun y => y.2.1 ≠ some e)))
  have hfree := settles_freeEngine hbooked e r st
  simp only [Device.endRun, hr]
  exact (settles_write hfree _ _).trans (settles_endLaunch _ e r v st excused
    ((h.congr (d' := d.freeEngine e r st) rfl rfl rfl).settles hfree))

/-- R607: without a slot nothing takes the place of a list that fails. -/
theorem fallback_of_unbound (hr : (d.eng e).run = some r) : d.fallback e st = d.endRun e st := by
  simp only [Device.fallback, hr, h.serve, Device.inPlace, h.bind, reduceCtorEq, if_false, ite_self]

end

/-! ### Slots that degrade (R40, R685) -/

theorem slot_n (x : Stream) (n : Nat) : (x.slot n).n = n := by
  unfold Stream.slot
  split
  · rename_i y h
    simpa using List.find?_some h
  · rfl

theorem slot_modSlot (d : Device) (k n : Nat) (f : Slot → Slot) (hk : k < 32) (hf : ∀ x, (f x).n = x.n) :
    (d.modSlot k n f).slot k n = f (d.slot k n) := by
  have hn : (f ((d.strm k).slot n)).n = n := (hf _).trans (slot_n _ _)
  rw [Device.slot, show (d.modSlot k n f).strm k = (d.strm k).modSlot n f from vget_vmod_same _ _ _ _ hk]
  rw [Stream.modSlot, Stream.slot, List.find?_cons_of_pos (by simpa using hn)]
  rfl

/-- A cause that arises changes the streams and the events of the command, and nothing else. -/
theorem degrade_same (d : Device) (k n cause : Nat) : d.degrade k n cause =
    { d with streams := (d.degrade k n cause).streams, i3c := { d.i3c with fresh := (d.degrade k n cause).i3c.fresh } } := by
  unfold Device.degrade
  dsimp only
  split <;> rfl

/-- The slot with one more cause. -/
def Slot.degraded (x : Slot) (cause : Nat) : Slot :=
  let b : BitVec 13 := BitVec.ofNat 13 (2 ^ cause)
  { x with causes := x.causes ||| b, raised := true, ownCauses := x.ownCauses ||| b }

theorem degrade_streams (d : Device) (k n cause : Nat) :
    (d.degrade k n cause).streams = (d.modSlot k n (fun x => x.degraded cause)).streams := by
  unfold Device.degrade
  dsimp only
  split <;> rfl

theorem slot_degrade (d : Device) (k n cause : Nat) (hk : k < 32) :
    (d.degrade k n cause).slot k n = (d.slot k n).degraded cause := by
  rw [Device.slot, Device.strm, degrade_streams]
  exact slot_modSlot d k n _ hk fun _ => rfl

theorem degrade_fresh_of_raised (d : Device) (k n cause : Nat) (hfresh : d.i3c.fresh = []) (h : (d.slot k n).raised = true) :
    (d.degrade k n cause).i3c.fresh = [] := by
  simp only [Device.degrade, h, if_true, Device.modSlot, Device.modStrm_i3c, hfresh, List.map_nil]

theorem degrade_fresh_of_first (d : Device) (k n cause : Nat) (hfresh : d.i3c.fresh = []) (h : (d.slot k n).raised = false) :
    (d.degrade k n cause).i3c.fresh = [(.streamDegraded, k % 256, cause % 256, n % 2 ^ 32)] := by
  simp only [Device.degrade, h, Bool.false_eq_true, if_false, Device.modSlot, Device.event_i3c, Device.modStrm_i3c,
    hfresh, List.nil_append]

/-! ### The comparison (R614, R615) -/

/-- The launch and its shadow have written the same (R614). -/
def ShadowSig.agrees (p q : ShadowSig) : Bool := p.a = q.a && p.b = q.b

theorem agrees_iff (p q : ShadowSig) : p.agrees q = true ↔ p.a = q.a ∧ p.b = q.b := by
  simp only [ShadowSig.agrees, Bool.and_eq_true, decide_eq_true_eq]

theorem agrees_eq_false {p q : ShadowSig} (h : ¬ (p.a = q.a ∧ p.b = q.b)) : p.agrees q = false :=
  Bool.eq_false_iff.mpr fun hag => h ((agrees_iff p q).mp hag)

/-- The pair is spent and counted, with its mismatch where there is one. -/
def SealState.spendPair (y : SealState) (p : ShadowSig) (equal : Bool) : SealState :=
  { y with
    shadowRuns := satInc y.shadowRuns
    shadowMismatch := if equal then y.shadowMismatch else satInc y.shadowMismatch
    sigs := y.sigs.filter (fun g => !(g.index = p.index && g.entry = p.entry && g.count = p.count)) }

/-- The pair is spent; on a mismatch both engines score 4 (Table 14.5). -/
def Device.spendPair (d : Device) (p q : ShadowSig) : Device :=
  let d := d.modSealSt (fun y => y.spendPair p (p.agrees q))
  if p.agrees q then d else (d.score p.engine 4).score q.engine 4

/-- R615 for a launch whose list does not wait: on a mismatch the slot that it serves degrades. -/
def Device.degradePair (d : Device) (p : ShadowSig) : Device :=
  match d.serveOf (Due.named p.index p.entry p.count d.now) with
  | some v => if v.bind.isSome then d.degradeServed v 5 else d
  | none => d

/-- What a comparison brings about beside its counts: the list of the engine that waits for it ends, or the slot degrades. -/
def Device.applyPair (d : Device) (p : ShadowSig) (equal : Bool) : Option Nat → Device
  | some e =>
    if equal then d.endRun e (if (d.eng e).run.any (fun (r : Run) => r.degraded) then .degraded else .ok)
    else d.fallback e .checkFail
  | none => if equal then d else d.degradePair p

/-- The list waits for the comparison of the launch whose signature is `p` (R615). -/
def Run.waitsFor (r : Run) (p : ShadowSig) : Bool := r.awaitShadow && p.ofDue r.due && !r.due.shadow

/-- The engine whose list waits for it. -/
def Device.waitingEngine (d : Device) (p : ShadowSig) : Option Nat :=
  (List.range 6).find? (fun e => (d.eng e).run.any (fun r => r.waitsFor p))

theorem waitingEngine_of_still (d : Device) (p : ShadowSig) (h : d.Still) : d.waitingEngine p = none := by
  obtain ⟨hlists, -⟩ := h
  refine List.find?_eq_none.mpr fun e he => ?_
  cases hr : (d.eng e).run with
  | none => simp
  | some r =>
    obtain ⟨-, -, hawait⟩ := hlists e (List.mem_range.mp he) r hr
    simp [Run.waitsFor, hawait]

theorem waitingEngine_of_alone (d : Device) (p : ShadowSig) (e : Fin 6) (r : Run) (h : d.Alone e.val)
    (hr : (d.eng e.val).run = some r) (hw : r.waitsFor p = true) : d.waitingEngine p = some e.val := by
  obtain ⟨hothers, -⟩ := h
  have hwaits : (d.eng e.val).run.any (fun r => r.waitsFor p) = true := by simp [hr, hw]
  cases hfind : d.waitingEngine p with
  | none => exact absurd hwaits (List.find?_eq_none.mp hfind e.val (List.mem_range.mpr e.isLt))
  | some i =>
    have hi : i < 6 := List.mem_range.mp (List.mem_of_find?_eq_some hfind)
    rw [Device.waitingEngine] at hfind
    have hany := List.find?_some hfind
    by_contra hne
    simp [hothers i hi (fun hie => hne (congrArg some hie))] at hany

theorem waitingEngine_congr (d d' : Device) (p : ShadowSig) (h : ∀ e, (d'.eng e).run = (d.eng e).run) :
    d'.waitingEngine p = d.waitingEngine p := by
  simp only [Device.waitingEngine, h]

theorem score_run (d : Device) (e points n : Nat) : ((d.score e points).eng n).run = (d.eng n).run :=
  eng_modEng_field Engine.run d e n _ fun _ => rfl

theorem spendPair_run (d : Device) (p q : ShadowSig) (n : Nat) : ((d.spendPair p q).eng n).run = (d.eng n).run := by
  unfold Device.spendPair
  split
  · rfl
  · rw [score_run, score_run]
    rfl

/-- R614, R615: the pair is spent, then the list that waits ends or the slot degrades, then engines may retire. -/
theorem comparePair_eq (d : Device) (p q : ShadowSig) : d.comparePair p q =
    ((d.spendPair p q).applyPair p (p.agrees q) (d.waitingEngine p)).retireCheck := by
  rw [← waitingEngine_congr d (d.spendPair p q) p (spendPair_run d p q)]
  unfold Device.comparePair Device.spendPair ShadowSig.agrees
  generalize (decide (p.a = q.a) && decide (p.b = q.b)) = equal
  cases equal <;> rfl

/-- `p` and `q` are the signatures of a launch and of its shadow, and the only ones of their entry. -/
structure Device.EndedPair (d : Device) (p q : ShadowSig) : Prop where
  sigs : d.sealSt.sigs.filter (fun y => y.entry = p.entry) = [p, q]
  primary : p.shadow = false
  shadow : q.shadow = true
  index : p.index = q.index
  entry : p.entry = q.entry
  count : p.count = q.count

theorem shadowPair_of_endedPair (d : Device) (p q : ShadowSig) (h : d.EndedPair p q) :
    d.shadowPair (fun y => y.entry = p.entry) = some (p, q) := by
  simp only [Device.shadowPair, h.sigs]
  simp [h.primary, h.shadow, h.index, h.entry, h.count]

/-- The command compares the pair. -/
theorem exec_shadowComparison (t : Nat) (s : State) (p q : ShadowSig) (hrun : s.dev.phase = .running)
    (h : s.dev.EndedPair p q) : exec (.shadowComparison t p.entry) s =
      .next (s.withDev ((s.dev.atTime t).comparePair p q).pump.settle) := by
  refine congrArg Host.Outcome.next ((runI_whenRunning s t _ hrun).trans ?_)
  rw [shadowPair_of_endedPair (s.dev.atTime t) p q ⟨h.sigs, h.primary, h.shadow, h.index, h.entry, h.count⟩]

/-! ### What the pair leaves -/

section
variable (d : Device) (p q : ShadowSig)

theorem spendPair_of_equal (h : p.agrees q = true) : d.spendPair p q = d.modSealSt (fun y => y.spendPair p true) := by
  simp only [Device.spendPair, h, if_true]

theorem spendPair_of_unequal (h : p.agrees q = false) :
    d.spendPair p q = ((d.modSealSt (fun y => y.spendPair p false)).score p.engine 4).score q.engine 4 := by
  simp only [Device.spendPair, h, Bool.false_eq_true, if_false]

theorem spendPair_same : d.spendPair p q =
    { d with sealSt := d.sealSt.spendPair p (p.agrees q), ne := (d.spendPair p q).ne } := by
  unfold Device.spendPair
  dsimp only
  split <;> rfl

theorem score_eng (e points i : Nat) (hi : i < 6) :
    (d.score e points).eng i = { d.eng i with score := (d.eng i).score + if i = e then points else 0 } := by
  by_cases h : e = i
  · subst h
    rw [if_pos rfl]
    exact eng_modEng d e _ hi
  · rw [if_neg (Ne.symm h)]
    exact vget_vmod_ne _ _ _ _ _ h

/-- The points of engine `i` (Table 14.5). -/
def ShadowSig.points (i : Nat) : Nat :=
  if p.agrees q then 0 else (if i = p.engine then 4 else 0) + (if i = q.engine then 4 else 0)

theorem points_le (i : Nat) : p.points q i ≤ 8 := by
  unfold ShadowSig.points
  split
  · omega
  · split <;> split <;> omega

theorem spendPair_eng (i : Nat) (hi : i < 6) :
    (d.spendPair p q).eng i = { d.eng i with score := (d.eng i).score + p.points q i } := by
  cases h : p.agrees q with
  | true =>
    rw [spendPair_of_equal d p q h, ShadowSig.points, h]
    rfl
  | false =>
    rw [spendPair_of_unequal d p q h, score_eng _ _ _ _ hi, score_eng _ _ _ _ hi, ShadowSig.points, h, Nat.add_assoc]
    rfl

theorem belowThreshold_spendPair (h : ∀ i < 6, (d.eng i).retired = true ∨ (d.eng i).score + 8 < d.sealSt.retireThresh) :
    (d.spendPair p q).BelowThreshold := by
  intro i hi
  have hthresh : (d.spendPair p q).sealSt.retireThresh = d.sealSt.retireThresh := by
    rw [spendPair_same]
    rfl
  rw [spendPair_eng d p q i hi, hthresh]
  have := points_le p q i
  rcases h i hi with hret | hlow
  · exact .inl hret
  · exact .inr (show (d.eng i).score + p.points q i < _ by omega)

theorem calm_spendPair {d : Device} (h : d.Calm) : (d.spendPair p q).Calm := by
  obtain ⟨hstill, hmem, hfresh, halert⟩ := h
  have hstill' : (d.spendPair p q).Still := still_of_runs d _ hstill (fun n _ => spendPair_run d p q n)
    (by rw [spendPair_same]) (by rw [spendPair_same])
  rw [spendPair_same] at hstill' ⊢
  exact ⟨hstill', hmem, hfresh, halert⟩

theorem alone_spendPair (e : Nat) (h : d.Alone e) : (d.spendPair p q).Alone e := by
  obtain ⟨hothers, hjobs, hwatch⟩ := h
  have hsame := spendPair_same d p q
  refine ⟨fun i hi hie => (spendPair_run d p q i).trans (hothers i hi hie), ?_, ?_⟩
  · rw [hsame]
    exact hjobs
  · rw [hsame]
    exact hwatch

theorem Device.UnboundRun.spendPair {d : Device} {r : Run} {v : Serve} (h : d.UnboundRun r v) : (d.spendPair p q).UnboundRun r v :=
  h.congr (by rw [spendPair_same]) (by rw [spendPair_same]) (by rw [spendPair_same])

theorem degradePair_of_unbound
    (h : ∀ v, d.serveOf (Due.named p.index p.entry p.count d.now) = some v → v.bind = none) : d.degradePair p = d := by
  unfold Device.degradePair
  split
  · rename_i v hv
    simp [h v hv]
  · rfl

theorem degradePair_of_bound (v : Serve) (k : Nat) (hv : d.serveOf (Due.named p.index p.entry p.count d.now) = some v)
    (hbind : v.bind.isSome = true) (hk : v.streams = [k]) : d.degradePair p = d.degrade k v.slot 5 := by
  simp only [Device.degradePair, hv, hbind, if_true, Device.degradeServed, hk, List.foldl_cons, List.foldl_nil]

/-- R615: the list that waited ends with OK or with CHECK_FAIL. -/
theorem applyPair_of_waiting (equal : Bool) (e : Nat) (r : Run) (v : Serve) (h : d.UnboundRun r v)
    (hr : (d.eng e).run = some r) (hdeg : r.degraded = false) :
    d.applyPair p equal (some e) = d.endRun e (if equal then .ok else .checkFail) := by
  cases equal with
  | true => simp [Device.applyPair, hr, hdeg]
  | false => exact fallback_of_unbound d e r v _ h hr

end

/-! ### What the end of the waiting list leaves -/

section
variable {d c : Device} {e : Nat} {r : Run} {v : Serve} {st : Status} (h : ((d.freeEngine e r st).recordEnd r v st).Settles c)
include h

theorem Device.Settles.eng_of_ended (he : e < 6) : (c.eng e).run = none ∧
    (c.eng e).regs.lastStatus = word (statusCode st + r.ctx * 256 + r.lastStarted % 2 ^ 16 * 2 ^ 16) := by
  have heng := (h.engines e).trans (congrArg (fun x : Engine => { x with marked := (c.eng e).marked }) (freeEngine_eng d e r st he))
  exact ⟨congrArg Engine.run heng, congrArg (fun x : Engine => x.regs.lastStatus) heng⟩

theorem Device.Settles.counts_of_ended :
    c.sealSt.shadowRuns = d.sealSt.shadowRuns ∧ c.sealSt.shadowMismatch = d.sealSt.shadowMismatch := by
  rw [h.same]
  exact ⟨rfl, rfl⟩

theorem Device.Settles.record_of_ended (i : Nat) (hi : i < 16) : memGet c.store.mem (v.launch.record + i) =
    (recordBytes st r.lastStarted r.steps (d.now / 1000) r.due.count).getD i 0 := by
  rw [h.same]
  exact device_write_get_in (d.freeEngine e r st) _ _ i hi

end

/-! ### What the degraded slot shows -/

theorem settle_degrade_queue (d : Device) (k n cause : Nat) (hfresh : d.i3c.fresh = []) (hmask : d.i3c.mask.getLsbD 0 = true)
    (hroom : d.i3c.queue.length < 32) : (d.degrade k n cause).settle.i3c.queue =
      if (d.slot k n).raised then d.i3c.queue
      else eventsInOrder d.now (d.i3c.queue ++ [{
        event := .streamDegraded, seq := d.i3c.seq % 256, arg0 := k % 256, arg1 := cause % 256
        arg2 := n % 2 ^ 32, at_ := some d.now }]) := by
  have hsame := degrade_same d k n cause
  cases h : (d.slot k n).raised with
  | true =>
    rw [settle_queue_of_quiet _ (degrade_fresh_of_raised d k n cause hfresh h), hsame, if_pos rfl]
  | false =>
    rw [settle_queue_of_one (d.degrade k n cause) _ _ _ _ (degrade_fresh_of_first d k n cause hfresh h)
      (by rw [hsame]; exact hmask) (by rw [hsame]; exact hroom), hsame, if_neg Bool.false_ne_true]

section
variable (d : Device) (p q : ShadowSig) (k n : Nat)

theorem spendPair_i3c : (d.spendPair p q).i3c = d.i3c := by rw [spendPair_same]

theorem spendPair_now : (d.spendPair p q).now = d.now := by rw [spendPair_same]

theorem spendPair_slot : (d.spendPair p q).slot k n = d.slot k n := by
  rw [spendPair_same]
  rfl

theorem mismatch_sealSt :
    ((d.spendPair p q).degrade k n 5).settle.sealSt = d.sealSt.spendPair p (p.agrees q) :=
  (congrArg Device.sealSt (degrade_same (d.spendPair p q) k n 5)).trans (congrArg Device.sealSt (spendPair_same d p q))

theorem mismatch_score (h : p.agrees q = false) (i : Nat) (hi : i < 6) : (((d.spendPair p q).degrade k n 5).settle.eng i).score =
    (d.eng i).score + (if i = p.engine then 4 else 0) + (if i = q.engine then 4 else 0) := by
  have hpoints : p.points q i = (if i = p.engine then 4 else 0) + (if i = q.engine then 4 else 0) := by
    rw [ShadowSig.points, h, if_neg Bool.false_ne_true]
  have hne := congrArg (fun d : Device => d.eng i) (degrade_same (d.spendPair p q) k n 5)
  rw [Nat.add_assoc, ← hpoints]
  exact congrArg Engine.score (hne.trans (spendPair_eng d p q i hi))

theorem mismatch_causes (hk : k < 32) :
    (((d.spendPair p q).degrade k n 5).settle.slot k n).causes = (d.slot k n).causes ||| 0x20 := by
  rw [← spendPair_slot d p q k n]
  exact congrArg Slot.causes (slot_degrade (d.spendPair p q) k n 5 hk)

theorem mismatch_queue (hk : k < 32) (hfresh : d.i3c.fresh = []) (hmask : d.i3c.mask.getLsbD 0 = true)
    (hroom : d.i3c.queue.length < 32) : ((d.spendPair p q).degrade k n 5).settle.i3c.queue =
      if (d.slot k n).raised then d.i3c.queue
      else eventsInOrder d.now (d.i3c.queue ++ [{
        event := .streamDegraded, seq := d.i3c.seq % 256, arg0 := k, arg1 := 5, arg2 := n % 2 ^ 32, at_ := some d.now }]) := by
  have hqueue := settle_degrade_queue (d.spendPair p q) k n 5
  rw [spendPair_i3c, spendPair_now, spendPair_slot, Nat.mod_eq_of_lt (hk.trans (by decide))] at hqueue
  exact hqueue hfresh hmask hroom

end

/-! ### The command -/

section
variable (t : Nat) (s : State) (p q : ShadowSig) (hs : s.Inv) (hrun : s.dev.phase = .running)
  (h : s.dev.EndedPair p q) (hbelow : ∀ i < 6, (s.dev.eng i).retired = true ∨ (s.dev.eng i).score + 8 < s.dev.sealSt.retireThresh)
include hs hrun h hbelow

/-- The pair of a launch that no list waits for, and equal signatures or no slot: it is spent, and that is all. -/
theorem exec_shadowComparison_spent (hstill : s.dev.Still)
    (heq : p.agrees q = true ∨
      ∀ v, (s.dev.atTime t).serveOf (Due.named p.index p.entry p.count (max s.dev.now t)) = some v → v.bind = none) :
    exec (.shadowComparison t p.entry) s = .next (s.withDev ((s.dev.atTime t).spendPair p q)) := by
  have happly : ((s.dev.atTime t).spendPair p q).applyPair p (p.agrees q) none = (s.dev.atTime t).spendPair p q := by
    cases hag : p.agrees q with
    | true => rfl
    | false =>
      refine degradePair_of_unbound _ p ?_
      rw [spendPair_same]
      exact heq.resolve_left (by simp [hag])
  have hcompare : (s.dev.atTime t).comparePair p q = (s.dev.atTime t).spendPair p q := by
    rw [comparePair_eq, waitingEngine_of_still (s.dev.atTime t) p hstill, happly,
      retireCheck_of_below _ (belowThreshold_spendPair (s.dev.atTime t) p q hbelow)]
  rw [exec_shadowComparison t s p q hrun h, hcompare,
    calm_pump_settle (calm_spendPair p q (calm_atTime s t hs hstill))]

/-- A mismatch of a launch that no list waits for degrades the slot that the launch serves. -/
theorem exec_shadowComparison_degrades (v : Serve) (k : Nat) (hstill : s.dev.Still) (hne : p.agrees q = false)
    (hv : (s.dev.atTime t).serveOf (Due.named p.index p.entry p.count (max s.dev.now t)) = some v) (hbind : v.bind.isSome = true)
    (hk : v.streams = [k]) : exec (.shadowComparison t p.entry) s =
      .next (s.withDev (((s.dev.atTime t).spendPair p q).degrade k v.slot 5).settle) := by
  have hserve : ((s.dev.atTime t).spendPair p q).serveOf
      (Due.named p.index p.entry p.count ((s.dev.atTime t).spendPair p q).now) = some v := by
    rw [spendPair_same]
    exact hv
  have hdegrade := degrade_same ((s.dev.atTime t).spendPair p q) k v.slot 5
  have hbelow' : (((s.dev.atTime t).spendPair p q).degrade k v.slot 5).BelowThreshold := by
    rw [hdegrade]
    exact belowThreshold_spendPair (s.dev.atTime t) p q hbelow
  have hstill' : (((s.dev.atTime t).spendPair p q).degrade k v.slot 5).Still := by
    rw [hdegrade]
    exact (calm_spendPair p q (calm_atTime s t hs hstill)).still
  rw [exec_shadowComparison t s p q hrun h, comparePair_eq,
    waitingEngine_of_still (s.dev.atTime t) p hstill, hne, Device.applyPair, if_neg Bool.false_ne_true,
    degradePair_of_bound _ p v k hserve hbind hk, retireCheck_of_below _ hbelow', pump_of_still _ hstill']

/-- R615: the list that waits for the comparison ends, and its record stands. -/
theorem exec_shadowComparison_ends (e : Fin 6) (r : Run) (v : Serve) (halone : s.dev.Alone e.val)
    (hr : (s.dev.eng e.val).run = some r) (hwaits : r.waitsFor p = true) (hdeg : r.degraded = false) (hr' : s.dev.UnboundRun r v) :
    ∃ d, exec (.shadowComparison t p.entry) s = .next (s.withDev d) ∧
      ((((s.dev.atTime t).spendPair p q).freeEngine e.val r (if p.agrees q then .ok else .checkFail)).recordEnd r v
        (if p.agrees q then .ok else .checkFail)).Settles d := by
  obtain ⟨hmem, hfresh, halert⟩ := hs
  generalize hst : (if p.agrees q then Status.ok else .checkFail) = st
  generalize hd : (s.dev.atTime t).spendPair p q = d
  have hsame := spendPair_same (s.dev.atTime t) p q
  have halone' : d.Alone e.val := hd ▸ alone_spendPair (s.dev.atTime t) p q e.val halone
  have hdrun : (d.eng e.val).run = some r := hd ▸ (spendPair_run (s.dev.atTime t) p q e.val).trans hr
  have hunbound : d.UnboundRun r v := hd ▸ Device.UnboundRun.spendPair p q (hr'.congr (d' := s.dev.atTime t) rfl rfl rfl)
  have hends := settles_endRun d e.val r v st false hunbound hdrun
  have hbelow' : ((d.freeEngine e.val r st).recordEnd r v st).BelowThreshold :=
    belowThreshold_freeEngine d e.val r st (hd ▸ belowThreshold_spendPair (s.dev.atTime t) p q hbelow)
  have hcalm : ((d.freeEngine e.val r st).recordEnd r v st).Calm := by
    have hstill := still_freeEngine d e r st halone'
    rw [hd] at hsame
    refine ⟨hstill, device_write_wf _ _ _ ?_, ?_, ?_⟩
    · rw [hsame]
      exact hmem
    · rw [hsame]
      exact hfresh
    · rw [hsame]
      exact halert
  refine ⟨d.endRun e.val st, ?_, hends⟩
  rw [exec_shadowComparison t s p q hrun h, comparePair_eq,
    waitingEngine_of_alone (s.dev.atTime t) p e r halone hr hwaits, hd, applyPair_of_waiting d p _ e.val r v hunbound hdrun hdeg, hst,
    retireCheck_of_below _ (hends.belowThreshold hbelow'), calm_pump_settle (hends.calm hcalm)]

end

/-- Settles O44: the command is the comparison of the one pair, whose four outcomes are the lemmas above. -/
theorem shadowsCompared : Obligations.ShadowsCompared := by
  intro t x p q s hs hrun hsigs hp hq hindex hcount hbelow
  have hmem (y : ShadowSig) (hy : y ∈ [p, q]) : y.entry = x := by
    rw [← hsigs] at hy
    simpa using (List.mem_filter.mp hy).2
  obtain rfl : p.entry = x := hmem p (by simp)
  have hpair : s.dev.EndedPair p q := ⟨hsigs, hp, hq, hindex, (hmem q (by simp)).symm, hcount⟩
  have ⟨_, hfresh, _⟩ := hs
  intro equal named spent d
  have hspent : spent = s.dev.sealSt.spendPair p (p.agrees q) := by
    simp only [spent, equal, SealState.spendPair, agrees_iff]
  refine ⟨fun hstill heq => ?_, fun hstill hne hfree => ?_, fun v k hstill hne hv hbind hk hmask hroom => ?_,
    fun e r v halone hr hawait hri hre hrc hrs hrr hrl hdeg hserve hbind htarget htune hcomp _ hsets => ?_⟩
  · have hag : p.agrees q = true := (agrees_iff p q).mpr heq
    rw [exec_shadowComparison_spent t s p q hs hrun hpair hbelow hstill (.inl hag),
      spendPair_of_equal _ p q hag]
    rw [hag] at hspent
    simp only [d, hspent]
    rfl
  · have hag : p.agrees q = false := agrees_eq_false hne
    rw [exec_shadowComparison_spent t s p q hs hrun hpair hbelow hstill (.inr hfree),
      spendPair_of_unequal _ p q hag]
    rw [hag] at hspent
    simp only [d, hspent]
    rfl
  · have hag : p.agrees q = false := agrees_eq_false hne
    exact ⟨_, exec_shadowComparison_degrades t s p q hs hrun hpair hbelow v k hstill hag hv hbind hk,
      rfl, (mismatch_sealSt _ p q _ _).trans hspent.symm, mismatch_score (s.dev.atTime t) p q _ _ hag,
      mismatch_causes (s.dev.atTime t) p q _ _ k.isLt, mismatch_queue (s.dev.atTime t) p q _ _ k.isLt hfresh hmask hroom⟩
  · intro st
    have hagrees : (if p.agrees q then Status.ok else .checkFail) = st := by
      simp only [st, equal, agrees_iff]
    have hwaits : r.waitsFor p = true := by
      simp [Run.waitsFor, ShadowSig.ofDue, hawait, hri, hre, hrc, hrs]
    obtain ⟨c, hexec, hends⟩ := exec_shadowComparison_ends t s p q hs hrun hpair hbelow e r v halone hr
      hwaits hdeg ⟨hserve, htarget, hbind, by rw [hre]; exact htune, hcomp, hrs, hrl, hsets⟩
    rw [hagrees] at hends
    have hsame := spendPair_same (s.dev.atTime t) p q
    obtain ⟨hfree, hlast⟩ := hends.eng_of_ended e.isLt
    obtain ⟨hruns, hmismatch⟩ := hends.counts_of_ended
    have hrecord := hends.record_of_ended
    rw [hsame] at hruns hmismatch hrecord
    refine ⟨_, hexec, rfl, hfree, hlast, ?_, ?_, hrecord⟩
    · rw [hspent]
      exact hruns
    · rw [hspent]
      exact hmismatch

end Sys2Proof.Machine
end

section
/-! SUPPORT. Identity and attestation (chapter 15): the start of an exchange and its answer, the preparation of a session key, and
the background erase of a journal slot (R654, R662 to R668). -/
namespace Sys2Proof.Machine

/-! ### Commands that change identity and attestation alone -/

theorem calm_modTrust {d : Device} (h : d.Calm) (f : Trust → Trust) : (d.modTrust f).Calm := by
  obtain ⟨hstill, hmem, hfresh, halert⟩ := h
  exact ⟨hstill, hmem, hfresh, halert⟩

theorem calm_modAttest {d : Device} (h : d.Calm) (f : Attest → Attest) : (d.modAttest f).Calm := by
  obtain ⟨hstill, hmem, hfresh, halert⟩ := h
  exact ⟨hstill, hmem, hfresh, halert⟩

/-- A command of a locked device that brings it to a calm one closes with no further change. -/
theorem runI_whenLocked_of_calm (s : State) (t : Nat) (f : Device → Device) (d : Device)
    (hphase : s.dev.phase = .running ∨ s.dev.phase = .awaitChips) (hf : f (s.dev.atTime t) = d) (hd : d.Calm) :
    s.runI t (fun d => d.whenLocked f) = s.withDev d := by
  simp only [State.runI, State.run, State.withDev, Device.whenLocked, Device.atTime_phase, if_pos hphase, hf, calm_pump_settle hd]

/-! ### The start of an exchange (R666) -/

theorem startExchange_of_idle (d : Device) (ctl : Word) (hstart : ctl.getLsbD 0 = true) (hidle : d.attest.busy = none) :
    d.startExchange ctl = d.modAttest (fun a => { a with busy := some (a.chal.toList, ctl.getLsbD 1), ready := false }) := by
  simp only [Device.startExchange, hstart, hidle, Option.isNone_none, Bool.and_self, if_true]

/-- A write without START, or a START during an exchange, changes nothing. -/
theorem startExchange_of_ignored (d : Device) (ctl : Word) (h : ctl.getLsbD 0 = false ∨ d.attest.busy.isSome = true) :
    d.startExchange ctl = d := by
  have hignored : (ctl.getLsbD 0 && d.attest.busy.isNone) = false :=
    Bool.and_eq_false_iff.mpr (h.imp id Option.isNone_eq_false_iff.mpr)
  simp only [Device.startExchange, hignored, Bool.false_eq_true, if_false]

/-! ### The answer (R667, R668, Table 15.13) -/

/-- The current session key has a leaf left. -/
def Trust.HasLeaf (r : Trust) : Prop := ∃ k, r.session = some k ∧ k.next < sessionLeaves

/-- R665: a session key with a leaf left stays the current one. -/
theorem rollover_of_hasLeaf (d : Device) (h : d.trust.HasLeaf) : d.rollover = d := by
  obtain ⟨k, hk, hleft⟩ := h
  cases hnext : d.trust.prepared with
  | none => simp only [Device.rollover, hk, hnext]
  | some next => simp only [Device.rollover, hk, hnext, if_pos hleft]

theorem answer_of_unusable (d : Device) (chal : List Word) (useLast : Bool) (h : d.trust.usable = false) :
    d.answer chal useLast = d.endExchange .unsupported := by
  simp only [Device.answer, h, Bool.not_false, if_true]

section
variable (d : Device) (chal : List Word) (useLast : Bool) (k : SessionKey) (husable : d.trust.usable = true)
  (hk : d.trust.session = some k)
include husable hk

/-- An exchange whose session key has no leaf left waits. -/
theorem answer_of_spent (hspent : sessionLeaves ≤ k.next) : d.answer chal useLast = d := by
  simp only [Device.answer, husable, hk, Bool.not_true, Bool.false_eq_true, if_false, Option.any_some, hspent, decide_true, if_true]

theorem answer_of_not_advancing (hleft : k.next < sessionLeaves)
    (hlast : useLast = false ∨ d.advances (chal.getD 8 0).toNat = false) : d.answer chal useLast = d.respond chal k := by
  have hstays : (useLast && d.advances (chal.getD 8 0).toNat) = false := Bool.and_eq_false_iff.mpr hlast
  simp only [Device.answer, husable, hk, Bool.not_true, Bool.false_eq_true, if_false, Option.any_some, Nat.not_le.mpr hleft,
    decide_false, hstays, if_true]

end

/-- The identity once session key `k`, the current one, has signed with its next leaf (R664). -/
def Trust.signedWith (r : Trust) (k : SessionKey) : Trust :=
  { r with
    session := some { k with next := k.next + 1, released := true }, lastStatus := .ok
    preparing := r.preparing || (k.next + 65 = sessionLeaves && r.prepared.isNone) }

/-- The exchange once its response stands (R668). -/
def Attest.answered (a : Attest) (response : List Byte) : Attest :=
  { a with response := response, ready := true, attests := satInc a.attests, busy := none }

/-- The bytes of NONCE in the challenge registers (R666). -/
def nonceBytes (chal : List Word) : List Byte := (chal.take 8).flatMap (fun w => leBytes 4 w.toNat)

theorem respond_of_leaf_left (d : Device) (chal : List Word) (k : SessionKey) (hleft : k.next + 1 < sessionLeaves) :
    d.respond chal k =
      (d.modTrust (fun r => r.signedWith k)).modAttest (fun a => a.answered (d.responseBytes (nonceBytes chal) k)) := by
  have hsixtyFour : sessionLeaves - (k.next + 1) = 64 ↔ k.next + 65 = sessionLeaves := by omega
  simp only [Device.respond, hsixtyFour]
  exact rollover_of_hasLeaf _ ⟨_, rfl, hleft⟩

/-! ### The preparation of a session key (R654, R663 to R665) -/

/-- R663: with a leaf left in the reserved block no further one is reserved. -/
theorem nextBlock_of_leaf_left (d : Device) (b : Nat) (hblock : d.trust.block = some b) (hleft : d.trust.nextLeaf < 16 * b + 16) :
    d.nextBlock = d := by
  simp only [Device.nextBlock, hblock, if_pos hleft]

/-- The session key that the identity leaf makes, its certificate signed under the identity (R664). -/
def Device.keyOfLeaf (d : Device) (leaf : Nat) : SessionKey :=
  { leaf := leaf, next := 0, seeds := d.trust.sessionSeeds leaf, released := false
    certificate := d.sessionBody leaf (d.trust.sessionSeeds leaf) ++
      fitTo 2820 (xmssSign 0x03 d.trust.idSeeds leaf (d.sessionBody leaf (d.trust.sessionSeeds leaf))) }

section
variable (d : Device) (b : Nat) (husable : d.trust.usable = true) (hblock : d.trust.block = some b)
  (hleft : d.trust.nextLeaf < 16 * b + 16)
include husable hblock hleft

theorem makeKey_of_path (hpath : d.treePath d.trust.nextLeaf = true) : d.makeKey = (some (d.keyOfLeaf d.trust.nextLeaf),
    d.modTrust (fun r => { r with nextLeaf := r.nextLeaf + 1, sessions := satInc r.sessions })) := by
  simp only [Device.makeKey, nextBlock_of_leaf_left d b hblock hleft, husable, Bool.not_true, Bool.false_eq_true, if_false]
  refine (if_neg ?_).trans rfl
  exact Bool.eq_false_iff.mp (congrArg not hpath)

theorem makeKey_of_bad_path (hpath : d.treePath d.trust.nextLeaf = false) : d.makeKey = (none,
    d.modTrust (fun r => { r with nextLeaf := r.nextLeaf + 1, treeFail := true, usable := false })) := by
  simp only [Device.makeKey, nextBlock_of_leaf_left d b hblock hleft, husable, Bool.not_true, Bool.false_eq_true, if_false]
  exact if_pos (congrArg not hpath)

end

/-! ### The background erase of a journal slot (R662) -/

/-- A byte of the NOR, found by its first entry. -/
theorem norGet_eq_find (l : List (Nat × Byte)) (x : Nat) :
    norGet l x = ((l.find? (fun c => c.1 = x)).map (·.2)).getD 0xFF := by
  induction l with
  | nil => rfl
  | cons c l ih =>
    by_cases hc : c.1 = x
    · simp [norGet, hc]
    · simp [norGet, hc, ih]

/-- Among the entries kept by their address, an address that is kept has the same first entry, and any other has none. -/
theorem find_filter_addr (l : List (Nat × Byte)) (p : Nat → Prop) [DecidablePred p] (x : Nat) :
    (l.filter (fun c => p c.1)).find? (fun c => c.1 = x) = if p x then l.find? (fun c => c.1 = x) else none := by
  rw [List.find?_filter]
  by_cases hx : p x
  · rw [if_pos hx]
    congr 1
    funext c
    by_cases hc : c.1 = x
    · simp [hc, hx]
    · simp [hc]
  · rw [if_neg hx, List.find?_eq_none]
    rintro c - hc
    obtain ⟨hp, rfl⟩ : p c.1 ∧ c.1 = x := by simpa using hc
    exact hx hp

/-- With the entries of a run of addresses gone, the run reads as erased and every other byte as before. -/
theorem norGet_outside (l : List (Nat × Byte)) (a b x : Nat) (hab : a ≤ b) :
    norGet (l.filter (fun c => c.1 < a) ++ l.filter (fun c => b ≤ c.1)) x = if a ≤ x ∧ x < b then 0xFF else norGet l x := by
  rw [norGet_eq_find, norGet_eq_find, List.find?_append, find_filter_addr l (· < a), find_filter_addr l (b ≤ ·)]
  by_cases hlow : x < a
  · simp [hlow, Nat.not_le.mpr hlow, Nat.not_le.mpr (hlow.trans_le hab)]
  · by_cases hhigh : b ≤ x
    · simp [hlow, hhigh, Nat.not_lt.mpr hhigh]
    · simp [hlow, hhigh, Nat.not_lt.mp hlow, Nat.not_le.mp hhigh]

theorem eraseSlot_nor (d : Device) (slot : Nat) : (d.eraseSlot slot).store.nor =
    d.store.nor.filter (fun c => c.1 < slotAddr slot) ++ d.store.nor.filter (fun c => slotAddr slot + 4096 ≤ c.1) := by
  have hnew : ((List.range 4096).zip (List.replicate 4096 (0xFF : Byte))).filterMap
      (fun p => if p.2 = 0xFF then none else some (slotAddr slot + p.1, p.2)) = [] := by
    refine List.filterMap_eq_nil_iff.mpr fun p hp => if_pos ?_
    exact List.eq_of_mem_replicate (List.of_mem_zip hp).2
  simp only [Device.eraseSlot, Device.norWrite, List.length_replicate, hnew, List.nil_append]

/-- Every byte of the NOR once a journal slot is erased. -/
theorem norGet_eraseSlot (d : Device) (slot a : Nat) : norGet (d.eraseSlot slot).store.nor a =
    if slotAddr slot ≤ a ∧ a < slotAddr slot + 4096 then 0xFF else norGet d.store.nor a := by
  rw [eraseSlot_nor, norGet_outside _ _ _ _ (Nat.le_add_right _ _)]

theorem calm_eraseSlot {d : Device} (h : d.Calm) (slot : Nat) : (d.eraseSlot slot).Calm := by
  obtain ⟨hstill, hmem, hfresh, halert⟩ := h
  exact ⟨hstill, hmem, hfresh, halert⟩

theorem finishErase_of_none (d : Device) (h : d.attest.eraseSlot = none) : d.finishErase = d := by
  simp only [Device.finishErase, h]

theorem finishErase_of_some (d : Device) (k : Fin 2) (h : d.attest.eraseSlot = some k) :
    d.finishErase = (d.eraseSlot k.val).modAttest (fun a => { a with eraseSlot := none }) := by
  simp only [Device.finishErase, h]

/-! ### The four commands -/

section
variable (t : Nat) (s : State) (hs : s.Inv) (hstill : s.dev.Still)
include hs hstill

section
variable (hphase : s.dev.phase = .running ∨ s.dev.phase = .awaitChips)
include hphase

theorem exec_attestationStart_of_idle (ctl : Word) (hstart : ctl.getLsbD 0 = true) (hidle : s.dev.attest.busy = none) :
    exec (.attestationStart t ctl) s = .next (s.withDev ((s.dev.atTime t).modAttest (fun a =>
      { a with busy := some (a.chal.toList, ctl.getLsbD 1), ready := false }))) :=
  congrArg Host.Outcome.next (runI_whenLocked_of_calm s t _ _ hphase (startExchange_of_idle _ ctl hstart hidle)
    (calm_modAttest (calm_atTime s t hs hstill) _))

theorem exec_attestationStart_of_ignored (ctl : Word) (h : ctl.getLsbD 0 = false ∨ s.dev.attest.busy.isSome = true) :
    exec (.attestationStart t ctl) s = .next (s.withDev (s.dev.atTime t)) :=
  congrArg Host.Outcome.next (runI_whenLocked_of_calm s t _ _ hphase (startExchange_of_ignored _ ctl h)
    (calm_atTime s t hs hstill))

theorem exec_attestationResponse_of_idle (hidle : s.dev.attest.busy = none) :
    exec (.attestationResponse t) s = .next (s.withDev (s.dev.atTime t)) :=
  congrArg Host.Outcome.next (runI_whenLocked_of_calm s t _ _ hphase (by simp only [Device.atTime_attest, hidle])
    (calm_atTime s t hs hstill))

end

end

section
variable (t : Nat) (s : State) (chal : List Word) (useLast : Bool) (hphase : s.dev.phase = .running ∨ s.dev.phase = .awaitChips)
  (hbusy : s.dev.attest.busy = some (chal, useLast))
include hphase hbusy

/-- While an exchange runs the command is its answer, when the answer leaves a calm device. -/
theorem exec_attestationResponse_of_busy (d : Device) (hd : (s.dev.atTime t).answer chal useLast = d) (hcalm : d.Calm) :
    exec (.attestationResponse t) s = .next (s.withDev d) :=
  congrArg Host.Outcome.next (runI_whenLocked_of_calm s t _ _ hphase (by simp only [Device.atTime_attest, hbusy, hd]) hcalm)

variable (hs : s.Inv) (hstill : s.dev.Still)
include hs hstill

theorem exec_attestationResponse_of_unusable (h : s.dev.trust.usable = false) :
    exec (.attestationResponse t) s = .next (s.withDev ((s.dev.atTime t).endExchange .unsupported)) :=
  exec_attestationResponse_of_busy t s chal useLast hphase hbusy _ (answer_of_unusable _ chal useLast h)
    (calm_modAttest (calm_modTrust (calm_atTime s t hs hstill) _) _)

variable (k : SessionKey) (husable : s.dev.trust.usable = true) (hk : s.dev.trust.session = some k)
include husable hk

theorem exec_attestationResponse_of_spent (hspent : sessionLeaves ≤ k.next) :
    exec (.attestationResponse t) s = .next (s.withDev (s.dev.atTime t)) :=
  exec_attestationResponse_of_busy t s chal useLast hphase hbusy _ (answer_of_spent _ chal useLast k husable hk hspent)
    (calm_atTime s t hs hstill)

theorem exec_attestationResponse_of_leaf_left (hleft : k.next + 1 < sessionLeaves)
    (hlast : useLast = false ∨ s.dev.advances (chal.getD 8 0).toNat = false) :
    exec (.attestationResponse t) s = .next (s.withDev (((s.dev.atTime t).modTrust (fun r => r.signedWith k)).modAttest
      (fun a => a.answered ((s.dev.atTime t).responseBytes (nonceBytes chal) k)))) :=
  exec_attestationResponse_of_busy t s chal useLast hphase hbusy _
    ((answer_of_not_advancing (s.dev.atTime t) chal useLast k husable hk (Nat.lt_of_succ_lt hleft) hlast).trans
      (respond_of_leaf_left _ chal k hleft))
    (calm_modAttest (calm_modTrust (calm_atTime s t hs hstill) _) _)

end

section
variable (t : Nat) (s : State) (hrun : s.dev.phase = .running)
include hrun

theorem exec_sessionKeyPreparation_of_none (hs : s.Inv) (hstill : s.dev.Still) (h : s.dev.trust.preparing = false) :
    exec (.sessionKeyPreparation t) s = .next (s.withDev (s.dev.atTime t)) :=
  congrArg Host.Outcome.next (runI_whenLocked_of_calm s t _ _ (.inl hrun)
    (by simp only [Device.guard, Device.atTime_trust, h, Bool.false_and, Bool.false_eq_true, if_false]) (calm_atTime s t hs hstill))

/-- A preparation that is due keeps the key that was made, if any; the current key stays while it has a leaf left. -/
theorem exec_sessionKeyPreparation_of_due (key : Option SessionKey) (d : Device) (hdue : s.dev.trust.preparing = true)
    (hnone : s.dev.trust.prepared = none) (hmake : (s.dev.atTime t).makeKey = (key, d)) (hleaf : d.trust.HasLeaf)
    (hcalm : d.Calm) : exec (.sessionKeyPreparation t) s =
      .next (s.withDev (d.modTrust (fun r => { r with prepared := key, preparing := false }))) := by
  refine congrArg Host.Outcome.next (runI_whenLocked_of_calm s t _ _ (.inl hrun) ?_ (calm_modTrust hcalm _))
  simp only [Device.guard, Device.atTime_trust, hdue, hnone, Option.isNone_none, Bool.and_self, if_true, hmake]
  exact rollover_of_hasLeaf _ hleaf

/-- R662: the command completes the erase that runs, if any. -/
theorem exec_backgroundSlotErase (d : Device) (hd : (s.dev.atTime t).finishErase = d) (hcalm : d.Calm) :
    exec (.backgroundSlotErase t) s = .next (s.withDev d) := by
  refine congrArg Host.Outcome.next ?_
  simp only [State.runI, State.run, State.withDev, Device.whenAlive, Device.atTime_phase, hrun, hd, calm_pump_settle hcalm]

end

/-- Settles O51: one lemma per outcome of each command. An answer that neither advances the key nor uses its last leaf, a
preparation within the reserved block and an erase each leave a device that the close of the command does not change. -/
theorem attestationAnswers : Obligations.AttestationAnswers := by
  refine ⟨fun t ctl chal useLast s hs hstill hphase => ?_, fun t b cur s hs hstill hrun => ?_⟩
  · exact ⟨exec_attestationStart_of_idle t s hs hstill hphase ctl, exec_attestationStart_of_ignored t s hs hstill hphase ctl,
      exec_attestationResponse_of_idle t s hs hstill hphase, fun hbusy =>
        ⟨exec_attestationResponse_of_unusable t s chal useLast hphase hbusy hs hstill,
          exec_attestationResponse_of_spent t s chal useLast hphase hbusy hs hstill,
          exec_attestationResponse_of_leaf_left t s chal useLast hphase hbusy hs hstill⟩⟩
  · have hcalm := calm_atTime s t hs hstill
    refine ⟨fun hdue hnone husable hblock hleaf hk hleft => ⟨fun hpath => ?_, fun hpath => ?_⟩,
      exec_sessionKeyPreparation_of_none t s hrun hs hstill, fun herase => ?_, fun k herase => ?_⟩
    · have hmake := makeKey_of_path (s.dev.atTime t) b husable hblock hleaf hpath
      exact exec_sessionKeyPreparation_of_due t s hrun _ _ hdue hnone hmake ⟨cur, hk, hleft⟩ (calm_modTrust hcalm _)
    · have hmake := makeKey_of_bad_path (s.dev.atTime t) b husable hblock hleaf hpath
      have hexec := exec_sessionKeyPreparation_of_due t s hrun _ _ hdue hnone hmake ⟨cur, hk, hleft⟩ (calm_modTrust hcalm _)
      rwa [← hnone] at hexec
    · exact exec_backgroundSlotErase t s hrun _ (finishErase_of_none _ herase) hcalm
    · have hexec := exec_backgroundSlotErase t s hrun _ (finishErase_of_some _ k herase)
        (calm_modAttest (calm_eraseSlot hcalm k.val) _)
      exact ⟨_, hexec, rfl, rfl, norGet_eraseSlot (s.dev.atTime t) k.val, rfl, rfl, rfl⟩

end Sys2Proof.Machine
end

section
/-! SUPPORT. The end of a request through I3C (R690, R691, R700) and a change of mode asked for by one (R698). -/
namespace Sys2Proof.Machine

/-! ### Records of the recorder -/

/-- `d'` is `d` once something has been recorded: the free choices of the control block, the recorder's ring and the lanes that empty
it have moved on (R498, R545). -/
def Device.Records (d d' : Device) : Prop := ∃ c r l, d' = { d with ctl := c, recorder := r, lanes := l }

section
variable {d d' : Device}

theorem records_refl (d : Device) : d.Records d := ⟨_, _, _, rfl⟩

theorem records_modRec (h : d.Records d') (f : Recorder → Recorder) : d.Records (d'.modRec f) := by
  obtain ⟨c, r, l, rfl⟩ := h
  exact ⟨_, _, _, rfl⟩

theorem records_countFrame (h : d.Records d') (n : Nat) : d.Records (d'.countFrame n) := by
  obtain ⟨c, r, l, rfl⟩ := h
  exact ⟨_, _, _, rfl⟩

theorem records_controlChoice (h : d.Records d') : d.Records d'.controlChoice := by
  obtain ⟨c, r, l, rfl⟩ := h
  unfold Device.controlChoice
  split <;> exact ⟨_, _, _, rfl⟩

theorem records_drainRec (fuel : Nat) (h : d.Records d') : d.Records (Device.drainRec fuel d') := by
  induction fuel generalizing d' with
  | zero => exact h
  | succ n ih =>
    unfold Device.drainRec
    split
    · dsimp only
      split
      · exact ih (records_countFrame (records_modRec h _) _)
      · exact h
    · exact h

theorem records_putRecord (h : d.Records d') (type lane stream flags index : Nat) (stamp : Int) (body : List Byte) :
    d.Records (d'.putRecord type lane stream flags index stamp body) := by
  unfold Device.putRecord
  exact records_modRec h _

theorem records_putGap (h : d.Records d') : d.Records d'.putGap := by
  unfold Device.putGap
  dsimp only
  split
  · exact h
  · exact records_modRec (records_putRecord h _ _ _ _ _ _ _) _

theorem records_recordControl (h : d.Records d') (type index : Nat) (body : List Byte) :
    d.Records (d'.recordControl type index body) := by
  unfold Device.recordControl
  split
  · exact h
  · exact records_putRecord (records_putGap (records_drainRec _ h)) _ _ _ _ _ _ _

theorem Device.Records.calm (h : d.Records d') (hd : d.Calm) : d'.Calm := by
  obtain ⟨c, r, l, rfl⟩ := h
  obtain ⟨hstill, hmem, hfresh, halert⟩ := hd
  exact ⟨hstill, hmem, hfresh, halert⟩

end

/-! ### The end of a request -/

/-- The request `b` is no longer pending; its result and its argument are given (Table 16.12). -/
def Request.ended (r : Request) (b : List Byte) (st : Status) (arg : Nat) : Request :=
  { r with pending := none, result := requestResult b (statusCode st) 2, arg := word arg }

/-- R700: a request that took effect is counted and recorded. -/
def Status.tookEffect (st : Status) : Prop := st = .ok ∨ st = .aborted ∨ st = .alreadyDone

section
variable (d : Device) (b : List Byte) (st : Status) (arg : Nat) (hp : d.req.pending = some b) (hwatch : d.req.watch = none)
include hp hwatch

theorem finishRequest_of_no_effect (hst : ¬ st.tookEffect) : d.finishRequest st arg = { d with req := d.req.ended b st arg } := by
  simp only [Device.finishRequest, hp, Request.ended, hwatch]
  exact if_neg hst

theorem finishRequest_of_effect (hst : st.tookEffect) :
    Device.Records { d with req := { d.req.ended b st arg with count := satInc d.req.count } } (d.finishRequest st arg) := by
  unfold Status.tookEffect at hst
  simp only [Device.finishRequest, hp, Request.ended, hwatch, if_pos hst]
  exact records_recordControl (records_controlChoice (records_refl _)) _ _ _

end

theorem calm_withReq {d : Device} (h : d.Calm) (r : Request) (hr : r.watch = none) : ({ d with req := r } : Device).Calm := by
  obtain ⟨⟨hruns, hvis, -⟩, hmem, hfresh, halert⟩ := h
  exact ⟨⟨hruns, hvis, hr⟩, hmem, hfresh, halert⟩

/-- A pending request of the kind, with no PREEMPT watched, has its effect. -/
theorem requestOf_of_pending (d : Device) (kind : Nat) (f : Device → List Byte → Device) (b : List Byte)
    (hp : d.req.pending = some b) (hkind : field b 0 1 = kind) (hwatch : d.req.watch = none) : d.requestOf kind f = f d b := by
  simp only [Device.requestOf, hp, hkind, hwatch, Option.isNone_none, and_self, if_true]

/-! ### The earliest cycle (R698) -/

theorem ceilDiv_le_iff (a b c : Nat) (hb : 0 < b) : ceilDiv a b ≤ c ↔ a ≤ c * b := by
  rw [ceilDiv, ← Nat.ceilDiv_eq_add_pred_div, Nat.mul_comm]
  exact ceilDiv_le_iff_le_mul hb

/-- R698: a change may wait for the boundary of cycle `k`: it is yet to come, by the lead time of 1,000 µs. -/
def Device.ModeAllowed (d : Device) (k : Nat) : Prop := d.itn.k < k ∧ d.now + 1000000 ≤ d.t0 + k * d.cycleNs

/-- The cycles that may be named are those from the earliest on. -/
theorem earliestK_le_iff (d : Device) (k : Nat) (hcycle : 0 < d.cycleNs) : d.earliestK ≤ k ↔ d.ModeAllowed k := by
  rw [Device.earliestK, max_le_iff, ceilDiv_le_iff _ _ _ hcycle, Nat.sub_le_iff_le_add', Nat.succ_le_iff]
  rfl

theorem modeInTime_iff (d : Device) (k : Nat) : d.modeInTime k d.now = true ↔ d.now + 1000000 ≤ d.t0 + k * d.cycleNs :=
  decide_eq_true_iff

/-! ### The outcomes of a change of mode (R475, R698) -/

/-- R475, R698: no change of mode can be asked for, or not this one. -/
def Device.ModeUnsupported (d : Device) (body : List Byte) : Prop :=
  d.phase ≠ .running ∨ d.ctl.replay = true ∨ d.modeAbsent body = true ∨ d.modeRefused body = true

/-- The cycle that a request names, all ones naming the earliest allowed one. -/
def Device.modeCycle (d : Device) (arg : Nat) : Nat := if arg = 0xFFFFFFFF then d.earliestK else arg

/-- The change that waits for cycle `k`. -/
def Device.modeChange (d : Device) (k : Nat) (body : List Byte) : PendingMode :=
  { k := k, fromI3c := true, order := (d.now, d.req.modes.length), body := body }

section
variable (d : Device) (arg : Nat) (body : List Byte)

theorem requestMode_of_unsupported (h : d.ModeUnsupported body) : d.requestMode arg body = d.finishRequest .unsupported arg := by
  refine if_pos ?_
  simpa only [Device.ModeUnsupported, Bool.or_eq_true, decide_eq_true_eq, or_assoc] using h

variable (hsup : ¬ d.ModeUnsupported body)
include hsup

theorem requestMode_of_supported : d.requestMode arg body =
    if 16 ≤ d.req.modes.length then d.finishRequest .noCredit (d.modeCycle arg)
    else if d.modeCycle arg ≤ d.itn.k || !d.modeInTime (d.modeCycle arg) d.now then d.finishRequest .deadlineMiss (d.modeCycle arg)
    else (d.acceptMode (d.modeChange (d.modeCycle arg) body)).finishRequest .ok (d.modeCycle arg) := by
  refine if_neg ?_
  simpa only [Device.ModeUnsupported, Bool.or_eq_true, decide_eq_true_eq, or_assoc] using hsup

theorem requestMode_of_full (hfull : 16 ≤ d.req.modes.length) :
    d.requestMode arg body = d.finishRequest .noCredit (d.modeCycle arg) :=
  (requestMode_of_supported d arg body hsup).trans (if_pos hfull)

variable (hroom : d.req.modes.length < 16)
include hroom

theorem requestMode_of_late (hlate : ¬ d.ModeAllowed (d.modeCycle arg)) :
    d.requestMode arg body = d.finishRequest .deadlineMiss (d.modeCycle arg) := by
  rw [requestMode_of_supported d arg body hsup, if_neg (Nat.not_le.mpr hroom), if_pos]
  rw [Device.ModeAllowed, ← modeInTime_iff, Classical.not_and_iff_not_or_not, Nat.not_lt] at hlate
  simpa using hlate

theorem requestMode_of_allowed (hallowed : d.ModeAllowed (d.modeCycle arg)) : d.requestMode arg body =
    (d.acceptMode (d.modeChange (d.modeCycle arg) body)).finishRequest .ok (d.modeCycle arg) := by
  rw [requestMode_of_supported d arg body hsup, if_neg (Nat.not_le.mpr hroom), if_neg]
  rw [Device.ModeAllowed, ← modeInTime_iff] at hallowed
  obtain ⟨hlater, htime⟩ := hallowed
  simp [Nat.not_le.mpr hlater, htime]

end

/-! ### The command -/

section
variable (t : Nat) (b : List Byte) (s : State) (hs : s.Inv) (hstill : s.dev.Still) (hp : s.dev.req.pending = some b)
  (hkind : field b 0 1 = 5)
include hstill hp hkind

theorem exec_mode : exec (.mode t) s =
    .next (s.withDev ((s.dev.atTime t).requestMode (field b 4 4) (b.drop 8)).pump.settle) := by
  obtain ⟨-, -, hwatch⟩ := hstill
  exact congrArg (fun d : Device => Host.Outcome.next (s.withDev d.pump.settle))
    (requestOf_of_pending (s.dev.atTime t) 5 _ b hp hkind hwatch)

include hs

/-- R698: a request without effect leaves its status and its argument, and no change waits. -/
theorem exec_mode_of_no_effect (st : Status) (n : Nat) (hst : ¬ st.tookEffect)
    (h : (s.dev.atTime t).requestMode (field b 4 4) (b.drop 8) = (s.dev.atTime t).finishRequest st n) :
    exec (.mode t) s = .next (s.withDev { s.dev.atTime t with req := s.dev.req.ended b st n }) := by
  obtain ⟨-, -, hwatch⟩ := id hstill
  rw [exec_mode t b s hstill hp hkind, h, finishRequest_of_no_effect (s.dev.atTime t) b st n hp hwatch hst, Device.atTime_req,
    calm_pump_settle (calm_withReq (calm_atTime s t hs hstill) (s.dev.req.ended b st n) hwatch)]

/-- R698: an accepted change waits for its boundary; but for what is recorded, nothing else changes. -/
theorem exec_mode_of_allowed (k : Nat) (h : (s.dev.atTime t).requestMode (field b 4 4) (b.drop 8) =
      ((s.dev.atTime t).acceptMode ((s.dev.atTime t).modeChange k (b.drop 8))).finishRequest .ok k) :
    ∃ d, exec (.mode t) s = .next (s.withDev d) ∧ Device.Records { s.dev.atTime t with req := { s.dev.req.ended b .ok k with
      count := satInc s.dev.req.count
      modes := s.dev.req.modes ++ [(s.dev.atTime t).modeChange k (b.drop 8)] } } d := by
  obtain ⟨-, -, hwatch⟩ := id hstill
  have hrec := finishRequest_of_effect ((s.dev.atTime t).acceptMode ((s.dev.atTime t).modeChange k (b.drop 8))) b .ok k hp hwatch
    (.inl rfl)
  have hcalm := hrec.calm (calm_withReq (calm_atTime s t hs hstill) _ hwatch)
  exact ⟨_, by rw [exec_mode t b s hstill hp hkind, h, calm_pump_settle hcalm], hrec⟩

end

/-- Settles O54: the outcomes of `requestMode`, each through the end of its request; a cycle may be named just when it is not before
the earliest one. -/
theorem modeRequestWaits : Obligations.ModeRequestWaits := by
  intro t b s hs hstill hp hkind d arg body k refused ends
  have hends (st : Status) (n : Nat) (hst : ¬ st.tookEffect) (h : d.requestMode arg body = d.finishRequest st n) : ends st n :=
    exec_mode_of_no_effect t b s hs hstill hp hkind st n hst h
  refine ⟨fun harg hcycle => ?_, fun href => ?_, fun hsup => ⟨fun hfull => ?_, fun hroom =>
    ⟨fun hlate => ?_, fun hlater htime => ?_⟩⟩⟩
  · have hk : k = d.earliestK := if_pos harg
    obtain ⟨hlater, htime⟩ := (earliestK_le_iff d k hcycle).mp hk.ge
    exact ⟨hlater, htime, fun j hj hjtime => hk.trans_le ((earliestK_le_iff d j hcycle).mpr ⟨hj, hjtime⟩)⟩
  · exact hends .unsupported arg (by simp [Status.tookEffect]) (requestMode_of_unsupported d arg body href)
  · exact hends .noCredit k (by simp [Status.tookEffect]) (requestMode_of_full d arg body hsup hfull)
  · refine hends .deadlineMiss k (by simp [Status.tookEffect]) (requestMode_of_late d arg body hsup hroom fun hallowed => ?_)
    obtain ⟨hlater, htime⟩ := hallowed
    exact hlate.elim (Nat.not_le.mpr hlater) (Nat.not_lt.mpr htime)
  · obtain ⟨e, hexec, c, r, l, rfl⟩ := exec_mode_of_allowed t b s hs hstill hp hkind k
      (requestMode_of_allowed d arg body hsup hroom ⟨hlater, htime⟩)
    exact ⟨_, hexec, rfl, rfl, rfl, rfl, rfl, rfl⟩

end Sys2Proof.Machine
end

section
/-! SUPPORT. In-band interrupts: the order of the events of one instant (R684), and what raising the oldest event does to the queue
(R682, R683, R687). -/
namespace Sys2Proof.Machine

/-! ### Sorts by a key -/

theorem insertBy_eq_orderedInsert {α : Type} (lt : α → α → Bool) (x : α) (l : List α) :
    insertBy lt x l = l.orderedInsert (fun a b => lt a b = true) x := by
  induction l with
  | nil => rfl
  | cons y ys ih => rw [insertBy, List.orderedInsert_cons, ih]

theorem sortBy_eq_insertionSort {α : Type} (lt : α → α → Bool) (l : List α) :
    sortBy lt l = l.reverse.insertionSort (fun a b => lt a b = true) := by
  simp only [sortBy, insertBy_eq_orderedInsert, List.insertionSort, List.foldr_reverse]

theorem sortBy_perm {α : Type} (lt : α → α → Bool) (l : List α) : (sortBy lt l).Perm l := by
  rw [sortBy_eq_insertionSort]
  exact (List.perm_insertionSort _ _).trans l.reverse_perm

section
variable {α : Type} (key : α → Nat)

/-- The keys of a list do not fall. -/
def KeysRise (l : List α) : Prop := l.Pairwise (fun a b => key a ≤ key b)

theorem keysRise_insertBy (x : α) (l : List α) (h : KeysRise key l) :
    KeysRise key (insertBy (fun a b => decide (key a < key b)) x l) := by
  induction l with
  | nil => exact List.pairwise_singleton _ _
  | cons y ys ih =>
    obtain ⟨hy, hys⟩ := List.pairwise_cons.mp h
    by_cases hlt : key x < key y
    · simp only [insertBy, hlt, decide_true, if_true]
      refine List.pairwise_cons.mpr ⟨fun z hz => ?_, h⟩
      rcases List.mem_cons.mp hz with rfl | hz
      · exact hlt.le
      · exact hlt.le.trans (hy z hz)
    · simp only [insertBy, hlt, decide_false, Bool.false_eq_true, if_false]
      refine List.pairwise_cons.mpr ⟨fun z hz => ?_, ih hys⟩
      rw [insertBy_eq_orderedInsert, List.mem_orderedInsert] at hz
      rcases hz with rfl | hz
      · exact Nat.not_lt.mp hlt
      · exact hy z hz

theorem keysRise_sortBy (l : List α) : KeysRise key (sortBy (fun a b => decide (key a < key b)) l) :=
  List.foldlRecOn l _ List.Pairwise.nil fun acc h x _ => keysRise_insertBy key x acc h

end

/-! ### The events of one instant (R684) -/

/-- An event takes the SEQ value of the place of another. -/
def takeSeq (p : IbiEvent × IbiEvent) : IbiEvent := { p.1 with seq := p.2.seq }

/-- What an event is apart from its SEQ value. -/
def IbiEvent.body (x : IbiEvent) : Event × Nat × Nat × Nat × Option Nat := (x.event, x.arg0, x.arg1, x.arg2, x.at_)

section
variable (now : Nat) (q : List IbiEvent)

/-- The events queued at other instants, and those that have been raised. -/
def otherEvents : List IbiEvent := q.filter (fun x => x.at_ ≠ some now)

/-- The events queued at an instant and not yet raised. -/
def eventsOf : List IbiEvent := q.filter (fun x => x.at_ = some now)

/-- Those events by rank. -/
def eventsByRank : List IbiEvent := sortBy (fun a b => decide (eventRank a.event < eventRank b.event)) (eventsOf now q)

theorem eventsInOrder_eq :
    eventsInOrder now q = otherEvents now q ++ ((eventsByRank now q).zip (eventsOf now q)).map takeSeq := rfl

theorem eventsByRank_perm : (eventsByRank now q).Perm (eventsOf now q) := sortBy_perm _ _

/-- The places keep their SEQ values. -/
theorem map_seq_zip_eventsByRank : (((eventsByRank now q).zip (eventsOf now q)).map takeSeq).map (·.seq) =
    (eventsOf now q).map (·.seq) := by
  calc (((eventsByRank now q).zip (eventsOf now q)).map takeSeq).map (·.seq)
      = (((eventsByRank now q).zip (eventsOf now q)).map Prod.snd).map (·.seq) := by
        rw [List.map_map, List.map_map]
        rfl
    _ = (eventsOf now q).map (·.seq) := by rw [List.map_snd_zip (eventsByRank_perm now q).length_eq.ge]

/-- But for the SEQ values, the events are those of the sort. -/
theorem map_body_zip_eventsByRank : (((eventsByRank now q).zip (eventsOf now q)).map takeSeq).map IbiEvent.body =
    (eventsByRank now q).map IbiEvent.body := by
  calc (((eventsByRank now q).zip (eventsOf now q)).map takeSeq).map IbiEvent.body
      = (((eventsByRank now q).zip (eventsOf now q)).map Prod.fst).map IbiEvent.body := by
        rw [List.map_map, List.map_map]
        rfl
    _ = (eventsByRank now q).map IbiEvent.body := by rw [List.map_fst_zip (eventsByRank_perm now q).length_eq.le]

theorem map_seq_eventsInOrder :
    (eventsInOrder now q).map (·.seq) = (otherEvents now q).map (·.seq) ++ (eventsOf now q).map (·.seq) := by
  rw [eventsInOrder_eq, List.map_append, map_seq_zip_eventsByRank]

theorem eventsInOrder_perm : ((eventsInOrder now q).map IbiEvent.body).Perm (q.map IbiEvent.body) := by
  have hparts : (otherEvents now q ++ eventsOf now q).Perm q := by
    have h := List.filter_append_perm (fun x : IbiEvent => decide (x.at_ = some now)) q
    simp only [← decide_not] at h
    exact List.perm_append_comm.trans h
  calc (eventsInOrder now q).map IbiEvent.body
      = (otherEvents now q ++ eventsByRank now q).map IbiEvent.body := by
        rw [eventsInOrder_eq, List.map_append, map_body_zip_eventsByRank, List.map_append]
    List.Perm _ ((otherEvents now q ++ eventsOf now q).map IbiEvent.body) :=
        ((eventsByRank_perm now q).append_left _).map _
    List.Perm _ (q.map IbiEvent.body) := hparts.map _

/-- `x` may stand before `y`: an event of the instant stands only before others of it, of no lower rank. -/
def IbiEvent.MayPrecede (x y : IbiEvent) : Prop := x.at_ = some now → y.at_ = some now ∧ eventRank x.event ≤ eventRank y.event

theorem eventsInOrder_pairwise : (eventsInOrder now q).Pairwise (IbiEvent.MayPrecede now) := by
  have hother : ∀ x ∈ otherEvents now q, x.at_ ≠ some now := fun x hx => of_decide_eq_true (List.mem_filter.mp hx).2
  have hat : ∀ x ∈ eventsByRank now q, x.at_ = some now := fun x hx =>
    of_decide_eq_true (List.mem_filter.mp ((eventsByRank_perm now q).subset hx)).2
  have hrank : (eventsByRank now q).Pairwise (fun x y => eventRank x.event ≤ eventRank y.event) :=
    keysRise_sortBy (fun x : IbiEvent => eventRank x.event) _
  have hsorted : (eventsByRank now q).Pairwise (IbiEvent.MayPrecede now) :=
    hrank.imp_of_mem fun _ hy hle _ => ⟨hat _ hy, hle⟩
  have hplaced : (((eventsByRank now q).zip (eventsOf now q)).map takeSeq).Pairwise (IbiEvent.MayPrecede now) := by
    rw [← List.map_fst_zip (eventsByRank_perm now q).length_eq.le, List.pairwise_map] at hsorted
    exact List.pairwise_map.mpr hsorted
  have hothers : (otherEvents now q).Pairwise (IbiEvent.MayPrecede now) :=
    List.pairwise_iff_forall_sublist.mpr fun {x _} hxy h => absurd h (hother x (hxy.subset List.mem_cons_self))
  rw [eventsInOrder_eq]
  exact List.pairwise_append.mpr ⟨hothers, hplaced, fun x hx _ _ h => absurd h (hother x hx)⟩

end

/-! ### The oldest event is raised (R682, R683, R687) -/

section
variable (t n : Nat) (acked : Bool) (e : IbiEvent) (rest : List IbiEvent) (s : State) (hs : s.Inv)
include hs

/-- A command of the I3C target that raises no event closes with no further change. -/
theorem settle_modI3c (f : I3c → I3c) (hf : (f s.dev.i3c).fresh = s.dev.i3c.fresh) :
    ((s.dev.atTime t).modI3c f).settle = (s.dev.atTime t).modI3c f := by
  obtain ⟨hmem, hfresh, halert⟩ := hs
  exact settle_of_quiet ((s.dev.atTime t).modI3c f) hmem (hf.trans hfresh) halert

/-- R683: without a dynamic address or with ENINT clear, no interrupt is raised. -/
theorem exec_ibi_of_disabled (h : s.dev.i3c.dynAddr = none ∨ s.dev.i3c.enint = false) :
    exec (.ibi t acked n) s = .next (s.withDev (s.dev.atTime t)) := by
  have hclosed : (s.dev.atTime t).settle = s.dev.atTime t := settle_modI3c t s hs id rfl
  rw [← hclosed]
  refine congrArg (fun d : Device => Host.Outcome.next (s.withDev d.settle)) (if_neg ?_)
  rcases h with h | h
  · simp [h]
  · simp [h]

variable (hphase : s.dev.phase ≠ .off) (hq : s.dev.i3c.queue = e :: rest) (haddr : s.dev.i3c.dynAddr.isSome = true)
  (hen : s.dev.i3c.enint = true)
include hphase hq haddr hen

/-- R687: an event that the controller does not take stays at the head. -/
theorem exec_ibi_of_nacked : exec (.ibi t false n) s = .next (s.withDev ((s.dev.atTime t).modI3c (fun r =>
    { r with queue := { e with at_ := none } :: rest }))) := by
  rw [← settle_modI3c t s hs _ (by rfl)]
  refine congrArg (fun d : Device => Host.Outcome.next (s.withDev d.settle)) ?_
  simp [Device.guard, hphase, haddr, hen, hq]

/-- R687: the event's payload is read, and only an event that was read whole leaves. -/
theorem exec_ibi_of_acked : exec (.ibi t true n) s = .next (s.withDev ((s.dev.atTime t).modI3c (fun r =>
    { r with reply := e.bytes.take n, queue := if 8 ≤ n then rest else { e with at_ := none } :: rest }))) := by
  rw [← settle_modI3c t s hs _ (by rfl)]
  refine congrArg (fun d : Device => Host.Outcome.next (s.withDev d.settle)) ?_
  by_cases hwhole : 8 ≤ n
  · simp [Device.guard, hphase, haddr, hen, hq, hwhole, Device.answerBytes, Device.modI3c]
  · simp [Device.guard, hphase, haddr, hen, hq, hwhole, Device.answerBytes, Device.modI3c]

end

/-- Settles O58: one lemma per outcome of the command, and the order of the queue from the parts of `eventsInOrder`, the events of the
instant being sorted by rank. -/
theorem interruptsRaised : Obligations.InterruptsRaised := by
  intro t n acked e rest s hs hphase hq
  refine ⟨?_, ?_, exec_ibi_of_disabled t n acked s hs, fun q => ⟨map_seq_eventsInOrder _ q, eventsInOrder_perm _ q,
    eventsInOrder_pairwise _ q⟩⟩
  · rintro ⟨haddr, hen, rfl⟩
    exact exec_ibi_of_acked t n e rest s hs hphase hq haddr hen
  · rintro haddr hen rfl
    exact exec_ibi_of_nacked t n e rest s hs hphase hq haddr hen

end Sys2Proof.Machine
end

section
/-! SUPPORT. Resets by the pins (R706, R710): a low pulse of RESET_N and a falling PWR_OK. -/
namespace Sys2Proof.Machine

/-! ### What a reset leaves closes unchanged -/

/-- R712: ALERT_N is high before the lock of a boot and while PWR_OK is low. -/
theorem alert_of_before_lock (d : Device) (h : d.phase = .preLock ∨ d.phase = .off) : d.alert = false := by
  rcases h with h | h
  · simp [Device.alert, h]
  · simp [Device.alert, h]

/-- A device without memory, without events and with ALERT_N high closes unchanged, if it stands before the lock or is off. -/
theorem settle_of_before_lock (d : Device) (hphase : d.phase = .preLock ∨ d.phase = .off) (hmem : d.store.mem = [])
    (hfresh : d.i3c.fresh = []) (hlow : d.pins.alertLow = false) : d.settle = d := by
  have hwf : Memory.wf d.store.mem = true := by rw [hmem]; exact reset_memory_wf
  exact settle_of_quiet d hwf hfresh (hlow.trans (alert_of_before_lock d hphase).symm)

/-! ### RESET_N (R706) -/

section
variable (t n : Nat) (s : State)

/-- A pulse that the device ignores moves the time base alone. -/
theorem exec_resetNAssert_of_ignored (hs : s.Inv) (hshort : n < 100) :
    exec (.resetNAssert t n) s = .next (s.withDev (s.dev.atTime t)) := by
  obtain ⟨hmem, hfresh, halert⟩ := hs
  have hcloses : s.run t (fun d => d) = s.withDev (s.dev.atTime t) := run_eq s t _ (s.dev.atTime t) rfl hmem hfresh halert
  exact (if_pos hshort).trans (congrArg Host.Outcome.next hcloses)

theorem exec_resetNAssert_of_forbidden (hlow : 100 ≤ n) (hhigh : n < 1000) :
    exec (.resetNAssert t n) s = .fault .resetPulseForbidden :=
  (if_neg hlow.not_gt).trans (if_pos hhigh)

/-- The device at the release of RESET_N: it stands before its lock, or stays off while PWR_OK is low, and its xSPI pins float
(R634, R637). -/
def Device.heldInReset (d : Device) : Device :=
  let r := Device.reset d.store.nor d.pins.powerUp d.store.freeCtr
  { r with phase := if d.phase = .off then .off else .preLock, pins := { r.pins with xspiFloating := true } }

theorem settle_heldInReset (d : Device) : d.heldInReset.settle = d.heldInReset := by
  refine settle_of_before_lock d.heldInReset ?_ rfl rfl rfl
  by_cases hoff : d.phase = .off
  · exact .inr (if_pos hoff)
  · exact .inl (if_neg hoff)

theorem exec_resetNAssert_of_reset (hlong : 1000 ≤ n) :
    exec (.resetNAssert t n) s = .next (s.withDev s.dev.heldInReset) := by
  have hvalid : ¬ n < 100 := by omega
  rw [← settle_heldInReset]
  exact (if_neg hvalid).trans (if_neg hlong.not_gt)

/-! ### PWR_OK (R710) -/

/-- The device once PWR_OK has fallen: off, its lasers off and its xSPI pins floating, and its PUF cells powered up anew by the
time it boots (Table 15.13). -/
def Device.poweredDown (d : Device) : Device :=
  let r := Device.reset d.store.nor (d.pins.powerUp + 1) d.store.freeCtr
  { r with phase := .off, pins := { r.pins with lasersOn := false, xspiFloating := true } }

theorem settle_poweredDown (d : Device) : d.poweredDown.settle = d.poweredDown :=
  settle_of_before_lock d.poweredDown (.inr rfl) rfl rfl rfl

theorem exec_pwrOkFall : exec (.pwrOkFall t) s = .next (s.withDev s.dev.poweredDown) := by
  rw [← settle_poweredDown]
  rfl

end

/-- Settles O7: one lemma per length of the pulse and one for PWR_OK; what a reset leaves closes with no further change. -/
theorem resetsKeepOnlyNor : Obligations.ResetsKeepOnlyNor :=
  ⟨fun t n s hs => ⟨exec_resetNAssert_of_ignored t n s hs, exec_resetNAssert_of_forbidden t n s, exec_resetNAssert_of_reset t n s⟩,
    exec_pwrOkFall⟩

end Sys2Proof.Machine
end

section
/-! SUPPORT. The queue and the invariant (O1 to O4), a write and what it reads as (O5) and the seals that a write leaves (R595, R600). -/
namespace Sys2Proof.Machine

/-! ### The queue, the stops and the reset -/

/-- Every command but a forbidden pulse of RESET_N is a change of the device at its instant, closed. -/
theorem exec_eq_run (c : Instr) (s : State) (h : ∀ t n, c = .resetNAssert t n → n < 100 ∨ 1000 ≤ n) :
    ∃ t f, exec c s = .next (s.run t f) := by
  cases c
  case resetNAssert t n =>
    rcases h t n rfl with hshort | hlong
    · exact ⟨t, _, if_pos hshort⟩
    · exact ⟨t, _, (if_neg (by omega)).trans (if_neg hlong.not_gt)⟩
  all_goals exact ⟨_, _, rfl⟩

/-- What a command answers, if it answers a next state, is a closed change of the device. -/
theorem run_of_exec (c : Instr) (s s' : State) (h : exec c s = .next s') : ∃ t f, s' = s.run t f := by
  by_cases hpulse : ∀ t n, c = .resetNAssert t n → n < 100 ∨ 1000 ≤ n
  · obtain ⟨t, f, hrun⟩ := exec_eq_run c s hpulse
    exact ⟨t, f, Host.Outcome.next.inj (h.symm.trans hrun)⟩
  · push Not at hpulse
    obtain ⟨t, n, rfl, hlow, hhigh⟩ := hpulse
    cases (exec_resetNAssert_of_forbidden t n s hlow hhigh).symm.trans h

/-- Settles O1: by the equations of `step`. -/
theorem stepRunsFrontCommand : Obligations.StepRunsFrontCommand := by
  refine ⟨fun c rest s => rfl, fun s h => ?_⟩
  rw [step, h]

/-- Settles O2: every other command is a closed change of the device, which keeps the queue. -/
theorem commandsEndWithQueueKept : Obligations.CommandsEndWithQueueKept := by
  refine ⟨fun c s => ⟨?_, fun h => ?_⟩, fun c s s' h => ?_⟩
  · rintro t n rfl hlow hhigh
    exact exec_resetNAssert_of_forbidden t n s hlow hhigh
  · obtain ⟨t, f, hrun⟩ := exec_eq_run c s h
    exact ⟨_, hrun⟩
  · obtain ⟨t, f, rfl⟩ := run_of_exec c s s' h
    exact State.run_pending s t f

/-- Settles O3: the close of a command makes the invariant, whatever the command did before it. -/
theorem stepKeepsInvariant : Obligations.StepKeepsInvariant := by
  intro s s' hs hstep
  rw [step] at hstep
  split at hstep
  · cases hstep
    exact hs
  · obtain ⟨t, f, rfl⟩ := run_of_exec _ _ s' hstep
    exact run_inv _ t f

theorem vget_replicate {α : Type} {n : Nat} (i : Nat) (x : α) : vget (Vector.replicate n x) i x = x := by
  by_cases h : i < n <;> simp [vget, h]

/-- Settles O4: every value is a field of the reset state. -/
theorem resetValues : Obligations.ResetValues := by
  have hbudget : ∀ m < 73, ∀ q < 4, vget (vget State.reset.dev.toll.meters m .reset).budget q 0 = 0xFFFFFFFF := by
    intro m _
    have hmeter : vget State.reset.dev.toll.meters m .reset = .reset := vget_replicate m _
    rw [hmeter]
    decide
  have hlanes : ∀ n < 24, (State.reset.dev.txLane n).state = .dark ∧ (State.reset.dev.rxLane n).state = .dark := by decide
  exact ⟨⟨reset_memory_wf, rfl, rfl⟩, rfl, rfl, rfl, rfl, rfl, rfl, rfl, rfl, rfl, hbudget, rfl, rfl, rfl, rfl, hlanes⟩

/-! ### Memory -/

/-- Settles O5. -/
theorem writeThenRead : Obligations.WriteThenRead :=
  fun d a bs hwf => ⟨device_write_get_in d a bs, device_write_get_out d a bs, device_write_wf d a bs hwf⟩

/-! ### Shares of a seal (R595) -/

/-- The share of one byte in A, and in B, of the seal of the tile at `tile`. -/
def byteShareA (tile : Nat) (c : Nat × Byte) : Nat := c.2.toNat * 2 ^ (8 * ((c.1 - tile) % 4))
def byteShareB (tile : Nat) (c : Nat × Byte) : Nat := ((c.1 - tile) / 4 + 1) * byteShareA tile c

theorem sealShare_eq (tile : Nat) (l : List (Nat × Byte)) :
    sealShare tile l = ((l.map (byteShareA tile)).sum % 2 ^ 32, (l.map (byteShareB tile)).sum % 2 ^ 32) := by
  suffices h : ∀ s : Nat × Nat, l.foldl (fun s c =>
      let o := c.1 - tile
      let w := c.2.toNat * 2 ^ (8 * (o % 4))
      ((s.1 + w) % 2 ^ 32, (s.2 + (o / 4 + 1) * w) % 2 ^ 32)) (s.1 % 2 ^ 32, s.2 % 2 ^ 32) =
      ((s.1 + (l.map (byteShareA tile)).sum) % 2 ^ 32, (s.2 + (l.map (byteShareB tile)).sum) % 2 ^ 32) by
    have h0 := h (0, 0)
    simp only [Nat.zero_add] at h0
    exact h0
  induction l with
  | nil => simp
  | cons c l ih =>
    intro s
    have hc := ih (s.1 + byteShareA tile c, s.2 + byteShareB tile c)
    simp only [List.foldl_cons, List.map_cons, List.sum_cons, Nat.mod_add_mod, ← Nat.add_assoc]
    exact hc

/-- What the entries of a window give, as a sum over all entries. -/
theorem sum_window_eq (f : Nat × Byte → Nat) (m : List (Nat × Byte)) (a n : Nat) :
    ((memWindow m a n).map f).sum = (m.map (fun c => if a ≤ c.1 ∧ c.1 < a + n then f c else 0)).sum := by
  induction m with
  | nil => rfl
  | cons c m ih =>
    rw [memWindow] at ih ⊢
    by_cases hc : a ≤ c.1 ∧ c.1 < a + n
    · simp [hc, ih]
    · rw [List.filter_cons_of_neg (by simpa using hc), ih]
      simp [hc]

/-- A window gives what its two parts give. -/
theorem sum_window_add (f : Nat × Byte → Nat) (m : List (Nat × Byte)) (a n k : Nat) :
    ((memWindow m a (n + k)).map f).sum = ((memWindow m a n).map f).sum + ((memWindow m (a + n) k).map f).sum := by
  rw [sum_window_eq, sum_window_eq, sum_window_eq, ← List.sum_map_add]
  refine congrArg List.sum (List.map_congr_left fun c _ => ?_)
  by_cases hlow : c.1 < a + n
  · by_cases ha : a ≤ c.1 <;> simp [hlow, ha, show ¬ a + n ≤ c.1 by omega, show c.1 < a + (n + k) by omega]
  · simp [hlow, show a ≤ c.1 by omega, show a + n ≤ c.1 by omega, Nat.add_assoc]

/-- Outside the bytes written, a window holds what it held. -/
theorem memWindow_memPut_out (m : List (Nat × Byte)) (a x n : Nat) (bs : List Byte) (h : x + n ≤ a ∨ a + bs.length ≤ x) :
    memWindow (memPut m a bs) x n = memWindow m x n := by
  have hlisted : (memListed a bs).filter (fun c => decide (x ≤ c.1) && decide (c.1 < x + n)) = [] := by
    rw [List.filter_eq_nil_iff]
    intro c hc
    have hrun := memListed_mem a bs c hc
    simp only [Bool.and_eq_true, decide_eq_true_eq]
    omega
  have hnone (p : Nat × Byte → Bool) (hp : ∀ c, p c = false) : m.filter p = [] :=
    List.filter_eq_nil_iff.mpr fun c _ => by simp [hp c]
  simp only [memWindow, memPut, List.filter_append, hlisted, List.nil_append, List.filter_filter]
  rcases h with h | h
  · rw [hnone (fun c => decide (x ≤ c.1) && decide (c.1 < x + n) && decide (a + bs.length ≤ c.1))
      (fun c => by simp only [Bool.and_eq_false_iff, decide_eq_false_iff_not]; omega), List.append_nil]
    refine List.filter_congr fun c _ => ?_
    by_cases hc : c.1 < x + n
    · simp [show c.1 < a by omega]
    · simp [hc]
  · rw [hnone (fun c => decide (x ≤ c.1) && decide (c.1 < x + n) && decide (c.1 < a))
      (fun c => by simp only [Bool.and_eq_false_iff, decide_eq_false_iff_not]; omega), List.nil_append]
    refine List.filter_congr fun c _ => ?_
    by_cases hc : x ≤ c.1
    · simp [show a + bs.length ≤ c.1 by omega]
    · simp [hc]

/-- In the bytes written, a window holds what is listed of them. -/
theorem memWindow_memPut_in (m : List (Nat × Byte)) (a : Nat) (bs : List Byte) :
    memWindow (memPut m a bs) a bs.length = memListed a bs := by
  have hlisted : (memListed a bs).filter (fun c => decide (a ≤ c.1) && decide (c.1 < a + bs.length)) = memListed a bs := by
    rw [List.filter_eq_self]
    intro c hc
    have hrun := memListed_mem a bs c hc
    simp [hrun.1, hrun.2.1]
  simp only [memWindow, memPut, List.filter_append, hlisted, List.filter_filter]
  rw [List.filter_eq_nil_iff.mpr (by intro c _; simp only [Bool.and_eq_true, decide_eq_true_eq]; omega),
    List.filter_eq_nil_iff.mpr (by intro c _; simp only [Bool.and_eq_true, decide_eq_true_eq]; omega), List.nil_append, List.append_nil]

/-- A write within a window changes what the window gives by what the bytes give, less what those before them gave. -/
theorem sum_window_memPut (f : Nat × Byte → Nat) (m : List (Nat × Byte)) (a x n : Nat) (bs : List Byte) (hlow : x ≤ a)
    (hhigh : a + bs.length ≤ x + n) :
    ((memWindow (memPut m a bs) x n).map f).sum + ((memWindow m a bs.length).map f).sum =
      ((memWindow m x n).map f).sum + ((memListed a bs).map f).sum := by
  obtain ⟨k, rfl⟩ := Nat.exists_eq_add_of_le hlow
  obtain ⟨j, hj⟩ := Nat.exists_eq_add_of_le hhigh
  obtain rfl : n = k + (bs.length + j) := by omega
  simp only [sum_window_add, memWindow_memPut_in, memWindow_memPut_out _ _ x k bs (.inl (Nat.le_refl _)),
    memWindow_memPut_out _ _ (x + k + bs.length) j bs (.inr (Nat.le_refl _))]
  omega

/-! ### Seals after a write (R595, R600) -/

/-- What a filter that keeps every entry of a key finds for it. -/
theorem find_key_filter (l : List (Nat × BitVec 64)) (x : Nat) (p : Nat × BitVec 64 → Bool) (h : ∀ v, p (x, v) = true) :
    (l.filter p).find? (fun c => c.1 = x) = l.find? (fun c => c.1 = x) := by
  rw [List.find?_filter]
  congr 1
  funext c
  by_cases hc : c.1 = x
  · have hp := h c.2
    rw [← hc] at hp
    simp [hc, hp]
  · simp [hc]

theorem find_key_filter_none (l : List (Nat × BitVec 64)) (x : Nat) (p : Nat × BitVec 64 → Bool) (h : ∀ v, p (x, v) = false) :
    (l.filter p).find? (fun c => c.1 = x) = none := by
  rw [List.find?_filter, List.find?_eq_none]
  intro c _ hc
  obtain ⟨hp, rfl⟩ : p c = true ∧ c.1 = x := by simpa using hc
  exact absurd hp (by rw [h c.2]; decide)

theorem sealGet_sealPut_same (st : Store) (tile : Nat) (v : BitVec 64) : sealGet (sealPut st tile v) tile = v := by
  by_cases hv : v = sealFill st tile
  · simp only [sealGet, sealPut, if_pos hv, find_key_filter_none st.seals tile (fun c => c.1 ≠ tile) (by simp)]
    exact hv.symm
  · simp only [sealGet, sealPut, if_neg hv, List.find?_append, find_key_filter_none _ tile (fun c => c.1 < tile) (by simp),
      List.find?_cons_of_pos (p := fun c : Nat × BitVec 64 => decide (c.1 = tile)) (a := (tile, v)) (by simp), Option.none_or]

theorem sealGet_sealPut_other (st : Store) (tile x : Nat) (v : BitVec 64) (h : x ≠ tile) :
    sealGet (sealPut st tile v) x = sealGet st x := by
  have hfind : (sealPut st tile v).seals.find? (fun c => c.1 = x) = st.seals.find? (fun c => c.1 = x) := by
    have hrest := find_key_filter st.seals x (fun c => c.1 ≠ tile) (by simpa using h)
    rw [sealPut]
    split
    · exact hrest
    · rw [List.find?_append, List.find?_cons_of_neg (by simpa using h.symm)]
      rcases Nat.lt_or_gt_of_ne h with hlt | hgt
      · rw [find_key_filter _ x _ (by simpa using hlt), hrest,
          find_key_filter_none _ x _ (by simpa using hlt.le), Option.or_none]
      · rw [find_key_filter_none _ x _ (by simpa using hgt.le), find_key_filter _ x _ (by simpa using hgt), hrest, Option.none_or]
  rw [sealGet, sealGet, hfind]
  rfl

/-- R595: the stored seal of a tile agrees with its words, in a store. -/
def Store.agrees (st : Store) (regs : SealRegs) (tile : Nat) : Prop :=
  sealGet st tile = sealOf st.mem tile (regs.gen (domainOf tile))

theorem sealed_iff (d : Device) (tile : Nat) : d.sealed tile = true ↔ d.store.agrees d.sealRegs tile := by
  simp [Device.sealed, Store.agrees]

/-- All addresses of a tile lie in one region: every region begins and ends at a tile. -/
theorem regionOf_tile (a : Nat) : regionOf (a / tileBytes * tileBytes) = regionOf a := by
  have hcmp (b : Nat) (h : b % 16384 = 0) :
      (a / 16384 * 16384 < b ↔ a < b) ∧ (b ≤ a / 16384 * 16384 ↔ b ≤ a) := by omega
  change regionOf (a / 16384 * 16384) = regionOf a
  simp only [regionOf, (hcmp dramEnd rfl).1, (hcmp 0x300000000 rfl).1, (hcmp wellBase rfl).2, (hcmp (wellBase + wellBytes) rfl).1,
    (hcmp localBase rfl).2, (hcmp (localBase + scratchBytes) rfl).1, (hcmp 0x900000000 rfl).2, (hcmp 0x90C000000 rfl).1,
    (hcmp 0xF00000000 rfl).2, (hcmp 0xF10000000 rfl).1]
  by_cases hscratch : 0x900000000 ≤ a
  · have hbank : (a / 16384 * 16384 - 0x900000000) / 0x2000000 = (a - 0x900000000) / 0x2000000 := by omega
    have hroom : (a / 16384 * 16384 - 0x900000000) % 0x2000000 < scratchBytes ↔ (a - 0x900000000) % 0x2000000 < scratchBytes := by
      simp only [scratchBytes]
      omega
    simp only [hbank, hroom]
  · simp [hscratch]

theorem domainOf_tile (a : Nat) : domainOf (a / tileBytes * tileBytes) = domainOf a := by
  rw [domainOf, domainOf, regionOf_tile]

theorem sealPack_congr {a b a' b' : Nat} (ha : a % 2 ^ 32 = a' % 2 ^ 32) (hb : b % 2 ^ 32 = b' % 2 ^ 32) :
    sealPack a b = sealPack a' b' := by
  rw [sealPack, sealPack, ha, hb]

theorem sealPack_toNat (a b : Nat) : (sealPack a b).toNat % 2 ^ 32 = a % 2 ^ 32 ∧ (sealPack a b).toNat / 2 ^ 32 = b % 2 ^ 32 := by
  rw [sealPack, BitVec.toNat_ofNat]
  omega

/-- A part of a seal from its old value, what is written and what stood there. -/
theorem seal_part_of_difference (base x y new old : Nat) (h : y + old = x + new) :
    ((base + x) % 2 ^ 32 + new % 2 ^ 32 + (2 ^ 32 - old % 2 ^ 32)) % 2 ^ 32 = (base + y) % 2 ^ 32 := by
  omega

theorem sealOf_eq (m : List (Nat × Byte)) (tile g : Nat) : sealOf m tile g =
    sealPack (tile / tileBytes + ((memWindow m tile tileBytes).map (byteShareA tile)).sum)
      (g + ((memWindow m tile tileBytes).map (byteShareB tile)).sum) := by
  rw [sealOf, sealShare_eq]
  exact sealPack_congr (by omega) (by omega)

/-- R600: a write that covers a tile sets its seal from the bytes written. -/
theorem writeInTile_agrees_full (st : Store) (regs : SealRegs) (k : Nat) (bs : List Byte) (hfull : bs.length = tileBytes) :
    (st.writeInTile (regs.gen (domainOf (k * tileBytes))) (k * tileBytes) bs).agrees regs (k * tileBytes) := by
  have htile : k * tileBytes / tileBytes * tileBytes = k * tileBytes := by rw [Nat.mul_div_cancel k (by decide)]
  have hin := memWindow_memPut_in st.mem (k * tileBytes) bs
  rw [hfull] at hin
  simp only [Store.agrees, Store.writeInTile, htile, sealGet_sealPut_same, sealPut_mem, if_pos hfull, sealOf, hin]

/-- R600: a partial write adds to the seal of its tile what it changes, so that an agreeing seal goes on agreeing. -/
theorem writeInTile_agrees_part (st : Store) (regs : SealRegs) (a : Nat) (bs : List Byte)
    (hroom : a % tileBytes + bs.length ≤ tileBytes) (hpart : bs.length ≠ tileBytes)
    (h : st.agrees regs (a / tileBytes * tileBytes)) :
    (st.writeInTile (regs.gen (domainOf a)) a bs).agrees regs (a / tileBytes * tileBytes) := by
  have hdiv := Nat.div_add_mod' a tileBytes
  have hsumA := sum_window_memPut (byteShareA (a / tileBytes * tileBytes)) st.mem a (a / tileBytes * tileBytes) tileBytes bs
    (by omega) (by omega)
  have hsumB := sum_window_memPut (byteShareB (a / tileBytes * tileBytes)) st.mem a (a / tileBytes * tileBytes) tileBytes bs
    (by omega) (by omega)
  rw [Store.agrees, sealOf_eq] at h
  have hcur := sealPack_toNat (a / tileBytes * tileBytes / tileBytes +
    ((memWindow st.mem (a / tileBytes * tileBytes) tileBytes).map (byteShareA (a / tileBytes * tileBytes))).sum)
    (regs.gen (domainOf a) + ((memWindow st.mem (a / tileBytes * tileBytes) tileBytes).map
      (byteShareB (a / tileBytes * tileBytes))).sum)
  rw [Store.agrees, Store.writeInTile, sealGet_sealPut_same, sealPut_mem, sealOf_eq, if_neg hpart, h, sealShare_eq, sealShare_eq,
    domainOf_tile]
  dsimp only
  rw [hcur.1, hcur.2]
  exact sealPack_congr (seal_part_of_difference _ _ _ _ _ hsumA) (seal_part_of_difference _ _ _ _ _ hsumB)

/-- A write leaves the words and the seal of every other tile. -/
theorem writeInTile_agrees_other (st : Store) (regs : SealRegs) (g a k : Nat) (bs : List Byte)
    (hroom : a % tileBytes + bs.length ≤ tileBytes) (hk : a / tileBytes ≠ k) :
    (st.writeInTile g a bs).agrees regs (k * tileBytes) ↔ st.agrees regs (k * tileBytes) := by
  have hdiv := Nat.div_add_mod' a tileBytes
  have hapart : k * tileBytes + tileBytes ≤ a ∨ a + bs.length ≤ k * tileBytes := by
    rcases Nat.lt_or_gt_of_ne hk with hlt | hgt
    · have hle := Nat.mul_le_mul_right tileBytes hlt
      rw [Nat.succ_mul] at hle
      omega
    · have hle := Nat.mul_le_mul_right tileBytes hgt
      rw [Nat.succ_mul] at hle
      omega
  have hne : k * tileBytes ≠ a / tileBytes * tileBytes := fun h =>
    hk (Nat.eq_of_mul_eq_mul_right (by decide) h).symm
  rw [Store.agrees, Store.agrees, Store.writeInTile, sealGet_sealPut_other _ _ _ _ hne, sealPut_mem, sealOf, sealOf,
    memWindow_memPut_out _ _ _ _ _ hapart]
  rfl

/-- A write within one tile keeps every agreeing seal in agreement. -/
theorem writeInTile_agrees (st : Store) (regs : SealRegs) (a k : Nat) (bs : List Byte)
    (hroom : a % tileBytes + bs.length ≤ tileBytes) (h : st.agrees regs (k * tileBytes)) :
    (st.writeInTile (regs.gen (domainOf a)) a bs).agrees regs (k * tileBytes) := by
  by_cases hk : a / tileBytes = k
  · subst hk
    by_cases hfull : bs.length = tileBytes
    · have hbase : a = a / tileBytes * tileBytes := by
        have hdiv := Nat.div_add_mod' a tileBytes
        omega
      have hagrees := writeInTile_agrees_full st regs (a / tileBytes) bs hfull
      rwa [← hbase] at hagrees ⊢
    · exact writeInTile_agrees_part st regs a bs hroom hfull h
  · exact (writeInTile_agrees_other st regs _ a k bs hroom hk).mpr h

/-- A write over any number of tiles keeps every agreeing seal in agreement. -/
theorem writeCut_agrees (regs : SealRegs) (fuel k : Nat) (st : Store) (a : Nat) (bs : List Byte)
    (h : st.agrees regs (k * tileBytes)) : (st.writeCut regs fuel a bs).agrees regs (k * tileBytes) := by
  induction fuel generalizing st a bs with
  | zero => exact h
  | succ n ih =>
    have hmod : a % tileBytes < tileBytes := Nat.mod_lt a (by decide)
    rw [Store.writeCut]
    split
    · exact h
    · refine ih _ _ _ (writeInTile_agrees st regs a k _ ?_ h)
      rw [List.length_take]
      omega

/-- Settles O6: the two parts of R600, for the cuts of a write at tile boundaries. -/
theorem writesKeepSeals : Obligations.WritesKeepSeals := by
  refine ⟨fun d a bs k _ h => ?_, fun d k bs _ hfull => ?_⟩
  · exact (sealed_iff _ _).mpr (writeCut_agrees d.sealRegs _ k d.store a bs ((sealed_iff _ _).mp h))
  · have hcut : d.store.writeCut d.sealRegs (bs.length / tileBytes + 2) (k * tileBytes) bs =
        d.store.writeInTile (d.sealRegs.gen (domainOf (k * tileBytes))) (k * tileBytes) bs := by
      have hbs : bs.isEmpty = false := List.isEmpty_eq_false_iff.mpr (by rintro rfl; cases hfull)
      simp [Store.writeCut, hbs, ← hfull]
    rw [sealed_iff, Device.write_store, hcut]
    exact writeInTile_agrees_full d.store d.sealRegs k bs hfull

end Sys2Proof.Machine
end

section
/-! SUPPORT. The pins (R50, R714, R722), the common commands of the I3C target (R674 to R677) and its resets (R676). -/
namespace Sys2Proof.Machine

/-! ### Devices that close with no further change -/

/-- A device whose memory is canonical, that has no event to queue and whose ALERT_N is as R712 drives it. -/
structure Device.Quiet (d : Device) : Prop where
  mem : Memory.wf d.store.mem = true
  fresh : d.i3c.fresh = []
  alert : d.pins.alertLow = d.alert

theorem Device.Quiet.settle {d : Device} (h : d.Quiet) : d.settle = d := settle_of_quiet d h.mem h.fresh h.alert

theorem quiet_atTime (s : State) (t : Nat) (hs : s.Inv) : (s.dev.atTime t).Quiet := by
  obtain ⟨hmem, hfresh, halert⟩ := hs
  exact ⟨hmem, hfresh, halert⟩

/-- A meaning that leaves a quiet device leaves just that device. -/
theorem next_run_of_quiet {s : State} {t : Nat} {f : Device → Device} {d : Device} (hd : f (s.dev.atTime t) = d) (h : d.Quiet) :
    (.next (s.run t f) : Host.Outcome State Fault Refusal) = .next (s.withDev d) :=
  congrArg Host.Outcome.next (run_eq s t f d hd h.mem h.fresh h.alert)

/-! ### TIME_PPS (R50) -/

theorem ppsEdge_of_early (d : Device) (last : Nat) (hlast : d.ctl.pps = some last) (h : d.now < last + 10000000) :
    d.ppsEdge = { d with therm := { d.therm with ppsIgnored := satInc d.therm.ppsIgnored } } := by
  rw [Device.ppsEdge, hlast]
  exact if_pos h

theorem ppsEdge_of_captured (d : Device) (h : ∀ last, d.ctl.pps = some last → ¬ d.now < last + 10000000) :
    d.ppsEdge = { d with ctl := { d.ctl with pps := some d.now } } := by
  rw [Device.ppsEdge]
  split
  · exact if_neg (h _ ‹_›)
  · rfl

/-- An edge in a powered device, whatever it changes. -/
theorem exec_timePpsEdge {t : Nat} {s : State} (hphase : s.dev.phase ≠ .off) {d : Device} (hd : (s.dev.atTime t).ppsEdge = d)
    (hq : d.Quiet) : exec (.timePpsEdge t) s = .next (s.withDev d) :=
  next_run_of_quiet ((if_pos (decide_eq_true hphase)).trans hd) hq

/-- Settles O9: an edge is early or captured. -/
theorem ppsEdge : Obligations.PpsEdge := by
  intro t s hs hphase
  obtain ⟨hmem, hfresh, halert⟩ := hs
  constructor
  · intro h
    obtain ⟨last, hlast, hearly⟩ := (Option.any_eq_true _ _).mp h
    exact exec_timePpsEdge hphase (ppsEdge_of_early _ last hlast (of_decide_eq_true hearly)) ⟨hmem, hfresh, halert⟩
  · intro h
    refine exec_timePpsEdge hphase (ppsEdge_of_captured _ fun last hlast => ?_) ⟨hmem, hfresh, halert⟩
    rw [Device.atTime_ctl] at hlast
    rw [hlast, Option.any_some] at h
    exact of_decide_eq_false h

/-! ### A trip that meets an event of a clock loss (R722, Table 17.12) -/

namespace TripWithoutLoss

/-- An event 0x1A with ARG0 4 of instant 0, as a clock loss queues it. -/
def lossEvent : IbiEvent := { event := .fatal, seq := 0, arg0 := 4, arg1 := 0, arg2 := 0, at_ := some 0 }

/-- A device after reset whose queue holds that event while CLK_LOST and TRIP are clear; its THERM_TRIP is 0. -/
def device : Device :=
  { Device.reset [] with
    therm := { Therm.reset with tripAt := 0 }
    i3c := { I3c.reset with queue := [lossEvent] } }

def state : State := { pending := [], dev := device }

theorem state_inv : state.Inv := ⟨rfl, rfl, rfl⟩

end TripWithoutLoss

open TripWithoutLoss in
/-- Refutes O8: a trip gives every event 0x1A of its instant with ARG0 4 the ARG0 5, whether CLK_LOST is set or not; the statement
lets it do so only with CLK_LOST set, and a state may hold such an event without it. -/
theorem not_shutdownsMakeInert : ¬ Obligations.ShutdownsMakeInert := by
  rintro ⟨-, htrip⟩
  obtain ⟨s', hexec, -, -, -, -, -, -, -, -, -, hqueue, -⟩ := (htrip 0 0 0 state state_inv (by decide)).2 (by decide) (by decide)
  obtain rfl := Host.Outcome.next.inj hexec
  exact absurd hqueue (by decide +kernel)

/-! ### Common commands (Table 16.2) -/

section
variable (t : Nat) (s : State) (hs : s.Inv) (hphase : s.dev.phase ≠ .off)
include hs

/-- The device with the bus in SDR mode (log 42). -/
def State.bus (s : State) (t : Nat) : Device := (s.dev.atTime t).modI3c (fun r => { r with hdr := false })

theorem quiet_bus (f : I3c → I3c) (hf : ∀ r, (f r).fresh = r.fresh) : ((s.bus t).modI3c f).Quiet := by
  obtain ⟨hmem, hfresh, halert⟩ := hs
  exact ⟨hmem, (hf _).trans hfresh, halert⟩

include hphase

/-- A common command that leaves what `f` gives of the target, on a powered device. -/
theorem next_onBus (g : Device → Device) (f : I3c → I3c) (hf : ∀ r, (f r).fresh = r.fresh) (hg : g (s.bus t) = (s.bus t).modI3c f) :
    (.next (s.run t fun d => d.onBus g) : Host.Outcome State Fault Refusal) = .next (s.withDev ((s.bus t).modI3c f)) := by
  refine next_run_of_quiet ?_ (quiet_bus t s hs f hf)
  exact (if_neg hphase).trans hg

/-- A direct command to a target with a dynamic address. -/
theorem next_addressed (haddr : s.dev.i3c.dynAddr.isSome = true) (g : Device → Device) (f : I3c → I3c)
    (hf : ∀ r, (f r).fresh = r.fresh) (hg : g (s.bus t) = (s.bus t).modI3c f) :
    (.next (s.run t fun d => d.addressed g) : Host.Outcome State Fault Refusal) = .next (s.withDev ((s.bus t).modI3c f)) :=
  next_onBus t s hs hphase _ f hf ((if_pos haddr).trans hg)

/-- A direct command to a target without a dynamic address finds none. -/
theorem next_not_addressed (haddr : s.dev.i3c.dynAddr = none) (g : Device → Device) :
    (.next (s.run t fun d => d.addressed g) : Host.Outcome State Fault Refusal) = .next (s.withDev (s.bus t)) := by
  refine next_onBus t s hs hphase _ id (fun _ => rfl) (if_neg ?_)
  simp [State.bus, haddr]

end

/-- Two bytes of a value, most significant first. -/
theorem leBytes_two_reverse (high low : Nat) (hlow : low < 256) :
    (leBytes 2 (low + high * 2 ^ 8)).reverse = [BitVec.ofNat 8 high, BitVec.ofNat 8 low] := by
  have hhigh : (low + high * 2 ^ 8) / 256 = high := by omega
  have hbyte : BitVec.ofNat 8 (low + high * 2 ^ 8) = BitVec.ofNat 8 low := by
    apply BitVec.eq_of_toNat_eq
    simp only [BitVec.toNat_ofNat]
    omega
  simp only [leBytes, List.reverse_cons, List.reverse_nil, List.nil_append, List.singleton_append, hhigh, hbyte]

theorem maskOf_eight (p : Nat → Bool) : maskOf 8 p = boolNat (p 0) + 2 * boolNat (p 1) + 4 * boolNat (p 2) + 8 * boolNat (p 3) +
    16 * boolNat (p 4) + 32 * boolNat (p 5) + 64 * boolNat (p 6) + 128 * boolNat (p 7) := by
  simp only [maskOf, List.range_succ, List.range_zero, List.nil_append, List.foldl_append, List.foldl_cons, List.foldl_nil]
  omega

/-- R677: the value of GETSTATUS as its two bytes. -/
theorem targetStatus_bytes (d : Device) : (leBytes 2 d.targetStatus).reverse =
    [BitVec.ofNat 8 (boolNat d.ctl.locked + 2 * boolNat (d.phase = .inert) + 4 * boolNat (d.phase = .running) +
      8 * boolNat d.ctl.lockstep + 16 * boolNat (d.ne.any (fun e => e.retired || e.asleep)) +
      32 * boolNat (d.fcNonzero != 0) + 64 * boolNat (d.i3c.lost != 0) + 128 * boolNat d.trust.usable),
     BitVec.ofNat 8 (min 15 d.i3c.queue.length + 32 * boolNat d.i3c.protocolError)] := by
  have hflag : boolNat d.i3c.protocolError ≤ 1 := by cases d.i3c.protocolError <;> decide
  have hmin : min 15 d.i3c.queue.length ≤ 15 := Nat.min_le_left _ _
  rw [Device.targetStatus, leBytes_two_reverse _ _ (by omega), maskOf_eight, Nat.mul_comm (boolNat d.i3c.protocolError)]
  rfl

/-- R675, R682, R674: the commands that change the target. -/
theorem common_commands_change (t : Nat) (ev : Byte) (s : State) (hs : s.Inv) (hphase : s.dev.phase ≠ .off) :
    exec (.enec t ev) s = .next (s.withDev ((s.bus t).modI3c (fun r => { r with enint := r.enint || ev.getLsbD 0 }))) ∧
    exec (.disec t ev) s = .next (s.withDev ((s.bus t).modI3c (fun r => { r with enint := r.enint && !ev.getLsbD 0 }))) ∧
    exec (.enthdr0 t) s = .next (s.withDev ((s.dev.atTime t).modI3c (fun r => { r with hdr := true }))) := by
  refine ⟨next_onBus t s hs hphase _ (fun r => { r with enint := r.enint || ev.getLsbD 0 }) (fun _ => rfl) ?_,
    next_onBus t s hs hphase _ (fun r => { r with enint := r.enint && !ev.getLsbD 0 }) (fun _ => rfl) ?_, ?_⟩
  · cases hev : ev.getLsbD 0
    · simp [Device.guard, Device.modI3c]
    · simp [Device.guard]
  · cases hev : ev.getLsbD 0
    · simp [Device.guard, Device.modI3c]
    · simp [Device.guard]
  · obtain ⟨hmem, hfresh, halert⟩ := hs
    exact next_run_of_quiet (if_pos (decide_eq_true hphase)) ⟨hmem, hfresh, halert⟩

/-- R674: the commands that give a target its dynamic address. -/
theorem address_commands (t : Nat) (a x : BitVec 7) (s : State) (hs : s.Inv) (hphase : s.dev.phase ≠ .off) :
    (s.dev.i3c.dynAddr = none →
      exec (.entdaa t a) s = .next (s.withDev ((s.bus t).modI3c (fun r => { r with
        dynAddr := some a, reply := pidBytes s.dev.pins.addrSel.toNat ++ [bcr, dcr] }))) ∧
      (x.toNat = staticAddress s.dev.pins.addrSel.toNat →
        exec (.setdasa t x a) s = .next (s.withDev ((s.bus t).modI3c (fun r => { r with dynAddr := some a })))) ∧
      exec (.setnewda t a) s = .next (s.withDev (s.bus t))) ∧
    (s.dev.i3c.dynAddr.isSome = true ∨ x.toNat ≠ staticAddress s.dev.pins.addrSel.toNat →
      exec (.setdasa t x a) s = .next (s.withDev (s.bus t))) ∧
    (s.dev.i3c.dynAddr.isSome = true →
      exec (.entdaa t a) s = .next (s.withDev (s.bus t)) ∧
      exec (.setnewda t a) s = .next (s.withDev ((s.bus t).modI3c (fun r => { r with dynAddr := some a })))) := by
  refine ⟨fun hnone => ⟨?_, fun hx => ?_, next_not_addressed t s hs hphase hnone _⟩, fun h => ?_, fun haddr => ⟨?_, ?_⟩⟩
  · refine next_onBus t s hs hphase _ (fun r => { r with
      dynAddr := some a, reply := pidBytes s.dev.pins.addrSel.toNat ++ [bcr, dcr] }) (fun _ => rfl) ?_
    exact if_pos (by simp [State.bus, hnone])
  · refine next_onBus t s hs hphase _ (fun r => { r with dynAddr := some a }) (fun _ => rfl) ?_
    exact if_pos (by simp [State.bus, hnone, hx])
  · refine next_onBus t s hs hphase _ id (fun _ => rfl) (if_neg ?_)
    rcases h with h | h
    · simp [State.bus, Option.isSome_iff_ne_none.mp h]
    · simp [State.bus, h]
  · refine next_onBus t s hs hphase _ id (fun _ => rfl) (if_neg ?_)
    simpa [State.bus] using Option.isSome_iff_ne_none.mp haddr
  · exact next_addressed t s hs hphase haddr _ (fun r => { r with dynAddr := some a }) (fun _ => rfl) rfl

/-- Settles O55: the commands that change the target, those that give it its address, and those that report. -/
theorem commonCommandsRun : Obligations.CommonCommandsRun := by
  refine ⟨fun t ev a x s hs hphase => ?_, fun t s hs hphase => ⟨fun haddr => ?_, fun hnone => ?_⟩⟩
  · obtain ⟨henec, hdisec, hhdr⟩ := common_commands_change t ev s hs hphase
    have haddresses := address_commands t a x s hs hphase
    have hsel : s.dev.pins.addrSel.toNat % 4 = s.dev.pins.addrSel.toNat := Nat.mod_eq_of_lt s.dev.pins.addrSel.isLt
    simp only [pidBytes, hsel, staticAddress] at haddresses
    exact ⟨henec, hdisec, hhdr, haddresses⟩
  · have hsel : s.dev.pins.addrSel.toNat % 4 = s.dev.pins.addrSel.toNat := Nat.mod_eq_of_lt s.dev.pins.addrSel.isLt
    have gives {c : Instr} (bs : List Byte) (g : Device → Device) (hc : exec c s = .next (s.run t fun d => d.addressed g))
        (hg : g (s.bus t) = (s.bus t).answerBytes bs) :
        exec c s = .next (s.withDev ((s.bus t).modI3c (fun r => { r with reply := bs }))) :=
      hc.trans (next_addressed t s hs hphase haddr g (fun r => { r with reply := bs }) (fun _ => rfl) hg)
    refine ⟨gives _ _ rfl ?_, gives [bcr] _ rfl rfl, gives [dcr] _ rfl rfl, gives [0, 0] _ rfl rfl,
      next_addressed t s hs hphase haddr _ (fun r => { r with reply := _, protocolError := false, patternSeen := false })
        (fun _ => rfl) ?_⟩
    · rw [pidBytes, State.bus, Device.modI3c_pins, Device.atTime_pins, hsel]
    · rw [targetStatus_bytes]
      rfl
  · intro c hc
    simp only [List.mem_cons, List.not_mem_nil, or_false] at hc
    rcases hc with rfl | rfl | rfl | rfl | rfl
    all_goals exact next_not_addressed t s hs hphase hnone _

/-! ### Resets of the target (R676) -/

section
variable (t : Nat) (s : State) (hs : s.Inv) (hphase : s.dev.phase ≠ .off)
include hs hphase

theorem exec_rstact (b : Byte) (f : I3c → I3c) (hf : ∀ r, (f r).fresh = r.fresh)
    (hb : (match b.toNat with
      | 0x00 => (s.bus t).modI3c (fun r => { r with armed := .none })
      | 0x01 => (s.bus t).modI3c (fun r => { r with armed := .peripheral })
      | 0x02 => (s.bus t).modI3c (fun r => { r with armed := .whole })
      | 0x81 => (s.bus t).answerBytes [Config.resetTimeCode]
      | 0x82 => (s.bus t).answerBytes [Config.resetTimeCode]
      | _ => s.bus t) = (s.bus t).modI3c f) :
    exec (.rstact t b) s = .next (s.withDev ((s.bus t).modI3c f)) :=
  next_onBus t s hs hphase _ f hf hb

omit hs in
/-- A pattern that resets the whole device: only the NOR, the PUF cells and the count of free values stay. -/
theorem exec_targetResetPattern_of_whole
    (h : s.dev.i3c.armed = .whole ∨ (s.dev.i3c.armed = .none ∧ s.dev.i3c.patternSeen = true)) :
    exec (.targetResetPattern t) s =
      .next (s.withDev (Device.reset s.dev.store.nor s.dev.pins.powerUp s.dev.store.freeCtr)) := by
  refine next_run_of_quiet ?_ ⟨reset_memory_wf, rfl, rfl⟩
  refine (if_pos (decide_eq_true hphase)).trans ?_
  rcases h with h | ⟨h, hseen⟩
  · simp only [Device.atTime_i3c, h]
    rfl
  · simp only [Device.atTime_i3c, h, hseen, if_true]
    rfl

/-- Any other pattern clears the private-transfer and read-setup state. -/
theorem exec_targetResetPattern_of_part (f : I3c → I3c) (hf : ∀ r, (f r).fresh = r.fresh)
    (h : (match s.dev.i3c.armed with
      | .whole => (s.dev.atTime t).resetAll
      | .peripheral => (s.dev.atTime t).peripheralReset.modI3c (fun r => { r with armed := .none })
      | .none =>
        if s.dev.i3c.patternSeen then (s.dev.atTime t).resetAll
        else (s.dev.atTime t).peripheralReset.modI3c (fun r => { r with patternSeen := true })) = (s.bus t).modI3c f) :
    exec (.targetResetPattern t) s = .next (s.withDev ((s.bus t).modI3c f)) :=
  next_run_of_quiet ((if_pos (decide_eq_true hphase)).trans h) (quiet_bus t s hs f hf)

end

/-- Settles O56: one case per defining byte and per way that a pattern is armed. -/
theorem targetResets : Obligations.TargetResets := by
  intro t b s hs hphase
  refine ⟨?_, ?_, ?_, ?_, exec_targetResetPattern_of_whole t s hphase, fun harmed => ?_, fun harmed hseen => ?_⟩
  · rintro rfl
    exact exec_rstact t s hs hphase 0x00 (fun r => { r with armed := .none }) (fun _ => rfl) rfl
  · rintro rfl
    exact exec_rstact t s hs hphase 0x01 (fun r => { r with armed := .peripheral }) (fun _ => rfl) rfl
  · rintro rfl
    exact exec_rstact t s hs hphase 0x02 (fun r => { r with armed := .whole }) (fun _ => rfl) rfl
  · rintro (rfl | rfl)
    · exact exec_rstact t s hs hphase 0x81 (fun r => { r with reply := [Config.resetTimeCode] }) (fun _ => rfl) rfl
    · exact exec_rstact t s hs hphase 0x82 (fun r => { r with reply := [Config.resetTimeCode] }) (fun _ => rfl) rfl
  · refine exec_targetResetPattern_of_part t s hs hphase (fun r => { r with setup := none, reply := [], armed := .none })
      (fun _ => rfl) ?_
    rw [harmed]
    rfl
  · refine exec_targetResetPattern_of_part t s hs hphase (fun r => { r with setup := none, reply := [], patternSeen := true })
      (fun _ => rfl) ?_
    rw [harmed, hseen]
    rfl

end Sys2Proof.Machine
end

section
/-! SUPPORT. The light lanes (R518 to R521) and ALIGN blocks (R521, R543). -/
namespace Sys2Proof.Machine

/-- Nothing waits right after a reset. -/
theorem still_reset (nor : List (Nat × Byte)) (powerUp free : Nat) : (Device.reset nor powerUp free).Still := by
  have hrun : ∀ e, ((Device.reset nor powerUp free).eng e).run = none := fun e =>
    congrArg Engine.run (vget_replicate (n := 6) e Engine.reset)
  have hjob : ∀ u, ((Device.reset nor powerUp free).unit u).run = none := fun u =>
    congrArg Vision.run (vget_replicate (n := 7) u Vision.reset)
  refine ⟨fun e _ r hr => ?_, fun u _ => hjob u, rfl⟩
  rw [hrun e] at hr
  cases hr

/-! ### A loss on a spare lane whose counter is past its ceiling -/

namespace SpareLaneLoss

/-- A device after reset whose lane 0, which carries no role, is ACTIVE and holds a count past the ceiling of its register. -/
def device : Device :=
  (Device.reset []).modRx 0 (fun x => { x with state := .active, uncorr := satMax + 1 })

def state : State := { pending := [], dev := device }

theorem state_inv : state.Inv := ⟨rfl, rfl, rfl⟩

theorem device_still : device.Still := (still_congr (Device.reset []) device rfl rfl rfl).mpr (still_reset _ _ _)

end SpareLaneLoss

open SpareLaneLoss in
/-- Refutes O10: a loss on a lane without a role counts no codeword and leaves the count as it is; the statement adds up to 8 with
saturation, which lowers a count that stands past the ceiling of its register. -/
theorem not_lanesTrainAndSearch : ¬ Obligations.LanesTrainAndSearch := by
  rintro ⟨-, hloss, -⟩
  obtain ⟨⟨n, f, hn, hexec⟩, -⟩ := (hloss 0 0 state state_inv device_still (by decide +kernel) (by decide +kernel)
    (by decide +kernel) (by decide +kernel)).1 (by decide +kernel) (by decide +kernel)
  obtain hstate := Host.Outcome.next.inj hexec
  have hleft : (((state.runI 0 fun d => d.whenAlive fun d => d.guard ((d.rxLane 0).state = .active) (fun d =>
      (if (d.rxLane 0).role = 0 then d else d.countLost 0).loseActive 0 .cwSearch)).dev.rxLane 0).uncorr) = satMax + 1 := by
    decide +kernel
  have hright : (((((state.dev.atTime 0).setFree f).modRx 0 (fun x =>
      { x with state := .cwSearch, loss := satInc x.loss, farRx := 0, uncorr := satAdd x.uncorr n })).rxLane 0).uncorr) =
      satAdd (satMax + 1) n := rfl
  have hcount := (hleft.symm.trans (congrArg (fun s' : State => (s'.dev.rxLane 0).uncorr) hstate)).trans hright
  rw [satAdd, if_neg (by omega)] at hcount
  omega

end Sys2Proof.Machine
end

section
/-! SUPPORT. Commands that leave a calm device, and ALIGN blocks (R521, R543). -/
namespace Sys2Proof.Machine

/-! ### Commands that leave a calm device -/

/-- A meaning that leaves a calm device leaves just that device. -/
theorem next_runI_of_calm {s : State} {t : Nat} {f : Device → Device} {d : Device} (hd : f (s.dev.atTime t) = d) (h : d.Calm) :
    (.next (s.runI t f) : Host.Outcome State Fault Refusal) = .next (s.withDev d) := by
  subst hd
  rw [State.runI, State.run, calm_pump_settle h]
  rfl

theorem whenAlive_of_alive (d : Device) (f : Device → Device) (hoff : d.phase ≠ .off) (hinert : d.phase ≠ .inert) :
    d.whenAlive f = f d := by
  unfold Device.whenAlive
  split
  · contradiction
  · contradiction
  · rfl

section
variable {s : State} {t : Nat} {f : Device → Device} {d : Device}

theorem next_whenAlive_of_calm (hoff : s.dev.phase ≠ .off) (hinert : s.dev.phase ≠ .inert) (hd : f (s.dev.atTime t) = d)
    (h : d.Calm) : (.next (s.runI t fun d => d.whenAlive f) : Host.Outcome State Fault Refusal) = .next (s.withDev d) :=
  next_runI_of_calm ((whenAlive_of_alive (s.dev.atTime t) f hoff hinert).trans hd) h

theorem next_whenLocked_of_calm (hphase : s.dev.phase = .running ∨ s.dev.phase = .awaitChips) (hd : f (s.dev.atTime t) = d)
    (h : d.Calm) : (.next (s.runI t fun d => d.whenLocked f) : Host.Outcome State Fault Refusal) = .next (s.withDev d) :=
  next_runI_of_calm ((if_pos hphase).trans hd) h

theorem next_whenRunning_of_calm (hphase : s.dev.phase = .running) (hd : f (s.dev.atTime t) = d)
    (h : d.Calm) : (.next (s.runI t fun d => d.whenRunning f) : Host.Outcome State Fault Refusal) = .next (s.withDev d) :=
  next_runI_of_calm ((if_pos hphase).trans hd) h

end

theorem calm_modLanes {d : Device} (h : d.Calm) (f : Lanes → Lanes) : (d.modLanes f).Calm := by
  obtain ⟨hstill, hmem, hfresh, halert⟩ := h
  exact ⟨hstill, hmem, hfresh, halert⟩

theorem calm_modOts {d : Device} (h : d.Calm) (f : Otson → Otson) : (d.modOts f).Calm := by
  obtain ⟨hstill, hmem, hfresh, halert⟩ := h
  exact ⟨hstill, hmem, hfresh, halert⟩

/-! ### The pairs as their lanes tell (R521) -/

/-- Pairs that stand as their lanes tell stay as they are. -/
theorem refreshPairs_of_sees (d : Device) (h : ∀ east, (d.ots.pair east).up = d.pairSees east) : d.refreshPairs = d := by
  have hpair : ∀ east, d.refreshPair east = d := by
    intro east
    rw [Device.refreshPair, h east]
    cases d.pairSees east <;> simp
  rw [Device.refreshPairs, hpair true, hpair false]

/-- The states by which a lane counts for its pair. -/
def Device.laneSees (d : Device) (n : Nat) : Bool :=
  isOtson (d.rxLane n).role && (d.rxLane n).state = .active && (d.rxLane n).farRx = 3 && (d.txLane n).state ≠ .dark

theorem pairSees_eq (d : Device) (east : Bool) :
    d.pairSees east = (d.laneSees (if east then 16 else 18) && d.laneSees (if east then 17 else 19)) := by
  cases east <;> simp [Device.pairSees, Device.laneSees]

theorem rxLane_modRx_same (d : Device) (n : Nat) (f : RxLane → RxLane) (hn : n < 24) : (d.modRx n f).rxLane n = f (d.rxLane n) :=
  vget_vmod_same d.lanes.rx n f _ hn

theorem rxLane_modRx_ne (d : Device) (n m : Nat) (f : RxLane → RxLane) (h : n ≠ m) : (d.modRx n f).rxLane m = d.rxLane m :=
  vget_vmod_ne d.lanes.rx n m f _ h

/-- A lane that keeps its role, its state and the receive state of its far side counts as it did. -/
theorem laneSees_modRx (d : Device) (n m : Nat) (f : RxLane → RxLane) (hn : n < 24)
    (hrole : (f (d.rxLane n)).role = (d.rxLane n).role) (hstate : (f (d.rxLane n)).state = (d.rxLane n).state)
    (hfar : (f (d.rxLane n)).farRx = (d.rxLane n).farRx) : (d.modRx n f).laneSees m = d.laneSees m := by
  by_cases hnm : n = m
  · subst hnm
    rw [Device.laneSees, Device.laneSees, rxLane_modRx_same d n f hn, hrole, hstate, hfar]
    rfl
  · rw [Device.laneSees, Device.laneSees, rxLane_modRx_ne d n m f hnm]
    rfl

/-- The far sides of the lanes of a pair that its lanes tell up receive. -/
theorem farRx_of_pairSees (d : Device) (n : Nat) (hlow : 16 ≤ n) (hhigh : n < 20) (h : d.pairSees (decide (n < 18)) = true) :
    (d.rxLane n).farRx = 3 := by
  have hlane : d.laneSees n = true := by
    rw [pairSees_eq, Bool.and_eq_true] at h
    obtain ⟨hfirst, hsecond⟩ := h
    interval_cases n <;> assumption
  simp only [Device.laneSees, Bool.and_eq_true, decide_eq_true_eq] at hlane
  exact hlane.1.2

/-! ### ALIGN blocks -/

section
variable (t : Nat) (l : Fin 24) (ftx frx : BitVec 3) (cr : Byte) (s : State) (hs : s.Inv) (hstill : s.dev.Still)
  (hoff : s.dev.phase ≠ .off) (hinert : s.dev.phase ≠ .inert) (hactive : (s.dev.rxLane l.val).state = .active)
include hs hstill hoff hinert hactive

theorem exec_alignBlock_of_plain (hrole : isOtson (s.dev.rxLane l.val).role = false) :
    exec (.alignBlock t l ftx frx cr) s = .next (s.withDev ((s.dev.atTime t).modRx l.val (fun x => { x with farTx := ftx }))) := by
  refine next_whenAlive_of_calm hoff hinert ?_ (calm_modLanes (calm_atTime s t hs hstill) _)
  have hlane : (s.dev.atTime t).rxLane l.val = s.dev.rxLane l.val := rfl
  simp only [Device.guard, hlane, hactive, hrole, decide_true, if_true, Bool.not_false]

/-- On an Otson lane of a pair that is up and stays so, credits go back and forth (R543). -/
theorem exec_alignBlock_of_otson (hrole : isOtson (s.dev.rxLane l.val).role = true) (hlow : 16 ≤ l.val) (hhigh : l.val < 20)
    (hsees : ∀ east, (s.dev.ots.pair east).up = s.dev.pairSees east) (hup : (s.dev.ots.pair (decide (l.val < 18))).up = true) :
    exec (.alignBlock t l ftx 3 cr) s = .next (s.withDev (((s.dev.atTime t).modRx l.val (fun x =>
      { x with farTx := ftx, farRx := 3 })).modOts (fun o => o.modPair (decide (l.val < 18)) (fun p => p.align (l.val % 2) cr)))) := by
  have hlane : (s.dev.atTime t).rxLane l.val = s.dev.rxLane l.val := rfl
  have hfar : (s.dev.rxLane l.val).farRx = 3 := farRx_of_pairSees s.dev l.val hlow hhigh ((hsees _).symm.trans hup)
  refine next_whenAlive_of_calm hoff hinert ?_ (calm_modOts (calm_modLanes (calm_atTime s t hs hstill) _) _)
  have hstays : ((s.dev.atTime t).modRx l.val (fun x => { x with farTx := ftx, farRx := 3 })).refreshPairs =
      (s.dev.atTime t).modRx l.val (fun x => { x with farTx := ftx, farRx := 3 }) := by
    refine refreshPairs_of_sees _ fun east => ?_
    have hpair := hsees east
    rw [pairSees_eq] at hpair ⊢
    rw [laneSees_modRx _ _ _ _ l.isLt rfl rfl hfar.symm, laneSees_modRx _ _ _ _ l.isLt rfl rfl hfar.symm]
    exact hpair
  simp only [Device.guard, hlane, hactive, hrole, decide_true, if_true, Bool.not_true, Bool.false_eq_true, if_false, ne_eq,
    not_true_eq_false, decide_false, Bool.and_false, hstays]
  exact if_pos hup

end

/-- Settles O11: a lane without an Otson role, and an Otson lane. -/
theorem alignBlock : Obligations.AlignBlock := by
  intro t l ftx frx cr s hs hstill hoff hinert hactive
  refine ⟨exec_alignBlock_of_plain t l ftx frx cr s hs hstill hoff hinert hactive, ?_⟩
  rintro hrole rfl hlow hhigh hsees hup
  exact exec_alignBlock_of_otson t l ftx cr s hs hstill hoff hinert hactive hrole hlow hhigh hsees hup

end Sys2Proof.Machine
end

section
/-! SUPPORT. Containers of the render feeds: packets that a lane takes, Frame Start, and the timeout of a container (R526, R538). -/
namespace Sys2Proof.Machine

/-! ### Packets of the render feeds -/

/-- `d'` is `d` once a packet has been taken: its lane has counted, the recorder and the lanes that empty it have moved on, and free
values have been taken (R497, R516). -/
def Device.Takes (d d' : Device) : Prop :=
  ∃ r tx rx n, d' = { d with
    recorder := r, lanes := { d.lanes with tx := tx, rx := rx }, store := { d.store with freeCtr := n } }

section
variable {d d' : Device}

theorem takes_refl (d : Device) : d.Takes d := ⟨_, _, _, _, rfl⟩

theorem takes_modRec (h : d.Takes d') (f : Recorder → Recorder) : d.Takes (d'.modRec f) := by
  obtain ⟨r, tx, rx, n, rfl⟩ := h
  exact ⟨_, _, _, _, rfl⟩

theorem takes_modRx (h : d.Takes d') (l : Nat) (f : RxLane → RxLane) : d.Takes (d'.modRx l f) := by
  obtain ⟨r, tx, rx, n, rfl⟩ := h
  exact ⟨_, _, _, _, rfl⟩

theorem takes_countFrame (h : d.Takes d') (l : Nat) : d.Takes (d'.countFrame l) := by
  obtain ⟨r, tx, rx, n, rfl⟩ := h
  exact ⟨_, _, _, _, rfl⟩

theorem takes_freeBytes (h : d.Takes d') (k : Nat) : d.Takes (d'.freeBytes k).2 := by
  obtain ⟨r, tx, rx, n, rfl⟩ := h
  exact ⟨_, _, _, _, rfl⟩

theorem takes_drainRec (fuel : Nat) (h : d.Takes d') : d.Takes (Device.drainRec fuel d') := by
  induction fuel generalizing d' with
  | zero => exact h
  | succ n ih =>
    unfold Device.drainRec
    split
    · dsimp only
      split
      · exact ih (takes_countFrame (takes_modRec h _) _)
      · exact h
    · exact h

theorem takes_drainRing (h : d.Takes d') : d.Takes d'.drainRing := takes_drainRec _ h

theorem takes_putRecord (h : d.Takes d') (type lane stream flags index : Nat) (stamp : Int) (body : List Byte) :
    d.Takes (d'.putRecord type lane stream flags index stamp body) := by
  unfold Device.putRecord
  exact takes_modRec h _

theorem takes_putGap (h : d.Takes d') : d.Takes d'.putGap := by
  unfold Device.putGap
  dsimp only
  split
  · exact h
  · exact takes_modRec (takes_putRecord h _ _ _ _ _ _ _) _

theorem takes_packetBody (h : d.Takes d') (head : PacketHead) (p : Packet) : d.Takes (d'.packetBody head p).2 := by
  have hhdr (c : Prop) [Decidable c] (b : List Byte) : d.Takes (if c then (b, d') else d'.freeBytes 4).2 := by
    split
    · exact h
    · exact takes_freeBytes h 4
  cases p with
  | frameStart v => exact hhdr _ _
  | frameEnd v => exact hhdr _ _
  | short dt v => exact hhdr _ _
  | long dt payload ok =>
    cases ok with
    | true => exact hhdr _ _
    | false => exact takes_freeBytes (hhdr _ _) 2

theorem takes_arrive (h : d.Takes d') (lane stream i stamp : Nat) : d.Takes (d'.arrive lane stream i stamp).2 := by
  unfold Device.arrive
  dsimp only
  exact takes_modRec h _

theorem takes_recordPacket (h : d.Takes d') (lane stream : Nat) (head : PacketHead) (p : Packet) (stamp : Nat) :
    d.Takes (d'.recordPacket lane stream head p stamp) := by
  unfold Device.recordPacket
  dsimp only
  generalize (if stream < 32 then stream else if stream = 0xFE then 32 else 33) = i
  have harrive := takes_arrive h lane stream i stamp
  split
  · exact harrive
  · have hput := takes_putGap (takes_drainRing (takes_packetBody harrive head p))
    split
    · exact takes_modRec hput _
    · exact takes_putRecord hput _ _ _ _ _ _ _

end

theorem takes_takePacket (d : Device) (l : Fin 24) (h : PacketHead) (p : Packet) : d.Takes (d.takePacket l h p) := by
  have hcount : d.Takes (d.modRx l.val (fun x => { x with corr := satAdd x.corr h.corr, uncorr := satAdd x.uncorr 0 })) :=
    takes_modRx (takes_refl d) _ _
  unfold Device.takePacket
  dsimp only
  split
  · exact takes_recordPacket hcount _ _ _ _ _
  · exact hcount

theorem Device.Takes.calm {d d' : Device} (h : d.Takes d') (hd : d.Calm) : d'.Calm := by
  obtain ⟨r, tx, rx, n, rfl⟩ := h
  obtain ⟨hstill, hmem, hfresh, halert⟩ := hd
  exact ⟨hstill, hmem, hfresh, halert⟩

theorem Device.Takes.openAt {d d' : Device} (h : d.Takes d') (lane vc : Nat) : d'.openAt lane vc = d.openAt lane vc := by
  obtain ⟨r, tx, rx, n, rfl⟩ := h
  rfl

theorem Device.Takes.inputAt {d d' : Device} (h : d.Takes d') (lane vc : Nat) : d'.inputAt lane vc = d.inputAt lane vc := by
  obtain ⟨r, tx, rx, n, rfl⟩ := h
  rfl

theorem Device.Takes.now {d d' : Device} (h : d.Takes d') : d'.now = d.now := by
  obtain ⟨r, tx, rx, n, rfl⟩ := h
  rfl

/-- A clean packet on a lane that takes packets goes on to its order 2. -/
theorem receive_of_clean (d : Device) (l : Fin 24) (h : PacketHead) (p : Packet) (hopen : d.feedOpen l) (hclean : headClean h) :
    d.receive l h p = (d.takePacket l h p).packetIn l d.now h p := by
  obtain ⟨-, hactive, hrole, hreplay⟩ := hopen
  obtain ⟨hkind, hblocks, huncorr, -, -⟩ := hclean
  have hframe : d.frameOk l.val h =
      (true, d.modRx l.val (fun x => { x with corr := satAdd x.corr h.corr, uncorr := satAdd x.uncorr 0 })) := by
    simp [Device.frameOk, hkind, hblocks, huncorr]
  rw [Device.receive, if_neg (by simp [hactive, hrole]), hframe]
  dsimp only
  rw [if_neg (by simp [hrole]), if_neg (by simp [Device.modRx, Device.modLanes, hreplay])]
  have hnow := (takes_takePacket d l h p).now
  exact congrArg (fun n => (d.takePacket l h p).packetIn l n h p) hnow

/-- Order 2 passes a header without a fault. -/
theorem headerOk_of_clean (d : Device) (l : Nat) (h : PacketHead) (hclean : headClean h) : d.headerOk l h = (true, d) := by
  obtain ⟨-, -, -, hecc, hvc⟩ := hclean
  unfold Device.headerOk
  dsimp only
  rw [if_neg (by simp [hecc, hvc]), if_neg (by simp [hecc])]

theorem calm_takePacket {d : Device} (hd : d.Calm) (l : Fin 24) (h : PacketHead) (p : Packet) : (d.takePacket l h p).Calm :=
  (takes_takePacket d l h p).calm hd

theorem calm_putContainer {d : Device} (hd : d.Calm) (c : Container) : (d.putContainer c).Calm := calm_modLanes hd _

/-- The container that is put is the one open on its lane and VC. -/
theorem openAt_putContainer_same (d : Device) (c : Container) : (d.putContainer c).openAt c.lane.val c.vc = some c := by
  simp [Device.openAt, Device.putContainer, Device.modLanes]

/-- A Frame Start of a known VC with no open container opens one (R526). -/
theorem packetIn_frameStart (d : Device) (l : Fin 24) (stamp : Nat) (h : PacketHead) (data : Nat) (hclean : headClean h)
    (hknown : h.frameVc.toNat = 31 ∨ (d.inputAt l.val h.frameVc.toNat).isSome = true)
    (hnone : d.openAt l.val h.frameVc.toNat = none) :
    d.packetIn l stamp h (.frameStart data) = d.putContainer
      { lane := l, vc := h.frameVc.toNat,
        stream := if h.frameVc.toNat = 31 then none else (d.inputAt l.val h.frameVc.toNat).map (·.stream),
        fsData := data, openedAt := stamp, dt := none, bytes := [], packets := 0, header := [], buf := none,
        opened := false, badLines := [], dead := false } := by
  have hexpire : d.expireOpen l.val h.frameVc.toNat stamp = d := by simp [Device.expireOpen, hnone]
  rw [Device.packetIn, headerOk_of_clean d l.val h hclean]
  dsimp only
  rw [if_pos (by simpa using hknown), hexpire, Device.frameStartIn, hnone]

/-! ### Rejected containers (R538) -/

/-- What a container that is no geometry set leaves is in its stream. -/
theorem loseContainer_eq (d : Device) (c : Container) (hdt : c.dt ≠ some 0x31) :
    ∃ v, d.loseContainer c = { d with streams := v } := by
  unfold Device.loseContainer
  split
  · split
    · exact ⟨_, rfl⟩
    · split
      · exact ⟨_, rfl⟩
      · exact ⟨_, rfl⟩
  · contradiction
  · exact ⟨_, rfl⟩

/-- R538: a container that is no reference counts as a rejected input. -/
theorem countReject_eq (d : Device) (stream dt : Option Nat) (st : Status) (order lane tag : Nat) (hdt : dt ≠ some 0x32) :
    d.countReject stream dt st order lane tag = d.rejectInput
      { status := st, order := order, container := containerKind dt, stream := stream, lane := lane, tag := tag } := by
  unfold Device.countReject
  split
  · contradiction
  · rfl

/-- What a rejected input leaves: the counts of the lanes, its event, and for an input of no stream one free value (log 48). -/
theorem rejectInput_eq (d : Device) (x : Reject) : ∃ free n v,
    d.rejectInput x = { d with
      store := { d.store with freeCtr := n },
      lanes := { d.lanes with rejected := satInc d.lanes.rejected, lastReject := x.word free, inReject := v },
      i3c := { d.i3c with fresh := d.i3c.fresh ++
        [(.inputRejected, x.stream.getD 0xFF % 256, statusCode x.status % 256, x.tag % 2 ^ 32)] } } ∧
    (x.stream.isSome = true → n = d.store.freeCtr) := by
  unfold Device.rejectInput
  by_cases hsome : x.stream.isSome = true
  · rw [if_pos hsome]
    exact ⟨_, _, _, rfl, fun _ => rfl⟩
  · rw [if_neg hsome]
    exact ⟨_, _, _, rfl, fun h => absurd h hsome⟩

/-- R682: one event that may be masked meets a queue with room. -/
theorem flush_queue_of_one (r : I3c) (now : Nat) (ev : Event) (a b c : Nat) (hfresh : r.fresh = [(ev, a, b, c)])
    (hev : ev ≠ .fatal) (hroom : r.queue.length < 32) :
    (r.flush now).queue = eventsInOrder now (r.queue ++ (if r.mask.getLsbD (eventCode ev - 0x10) then
      [{ event := ev, seq := r.seq % 256, arg0 := a, arg1 := b, arg2 := c, at_ := some now }] else [])) := by
  cases hmask : r.mask.getLsbD (eventCode ev - 0x10) <;>
    simp [I3c.flush, hfresh, sortBy, insertBy, I3c.post, hmask, hroom, hev]

/-- R526, R538: the rejection of an open container that is neither a geometry set nor a reference. -/
theorem rejectContainer_eq (d : Device) (c : Container) (st : Status) (order : Nat) (hgeo : c.dt ≠ some 0x31)
    (href : c.dt ≠ some 0x32) : ∃ free n v w,
    d.rejectContainer c st order = { d with
      streams := w,
      store := { d.store with freeCtr := n },
      lanes := { (d.putContainer { c with dead := true, buf := none, bytes := [] }).lanes with
        rejected := satInc d.lanes.rejected,
        lastReject := Reject.word
          { status := st, order := order, container := containerKind c.dt, stream := c.stream, lane := c.lane.val, tag := c.tag }
          free,
        inReject := v },
      i3c := { d.i3c with fresh := d.i3c.fresh ++
        [(.inputRejected, c.stream.getD 0xFF % 256, statusCode st % 256, c.tag % 2 ^ 32)] } } ∧
    (c.stream.isSome = true → n = d.store.freeCtr) := by
  obtain ⟨w, hlose⟩ := loseContainer_eq (d.putContainer { c with dead := true, buf := none, bytes := [] }) c hgeo
  rw [Device.rejectContainer, hlose, countReject_eq _ _ _ _ _ _ _ href]
  obtain ⟨free, n, v, hreject, hn⟩ := rejectInput_eq
    ({ d.putContainer { c with dead := true, buf := none, bytes := [] } with streams := w } : Device)
    { status := st, order := order, container := containerKind c.dt, stream := c.stream, lane := c.lane.val, tag := c.tag }
  exact ⟨free, n, v, w, hreject, hn⟩

/-- Settles O12: a Frame Start opens its container, and a container open for 100 ms is rejected with TIMEOUT. -/
theorem containersOpenAndTimeOut : Obligations.ContainersOpenAndTimeOut := by
  unfold Obligations.ContainersOpenAndTimeOut
  constructor
  · intro t l h data s hs hstill hopen hclean hknown hnone
    refine next_whenLocked_of_calm hopen.1 ?_ (calm_putContainer (calm_takePacket (calm_atTime s t hs hstill) l h _) _)
    have htakes := takes_takePacket (s.dev.atTime t) l h (.frameStart data.toNat)
    rw [receive_of_clean (s.dev.atTime t) l h _ hopen hclean,
      packetIn_frameStart _ l _ h _ hclean (by rw [htakes.inputAt]; exact hknown) (by rw [htakes.openAt]; exact hnone),
      htakes.inputAt]
    rfl
  · intro t l vc c s hs hstill hphase hsome hdead hlane hvc hgeo href hlate hroom
    have hmeaning : ((s.dev.atTime t).whenLocked fun d => match d.openAt l.val vc.toNat with
        | none => d
        | some c => d.guard (!c.dead && decide (c.openedAt + 100000000 ≤ d.now)) (fun d => d.rejectContainer c .timeout 5)) =
        (s.dev.atTime t).rejectContainer c .timeout 5 := by
      have hopen : (s.dev.atTime t).openAt l.val vc.toNat = some c := hsome
      refine (if_pos hphase).trans ?_
      dsimp only
      rw [hopen]
      exact if_pos (by simpa [hdead] using hlate)
    obtain ⟨free, n, v, w, hreject, hn⟩ := rejectContainer_eq (s.dev.atTime t) c .timeout 5 hgeo href
    have hcalm := calm_atTime s t hs hstill
    refine ⟨s.withDev ((s.dev.atTime t).rejectContainer c .timeout 5).settle, ?_, rfl, ?_⟩
    · refine congrArg (fun d : Device => Host.Outcome.next (s.withDev d.pump.settle)) hmeaning |>.trans ?_
      rw [pump_of_still _ ((still_congr _ _ (by rw [hreject]) (by rw [hreject]) (by rw [hreject])).mpr hcalm.still)]
    · have hstore : ((s.dev.atTime t).rejectContainer c .timeout 5).settle.store =
          ((s.dev.atTime t).rejectContainer c .timeout 5).store :=
        settle_store_of_wf _ (by rw [hreject]; exact hcalm.mem)
      have hqueue := flush_queue_of_one ((s.dev.atTime t).rejectContainer c .timeout 5).i3c
        ((s.dev.atTime t).rejectContainer c .timeout 5).now .inputRejected
      refine ⟨?_, ?_, ?_, ⟨free, ?_⟩, ?_, ?_, ?_, ?_, ?_⟩
      · have hput := openAt_putContainer_same (s.dev.atTime t) { c with dead := true, buf := none, bytes := [] }
        rw [← hlane, ← hvc, hreject]
        exact hput
      · rw [hreject]; rfl
      · rw [hreject]; rfl
      · rw [hreject, ← hlane]; rfl
      · refine (hqueue _ _ _ (by rw [hreject, hcalm.fresh]; rfl) (by decide) (by rw [hreject]; exact hroom)).trans ?_
        rw [hreject]
        rfl
      · refine (congrArg Store.mem hstore).trans ?_
        rw [hreject]
        rfl
      · intro hstream
        refine hstore.trans ?_
        rw [hreject, hn hstream]
        rfl
      · rw [hreject]; rfl
      · rw [hreject]; rfl

end Sys2Proof.Machine
end

section
/-! SUPPORT. A Frame End before T0 (R282, order 11 of Table 12.10). -/
namespace Sys2Proof.Machine

/-! ### An anchor that ends while the device waits for HELLO -/

namespace AnchorBeforeT0

/-- An anchor container of stream 0 on lane 0 and VC 0, with nothing but its header to come. -/
def container : Container :=
  { lane := 0, vc := 0, stream := some 0, fsData := 0, openedAt := 0, dt := some 0x30, bytes := List.replicate 128 0,
    packets := 0, header := [], buf := some 0, opened := false, badLines := [], dead := false }

def input : InputRec :=
  { stream := 0, lane := 0, vc := 0, resim := false, format := 0, channels := 0, compMask := 0, width := 0, height := 0,
    rxBase := Vector.replicate 2 0, rxBytes := 0, refBase := 0 }

/-- A device that waits for HELLO since instant 0, with the container open and slot 0 of stream 0 decided. -/
def device : Device :=
  (((({ Device.reset [] with
        phase := .awaitChips,
        image := { (Device.reset []).image with ssbs := [(0, 0)], inputs := [input] } } : Device).modLanes
      fun l => { l with open_ := [container] }).modRx 0 fun x => { x with state := .active, role := 0x20 }).modStrm 0
    fun x => { x with decided := 1 })

def state : State := { pending := [], dev := device }

def head : PacketHead := { kind := 0, blocksOk := true, uncorr := 0, corr := 0, eccErrors := 0, headerVc := 0, frameVc := 0 }

theorem state_inv : state.Inv := ⟨rfl, rfl, rfl⟩

theorem device_still : device.Still := (still_congr (Device.reset []) device rfl rfl rfl).mpr (still_reset _ _ _)

theorem device_feedOpen : device.feedOpen 0 := ⟨.inr rfl, by decide +kernel, by decide +kernel, rfl⟩

theorem head_clean : headClean head := ⟨rfl, rfl, rfl, rfl, rfl⟩

/-- Instant 100 is no decision time of the statement, which takes T0 as the instant before the command. -/
theorem not_decides (m : Nat) : ¬ ((device.strm 0).decided = m + 1 ∧ ((max device.now 100 : Nat) : Int) = device.decisionTime 0 m) := by
  rintro ⟨-, htime⟩
  have hzero : device.decisionTime 0 m = 0 := rfl
  rw [hzero] at htime
  exact absurd htime (by decide)

end AnchorBeforeT0

open AnchorBeforeT0 in
/-- Refutes O14: before T0 the decision time of a stream without a port is the command's own instant, so the slot decided last is
selected again with the anchor, while the statement, which reads it before the command, leaves it without one. -/
theorem not_frameEndAcceptsAnchor : ¬ Obligations.FrameEndAcceptsAnchor := by
  intro hends
  have hexec := (hends 100 0 head 0 container 0 0 0 state state_inv device_still device_feedOpen head_clean
    (by decide) (by decide +kernel) (by decide +kernel) rfl (by decide +kernel) rfl rfl rfl (by decide) rfl rfl
    (by decide +kernel) rfl (by decide +kernel) (by decide +kernel) (by decide +kernel) (by decide +kernel)
    (by decide +kernel)).1 not_decides
  have hstate := Host.Outcome.next.inj hexec
  have hleft : ((state.runI 100 fun d => d.whenLocked fun d => d.receive 0 head (.frameEnd 0)).dev.strm 0).selected.isSome = true := by
    decide +kernel
  have hright := congrArg (fun s' : State => (s'.dev.strm 0).selected.isSome) hstate
  exact absurd (hleft.symm.trans hright) (by decide +kernel)

end Sys2Proof.Machine
end

section
/-! SUPPORT. Frames of the Otson link that this device takes (R539 to R544): HELLO and T0 (R540), reads and their responses, resets. -/
namespace Sys2Proof.Machine

/-! ### Frames for this device -/

theorem pair_modPair_same (o : Otson) (east : Bool) (f : OtsPair → OtsPair) : (o.modPair east f).pair east = f (o.pair east) := by
  cases east <;> rfl

theorem pair_modPair_other (o : Otson) (east : Bool) (f : OtsPair → OtsPair) : (o.modPair east f).pair (!east) = o.pair (!east) := by
  cases east <;> rfl

/-- An intact frame of the awaited type for this device is met once it has landed (R539, R541). -/
theorem otsReceive_of_here (d : Device) (east : Bool) (type : Nat) (frame : List Byte)
    (here : Device → OtsHead → List Byte → Device) (hup : (d.ots.pair east).up = true) (htype : field frame 0 1 = type)
    (hcrc : otsCrcOk frame = true) (hdst : (otsHeadOf frame).dst = d.ringPos) (hhops : (otsHeadOf frame).hops ≤ 2) :
    d.otsReceive east type frame here =
      here ((d.landFrame east frame).modOts (fun o => { o with rxFrames := satInc o.rxFrames })) (otsHeadOf frame) (otsData frame) := by
  have hhears : d.otsHears east = true := by simp [Device.otsHears, hup]
  rw [Device.otsReceive, if_neg (by simp [hhears]), if_neg (by simp [hcrc]), if_neg (by simp [hup, htype])]
  dsimp only
  rw [if_neg (by omega), if_pos]
  exact hdst

/-- A list that waits for no remote COPY is left as it is (R463). -/
theorem pumpRemote_of_none (d : Device) (e fuel : Nat) (h : ∀ r, (d.eng e).run = some r → r.remote = none) :
    Device.pumpRemote e fuel d = d := by
  cases fuel with
  | zero => rfl
  | succ n =>
    rw [Device.pumpRemote]
    split
    · rfl
    · next r hr =>
      rw [h r hr]

theorem pumpCopies_of_still (d : Device) (h : d.Still) : d.pumpCopies = d := by
  refine List.foldlRecOn (motive := fun d' : Device => d' = d) _ _ rfl fun d' hd' e he => ?_
  subst hd'
  exact pumpRemote_of_none d' e 1024 fun r hr => (h.1 e (List.mem_range.mp he) r hr).2.1

/-! ### T0 (R437, R480) -/

theorem drainRec_ctl (fuel : Nat) (d : Device) : (Device.drainRec fuel d).ctl = d.ctl := by
  induction fuel generalizing d with
  | zero => rfl
  | succ n ih =>
    unfold Device.drainRec
    split
    · dsimp only
      split
      · exact ih _
      · rfl
    · rfl

theorem putGap_ctl (d : Device) : d.putGap.ctl = d.ctl := by
  unfold Device.putGap
  dsimp only
  split <;> rfl

/-- A control record moves the recorder and its lanes alone (R498). -/
theorem recordControl_eq (d : Device) (type index : Nat) (body : List Byte) :
    ∃ r l, d.recordControl type index body = { d with recorder := r, lanes := l } := by
  obtain ⟨c, r, l, hrecord⟩ := records_recordControl (records_refl d) type index body
  have hctl : (d.recordControl type index body).ctl = d.ctl := by
    unfold Device.recordControl
    split
    · rfl
    · exact (putGap_ctl _).trans (drainRec_ctl _ d)
  rw [hrecord] at hctl
  exact ⟨r, l, by rw [hrecord, ← hctl]⟩

/-- What T0 keeps: the instant, memory, the link, and of the interrupts all but what the command raises; the lists that run are
the same. -/
structure Device.Starts (d d' : Device) (chips : Nat) : Prop where
  phase : d'.phase = .running
  now : d'.now = d.now
  store : d'.store = d.store
  ots : d'.ots = d.ots
  vis : d'.vis = d.vis
  req : d'.req = d.req
  mask : d'.i3c = { d.i3c with fresh := d'.i3c.fresh }
  runs : ∀ e, (d'.eng e).run = (d.eng e).run
  chips : d'.ctl.chips = chips
  t0 : d'.itn.t0 = some d.now
  k : d'.itn.k = 0
  clean : d.boot.unrepaired = 0 → d'.itn.active = 0 ∧ d'.i3c = d.i3c

/-- A boot that found faults beyond the spares retires an engine at T0; nothing else of the device changes (Table 15.9). -/
theorem retireAtBoot_eq (d : Device) : ∃ ne active fresh,
    d.retireAtBoot = { d with ne := ne, itn := { d.itn with active := active }, i3c := { d.i3c with fresh := fresh } } ∧
    (∀ e, (d.retireAtBoot.eng e).run = (d.eng e).run) ∧ (d.boot.unrepaired = 0 → d.retireAtBoot = d) := by
  unfold Device.retireAtBoot
  split
  · exact ⟨_, _, _, rfl, fun _ => rfl, fun _ => rfl⟩
  · next e he =>
    refine ⟨_, _, _, rfl, fun n => eng_modEng_field Engine.run d e n _ fun _ => rfl, fun hzero => ?_⟩
    have hbit := List.find?_some he
    rw [hzero] at hbit
    simp at hbit

theorem foldl_modPart_eq (l : List Nat) (f : Device → Nat → Part → Part) (d : Device) :
    ∃ parts, l.foldl (fun (d : Device) p => d.modPart p (f d p)) d = { d with parts := parts } := by
  refine List.foldlRecOn (motive := fun d' : Device => ∃ parts, d' = { d with parts := parts }) l _ ⟨_, rfl⟩ ?_
  rintro d' ⟨parts, rfl⟩ p -
  exact ⟨_, rfl⟩

theorem recordT0_eq (d : Device) : ∃ r l, d.recordT0 = { d with recorder := r, lanes := l } := recordControl_eq _ _ _ _

/-- The device at T0 before anything is derived from its image (R437, R641). -/
def Device.beginT0 (d : Device) : Device :=
  ({ d with phase := .running, boot := { d.boot with order := 12 } } : Device).modItn
    (fun i => { i with t0 := some d.now, k := 0, active := 0 })

/-- Modes and groups as the image gives them, with the chip count. -/
def Device.configureT0 (d : Device) (image : Image) (chips : Nat) : Device :=
  { d with
    itn := { d.itn with groupEn := (d.active.map (·.groups0)).getD 0 }
    ctl := { d.ctl with
      lockstep := (d.itinOf 0).any (·.lockstep), replay := image.replay, record := image.record, chips := chips } }

/-- The credits of every partition's pool. -/
def Device.openPools (d : Device) : Device :=
  (List.range 8).foldl (fun (d : Device) p =>
    d.modPart p (fun x => { x with freeCredits := ((d.partRec p).map (·.credits)).getD 0 })) d

/-- R470: the contexts torn down before T0 are admitted again. -/
def Device.readmit (d : Device) : Device :=
  { d with ctxs := d.ctxs.map (fun (c : Ctx) => if c.mode = .quarantined then { c with mode := .idle } else c) }

theorem openPools_eq (d : Device) : ∃ parts, d.openPools = { d with parts := parts } :=
  foldl_modPart_eq (List.range 8) (fun d p x => { x with freeCredits := ((d.partRec p).map (·.credits)).getD 0 }) d

theorem startT0_steps (d : Device) (chips : Nat) :
    d.startT0 chips = (d.beginT0.retireAtBoot.configureT0 d.image chips).openPools.readmit.recordT0 := rfl

theorem startT0_eq (d : Device) (chips : Nat) : ∃ parts ctxs r l, d.startT0 chips =
    { d.beginT0.retireAtBoot.configureT0 d.image chips with parts := parts, ctxs := ctxs, recorder := r, lanes := l } := by
  obtain ⟨parts, hpools⟩ := openPools_eq (d.beginT0.retireAtBoot.configureT0 d.image chips)
  obtain ⟨r, l, hrecord⟩ := recordT0_eq (d.beginT0.retireAtBoot.configureT0 d.image chips).openPools.readmit
  rw [startT0_steps, hrecord, hpools]
  exact ⟨_, _, _, _, rfl⟩

theorem starts_startT0 (d : Device) (chips : Nat) : d.Starts (d.startT0 chips) chips := by
  obtain ⟨ne, active, fresh, hretire, hruns, hclean⟩ := retireAtBoot_eq d.beginT0
  obtain ⟨parts, ctxs, r, l, hstart⟩ := startT0_eq d chips
  have hne : (d.startT0 chips).ne = d.beginT0.retireAtBoot.ne := by
    rw [hstart]
    rfl
  constructor
  case runs =>
    intro e
    refine Eq.trans ?_ (hruns e)
    rw [Device.eng, hne, Device.eng]
  case clean =>
    intro hzero
    rw [hstart, hclean hzero]
    exact ⟨rfl, rfl⟩
  all_goals
    rw [hstart, hretire]
    rfl

theorem Device.Starts.still {d d' : Device} {chips : Nat} (h : d.Starts d' chips) (hd : d.Still) : d'.Still :=
  still_of_runs d d' hd (fun e _ => h.runs e) h.vis h.req

/-! ### HELLO (R540) -/

theorem bothAgree_iff (d : Device) : d.bothAgree = true ↔
    (d.ots.pair true).hello.any (d.helloAgrees true) = true ∧ (d.ots.pair false).hello.any (d.helloAgrees false) = true := by
  simp [Device.bothAgree]

/-- Both neighbours agree once a HELLO is noted where it agrees and the other neighbour's does. -/
theorem bothAgree_of_hello (d : Device) (east : Bool) (x : Nat × Nat × List Byte) :
    (d.modOts (fun o => o.modPair east (fun p => { p with hello := some x }))).bothAgree = true ↔
      d.helloAgrees east x = true ∧ (d.ots.pair (!east)).hello.any (d.helloAgrees (!east)) = true := by
  cases east
  · exact (bothAgree_iff _).trans and_comm
  · exact bothAgree_iff _

/-- What a device that waits does with a HELLO. -/
theorem takeHello_of_await (d : Device) (east : Bool) (data : List Byte) (hphase : d.phase = .awaitChips) :
    d.takeHello east data = (d.modOts (fun o => o.modPair east (fun p =>
      { p with hello := some (field data 0 1, field data 1 1, (data.drop 32).take 32) }))).agreedT0 :=
  if_neg (by rw [show (Device.modOts d _).phase = d.phase from rfl, hphase]; decide)

theorem calm_landFrame {d : Device} (h : d.Calm) (east : Bool) (frame : List Byte) : (d.landFrame east frame).Calm := calm_modOts h _

section
variable (t : Nat) (east : Bool) (frame : List Byte) (s : State) (hs : s.Inv) (hstill : s.dev.Still)
  (hphase : s.dev.phase = .awaitChips) (hup : (s.dev.ots.pair east).up = true) (htype : field frame 0 1 = 0)
  (hcrc : otsCrcOk frame = true) (hdst : (otsHeadOf frame).dst = s.dev.ringPos) (hhops : (otsHeadOf frame).hops ≤ 2)

/-- The device once the HELLO has landed and is noted. -/
def Device.noteHello (d : Device) (east : Bool) (frame : List Byte) : Device :=
  ((d.landFrame east frame).modOts (fun o => { o with rxFrames := satInc o.rxFrames })).modOts (fun o => o.modPair east (fun p =>
    { p with hello := some (field (otsData frame) 0 1, field (otsData frame) 1 1, ((otsData frame).drop 32).take 32) }))

theorem bothAgree_noteHello (d : Device) : (d.noteHello east frame).bothAgree = true ↔
    d.helloAgrees east (field (otsData frame) 0 1, field (otsData frame) 1 1, ((otsData frame).drop 32).take 32) = true ∧
      (d.ots.pair (!east)).hello.any (d.helloAgrees (!east)) = true := by
  refine (bothAgree_of_hello _ east _).trans ?_
  rw [show (((d.landFrame east frame).modOts (fun o => { o with rxFrames := satInc o.rxFrames })).ots.pair (!east)) =
    d.ots.pair (!east) from pair_modPair_other d.ots east _]
  rfl

include hup htype hcrc hdst hhops hphase in
theorem hello_meaning : ((s.dev.atTime t).whenLocked fun d => d.otsReceive east 0 frame (fun d _ data => d.takeHello east data)) =
    ((s.dev.atTime t).noteHello east frame).agreedT0 := by
  refine (if_pos (.inr hphase)).trans ?_
  exact (otsReceive_of_here (s.dev.atTime t) east 0 frame _ hup htype hcrc hdst hhops).trans
    (takeHello_of_await _ east _ hphase)

end

/-- Settles O16: HELLO frames that agree bring T0, and 500 ms without agreement do. -/
theorem helloEndsWait : Obligations.HelloEndsWait := by
  unfold Obligations.HelloEndsWait
  constructor
  · intro t east frame s hs hstill hphase hup htype hcrc hdst hhops x agree
    have hmeaning := hello_meaning t east frame s hphase hup htype hcrc hdst hhops
    have hagree : ((s.dev.atTime t).noteHello east frame).bothAgree = true ↔ agree := bothAgree_noteHello east frame (s.dev.atTime t)
    have hcalm : ((s.dev.atTime t).noteHello east frame).Calm :=
      calm_modOts (calm_modOts (calm_landFrame (calm_atTime s t hs hstill) east frame) _) _
    constructor
    · intro hyes hruns htime
      have henabled : ((s.dev.atTime t).noteHello east frame).ots.enabledAt = s.dev.ots.enabledAt := by cases east <;> rfl
      have hstarts := starts_startT0 ((s.dev.atTime t).noteHello east frame) s.dev.ringSize
      have hstart : ((s.dev.atTime t).noteHello east frame).agreedT0 =
          ((s.dev.atTime t).noteHello east frame).startT0 s.dev.ringSize :=
        if_pos ⟨hphase, hruns, hagree.mpr hyes, by rw [henabled]; exact htime⟩
      have hpump : (((s.dev.atTime t).noteHello east frame).startT0 s.dev.ringSize).pump = _ :=
        pump_of_still _ (hstarts.still hcalm.still)
      have hots : (((s.dev.atTime t).noteHello east frame).startT0 s.dev.ringSize).settle.ots =
          ((s.dev.atTime t).noteHello east frame).ots := hstarts.ots
      refine ⟨s.withDev (((s.dev.atTime t).noteHello east frame).startT0 s.dev.ringSize).settle, ?_, rfl, hstarts.phase,
        hstarts.chips, hstarts.t0, hstarts.k, ?_, ?_, ?_, ?_⟩
      · refine congrArg (fun d : Device => Host.Outcome.next (s.withDev d.pump.settle)) (hmeaning.trans hstart) |>.trans ?_
        rw [hpump]
      · rw [State.withDev, hots]
        cases east <;> rfl
      · rw [State.withDev, hots]
        cases east <;> rfl
      · rw [State.withDev, hots]
        cases east <;> rfl
      · exact (settle_store_of_wf _ (by rw [hstarts.store]; exact hcalm.mem)).trans hstarts.store
    · intro hno
      refine next_runI_of_calm (hmeaning.trans ?_) hcalm
      refine if_neg ?_
      rintro ⟨-, hruns, hyes, -⟩
      rcases hno with hno | hno
      · exact hno (hagree.mp hyes)
      · rw [show ((s.dev.atTime t).noteHello east frame).lanesRun = s.dev.lanesRun from rfl, hno] at hruns
        cases hruns
  · intro t s hs hstill hphase
    have hcalm := calm_atTime s t hs hstill
    constructor
    · intro htime hruns hclean hroom
      have hfail : ((s.dev.atTime t).modOts (fun o => { o with ringFail := true })).Calm := calm_modOts hcalm _
      have hstarts := starts_startT0 ((s.dev.atTime t).modOts (fun o => { o with ringFail := true })) 1
      obtain ⟨hactive, hi3c⟩ := hstarts.clean hclean
      have hmeaning : (s.dev.atTime t).guard ((s.dev.atTime t).phase = .awaitChips && (s.dev.atTime t).lanesRun &&
          decide ((s.dev.atTime t).ots.enabledAt + 500000000 ≤ (s.dev.atTime t).now)) (fun d =>
            ((d.modOts (fun o => { o with ringFail := true })).startT0 1).event .fatal 2 0 0) =
          (((s.dev.atTime t).modOts (fun o => { o with ringFail := true })).startT0 1).event .fatal 2 0 0 := by
        refine if_pos ?_
        simp only [Bool.and_eq_true, decide_eq_true_eq]
        exact ⟨⟨hphase, hruns⟩, htime⟩
      have hpump : ((((s.dev.atTime t).modOts (fun o => { o with ringFail := true })).startT0 1).event .fatal 2 0 0).pump = _ :=
        pump_of_still _ ((still_congr _ _ rfl rfl rfl).mpr (hstarts.still hfail.still))
      refine ⟨s.withDev ((((s.dev.atTime t).modOts (fun o => { o with ringFail := true })).startT0 1).event .fatal 2 0 0).settle,
        ?_, rfl, hstarts.phase, hstarts.chips, hstarts.ots, hstarts.t0, hstarts.k, hactive, ?_, ?_⟩
      · refine congrArg (fun d : Device => Host.Outcome.next (s.withDev d.pump.settle)) hmeaning |>.trans ?_
        rw [hpump]
      · refine (settle_store_of_wf _ ?_).trans hstarts.store
        show Memory.wf (Device.store (Device.startT0 _ 1)).mem = true
        rw [hstarts.store]
        exact hfail.mem
      · have hevent : ((((s.dev.atTime t).modOts (fun o => { o with ringFail := true })).startT0 1).event .fatal 2 0 0).i3c =
            { s.dev.i3c with fresh := s.dev.i3c.fresh ++ [(.fatal, 2, 0, 0)] } := by
          rw [Device.event_i3c, hi3c]
          rfl
        have hnow : ((((s.dev.atTime t).modOts (fun o => { o with ringFail := true })).startT0 1).event .fatal 2 0 0).now =
            max s.dev.now t := hstarts.now
        refine (congrArg₂ (fun (r : I3c) n => (r.flush n).queue) hevent hnow).trans ?_
        have hfresh : s.dev.i3c.fresh = [] := hcalm.fresh
        simp [I3c.flush, hfresh, sortBy, insertBy, I3c.post, hroom]
    · intro hearly
      refine next_runI_of_calm (if_neg ?_) hcalm
      simp only [Bool.and_eq_true, decide_eq_true_eq]
      rintro ⟨⟨-, hruns⟩, htime⟩
      rcases hearly with hearly | hearly
      · exact absurd htime (Nat.not_le.mpr hearly)
      · rw [show (s.dev.atTime t).lanesRun = s.dev.lanesRun from rfl, hearly] at hruns
        cases hruns

end Sys2Proof.Machine
end

section
/-! SUPPORT. Reads over the Otson link and their responses (R464, R542), and resets of a pair (R543, R544). -/
namespace Sys2Proof.Machine

/-! ### Reads whose tiles pass their checks (R601) -/

theorem verifyRead_of_passes (d : Device) (tile ctx : Nat) (h : d.passes tile = true) : d.verifyRead tile ctx = (true, d) := by
  have hverify : d.verify tile = (.ok, d) := if_pos h
  rw [Device.verifyRead, hverify]

theorem verifyAll_of_passes (d : Device) (ctx : Nat) (tiles : List Nat) (h : ∀ k ∈ tiles, d.passes k = true) :
    d.verifyAll ctx tiles = (true, d) := by
  refine List.foldlRecOn (motive := fun s : Bool × Device => s = (true, d)) _ _ rfl fun s hs k hk => ?_
  rw [hs]
  dsimp only
  rw [verifyRead_of_passes d k ctx (h k hk)]
  rfl

theorem readChecked_of_passes (d : Device) (ctx a n : Nat) (h : ∀ k ∈ tilesOf a n, d.passes k = true) :
    d.readChecked ctx a n = (some (d.peek a n), (d.countFill (partTiles a n)).chargeDevice
      ((tilesOf a n).foldl (fun u t => u.add (bytesUse t tileBytes)) {})) := by
  rw [Device.readChecked, verifyAll_of_passes d ctx _ h]
  rfl

theorem calm_modSeal {d : Device} (h : d.Calm) (f : SealRegs → SealRegs) : (d.modSeal f).Calm := by
  obtain ⟨hstill, hmem, hfresh, halert⟩ := h
  exact ⟨hstill, hmem, hfresh, halert⟩

theorem calm_modPart {d : Device} (h : d.Calm) (p : Nat) (f : Part → Part) : (d.modPart p f).Calm := by
  obtain ⟨hstill, hmem, hfresh, halert⟩ := h
  exact ⟨hstill, hmem, hfresh, halert⟩

/-! ### Reads served (R542) -/

/-- R542: the range of a request lies in the Well or in stack DRAM. -/
def OtsHead.Inside (h : OtsHead) : Prop :=
  1 ≤ h.len ∧ h.len ≤ tileBytes ∧
    ((regionOf h.addr = .dram ∧ regionOf (h.addr + h.len - 1) = .dram) ∨
     (regionOf h.addr = .well ∧ regionOf (h.addr + h.len - 1) = .well))

/-- The answer to a request, with its status and data. -/
def Device.answerRead (d : Device) (east : Bool) (h : OtsHead) (st : Status) (data : List Byte) : Device :=
  d.otsSend east { h with type := 2, src := d.ringPos, dst := h.src, status := statusCode st, hops := 0 } data

def OtsHead.servable (h : OtsHead) : Bool :=
  decide (1 ≤ h.len ∧ h.len ≤ tileBytes) &&
    (match regionOf h.addr, regionOf (h.addr + h.len - 1) with
      | .dram, .dram => true
      | .well, .well => true
      | _, _ => false)

theorem servable_iff (h : OtsHead) : h.servable = true ↔ h.Inside := by
  rw [OtsHead.servable, Bool.and_eq_true, decide_eq_true_eq, OtsHead.Inside, and_assoc]
  refine and_congr_right fun _ => and_congr_right fun _ => ?_
  cases regionOf h.addr <;> cases regionOf (h.addr + h.len - 1) <;> simp

/-- The answer to a request whose range is servable or not. -/
def Device.serveIf (d : Device) (east : Bool) (h : OtsHead) (servable : Bool) : Device :=
  let (st, data, d) : Status × List Byte × Device :=
    if !servable then (.unsupported, [], d)
    else
      match d.readChecked 0 h.addr h.len with
      | (some bs, d) => (.ok, bs, d)
      | (none, d) => (.sealFail, [], d)
  d.answerRead east h st data

theorem serveRead_eq (d : Device) (east : Bool) (h : OtsHead) : d.serveRead east h = d.serveIf east h h.servable := rfl

theorem serveRead_of_inside (d : Device) (east : Bool) (h : OtsHead) (hin : h.Inside)
    (hpass : ∀ k ∈ tilesOf h.addr h.len, d.passes k = true) : d.serveRead east h =
      ((d.countFill (partTiles h.addr h.len)).chargeDevice
        ((tilesOf h.addr h.len).foldl (fun u t => u.add (bytesUse t tileBytes)) {})).answerRead east h .ok (d.peek h.addr h.len) := by
  rw [serveRead_eq, (servable_iff h).mpr hin, Device.serveIf, readChecked_of_passes d 0 h.addr h.len hpass]
  rfl

theorem serveRead_of_outside (d : Device) (east : Bool) (h : OtsHead) (hout : ¬ h.Inside) :
    d.serveRead east h = d.answerRead east h .unsupported [] := by
  rw [serveRead_eq, Bool.eq_false_iff.mpr (mt (servable_iff h).mp hout)]
  rfl

theorem calm_answerRead {d : Device} (hd : d.Calm) (east : Bool) (h : OtsHead) (st : Status) (data : List Byte) :
    (d.answerRead east h st data).Calm := by
  obtain ⟨hstill, hmem, hfresh, halert⟩ := hd
  exact ⟨hstill, hmem, hfresh, halert⟩

theorem sendQ_answerRead (d : Device) (east : Bool) (h : OtsHead) (st : Status) (data : List Byte) :
    ((d.answerRead east h st data).ots.pair east).sendQ = (d.ots.pair east).sendQ ++
      [otsFrame { h with type := 2, src := d.ringPos, dst := h.src, status := statusCode st, hops := 0,
                         epoch := (d.ots.pair east).epoch.toNat } data] :=
  congrArg OtsPair.sendQ (pair_modPair_same d.ots east _)

theorem rxFrames_modPair (o : Otson) (east : Bool) (f : OtsPair → OtsPair) : (o.modPair east f).rxFrames = o.rxFrames := by
  cases east <;> rfl

/-- The device once an intact frame for it has landed and is counted (R539, R543). -/
def Device.landed (d : Device) (east : Bool) (frame : List Byte) : Device :=
  (d.landFrame east frame).modOts (fun o => { o with rxFrames := satInc o.rxFrames })

theorem calm_landed {d : Device} (h : d.Calm) (east : Bool) (frame : List Byte) : (d.landed east frame).Calm :=
  calm_modOts (calm_landFrame h east frame) _

theorem landed_pair (d : Device) (east : Bool) (frame : List Byte) : (d.landed east frame).ots.pair east =
    { d.ots.pair east with
      rxNext := (d.ots.pair east).rxNext + 1
      owed := vmod (d.ots.pair east).owed (d.ots.pair east).rxNext.val (· + ceilDiv frame.length 512) } := by
  cases east <;> rfl

theorem landed_other (d : Device) (east : Bool) (frame : List Byte) : (d.landed east frame).ots.pair (!east) = d.ots.pair (!east) := by
  cases east <;> rfl

theorem landed_rxFrames (d : Device) (east : Bool) (frame : List Byte) : (d.landed east frame).ots.rxFrames = satInc d.ots.rxFrames := by
  cases east <;> rfl

theorem landed_outstanding (d : Device) (east : Bool) (frame : List Byte) :
    (d.landed east frame).ots.outstanding = d.ots.outstanding := by
  cases east <;> rfl

theorem landed_arrived (d : Device) (east : Bool) (frame : List Byte) (q : OutReq) : (d.landed east frame).arrived q = d.arrived q := by
  cases east <;> rfl

theorem landed_resets (d : Device) (east : Bool) (frame : List Byte) : (d.landed east frame).ots.resets = d.ots.resets := by
  cases east <;> rfl

/-! ### Responses (R464) -/

/-- A response in time for a live request stands in the waystation tile of its credit, and no COPY goes on with it. -/
theorem response_of_live (d : Device) (east : Bool) (h : OtsHead) (data : List Byte) (q : OutReq) (hd : d.Calm)
    (hepoch : olderEpoch (BitVec.ofNat 8 h.epoch) (d.ots.pair east).epoch = false) (hok : h.status = 0) (hlive : q.live = true)
    (hq : d.ots.outstanding.find? (fun q => q.part = h.tag / 256 % 8 && q.credit = h.tag % 256 && !d.arrived q) = some q)
    (htime : d.now ≤ q.issued + 2000000) :
    d.response east h data = ((d.modOts (fun o => { o with way := o.way ++ [(q.part, q.credit, data)] })).modPart q.part
      (fun x => { x with wayHeld := x.wayHeld ++ [q.credit] })).chargeDevice { well := data.length } := by
  rw [Device.response, if_neg (by simp [hepoch]), hq]
  dsimp only
  rw [if_neg (by simp [hlive]), if_neg (by omega), if_neg (by simp [hok])]
  exact pumpCopies_of_still _ (calm_chargeDevice (calm_modPart (calm_modOts hd _) _ _) _).still

/-- Settles O17: reads are served from the Well and stack DRAM, and responses land in their waystation tiles. -/
theorem readsServedAndLanded : Obligations.ReadsServedAndLanded := by
  unfold Obligations.ReadsServedAndLanded
  constructor
  · intro t east frame s hs hstill hphase hup htype hcrc hdst hhops h inside answer sent
    have hcalm := calm_landed (calm_atTime s t hs hstill) east frame
    have hmeaning : ((s.dev.atTime t).otsReceive east 1 frame fun d h _ => d.serveRead east h) =
        ((s.dev.atTime t).landed east frame).serveRead east h :=
      otsReceive_of_here (s.dev.atTime t) east 1 frame _ hup htype hcrc hdst hhops
    -- an answer of a calm device whose link, memory, engines and interrupts are those of the landed one
    have hsent : ∀ (d : Device) (st : Status) (data : List Byte), d.Calm →
        ((s.dev.atTime t).landed east frame).serveRead east h = d.answerRead east h st data →
        d.ots = ((s.dev.atTime t).landed east frame).ots → d.pins = s.dev.pins → d.store = s.dev.store → d.ne = s.dev.ne →
        d.itn = s.dev.itn → d.i3c = s.dev.i3c → ∃ s', sent s' (answer st data) := by
      intro d st data hd hserve hots hpins hstore hne hitn hi3c
      refine ⟨s.withDev (d.answerRead east h st data), next_whenRunning_of_calm hphase (hmeaning.trans hserve) (calm_answerRead hd _ _ _ _), rfl,
        ?_, ?_, hstore, hne, hitn, hi3c⟩
      · refine (sendQ_answerRead d east h st data).trans ?_
        rw [hots, landed_pair, Device.ringPos, hpins]
        rfl
      · refine (rxFrames_modPair d.ots east _).trans ?_
        rw [hots, landed_rxFrames]
        rfl
    constructor
    · intro hin hpass
      exact hsent _ .ok _ (calm_chargeDevice (calm_modSeal hcalm _) _) (serveRead_of_inside _ east h hin hpass) rfl rfl rfl rfl rfl rfl
    · intro hout
      exact hsent _ .unsupported _ hcalm (serveRead_of_outside _ east h hout) rfl rfl rfl rfl rfl rfl
  · intro t east frame q s hs hstill hphase hup htype hcrc hdst hhops h d
    have hcalm : d.Calm := calm_landed (calm_atTime s t hs hstill) east frame
    have hmeaning : ((s.dev.atTime t).otsReceive east 2 frame fun d h data => d.response east h data) =
        d.response east h (otsData frame) :=
      otsReceive_of_here (s.dev.atTime t) east 2 frame _ hup htype hcrc hdst hhops
    have hepoch : (d.ots.pair east).epoch = (s.dev.ots.pair east).epoch := by
      cases east <;> rfl
    constructor
    · intro hold
      refine next_whenRunning_of_calm hphase (hmeaning.trans ?_) hcalm
      exact if_pos (by rw [hepoch]; exact hold)
    · intro hnew hok hlive hq htime
      have hq' : d.ots.outstanding.find? (fun q => q.part = h.tag / 256 % 8 && q.credit = h.tag % 256 && !d.arrived q) = some q := by
        rw [show d = (s.dev.atTime t).landed east frame from rfl, landed_outstanding]
        simp only [landed_arrived]
        exact hq
      refine next_whenRunning_of_calm hphase (hmeaning.trans (response_of_live d east h _ q hcalm (by rw [hepoch]; exact hnew) hok
        hlive hq' htime)) ?_
      exact calm_chargeDevice (calm_modPart (calm_modOts hcalm _) _ _) _

/-! ### Resets of a pair (R544) -/

/-- With no list that waits for a remote COPY, a request's end changes nothing. -/
theorem endRemote_of_still (d : Device) (q : OutReq) (st : Status) (hd : d.Still) (hkept : ∀ c < 64, (d.ctx c).kept = none) :
    d.endRemote q st = d := by
  have hnone : (List.range 6).find? (fun e => (d.eng e).run.any (fun r => r.due = q.due && r.remote.isSome)) = none := by
    refine List.find?_eq_none.mpr fun e he => ?_
    cases hr : (d.eng e).run with
    | none => simp
    | some r => simp [(hd.1 e (List.mem_range.mp he) r hr).2.1]
  have hctx : (d.ctx q.ctx).kept = none := by
    by_cases hc : q.ctx < 64
    · exact hkept _ hc
    · have hout : d.ctx q.ctx = .reset := by simp [Device.ctx, vget, hc]
      rw [hout]
      rfl
  unfold Device.endRemote
  rw [hnone]
  dsimp only
  rw [hctx]

theorem freeCredits_foldl (l : List OutReq) (d : Device) (p : Nat) (hp : p < 8) :
    ((l.foldl (fun (d : Device) q => d.modPart q.part (fun x => { x with freeCredits := x.freeCredits + 1 })) d).part p).freeCredits =
      (d.part p).freeCredits + (l.filter (fun q => q.part = p)).length := by
  induction l generalizing d with
  | nil => rfl
  | cons q l ih =>
    rw [List.foldl_cons, ih]
    by_cases hq : q.part = p
    · subst hq
      have hmod (f : Part → Part) : (d.modPart q.part f).part q.part = f (d.part q.part) := vget_vmod_same _ _ _ _ hp
      rw [hmod, List.filter_cons_of_pos (by simp)]
      simp only [List.length_cons]
      omega
    · rw [show (d.modPart q.part _).part p = d.part p from vget_vmod_ne _ _ _ _ _ hq, List.filter_cons_of_neg (by simpa using hq)]

theorem foldl_credits_eq (l : List OutReq) (d : Device) :
    ∃ parts, l.foldl (fun (d : Device) q => d.modPart q.part (fun x => { x with freeCredits := x.freeCredits + 1 })) d =
      { d with parts := parts } := by
  refine List.foldlRecOn (motive := fun d' : Device => ∃ parts, d' = { d with parts := parts }) l _ ⟨_, rfl⟩ ?_
  rintro d' ⟨parts, rfl⟩ q -
  exact ⟨_, rfl⟩

/-- R544: what a reset of the pair changes where no list waits for a remote COPY. -/
theorem resetPair_of_still (d : Device) (east : Bool) (hd : d.Still) (hkept : ∀ c < 64, (d.ctx c).kept = none) :
    ∃ parts, d.resetPair east = { d with
      parts := parts
      ots := { (({ d.ots with resets := satInc d.ots.resets } : Otson).modPair east (fun p =>
          { p with epoch := p.epoch + 1, credits := Vector.replicate 2 64, owed := Vector.replicate 2 0, sendQ := [] })) with
        outstanding := d.ots.outstanding.filter (fun q => !(q.east = east && !d.arrived q)) } } ∧
      ∀ p < 8, ((d.resetPair east).part p).freeCredits = (d.part p).freeCredits +
        (d.ots.outstanding.filter (fun q => q.east = east && !d.arrived q && q.part = p)).length := by
  have hfold (l : List OutReq) (d' : Device) (hd' : d'.Still) (hk : ∀ c < 64, (d'.ctx c).kept = none) :
      l.foldl (fun (d : Device) q => d.endRemote q .timeout) d' = d' := by
    refine List.foldlRecOn (motive := fun x : Device => x = d') _ _ rfl fun x hx q _ => ?_
    rw [hx]
    exact endRemote_of_still d' q .timeout hd' hk
  have houtstanding : (d.modOts (fun o => ({ o with resets := satInc o.resets } : Otson).modPair east (fun p =>
      { p with epoch := p.epoch + 1, credits := Vector.replicate 2 64, owed := Vector.replicate 2 0, sendQ := [] }))).ots.outstanding =
      d.ots.outstanding := by cases east <;> rfl
  have harrived : (d.modOts (fun o => ({ o with resets := satInc o.resets } : Otson).modPair east (fun p =>
      { p with epoch := p.epoch + 1, credits := Vector.replicate 2 64, owed := Vector.replicate 2 0, sendQ := [] }))).arrived =
      d.arrived := by cases east <;> rfl
  unfold Device.resetPair
  extract_lets mine d₁ d₂ out d₃
  have hd₂ : d₂ = d₁ := hfold _ d₁ hd hkept
  have hout : out = d.ots.outstanding.filter (fun q => q.east = east && !d.arrived q) := by
    show List.filter (fun q => q.east = east && !d₂.arrived q) d₂.ots.outstanding = _
    rw [hd₂, houtstanding, harrived]
  obtain ⟨parts, hparts⟩ := foldl_credits_eq out d₂
  have hd₃ : d₃ = { d₁ with parts := parts } := by rw [← hd₂]; exact hparts
  have hleft : d.ots.outstanding.filter (fun q => !out.contains q) =
      d.ots.outstanding.filter (fun q => !(q.east = east && !d.arrived q)) := by
    refine List.filter_congr fun q hq => ?_
    rw [hout]
    simp [hq]
  have hpump : (d₃.modOts (fun o => { o with outstanding := o.outstanding.filter (fun q => !out.contains q) })).pumpCopies =
      d₃.modOts (fun o => { o with outstanding := o.outstanding.filter (fun q => !out.contains q) }) :=
    pumpCopies_of_still _ ((still_congr d _ (by rw [hd₃]; rfl) (by rw [hd₃]; rfl) (by rw [hd₃]; rfl)).mpr hd)
  rw [hpump]
  refine ⟨parts, ?_, fun p hp => ?_⟩
  · rw [hd₃, ← hleft, ← houtstanding]
    rfl
  · have hcredits : (d₃.part p).freeCredits = (d₂.part p).freeCredits + (out.filter (fun q => q.part = p)).length :=
      freeCredits_foldl out d₂ p hp
    refine hcredits.trans ?_
    rw [hd₂]
    rw [hout, List.filter_filter]
    simp only [Bool.and_comm]
    rfl

/-- Settles O18: a RESET frame resets its pair. -/
theorem resetFrameResetsPair : Obligations.ResetFrameResetsPair := by
  unfold Obligations.ResetFrameResetsPair
  intro t east frame s hs hstill hoff hinert hup htype hcrc hdst hhops hkept
  have hcalm := calm_landed (calm_atTime s t hs hstill) east frame
  have hmeaning : ((s.dev.atTime t).otsReceive east 3 frame fun d _ _ => d.resetPair east) =
      ((s.dev.atTime t).landed east frame).resetPair east :=
    otsReceive_of_here (s.dev.atTime t) east 3 frame _ hup htype hcrc hdst hhops
  obtain ⟨parts, hreset, hcredits⟩ := resetPair_of_still ((s.dev.atTime t).landed east frame) east hcalm.still hkept
  have hcalm' : (((s.dev.atTime t).landed east frame).resetPair east).Calm := by
    rw [hreset]
    obtain ⟨hs', hmem, hfresh, halert⟩ := hcalm
    exact ⟨hs', hmem, hfresh, halert⟩
  generalize ((s.dev.atTime t).landed east frame).resetPair east = d at hmeaning hreset hcredits hcalm'
  refine ⟨s.withDev d, next_whenAlive_of_calm hoff hinert hmeaning hcalm', rfl, ?_, ?_, ?_, ?_, fun p hp => ?_, ?_, ?_, ?_⟩
  · rw [State.withDev, hreset]
    cases east <;> rfl
  · rw [State.withDev, hreset]
    cases east <;> rfl
  · rw [State.withDev, hreset]
    cases east <;> rfl
  · rw [State.withDev, hreset]
    simp only [landed_arrived, landed_outstanding]
    rfl
  · refine (hcredits p hp).trans ?_
    simp only [landed_arrived, landed_outstanding]
    rfl
  · rw [State.withDev, hreset]
    rfl
  · rw [State.withDev, hreset]
    rfl
  · rw [State.withDev, hreset]
    rfl

end Sys2Proof.Machine
end

section
/-! SUPPORT. The end of a list whose entry is bound to no slot, whatever geometry sets stand (R174, R310); Otson frames that go out and
requests that time out (R465, R543). -/
namespace Sys2Proof.Machine

/-! ### What leaves the lists of every engine -/

/-- `d'` is `d` but for what no list's course depends on: every engine keeps its list, its state and its status registers, and the
vision units, the request and the instant stay. -/
structure Device.KeepsLists (d d' : Device) : Prop where
  runs : ∀ n, (d'.eng n).run = (d.eng n).run
  pres : ∀ n, (d'.eng n).pre = (d.eng n).pre
  regs : ∀ n, (d'.eng n).regs = (d.eng n).regs
  vis : d'.vis = d.vis
  req : d'.req = d.req
  now : d'.now = d.now

section
variable {d d' d'' : Device}

theorem keepsLists_refl (d : Device) : d.KeepsLists d := ⟨fun _ => rfl, fun _ => rfl, fun _ => rfl, rfl, rfl, rfl⟩

theorem Device.KeepsLists.trans (h : d.KeepsLists d') (h' : d'.KeepsLists d'') : d.KeepsLists d'' where
  runs n := (h'.runs n).trans (h.runs n)
  pres n := (h'.pres n).trans (h.pres n)
  regs n := (h'.regs n).trans (h.regs n)
  vis := h'.vis.trans h.vis
  req := h'.req.trans h.req
  now := h'.now.trans h.now

theorem Device.KeepsLists.still (h : d.KeepsLists d') (hd : d.Still) : d'.Still :=
  still_of_runs d d' hd (fun n _ => h.runs n) h.vis h.req

/-- A change of an engine beside its list, its state and its status registers. -/
theorem keepsLists_modEng (d : Device) (e : Nat) (f : Engine → Engine) (hrun : ∀ x, (f x).run = x.run)
    (hpre : ∀ x, (f x).pre = x.pre) (hregs : ∀ x, (f x).regs = x.regs) : d.KeepsLists (d.modEng e f) where
  runs n := eng_modEng_field Engine.run d e n f hrun
  pres n := eng_modEng_field Engine.pre d e n f hpre
  regs n := eng_modEng_field Engine.regs d e n f hregs
  vis := rfl
  req := rfl
  now := rfl

/-- A change that keeps the engines, the vision units, the request and the instant. -/
theorem keepsLists_of_same (hne : d'.ne = d.ne) (hvis : d'.vis = d.vis) (hreq : d'.req = d.req) (hnow : d'.now = d.now) : d.KeepsLists d' where
  runs n := by rw [Device.eng, hne, Device.eng]
  pres n := by rw [Device.eng, hne, Device.eng]
  regs n := by rw [Device.eng, hne, Device.eng]
  vis := hvis
  req := hreq
  now := hnow

theorem keepsLists_foldl {α : Type} (l : List α) (f : Device → α → Device) (hf : ∀ (d : Device) a, d.KeepsLists (f d a)) (d : Device) :
    d.KeepsLists (l.foldl f d) :=
  List.foldlRecOn (motive := fun d' : Device => d.KeepsLists d') l f (keepsLists_refl d) fun d' hd' a _ => hd'.trans (hf d' a)

/-! ### Reads of units that wait for nothing (R604 to R606) -/

theorem keepsLists_scoreDomain (d : Device) (dom points : Nat) : d.KeepsLists (d.scoreDomain dom points) := by
  unfold Device.scoreDomain
  split
  · exact keepsLists_refl d
  · exact keepsLists_modEng d _ _ (fun _ => rfl) (fun _ => rfl) (fun _ => rfl)

theorem keepsLists_repeated (d : Device) : d.KeepsLists d.repeated := by
  unfold Device.repeated
  split
  · exact keepsLists_of_same rfl rfl rfl rfl
  · exact keepsLists_refl d

theorem keepsLists_modSeal (d : Device) (f : SealRegs → SealRegs) : d.KeepsLists (d.modSeal f) :=
  keepsLists_of_same rfl rfl rfl rfl

theorem keepsLists_verify (d : Device) (tile : Nat) : d.KeepsLists (d.verify tile).2 := by
  have hglitch : d.KeepsLists (d.failAgain tile) := keepsLists_of_same rfl rfl rfl rfl
  have hfailed : d.KeepsLists ((d.failAgain tile).countFail (domainOf tile)).repeated :=
    (hglitch.trans (keepsLists_modSeal _ _)).trans (keepsLists_repeated _)
  unfold Device.verify
  dsimp only
  split
  · exact keepsLists_refl d
  · split
    · exact hfailed.trans ((keepsLists_modSeal _ _).trans (keepsLists_scoreDomain _ _ _))
    · exact hfailed.trans (keepsLists_scoreDomain _ _ _)

theorem keepsLists_reload (d : Device) (tile : Nat) : d.KeepsLists (d.reload tile).2 := by
  rw [reload_same]
  exact keepsLists_of_same rfl rfl rfl rfl

theorem keepsLists_rung3 (d : Device) (tile ctx : Nat) : d.KeepsLists (d.rung3 tile ctx) :=
  keepsLists_of_same rfl rfl rfl rfl

/-- Rungs 2 and 3 once the re-fetch of a tile has failed. -/
theorem keepsLists_ladder (d : Device) (tile ctx : Nat) (backed : Bool) : d.KeepsLists
    (if backed then
      match d.reload tile with
      | (true, d) => if d.sealed tile then (true, d) else (false, d.rung3 tile ctx)
      | (false, d) => (false, d.rung3 tile ctx)
    else (false, d.rung3 tile ctx)).2 := by
  have hreload := keepsLists_reload d tile
  split
  · split
    · next h =>
      rw [h] at hreload
      split
      · exact hreload
      · exact hreload.trans (keepsLists_rung3 _ _ _)
    · next h =>
      rw [h] at hreload
      exact hreload.trans (keepsLists_rung3 _ _ _)
  · exact keepsLists_rung3 _ _ _

theorem keepsLists_verifyRead (d : Device) (tile ctx : Nat) : d.KeepsLists (d.verifyRead tile ctx).2 := by
  have hverify := keepsLists_verify d tile
  unfold Device.verifyRead
  split
  · next h => rwa [h] at hverify
  · next h => rwa [h] at hverify
  · next d₁ h =>
    rw [h] at hverify
    have hrung : d.KeepsLists (d₁.rung2 tile ctx) := hverify.trans (keepsLists_of_same rfl rfl rfl rfl)
    exact hrung.trans (keepsLists_ladder _ tile ctx _)

theorem keepsLists_verifyAll (d : Device) (ctx : Nat) (tiles : List Nat) : d.KeepsLists (d.verifyAll ctx tiles).2 :=
  List.foldlRecOn (motive := fun s : Bool × Device => d.KeepsLists s.2) tiles _ (keepsLists_refl d) fun s hs k _ =>
    hs.trans (keepsLists_verifyRead s.2 k ctx)

/-! ### Flush jobs that stop (R310, R339) -/

theorem keepsLists_spendFor (d : Device) (e : Nat) (c : Option Nat) (u : Use) : d.KeepsLists (d.spendFor e c u) := by
  have hsteps : d.KeepsLists (d.modEng e (fun x => { x with steps := x.steps + u.steps, periodSteps := x.periodSteps + u.steps })) :=
    keepsLists_modEng d e _ (fun _ => rfl) (fun _ => rfl) (fun _ => rfl)
  cases c <;> exact hsteps.trans (keepsLists_of_same rfl rfl rfl rfl)

theorem keepsLists_flushRecord (d : Device) (r : RasterRec) (g : GeoSet) (tile : Nat) (pix : List Pix) :
    d.KeepsLists (d.flushRecord r g tile pix).2 := keepsLists_of_same rfl rfl rfl rfl

theorem keepsLists_flushTile (d : Device) (e : Nat) (r : RasterRec) (g : GeoSet) (tile : Nat) :
    d.KeepsLists (d.flushTile e r g tile) := by
  have hread := keepsLists_verifyAll d ((d.streamCtx g.stream).getD 0) (spanTiles e (d.tileSpans r g (d.tileWork r g.buf tile) true))
  unfold Device.flushTile
  extract_lets w c spans
  split
  next ok d₁ h =>
  rw [h] at hread
  have hspent (u : Use) : d.KeepsLists ((d₁.countFill (fillTiles e inWellOrDram spans)).spendFor e c u) :=
    (hread.trans (keepsLists_modSeal _ _)).trans (keepsLists_spendFor _ _ _ _)
  extract_lets d₂ d₃
  have hspent₃ : d.KeepsLists d₃ := hspent _
  split
  split
  · refine Device.KeepsLists.trans ?_ (keepsLists_spendFor _ e c _)
    exact hspent₃.trans (keepsLists_of_same rfl rfl rfl rfl)
  · split
    next bytes d₄ hrecord =>
    have hrecord' := keepsLists_flushRecord d₃ r g tile (d₃.resolveTile r g w true)
    rw [hrecord] at hrecord'
    refine Device.KeepsLists.trans ?_ (keepsLists_modEng _ e _ (fun _ => rfl) (fun _ => rfl) (fun _ => rfl))
    refine Device.KeepsLists.trans ?_ (keepsLists_spendFor _ e c _)
    exact (hspent₃.trans hrecord').trans (keepsLists_of_same rfl rfl rfl rfl)

theorem keepsLists_flushSome (d : Device) (e n done : Nat) (x : SetRec) : d.KeepsLists (d.flushSome e n done x) := by
  unfold Device.flushSome
  split
  · exact keepsLists_refl d
  · next r hr =>
    dsimp only
    exact (keepsLists_foldl _ _ (fun d k => keepsLists_flushTile d e r x.1 k) d).trans (keepsLists_of_same rfl rfl rfl rfl)

theorem keepsLists_haltFlush (d : Device) (x : SetRec) : d.KeepsLists (d.haltFlush x).2 := by
  unfold Device.haltFlush
  split
  · exact keepsLists_flushSome _ _ _ _ _
  · exact keepsLists_refl d

/-- R310: the sets that go leave every list as it is. -/
theorem keepsLists_releaseSets (d : Device) : d.KeepsLists d.releaseSets :=
  keepsLists_foldl _ _ (fun d x => show d.KeepsLists ((d.haltFlush x).2.dropSet (d.haltFlush x).1) from
    (keepsLists_haltFlush d x).trans (keepsLists_of_same rfl rfl rfl rfl)) d

end

/-! ### The end of a list of an entry bound to no slot -/

/-- What every end settles beside its engine leaves the lists of the engines as they are. -/
theorem Device.Settles.keepsLists {d d' : Device} (h : d.Settles d') : d.KeepsLists d' where
  runs n := by rw [h.engines n]
  pres n := by rw [h.engines n]
  regs n := by rw [h.engines n]
  vis := by rw [h.same]
  req := by rw [h.same]
  now := by rw [h.same]

/-- The list `r` is that of an engine's entry bound to no slot, is no tuning entry's, no compositor's, no shadow's and no
relaunch's; whatever geometry sets stand. -/
structure Device.PlainList (d : Device) (r : Run) (v : Serve) : Prop where
  serve : d.serveOf r.due = some v
  target : v.entry.target = 0
  bind : v.bind = none
  tune : d.tuneEntry r.due.entry = none
  comp : d.isCompositor r.ctx = false
  shadow : r.due.shadow = false
  relaunch : r.due.relaunch = false

theorem Device.PlainList.congr {d d' : Device} {r : Run} {v : Serve} (h : d.PlainList r v) (himage : d'.image = d.image)
    (hactive : d'.itn.active = d.itn.active) : d'.PlainList r v := by
  have hempty : ({ d with rfe := { d.rfe with sets := [] } } : Device).UnboundRun r v :=
    ⟨h.serve, h.target, h.bind, h.tune, h.comp, h.shadow, h.relaunch, rfl⟩
  have hmoved := hempty.congr (d' := { d' with rfe := { d.rfe with sets := [] } }) himage hactive rfl
  exact ⟨hmoved.serve, hmoved.target, hmoved.bind, hmoved.tune, hmoved.comp, hmoved.shadow, hmoved.relaunch⟩

theorem Device.PlainList.settles {d d' : Device} {r : Run} {v : Serve} (h : d.PlainList r v) (hd : d.Settles d') :
    d'.PlainList r v := h.congr (by rw [hd.same]) (by rw [hd.same])

theorem Device.plainRun.plainList {d : Device} {r : Run} (h : d.plainRun r) : ∃ v, d.PlainList r v := by
  obtain ⟨⟨v, hserve, htarget, hbind⟩, htune, hcomp, -, hshadow, -, hrelaunch, -⟩ := h
  exact ⟨v, hserve, htarget, hbind, htune, hcomp, hshadow, hrelaunch⟩

section
variable (d : Device) (e : Nat) (r : Run) (v : Serve) (st : Status) (excused : Bool) (h : d.PlainList r v)
include h

theorem commitRun_of_plain : d.commitRun e r v st = d := by
  simp only [Device.commitRun, h.bind, h.tune, h.comp, Bool.false_eq_true, if_false]

theorem abandonRun_of_plain : d.abandonRun r v excused = d := by
  simp only [Device.abandonRun, h.bind, h.tune]

theorem writeRecord_of_plain (index steps : Nat) : d.writeRecord r.due v st index steps =
    (d.noteEnd r.due st).write v.launch.record (recordBytes st index steps (d.now / 1000) r.due.count) := by
  have hnow : (d.noteEnd r.due st).now = d.now := by rw [noteEnd_same]; rfl
  simp only [Device.writeRecord, h.shadow, h.target, hnow, Bool.false_eq_true, if_false, if_true]

/-- Beside its record, the end of the launch settles what every end settles, and then the sets whose release is due go. -/
theorem endLaunch_of_plain : ∃ d', (d.recordEnd r v st).Settles d' ∧ d.endLaunch e r st excused = d'.releaseSets := by
  have hnoted := settles_write (settles_noteEnd d r.due st) v.launch.record
    (recordBytes st r.lastStarted r.steps (d.now / 1000) r.due.count)
  have hrec := (h.settles (settles_noteEnd d r.due st)).congr (d' := (d.noteEnd r.due st).write v.launch.record
      (recordBytes st r.lastStarted r.steps (d.now / 1000) r.due.count)) rfl rfl
  simp only [Device.endLaunch, h.serve, h.shadow, Bool.false_eq_true, if_false, writeRecord_of_plain d r v st h,
    commitRun_of_plain _ e r v st hrec, abandonRun_of_plain _ r v excused hrec, ite_self,
    Device.endRelaunch, h.relaunch, Bool.not_false, if_true]
  refine ⟨_, ?_, rfl⟩
  refine Device.Settles.trans (Device.Settles.trans ?_ (settles_dropSems _ _))
    ((settles_settleCtx _ _).trans (settles_releaseMarks _ _))
  refine Device.Settles.trans ?_ ((settles_countLate _ _ _).trans (settles_creditsBack _ r))
  split
  · exact hnoted
  split
  · exact hnoted
  · exact hnoted.trans (settles_sigs _ (· ++ [ShadowSig.of e r]))

/-- Its list ended, the engine is free, and every list's course is what it was (R174). -/
theorem keepsLists_endRun (hr : (d.eng e).run = some r) : (d.freeEngine e r st).KeepsLists (d.endRun e st excused) := by
  have hbooked := ((settles_bookTime d r).trans (settles_withdrawSems _ e)).trans
    (settles_reloads _ (fun l => l.filter (fun y => y.2.1 ≠ some e)))
  have hfree := settles_freeEngine hbooked e r st
  have hplain := (h.congr (d' := d.freeEngine e r st) rfl rfl).settles hfree
  obtain ⟨d', hsettles, hend⟩ := endLaunch_of_plain _ e r v st excused hplain
  have hrecord : (d.freeEngine e r st).KeepsLists ((d.freeEngine e r st).recordEnd r v st) := keepsLists_of_same rfl rfl rfl rfl
  have hended : (d.freeEngine e r st).KeepsLists d'.releaseSets :=
    (hrecord.trans ((settles_write hfree _ _).trans hsettles).keepsLists).trans (keepsLists_releaseSets d')
  simp only [Device.endRun, hr]
  exact hend ▸ hended

end

section
variable {d d' : Device} {e : Nat} {r : Run} {st : Status}

theorem Device.KeepsLists.ended_run (h : (d.freeEngine e r st).KeepsLists d') (he : e < 6) : (d'.eng e).run = none := by
  rw [h.runs e, freeEngine_eng d e r st he]

theorem Device.KeepsLists.ended_pre (h : (d.freeEngine e r st).KeepsLists d') (he : e < 6) : (d'.eng e).pre = .idle := by
  rw [h.pres e, freeEngine_eng d e r st he]

theorem Device.KeepsLists.ended_status (h : (d.freeEngine e r st).KeepsLists d') (he : e < 6) : (d'.eng e).regs.lastStatus =
    word (statusCode st + r.ctx * 256 + r.lastStarted % 2 ^ 16 * 2 ^ 16) := by
  rw [h.regs e, freeEngine_eng d e r st he]

end

/-- Where no list waits, no commit is held, no vision job runs and no request is watched, a command satisfies nothing. -/
theorem pump_of_unwaiting (d : Device) (hruns : ∀ e < 6, ∀ r, (d.eng e).run = some r → r.wait = none ∧ r.awaitShadow = false)
    (hjobs : ∀ u < 7, (d.unit u).run = none) (hwatch : d.req.watch = none) : d.pump = d := by
  have hfold (l : List Nat) (f : Device → Nat → Device) (hf : ∀ n ∈ l, f d n = d) : l.foldl f d = d :=
    List.foldlRecOn (motive := fun d' : Device => d' = d) l f rfl fun d' hd' n hn => hd' ▸ hf n hn
  have hengines : Device.pumpEngines 64 d = d := pumpEngines_of_still _ _ fun e he r hr => (hruns e he r hr).1
  have hlost : d.pumpLost = d := by
    refine hfold _ _ fun e he => ?_
    cases hr : (d.eng e).run with
    | none => rfl
    | some r => simp [(hruns e (List.mem_range.mp he) r hr).1]
  have hvision : d.pumpVision = d := by
    refine hfold _ _ fun u hu => ?_
    rw [hjobs u (List.mem_range.mp hu)]
  have hcommits : d.pumpCommits = d := by
    refine hfold _ _ fun e he => ?_
    cases hr : (d.eng e).run with
    | none => rfl
    | some r => simp [(hruns e (List.mem_range.mp he) r hr).2]
  have hrequest : d.pumpRequest = d := by rw [Device.pumpRequest, hwatch]
  rw [Device.pump, hengines, hlost, hvision, hcommits, hrequest]

/-! ### Frames that go out (R543) -/

section
variable (t : Nat) (east : Bool) (f : List Byte) (rest : List (List Byte)) (s : State) (hs : s.Inv) (hoff : s.dev.phase ≠ .off)
  (hinert : s.dev.phase ≠ .inert) (hqueue : (s.dev.ots.pair east).sendQ = f :: rest)

/-- The frame at the front of the pair's queue leaves by the pair's next lane. -/
def Device.sendFrame (d : Device) (east : Bool) (f : List Byte) (rest : List (List Byte)) (p : OtsPair) : Device :=
  (d.modOts (fun o => ({ o with txFrames := satInc o.txFrames } : Otson).modPair east (fun x =>
    { x with
      sendQ := rest, nextLane := x.nextLane + 1
      credits := vset x.credits x.nextLane.val (vget p.credits p.nextLane.val 0 - ceilDiv f.length 512) }))).countFrame
    (otsLane east p.nextLane)

include hoff hinert hqueue in
theorem otsonFrameSend_eq : exec (.otsonFrameSend t east) s = .next (s.run t fun d =>
    d.guard ((s.dev.ots.pair east).up && s.dev.laneRuns (otsLane east (s.dev.ots.pair east).nextLane) &&
      decide (ceilDiv f.length 512 ≤ vget (s.dev.ots.pair east).credits (s.dev.ots.pair east).nextLane.val 0))
      (fun d => d.sendFrame east f rest (s.dev.ots.pair east))) := by
  refine congrArg (fun d : Device => Host.Outcome.next (s.withDev d.settle)) ?_
  refine (whenAlive_of_alive (s.dev.atTime t) _ hoff hinert).trans ?_
  dsimp only
  have hq : ((s.dev.atTime t).ots.pair east).sendQ = f :: rest := hqueue
  rw [hq]
  rfl

end

/-- A device whose memory is canonical, with no event of the command and ALERT_N as R712 says, closes as it is. -/
theorem next_run_of_same {s : State} {t : Nat} {f : Device → Device} {d : Device} (hd : f (s.dev.atTime t) = d) (hs : s.Inv)
    (hstore : d.store = s.dev.store) (hi3c : d.i3c = s.dev.i3c) (halert : d.pins.alertLow = d.alert) :
    (.next (s.run t f) : Host.Outcome State Fault Refusal) = .next (s.withDev d) := by
  obtain ⟨hmem, hfresh, -⟩ := hs
  exact congrArg Host.Outcome.next (run_eq s t f d hd (by rw [hstore]; exact hmem) (by rw [hi3c]; exact hfresh) halert)

/-- R465: the list whose COPY a request serves is that of the one engine that runs a list. -/
theorem endRemote_of_run (d : Device) (q : OutReq) (st : Status) (e : Nat) (r : Run) (he : e < 6) (halone : d.Alone e)
    (hr : (d.eng e).run = some r) (hdue : r.due = q.due) (hremote : r.remote.isSome = true) (hst : st ≠ .sealFail) :
    d.endRemote q st = d.endRun e st := by
  have hfind : (List.range 6).find? (fun e => (d.eng e).run.any (fun r => r.due = q.due && r.remote.isSome)) = some e := by
    refine List.find?_eq_some_iff_getElem.mpr ⟨by simp [hr, hdue, hremote], e, by simpa using he, by simp, fun j hj => ?_⟩
    have hj6 : j < 6 := hj.trans he
    rw [List.getElem_range, halone.1 j hj6 (Nat.ne_of_lt hj)]
    rfl
  rw [Device.endRemote, hfind]
  exact if_neg hst

/-- Settles O19: frames go out by credit, and a request without a response ends its list. -/
theorem framesGoOutAndTimeOut : Obligations.FramesGoOutAndTimeOut := by
  unfold Obligations.FramesGoOutAndTimeOut
  constructor
  · intro t east f rest s hs hoff hinert hqueue p have_
    rw [otsonFrameSend_eq t east f rest s hoff hinert hqueue]
    obtain ⟨hmem, hfresh, halert⟩ := hs
    constructor
    · rintro ⟨hup, hruns, hcredits⟩
      exact next_run_of_same (if_pos (by
        simp only [Bool.and_eq_true, decide_eq_true_eq]
        exact ⟨⟨hup, hruns⟩, hcredits⟩)) ⟨hmem, hfresh, halert⟩ rfl rfl halert
    · intro hwaits
      refine next_run_of_same (if_neg ?_) ⟨hmem, hfresh, halert⟩ rfl rfl halert
      simp only [Bool.and_eq_true, decide_eq_true_eq]
      rintro ⟨⟨hup, hruns⟩, hcredits⟩
      rcases hwaits with h | h | h
      · exact absurd (hup.symm.trans h) (by decide)
      · exact absurd (hruns.symm.trans h) (by decide)
      · exact absurd hcredits (Nat.not_le.mpr h)
  · intro t part credit q e r s hs hphase halone hr hdue hremote hq harrived
    have hmeaning : ((s.dev.atTime t).whenRunning fun d =>
        match d.ots.outstanding.find? (fun q => q.part = part.val && q.credit = credit.toNat && q.live) with
        | none => d
        | some q => d.guard (!d.arrived q && decide (q.issued + 2000000 ≤ d.now)) (fun d => (d.endRemote q .timeout).pumpCopies)) =
        (s.dev.atTime t).guard (!(s.dev.atTime t).arrived q && decide (q.issued + 2000000 ≤ (s.dev.atTime t).now))
          (fun d => (d.endRemote q .timeout).pumpCopies) := by
      refine (if_pos hphase).trans ?_
      have hq' : (s.dev.atTime t).ots.outstanding.find? (fun q => q.part = part.val && q.credit = credit.toNat && q.live) = some q := hq
      dsimp only
      rw [hq']
    constructor
    · intro htime hplain
      obtain ⟨v, hlist⟩ := hplain.plainList
      have hlist' : (s.dev.atTime t).PlainList r v := hlist.congr rfl rfl
      have hkeeps := keepsLists_endRun (s.dev.atTime t) e.val r v .timeout false hlist' hr
      have hstill := hkeeps.still (still_freeEngine (s.dev.atTime t) e r .timeout halone)
      have hend : (s.dev.atTime t).guard (!(s.dev.atTime t).arrived q && decide (q.issued + 2000000 ≤ (s.dev.atTime t).now))
          (fun d => (d.endRemote q .timeout).pumpCopies) = (s.dev.atTime t).endRun e.val .timeout := by
        refine (if_pos ?_).trans ?_
        · have harrived' : (s.dev.atTime t).arrived q = false := harrived
          simpa [harrived'] using htime
        · dsimp only
          rw [endRemote_of_run (s.dev.atTime t) q .timeout e.val r e.isLt halone hr hdue hremote (by decide)]
          exact pumpCopies_of_still _ hstill
      refine ⟨s.withDev ((s.dev.atTime t).endRun e.val .timeout).settle, ?_, rfl, hkeeps.ended_run e.isLt,
        hkeeps.ended_pre e.isLt, hkeeps.ended_status e.isLt⟩
      refine congrArg (fun d : Device => Host.Outcome.next (s.withDev d.pump.settle)) (hmeaning.trans hend) |>.trans ?_
      rw [pump_of_still _ hstill]
    · intro hearly hwait hawait
      obtain ⟨hothers, hjobs, hwatch⟩ := halone
      refine congrArg (fun d : Device => Host.Outcome.next (s.withDev d.pump.settle)) (hmeaning.trans (if_neg ?_)) |>.trans ?_
      · simp only [Bool.and_eq_true, decide_eq_true_eq, not_and]
        exact fun _ => Nat.not_le.mpr hearly
      · have hruns : ∀ i < 6, ∀ q, ((s.dev.atTime t).eng i).run = some q → q.wait = none ∧ q.awaitShadow = false := by
          intro i hi q hq
          by_cases hie : i = e.val
          · have hqr : some q = some r := hq.symm.trans (hie ▸ hr)
            cases hqr
            exact ⟨hwait, hawait⟩
          · exact absurd (hq.symm.trans (hothers i hi hie)) (by simp)
        obtain ⟨hmem, hfresh, halert⟩ := hs
        rw [pump_of_unwaiting _ hruns hjobs hwatch, settle_of_quiet (s.dev.atTime t) hmem hfresh halert]

end Sys2Proof.Machine
end

section
/-! SUPPORT. Waits of lists (R168), and the stripes that wait on the DONE_FLAG of a lost job (Table 8.8). -/
namespace Sys2Proof.Machine

/-! ### A wait without a limit whose flag is lost -/

namespace LostFlagWait

/-- A stripe-bound entry of stream 0 whose list stands at address 0. -/
def entry : Entry :=
  { offset := 0, ctx := 1, bestEffort := false, target := 0, saveOk := false, units := 1, stream := 0, convoy := false,
    bind := 2, slot := 0, group := 0, budget := 1, launch := 0, deadline := 0 }

def itin : Itin :=
  { index := 0, lockstep := false, cycleNs := 1000000, groups0 := 1, parts := [], ctxs := [], convoys := [], entries := [entry]
    launches := [{ addr := 0, record := 0x20000, credits := 0, yieldWait := 10, row0 := 0, rows := 0 }], marks := [] }

/-- The launch of the entry that waits without a limit for flag 0 to reach 1. -/
def run : Run :=
  { due := { index := 0, entry := 0, count := 0, at_ := 0, repro := none, shadow := false, relaunch := false, producer := false
             tile := none, anchors := [] }
    ctx := 1, bestEffort := false, bind := none, streams := [], slot := 0, addr := 0, cmds := [], descs := [], footprint := 64
    idx := 0, steps := 0, started := 0, fused := false, inCmd := true, wait := some (.flag 0 1 0 0), remote := none, dests := []
    heads := [], sigA := 0, sigB := 0, degraded := false, credits := 0, awaitShadow := false, overrun := false }

/-- Past T0: the list's one command is a WAIT on flag 0, and slot 0 of stream 0 has lost that flag's job. -/
def device : Device :=
  ((({ Device.reset [] with
      phase := .running
      store := { (Device.reset []).store with mem := [(2, 1), (64, BitVec.ofNat 8 opWAIT)] }
      image := { Image.none with itins := [itin] }
      itn := { Itinerary.reset with t0 := some 0, groupEn := 1 } } : Device).modSlot 0 0 fun x =>
    { x with lostFlags := [(0, .timeout)] }).modEng 0 fun x => { x with run := some run, pre := .running })

def state : State := { pending := [], dev := device }

theorem state_inv : state.Inv := ⟨rfl, rfl, rfl⟩

theorem device_alone : device.Alone 0 := ⟨by decide +kernel, by decide +kernel, rfl⟩

theorem device_run : (device.eng 0).run = some run := by decide +kernel

end LostFlagWait

open LostFlagWait in
/-- Refutes O30: a stripe that waits without a limit on the DONE_FLAG of a lost job ends and re-projects at the next command
(Table 8.8), so more than time changes where a WAIT without a limit meets its expiry. -/
theorem not_flagsAndWaits : ¬ Obligations.FlagsAndWaits := by
  rintro ⟨-, hwaits⟩
  have hexec := (hwaits 0 0 1 0 0 0 run state state_inv rfl device_alone device_run rfl rfl rfl (by decide +kernel)).2 (.inl rfl)
  have hleft : (((state.runI 0 fun d => d.whenRunning fun d =>
      match (d.eng 0).run with
      | none => d
      | some r =>
        match r.wait with
        | some (.flag f target start limit) =>
          d.guard ((d.eng 0).pre ≠ .saving && limit != 0 && decide (start + 1000 * limit ≤ d.now) &&
            (!d.flagReached f target || decide (start + 1000 * limit < d.now))) (fun d => d.endRun 0 .timeout)
        | _ => d).dev.eng 0).run).isSome = false := by
    decide +kernel
  have hright := congrArg (fun s' : State => (s'.dev.eng 0).run.isSome) (Host.Outcome.next.inj hexec)
  exact absurd (hleft.symm.trans hright) (by decide +kernel)

end Sys2Proof.Machine
end

section
/-! SUPPORT. The major-cycle boundary (R437, R470, R474). -/
namespace Sys2Proof.Machine

/-! ### Order 1: no switch -/

theorem boundarySwitch_of_full (d : Device) (bound : Nat) (hactive : d.itn.active = 0) (hswitch : d.itn.switchTo = none)
    (hrejoin : ∀ e < 6, (d.eng e).rejoin = .none) : d.boundarySwitch bound = d := by
  have hnone : d.admissible bound = [] := by
    refine List.filter_eq_nil_iff.mpr fun e he => ?_
    rw [hrejoin e (List.mem_range.mp he)]
    simp
  have hnext : d.nextItinerary false = 0 := by
    rw [Device.nextItinerary, if_pos hactive, hswitch]
  rw [Device.boundarySwitch, hnone]
  show (if d.nextItinerary false = d.itn.active then d.modItn (fun i => { i with switchTo := none })
    else d.switchItinerary (d.nextItinerary false)) = d
  rw [hnext, if_pos hactive.symm]
  obtain ⟨phase, now, pins, store, image, ctl, req, i3c, boot, trust, attest, therm, toll, sealRegs, sealSt, itn, well, stk, ne, vis,
    ctxs, parts, streams, rfe, serai, scan, lanes, recorder, ots⟩ := d
  simp only [Device.modItn]
  rw [← hswitch]

/-! ### Order 2: no mode change -/

theorem modesFor_of_none (d : Device) (k : Nat) (hreplay : d.ctl.replay = false) (hmodes : ∀ m ∈ d.req.modes, m.k ≠ k) :
    d.modesFor k = [] := by
  have hmine (i3c : Bool) : d.req.modes.filter (fun m => m.k = k && m.fromI3c = i3c) = [] :=
    List.filter_eq_nil_iff.mpr fun m hm => by simp [hmodes m hm]
  rw [Device.modesFor, if_neg (by simp [hreplay])]
  simp only [hmine]
  rfl

theorem recordModes_nil (d : Device) (k : Nat) (was : Bool) : d.recordModes k was [] = d := by
  unfold Device.recordModes
  split <;> rfl

/-- Without a mode change for it, the boundary leaves all but the lists of accepted and recorded ones. -/
theorem boundaryModes_of_none (d : Device) (k : Nat) (hmodes : d.modesFor k = []) :
    ∃ m n r, d.boundaryModes k = ([], [], { d with req := { d.req with modes := m, skips := n }, recorder := r }) := by
  rw [Device.boundaryModes, hmodes]
  refine ⟨_, _, _, congrArg (fun x : Device => (([], [], x) : List Nat × List Nat × Device)) ((recordModes_nil _ k _).trans rfl)⟩

/-! ### Orders 3 to 5: contexts are admitted again (R470) -/

/-- The state of a context that is not quarantined (Table 10.15). -/
def Device.admittedMode (d : Device) (c : Nat) : CtxMode :=
  let x := d.ctx c
  if d.ne.toList.any (fun e => e.run.any (fun r => r.ctx = c)) then .running
  else if x.kept.isSome then (if x.keptSaved then .saved else .yielded)
  else if x.ready.isEmpty && !d.itn.waiting.any (fun y => (d.entryOf y.index y.entry).any (fun e => e.ctx = c)) then .idle
  else .queued

theorem modeOf_of_admitted (d : Device) (c : Nat) (h : (d.ctx c).mode ≠ .quarantined) : d.modeOf c = d.admittedMode c := if_neg h

theorem admittedMode_ne_quarantined (d : Device) (c : Nat) : d.admittedMode c ≠ .quarantined := by
  unfold Device.admittedMode
  dsimp only
  split
  · simp
  · split
    · split <;> simp
    · split <;> simp

/-- A context's state is decided by the engines, the itinerary unit and what the context keeps and has ready. -/
theorem admittedMode_congr (d d' : Device) (c : Nat) (hne : d'.ne = d.ne) (hitn : d'.itn = d.itn) (himage : d'.image = d.image)
    (hkept : (d'.ctx c).kept = (d.ctx c).kept) (hsaved : (d'.ctx c).keptSaved = (d.ctx c).keptSaved)
    (hready : (d'.ctx c).ready = (d.ctx c).ready) : d'.admittedMode c = d.admittedMode c := by
  have hentry (i e : Nat) : d'.entryOf i e = d.entryOf i e := by
    rw [Device.entryOf, Device.itinOf, himage, Device.entryOf, Device.itinOf]
  simp only [Device.admittedMode, hne, hitn, hkept, hsaved, hready, hentry]

/-- A context that is quarantined is admitted again. -/
def Device.admitCtx (d : Device) (c : Nat) : Device :=
  if (d.ctx c).mode = .quarantined then (d.modCtx c (fun x => { x with mode := .idle })).settleCtx c else d

theorem ctx_modCtx_same (d : Device) (c : Nat) (f : Ctx → Ctx) (hc : c < 64) : (d.modCtx c f).ctx c = f (d.ctx c) :=
  vget_vmod_same _ _ _ _ hc

theorem ctx_modCtx_ne (d : Device) (c n : Nat) (f : Ctx → Ctx) (h : c ≠ n) : (d.modCtx c f).ctx n = d.ctx n :=
  vget_vmod_ne _ _ _ _ _ h

theorem admitCtx_same (d : Device) (c : Nat) : ∃ ctxs, d.admitCtx c = { d with ctxs := ctxs } := by
  unfold Device.admitCtx
  split <;> exact ⟨_, rfl⟩

theorem admitCtx_ctx_same (d : Device) (c : Nat) (hc : c < 64) : (d.admitCtx c).ctx c =
    if (d.ctx c).mode = .quarantined then { d.ctx c with mode := d.admittedMode c } else d.ctx c := by
  unfold Device.admitCtx
  split
  · have hidle : ((d.modCtx c (fun x => { x with mode := .idle })).ctx c) = { d.ctx c with mode := .idle } :=
      ctx_modCtx_same d c _ hc
    have hmode : (d.modCtx c (fun x => { x with mode := .idle })).modeOf c = d.admittedMode c :=
      (modeOf_of_admitted _ c (by rw [hidle]; simp)).trans
        (admittedMode_congr d _ c rfl rfl rfl (by rw [hidle]) (by rw [hidle]) (by rw [hidle]))
    rw [Device.settleCtx, ctx_modCtx_same _ c _ hc, hidle, hmode]
  · rfl

theorem admitCtx_ctx_ne (d : Device) (c n : Nat) (h : c ≠ n) : (d.admitCtx c).ctx n = d.ctx n := by
  unfold Device.admitCtx
  split
  · rw [Device.settleCtx, ctx_modCtx_ne _ c n _ h, ctx_modCtx_ne _ c n _ h]
  · rfl

/-- The contexts below `n` admitted again, in ascending order. -/
theorem foldl_admitCtx (d : Device) (n : Nat) : (∃ ctxs, (List.range n).foldl Device.admitCtx d = { d with ctxs := ctxs }) ∧
    ∀ c < 64, ((List.range n).foldl Device.admitCtx d).ctx c =
      if c < n ∧ (d.ctx c).mode = .quarantined then { d.ctx c with mode := d.admittedMode c } else d.ctx c := by
  induction n with
  | zero => exact ⟨⟨_, rfl⟩, fun c _ => by simp⟩
  | succ n ih =>
    obtain ⟨⟨ctxs, hsame⟩, hctx⟩ := ih
    rw [List.range_succ, List.foldl_append, List.foldl_cons, List.foldl_nil]
    generalize (List.range n).foldl Device.admitCtx d = d' at hsame hctx
    refine ⟨?_, fun c hc => ?_⟩
    · obtain ⟨ctxs', hadmit⟩ := admitCtx_same d' n
      exact ⟨ctxs', by rw [hadmit, hsame]⟩
    · by_cases hcn : c = n
      · subst hcn
        have hkeep : d'.ctx c = d.ctx c := (hctx c hc).trans (if_neg (by omega))
        rw [admitCtx_ctx_same d' c hc, hkeep, admittedMode_congr d d' c (by rw [hsame]) (by rw [hsame]) (by rw [hsame])
          (by rw [hkeep]) (by rw [hkeep]) (by rw [hkeep])]
        simp
      · rw [admitCtx_ctx_ne d' n c (Ne.symm hcn), hctx c hc]
        have hlt : c < n + 1 ↔ c < n := by omega
        simp only [hlt]

/-- The cycle that starts at a boundary: counted, with no entry fallen due (R437). -/
def Device.countCycle (d : Device) : Device :=
  d.modItn (fun i =>
    { i with
      k := d.itn.k + 1, cycles := satInc i.cycles, fallen := []
      windows := i.windows.filter (fun w => d.t0 + (d.itn.k + 1) * d.cycleNs ≤ w.2.2)
      aborted := i.aborted.filter (fun a => d.itn.k + 1 ≤ a.2.2) })

/-- The device at a boundary without a mode change for it, before contexts are admitted again. -/
def Device.startCycle (d : Device) (modes : List PendingMode) (skips : Nat) (r : Recorder) : Device :=
  { d.countCycle with req := { d.req with modes := modes, skips := skips }, recorder := r }

theorem boundaryRest_nil (d : Device) (htunes : d.image.tunes = []) :
    d.boundaryRest [] [] = (List.range 64).foldl Device.admitCtx d := by
  obtain ⟨ctxs, hsame⟩ := (foldl_admitCtx d 64).1
  have himage : ((List.range 64).foldl Device.admitCtx d).image.tunes = [] := by rw [hsame, htunes]
  unfold Device.boundaryRest
  extract_lets d₁ d₂
  have hd₂ : d₂ = (List.range 64).foldl Device.admitCtx d := rfl
  rw [hd₂, himage, List.foldl_nil]

theorem boundary_of_full (d : Device) (hreplay : d.ctl.replay = false) (htunes : d.image.tunes = []) (hactive : d.itn.active = 0)
    (hswitch : d.itn.switchTo = none) (hrejoin : ∀ e < 6, (d.eng e).rejoin = .none)
    (hmodes : ∀ m ∈ d.req.modes, m.k ≠ d.itn.k + 1) :
    ∃ m n r, d.boundary = (List.range 64).foldl Device.admitCtx (d.startCycle m n r) := by
  obtain ⟨m, n, r, hmode⟩ := boundaryModes_of_none d.countCycle (d.itn.k + 1) (modesFor_of_none d.countCycle _ hreplay hmodes)
  have hfull : d.countCycle.boundarySwitch (d.t0 + (d.itn.k + 1) * d.cycleNs) = d.countCycle :=
    boundarySwitch_of_full _ _ hactive hswitch hrejoin
  have hboundary : d.boundary =
      (let (cold, banks, d) := (d.countCycle.boundarySwitch (d.t0 + (d.itn.k + 1) * d.cycleNs)).boundaryModes (d.itn.k + 1)
       d.boundaryRest cold banks) := rfl
  refine ⟨m, n, r, ?_⟩
  rw [hboundary, hfull, hmode]
  exact boundaryRest_nil (d.startCycle m n r) htunes

/-- Settles O20: the boundary of the full itinerary counts its cycle and admits the quarantined contexts again. -/
theorem boundaryStartsCycle : Obligations.BoundaryStartsCycle := by
  unfold Obligations.BoundaryStartsCycle
  intro t s hs hstill hphase hsome
  have hcalm := calm_atTime s t hs hstill
  have ht0 (h : s.dev.itn.t0.isSome = true) : (s.dev.atTime t).t0 = s.dev.t0 := by
    obtain ⟨z, hz⟩ := Option.isSome_iff_exists.mp h
    show (s.dev.itn.t0.getD _) = s.dev.itn.t0.getD _
    rw [hz]
    rfl
  constructor
  · intro hdue hstarted hreplay htunes hactive hswitch hrejoin hmodes
    have hguard : ((s.dev.atTime t).active.isSome &&
        decide ((s.dev.atTime t).t0 + ((s.dev.atTime t).itn.k + 1) * (s.dev.atTime t).cycleNs ≤ (s.dev.atTime t).now)) = true := by
      rw [ht0 hstarted]
      simp only [Bool.and_eq_true, decide_eq_true_eq]
      exact ⟨hsome, hdue⟩
    obtain ⟨m, n, r, hboundary⟩ := boundary_of_full (s.dev.atTime t) hreplay htunes hactive hswitch hrejoin hmodes
    obtain ⟨⟨ctxs, hsame⟩, hctx⟩ := foldl_admitCtx ((s.dev.atTime t).startCycle m n r) 64
    have hmeaning : (s.dev.atTime t).guard ((s.dev.atTime t).active.isSome &&
        decide ((s.dev.atTime t).t0 + ((s.dev.atTime t).itn.k + 1) * (s.dev.atTime t).cycleNs ≤ (s.dev.atTime t).now))
        Device.boundary = _ := (if_pos hguard).trans hboundary
    generalize (List.range 64).foldl Device.admitCtx ((s.dev.atTime t).startCycle m n r) = d at hsame hctx hmeaning
    have hcalm' : d.Calm := by
      rw [hsame]
      obtain ⟨hs', hmem, hfresh, halert⟩ := hcalm
      exact ⟨hs', hmem, hfresh, halert⟩
    have hadmit : ∀ c < 64, d.ctx c = if (s.dev.ctx c).mode = .quarantined then
        { s.dev.ctx c with mode := ((s.dev.atTime t).startCycle m n r).admittedMode c } else s.dev.ctx c := fun c hc =>
      (hctx c hc).trans (if_congr (and_iff_right hc) rfl rfl)
    have hmode : ∀ c < 64, (d.ctx c).mode ≠ .quarantined := by
      intro c hc
      rw [hadmit c hc]
      split
      · exact admittedMode_ne_quarantined _ c
      · assumption
    have hadmitted : ∀ c < 64, d.modeOf c = ((s.dev.atTime t).startCycle m n r).admittedMode c := by
      intro c hc
      rw [modeOf_of_admitted d c (hmode c hc)]
      refine admittedMode_congr _ d c (by rw [hsame]) (by rw [hsame]) (by rw [hsame]) ?_ ?_ ?_
      all_goals
        rw [hadmit c hc]
        split <;> rfl
    refine ⟨s.withDev d, next_whenRunning_of_calm hphase hmeaning hcalm', rfl, ?_, ?_, ?_, ?_, ?_,
      fun c hc => ⟨?contexts, hmode c hc⟩, ?_, ?_, ?_, ?_, ?_⟩
    case contexts =>
      refine (hadmit c hc).trans ?_
      rw [← hadmitted c hc]
      rfl
    · rw [State.withDev, hsame]; rfl
    · rw [State.withDev, hsame]; rfl
    · rw [State.withDev, hsame]; rfl
    · rw [State.withDev, hsame]; exact hactive
    · rw [State.withDev, hsame]; rfl
    · rw [State.withDev, hsame]; rfl
    · rw [State.withDev, hsame]; rfl
    · rw [State.withDev, hsame]; rfl
    · rw [State.withDev, hsame]; rfl
    · rw [State.withDev, hsame]; rfl
  · intro hearly hstarted
    refine next_whenRunning_of_calm hphase (if_neg ?_) hcalm
    rw [ht0 hstarted]
    simp only [Bool.and_eq_true, decide_eq_true_eq, not_and]
    exact fun _ => Nat.not_le.mpr hearly

end Sys2Proof.Machine
end

section
/-! SUPPORT. Entries that fall due (R440, R444), and the sets that go with a due that launches nothing (R310). -/
namespace Sys2Proof.Machine

/-! ### A due that its group leaves out, while a set waits for its release -/

namespace LeftOutDue

/-- An accepted set of stream 1 that no list reads and no due will. -/
def geo : SetRec := (SkipWhileFlushing.geo.1, { SkipWhileFlushing.geo.2 with flush := none })

/-- Past T0, with the entry's group not enabled and the set held. -/
def device : Device :=
  { SkipWhileFlushing.device with
    store := (Device.reset []).store
    itn := { Itinerary.reset with t0 := some 0, groupEn := 0 }
    rfe := { Rfe.reset with sets := [geo] } }

def state : State := { pending := [], dev := device }

theorem state_inv : state.Inv := ⟨rfl, rfl, rfl⟩

theorem device_still : device.Still := (still_congr (Device.reset []) device rfl rfl rfl).mpr (still_reset _ _ _)

end LeftOutDue

open LeftOutDue in
/-- Refutes O21: a due whose group is not enabled releases the sets whose release is due (R310), so more changes than the note that
its entry has fallen due. -/
theorem not_entryFallsDue : ¬ Obligations.EntryFallsDue := by
  intro hfalls
  have hexec := (hfalls 100000 0 SkipWhileFlushing.itin SkipWhileFlushing.entry SkipWhileFlushing.serve state state_inv device_still rfl
    rfl rfl rfl rfl (by decide +kernel)).1 (by decide +kernel) (by decide +kernel)
  have hleft : ((state.runI 100000 fun d => d.whenRunning fun d =>
      match d.active with
      | none => d
      | some i =>
        match i.entries[0]? with
        | none => d
        | some e =>
          d.guard (!d.itn.fallen.contains 0 && decide (d.cycleStart + 1000 * e.offset ≤ d.now))
            (fun d => d.fallDue i 0 e)).dev.rfe.sets.length) = 0 := by
    decide +kernel
  have hright := congrArg (fun s' : State => s'.dev.rfe.sets.length) (Host.Outcome.next.inj hexec)
  exact absurd (hleft.symm.trans hright) (by decide +kernel)

end Sys2Proof.Machine
end

section
/-! SUPPORT. Full saves of launches that were saved before (R186, R461, Table 4.6). -/
namespace Sys2Proof.Machine

/-! ### A launch whose wait record names an earlier wait -/

namespace SavedAgain

/-- A best-effort entry that may be saved, and the latency-critical entry of its mark. -/
def entry : Entry :=
  { offset := 0, ctx := 1, bestEffort := true, target := 0, saveOk := true, units := 1, stream := 0, convoy := false,
    bind := 0, slot := 0, group := 0, budget := 1, launch := 0, deadline := 0 }

def mark : Mark := { lcEntry := 1, beEntry := 0, step := 50 }

def itin : Itin :=
  { index := 0, lockstep := true, cycleNs := 1000000, groups0 := 1, parts := [], ctxs := [], convoys := []
    entries := [entry, { entry with bestEffort := false }]
    launches := [{ addr := 0, record := 0x20000, credits := 0, yieldWait := 10, row0 := 0, rows := 0 }], marks := [mark] }

/-- A launch inside a command, past the mark's step, that a full save withdrew a wait from at instant 5. -/
def run : Run :=
  { due := { index := 0, entry := 0, count := 0, at_ := 0, repro := none, shadow := false, relaunch := false, producer := false
             tile := none, anchors := [] }
    ctx := 1, bestEffort := true, bind := none, streams := [], slot := 0, addr := 0, cmds := [], descs := [], footprint := 64
    idx := 0, steps := 100, started := 0, fused := false, inCmd := true, wait := none, remote := none, dests := []
    heads := [], sigA := 0, sigB := 0, degraded := false, credits := 0, awaitShadow := false, overrun := false, waitedAt := 5 }

/-- Past T0 in lockstep mode, with the launch on engine 0 in a state of Table 10.9. -/
def device (pre : PreState) : Device :=
  ({ Device.reset [] with
      phase := .running
      image := { Image.none with itins := [itin] }
      itn := { Itinerary.reset with t0 := some 0, groupEn := 1 }
      ctl := { Ctl.reset with lockstep := true } } : Device).modEng 0 fun x =>
    { x with run := some run, pre := pre, request := some (0, 0) }

def state (pre : PreState) : State := { pending := [], dev := device pre }

theorem state_inv (pre : PreState) : (state pre).Inv := ⟨rfl, rfl, rfl⟩

theorem device_eng (pre : PreState) : (device pre).eng 0 =
    { (Device.reset []).eng 0 with run := some run, pre := pre, request := some (0, 0) } :=
  eng_modEng _ 0 _ (by decide)

theorem device_still (pre : PreState) : (device pre).Still := by
  obtain ⟨hruns, hjobs, hwatch⟩ := still_reset [] 0 0
  refine ⟨fun e he r hr => ?_, hjobs, hwatch⟩
  by_cases h : e = 0
  · subst h
    rw [device_eng] at hr
    cases hr
    exact ⟨rfl, rfl, rfl⟩
  · rw [show (device pre).eng e = (Device.reset []).eng e from vget_vmod_ne _ _ _ _ _ (Ne.symm h)] at hr
    exact hruns e he r hr

theorem device_run (pre : PreState) : ((device pre).eng 0).run = some run := congrArg Engine.run (device_eng pre)

theorem device_pre (pre : PreState) : ((device pre).eng 0).pre = pre := congrArg Engine.pre (device_eng pre)

end SavedAgain

open SavedAgain in
/-- Refutes O24: the full save of a mark enters the start of the wait that it withdraws, or 0, in the wait record (Table 4.6), so a
launch that an earlier full save left a wait record does not stay as it is. -/
theorem not_launchesGiveWay : ¬ Obligations.LaunchesGiveWay := by
  rintro ⟨-, hmarks⟩
  have hexec := ((hmarks 0 0 run (state .running) (state_inv _) (device_still _) rfl (device_run _) (device_pre _)).2.1 mark rfl
    (by decide +kernel) (by decide +kernel)).2 (.inr rfl)
  have hleft : (((state .running).runI 0 fun d => d.whenRunning fun d =>
      match (d.eng 0).run with
      | none => d
      | some r =>
        d.guard (d.ctl.lockstep && (d.eng 0).pre = .running && d.yields r && !r.awaitShadow) fun d =>
          match d.markOf r with
          | some m => d.giveWay 0 r m none
          | none =>
            match d.ready 0 with
            | none => d
            | some r =>
              match d.markInside r (d.issuesOf 0 r) with
              | some (m, n) => d.giveWay 0 r m (some n)
              | none => d).dev.eng 0).run.map (·.waitedAt) = some 0 := by
    decide +kernel
  have hright := congrArg (fun s' : State => (s'.dev.eng 0).run.map (·.waitedAt)) (Host.Outcome.next.inj hexec)
  exact absurd (hleft.symm.trans hright) (by decide +kernel)

/-- A full save asked for where no command can run begins at once. -/
theorem stopAndSave_of_unready (d : Device) (e : Nat) (h : d.ready e = none) : d.stopAndSave e = d.startSave e := by
  have hcut (n k : Nat) (faults : List PeFault) : d.cutCommand e n k faults = d := by rw [Device.cutCommand, h]
  unfold Device.stopAndSave
  dsimp only
  rw [hcut, ite_self]

/-- R186: an expired request on a launch that may be saved and cannot give way stops it for a full save. -/
theorem exec_yieldWaitExpiry_of_expired (t : Nat) (e : Fin 6) (s : State) (d : Device) (r : Run) (at_ wait : Nat)
    (hdev : s.dev.atTime t = d) (hphase : d.phase = .running) (hrun : (d.eng e.val).run = some r)
    (hrequest : (d.eng e.val).request = some (at_, wait))
    (hexpired : ((d.eng e.val).pre = .requested && decide (at_ + 1000 * wait ≤ d.now) &&
      (match d.entryOf r.due.index r.due.entry with | some en => en.saveOk | none => false) && d.yields r &&
        !r.awaitShadow) = true)
    (hmay : d.mayYield e.val = false) :
    exec (.yieldWaitExpiry t e) s = .next (s.withDev (d.stopAndSave e.val).pump.settle) := by
  subst hdev
  refine congrArg (fun d : Device => Host.Outcome.next (s.withDev d.pump.settle)) ?_
  refine (if_pos hphase).trans ?_
  dsimp only
  rw [hrun, hrequest]
  refine (if_pos hexpired).trans ?_
  dsimp only
  rw [hmay]
  rfl

open SavedAgain in
/-- Refutes O25: a full save enters the start of the wait that it withdraws, or 0, in the wait record (Table 4.6), so a launch that an
earlier full save left a wait record does not stay as it is. -/
theorem not_contextsAreSaved : ¬ Obligations.ContextsAreSaved := by
  rintro ⟨hbegins, -⟩
  have hexec := ((hbegins 0 0 run entry 0 0 (state .requested) (state_inv _) (device_still _) rfl (device_pre _) (device_run _)
    (by decide +kernel) rfl).1 (Nat.le_refl _) rfl (by decide +kernel) rfl).1 (by decide +kernel)
  have hmeaning : ((device .requested).atTime 0).stopAndSave 0 = ((device .requested).atTime 0).startSave 0 :=
    stopAndSave_of_unready _ _ (by decide +kernel)
  have hmodel : exec (.yieldWaitExpiry 0 0) (state .requested) =
      .next ((state .requested).withDev (((device .requested).atTime 0).startSave 0).pump.settle) := by
    rw [← hmeaning]
    exact exec_yieldWaitExpiry_of_expired 0 0 _ _ run 0 0 rfl rfl (device_run _)
      (congrArg Engine.request (device_eng _)) (by decide +kernel) (by decide +kernel)
  have hleft : (((((device .requested).atTime 0).startSave 0).pump.settle.eng 0).run.map (·.waitedAt)) = some 0 := by
    decide +kernel
  have hright := congrArg (fun s' : State => (s'.dev.eng 0).run.map (·.waitedAt))
    (Host.Outcome.next.inj (hmodel.symm.trans hexec))
  exact absurd (hleft.symm.trans hright) (by decide +kernel)

end Sys2Proof.Machine
end

section
/-! SUPPORT. Places of addresses (R62, R71, R152) and DRAM refresh (R73, R488). -/
namespace Sys2Proof.Machine

/-! ### Bits of addresses -/

theorem getLsbD_of_shift_eq {w : Nat} {a b : BitVec w} {n : Nat} (h : a >>> n = b >>> n) (i : Nat) (hi : n ≤ i) :
    a.getLsbD i = b.getLsbD i := by
  have hbit := congrArg (fun x : BitVec w => x.getLsbD (i - n)) h
  simpa only [BitVec.getLsbD_ushiftRight, Nat.add_sub_cancel' hi] using hbit

theorem shift_eq_of_getLsbD {w : Nat} {a b : BitVec w} {n : Nat} (h : ∀ i, n ≤ i → a.getLsbD i = b.getLsbD i) :
    a >>> n = b >>> n :=
  BitVec.eq_of_getLsbD_eq fun i _ => by simpa only [BitVec.getLsbD_ushiftRight] using h (n + i) (Nat.le_add_right n i)

theorem getLsbD_of_extract_eq {w : Nat} {a b : BitVec w} {n l : Nat} (h : a.extractLsb' n l = b.extractLsb' n l) (i : Nat)
    (hlow : n ≤ i) (hhigh : i < n + l) : a.getLsbD i = b.getLsbD i := by
  have hbit := congrArg (fun x : BitVec l => x.getLsbD (i - n)) h
  have hlt : i - n < l := by omega
  simpa only [BitVec.getLsbD_extractLsb', Nat.add_sub_cancel' hlow, hlt, decide_true, Bool.true_and] using hbit

/-! ### Well banks (R62) -/

theorem getLsbD_wellBank (a : BitVec 26) (i : Nat) (hi : i < 5) :
    (wellBank a).getLsbD i = (a.getLsbD (7 + i) ^^ a.getLsbD (12 + i)) := by
  simp only [wellBank, BitVec.getLsbD_xor, BitVec.getLsbD_extractLsb', hi, decide_true, Bool.true_and]

theorem wellBank_of_line {a b : BitVec 26} (h : a >>> 7 = b >>> 7) : wellBank a = wellBank b :=
  BitVec.eq_of_getLsbD_eq fun i hi => by
    rw [getLsbD_wellBank a i hi, getLsbD_wellBank b i hi, getLsbD_of_shift_eq h (7 + i) (by omega),
      getLsbD_of_shift_eq h (12 + i) (by omega)]

/-- The 32 lines of an aligned 4 KiB have different banks: the upper bits agree, so the bank gives the lower. -/
theorem line_of_wellBank {a b : BitVec 26} (hpage : a >>> 12 = b >>> 12) (hbank : wellBank a = wellBank b) :
    a >>> 7 = b >>> 7 :=
  shift_eq_of_getLsbD fun i hi => by
    by_cases hhigh : 12 ≤ i
    · exact getLsbD_of_shift_eq hpage i hhigh
    · have hbit := congrArg (fun x : BitVec 5 => x.getLsbD (i - 7)) hbank
      simp only [getLsbD_wellBank _ (i - 7) (by omega), Nat.add_sub_cancel' hi] at hbit
      rw [getLsbD_of_shift_eq hpage (12 + (i - 7)) (by omega)] at hbit
      exact Bool.xor_left_inj.mp hbit

/-! ### Stack DRAM (R71, Table 2.9) -/

theorem getLsbD_dramChannel (a : BitVec 34) (i : Nat) (hi : i < 7) :
    (dramChannel a).getLsbD i = (a.getLsbD (8 + i) ^^ a.getLsbD (15 + i) ^^ a.getLsbD (22 + i)) := by
  simp only [dramChannel, BitVec.getLsbD_xor, BitVec.getLsbD_extractLsb', hi, decide_true, Bool.true_and]

/-- A place gives the byte within its burst and the bits of burst, bank and row as they stand in the address, and with these the
channel gives the rest. -/
theorem dramPlace_injective {a b : BitVec 34} (h : dramPlace a = dramPlace b) : a = b := by
  have hbyte := congrArg DramPlace.byte h
  have hhigh (i : Nat) (hlow : 15 ≤ i) (hi : i < 34) : a.getLsbD i = b.getLsbD i := by
    by_cases hburst : i < 18
    · exact getLsbD_of_extract_eq (congrArg DramPlace.burst h) i hlow hburst
    · by_cases hbank : i < 23
      · exact getLsbD_of_extract_eq (congrArg DramPlace.bank h) i (by omega) hbank
      · exact getLsbD_of_extract_eq (congrArg DramPlace.row h) i (by omega) hi
  refine BitVec.eq_of_getLsbD_eq fun i hi => ?_
  by_cases hlow : i < 8
  · exact getLsbD_of_extract_eq hbyte i (Nat.zero_le i) (by omega)
  · by_cases hup : 15 ≤ i
    · exact hhigh i hup hi
    · have hbit := congrArg (fun x : BitVec 7 => x.getLsbD (i - 8)) (congrArg DramPlace.channel h)
      have hchan (x : BitVec 34) : (dramPlace x).channel = dramChannel x := rfl
      simp only [hchan, getLsbD_dramChannel _ (i - 8) (by omega), Nat.add_sub_cancel' (Nat.le_of_not_lt hlow)] at hbit
      rw [hhigh (15 + (i - 8)) (by omega) (by omega), hhigh (22 + (i - 8)) (by omega) (by omega)] at hbit
      exact Bool.xor_left_inj.mp (Bool.xor_left_inj.mp hbit)

/-- Burst, bank and row of a place as they stand in an address, from bit 15 up. -/
def dramHigh (burst : BitVec 3) (bank : BitVec 5) (row : BitVec 11) : BitVec 19 := (row ++ bank) ++ burst

/-- The address of a place: its channel gives the bits below its burst. -/
def dramAddr (c : BitVec 7) (burst : BitVec 3) (bank : BitVec 5) (row : BitVec 11) (byte : BitVec 8) : BitVec 34 :=
  let high := dramHigh burst bank row
  (high ++ (c ^^^ high.extractLsb' 0 7 ^^^ high.extractLsb' 7 7)) ++ byte

theorem dramPlace_dramAddr (c : BitVec 7) (burst : BitVec 3) (bank : BitVec 5) (row : BitVec 11) (byte : BitVec 8) :
    dramPlace (dramAddr c burst bank row byte) =
      { channel := c, die := c.extractLsb' 5 2, burst := burst, bank := bank, row := row, byte := byte } := by
  have hhigh (n l : Nat) (h : n + l ≤ 19) : (dramAddr c burst bank row byte).extractLsb' (15 + n) l =
      (dramHigh burst bank row).extractLsb' n l := by
    rw [dramAddr, BitVec.extractLsb'_append_eq_of_le (by omega), BitVec.extractLsb'_append_eq_of_le (by omega)]
    congr 1
    omega
  have hchannel : dramChannel (dramAddr c burst bank row byte) = c := by
    have hlow : (dramAddr c burst bank row byte).extractLsb' 8 7 =
        c ^^^ (dramHigh burst bank row).extractLsb' 0 7 ^^^ (dramHigh burst bank row).extractLsb' 7 7 := by
      rw [dramAddr, BitVec.extractLsb'_append_eq_of_le (by omega), BitVec.extractLsb'_append_eq_right]
    rw [dramChannel, hlow, hhigh 0 7 (by omega), hhigh 7 7 (by omega), BitVec.xor_assoc c, BitVec.xor_assoc,
      BitVec.xor_assoc c, BitVec.xor_self, BitVec.xor_zero]
  simp only [dramPlace, hchannel, hhigh 0 3 (by omega), hhigh 3 5 (by omega), hhigh 8 11 (by omega), DramPlace.mk.injEq, true_and]
  refine ⟨BitVec.extractLsb'_append_eq_right, ?_, ?_, BitVec.extractLsb'_append_eq_right⟩
  · rw [dramHigh, BitVec.extractLsb'_append_eq_of_le (by omega), BitVec.extractLsb'_append_eq_right]
  · rw [dramHigh, BitVec.extractLsb'_append_eq_of_le (by omega), BitVec.extractLsb'_append_eq_left]

theorem dramAddr_lt (c : BitVec 7) (burst : BitVec 3) (bank : BitVec 5) (row : BitVec 11) (byte : BitVec 8) (h : row < 1536) :
    (dramAddr c burst bank row byte).toNat < 12 * 2 ^ 30 := by
  have hrow : (dramAddr c burst bank row byte).toNat / 2 ^ 23 = row.toNat := by
    have hplace := congrArg (fun p : DramPlace => p.row.toNat) (dramPlace_dramAddr c burst bank row byte)
    simp only [dramPlace, BitVec.extractLsb'_toNat, Nat.shiftRight_eq_div_pow] at hplace
    omega
  have hlt : row.toNat < 1536 := h
  omega

/-! ### Scratch (R152) -/

theorem scratchPlace_injective {a b : BitVec 25} (h : scratchPlace a = scratchPlace b) : a = b := by
  refine BitVec.eq_of_getLsbD_eq fun i hi => ?_
  by_cases hbyte : i < 3
  · exact getLsbD_of_extract_eq (congrArg ScratchPlace.byte h) i (Nat.zero_le i) (by omega)
  · by_cases hbank : i < 10
    · exact getLsbD_of_extract_eq (congrArg ScratchPlace.bank h) i (by omega) hbank
    · exact getLsbD_of_extract_eq (congrArg ScratchPlace.row h) i (by omega) hi

theorem scratchPlace_row_lt (o : BitVec 25) : o.toNat < 0x1800000 ↔ (scratchPlace o).row < 24576 := by
  have hrow : (scratchPlace o).row.toNat = o.toNat / 1024 := by
    simp only [scratchPlace, BitVec.extractLsb'_toNat, Nat.shiftRight_eq_div_pow]
    omega
  rw [BitVec.lt_def, hrow]
  change o.toNat < 25165824 ↔ o.toNat / 1024 < 24576
  omega

/-! ### Requests (R75) -/

/-- From T0 on a request is issued whatever its arbiter does. -/
theorem exec_arbiterRequest_of_running (t : Nat) (p : ArbPort) (r : ArbReq) (n : Nat) (s : State) (hs : s.Inv)
    (hrun : s.dev.phase = .running) : exec (.arbiterRequest t p r n) s = .next (s.withDev ((s.dev.atTime t).setArb
      ((s.dev.arb p.id).request r n (max s.dev.now t) s.dev.ctl.lockstep))) := by
  obtain ⟨hmem, hfresh, halert⟩ := hs
  have hmay : (s.dev.atTime t).mayRequest ((s.dev.atTime t).arb p.id) = true := by
    rw [Device.mayRequest, Device.atTime_phase, hrun]
    rfl
  exact next_run_of_quiet ((whenAlive_of_alive (s.dev.atTime t) _ (by simp [hrun]) (by simp [hrun])).trans (if_pos hmay))
    ⟨hmem, hfresh, halert⟩

/-- Settles O60: every place gives the bits of its address, and from T0 on every request is issued. -/
theorem addressesHavePlaces : Obligations.AddressesHavePlaces := by
  refine ⟨fun a b => ⟨wellBank_of_line, line_of_wellBank⟩, fun a b => dramPlace_injective, fun c burst bank row byte hrow =>
    ⟨dramAddr c burst bank row byte, dramAddr_lt c burst bank row byte hrow, dramPlace_dramAddr c burst bank row byte⟩,
    fun a b => scratchPlace_injective, scratchPlace_row_lt, fun t n r s hs hrun => ?_⟩
  have hasks (p : ArbPort) := exec_arbiterRequest_of_running t p r n s hs hrun
  exact ⟨fun a => hasks (.well a), fun a => hasks (.dram a), fun e o => hasks (.scratch e o), fun i => hasks (.fabric i),
    fun u => hasks (.visionPort u), hasks .flagUnit, hasks .serai, hasks .rfePort⟩

/-! ### Refresh (R73, R488) -/

/-- A fold of refreshes changes the refresh times alone. -/
theorem foldl_refreshRow (rows : List Nat) (d : Device) :
    rows.foldl (fun d k => d.refreshRow k) d =
      { d with stk := { d.stk with refreshed := (rows.foldl (fun d k => d.refreshRow k) d).stk.refreshed } } := by
  induction rows generalizing d with
  | nil => rfl
  | cons k ks ih => exact (ih (d.refreshRow k)).trans rfl

/-- R73: after a fold of refreshes its rows are refreshed now and every other row is as it was. -/
theorem mem_foldl_refreshRow (rows : List Nat) (d : Device) (k at_ : Nat) :
    (k, at_) ∈ (rows.foldl (fun d k => d.refreshRow k) d).stk.refreshed ↔
      (k ∈ rows ∧ at_ = d.now) ∨ (k ∉ rows ∧ (k, at_) ∈ d.stk.refreshed) := by
  induction rows generalizing d with
  | nil => simp
  | cons r rows ih =>
    have hrow : (k, at_) ∈ (d.refreshRow r).stk.refreshed ↔
        (k = r ∧ at_ = d.now) ∨ (k ≠ r ∧ (k, at_) ∈ d.stk.refreshed) := by
      simp only [Device.refreshRow, List.mem_cons, Prod.mk.injEq, List.mem_filter, decide_eq_true_eq]
      tauto
    rw [List.foldl_cons, ih, hrow, List.mem_cons]
    change (_ ∧ at_ = d.now) ∨ _ ↔ _
    tauto

/-- Settles O48: a window folds the refresh of a row over its 12 rows. -/
theorem rowsRefresh : Obligations.RowsRefresh := by
  intro t row s hs hrun
  dsimp only
  have halert : s.dev.pins.alertLow = s.dev.alert := hs.2.2
  refine ⟨fun hfree => ?_, fun hlock => ?_, fun hlock hnone => ?_, fun hlock hdue hwin hnext => ?_⟩
  · exact next_run_of_same ((whenAlive_of_alive (s.dev.atTime t) _ (by simp [hrun]) (by simp [hrun])).trans
      (if_neg (by simp [hfree]))) hs rfl rfl halert
  · exact next_run_of_same ((whenAlive_of_alive (s.dev.atTime t) _ (by simp [hrun]) (by simp [hrun])).trans
      (if_pos hlock)) hs rfl rfl halert
  · refine next_run_of_same ((if_pos hrun).trans (if_neg ?_)) hs rfl rfl halert
    simp only [Device.refreshing, Bool.and_eq_true, decide_eq_true_eq]
    rintro ⟨⟨-, hruns⟩, hreached⟩
    rcases hnone with hearly | hover
    · exact absurd hreached (Nat.not_le.mpr hearly)
    · exact absurd hruns (Nat.not_lt.mpr hover)
  · generalize hrows : (List.range 12).map (fun i => (s.dev.stk.nextRow + i) % 1536) = rows
    have hmem (k : Nat) : k ∈ rows ↔ ∃ i < 12, k = (s.dev.stk.nextRow + i) % 1536 := by
      subst hrows
      simp only [List.mem_map, List.mem_range, eq_comm]
    generalize hd : s.dev.atTime t = d at *
    have hstk : d.stk = s.dev.stk := by rw [← hd, Device.atTime_stk]
    refine ⟨s.withDev { d with stk := { d.stk with
      refreshed := (rows.foldl (fun d k => d.refreshRow k) d).stk.refreshed
      nextRow := (s.dev.stk.nextRow + 12) % 1536
      windows := (d.now - d.t0) / 125000 + 1 } }, ?_, rfl, rfl, ?_, fun k at_ => ?_, ?_, ?_, ?_⟩
    · subst hd
      refine next_run_of_same ((if_pos hrun).trans ((if_pos ?_).trans ?_)) hs rfl rfl halert
      · simp only [Device.refreshing, Bool.and_eq_true, decide_eq_true_eq]
        exact ⟨⟨⟨hrun, hlock⟩, hwin⟩, hdue⟩
      · dsimp only
        rw [← List.foldl_map (f := fun i => ((s.dev.atTime t).stk.nextRow + i) % 1536) (g := fun d k => Device.refreshRow d k)]
        rw [foldl_refreshRow, Device.atTime_stk, hrows]
        rfl
    · change d.now < d.t0 + 125000 * ((d.now - d.t0) / 125000 + 1)
      omega
    · change (k, at_) ∈ (rows.foldl (fun d k => d.refreshRow k) d).stk.refreshed ↔ _
      rw [mem_foldl_refreshRow, hmem, hstk]
    · rw [← hd]; rfl
    · rw [← hd]; rfl
    · rw [← hd]; rfl

end Sys2Proof.Machine
end

section
/-! SUPPORT. The arbiters: requests, grants, withdrawals and slot tables (R75 to R82, R482 to R486). -/
namespace Sys2Proof.Machine

/-! ### One arbiter among all -/

theorem arb_id (d : Device) (id : ArbId) : (d.arb id).id = id := by
  unfold Device.arb
  cases h : d.stk.arbiters.find? (fun a => a.id = id) with
  | none => rfl
  | some a => exact of_decide_eq_true (List.find?_some (p := fun a : Arbiter => a.id = id) h)

theorem arb_setArb_same (d : Device) (a : Arbiter) (id : ArbId) (h : a.id = id) : (d.setArb a).arb id = a := by
  subst h
  simp [Device.arb, Device.setArb]

theorem arb_setArb_other (d : Device) (a : Arbiter) (id : ArbId) (h : id ≠ a.id) : (d.setArb a).arb id = d.arb id := by
  unfold Device.arb Device.setArb
  dsimp only
  rw [List.find?_cons_of_neg (by simpa using Ne.symm h), List.find?_filter]
  refine congrArg (fun o : Option Arbiter => o.getD (.fresh id)) (congrFun (congrArg List.find? (funext fun b => ?_)) _)
  by_cases hb : b.id = id
  · simp [hb, h]
  · simp [hb]

theorem setArb_setArb (d : Device) (a b : Arbiter) (h : a.id = b.id) : (d.setArb a).setArb b = d.setArb b := by
  simp [Device.setArb, h]

/-! ### What an arbiter's work leaves unchanged -/

/-- The parts of a device that no arbiter touches. -/
structure Device.Arbitrates (d d' : Device) : Prop where
  store : d'.store = d.store
  i3c : d'.i3c = d.i3c
  pins : d'.pins = d.pins
  alert : d'.alert = d.alert
  itn : d'.itn = d.itn
  chips : d'.ctl.chips = d.ctl.chips

theorem Device.Arbitrates.trans {a b c : Device} (h : a.Arbitrates b) (k : b.Arbitrates c) : a.Arbitrates c :=
  ⟨k.store.trans h.store, k.i3c.trans h.i3c, k.pins.trans h.pins, k.alert.trans h.alert, k.itn.trans h.itn, k.chips.trans h.chips⟩

theorem arbitrates_setArb (d : Device) (a : Arbiter) : d.Arbitrates (d.setArb a) := ⟨rfl, rfl, rfl, rfl, rfl, rfl⟩

theorem arbitrates_countStalls (d : Device) (id : ArbId) (n : Nat) : d.Arbitrates (d.countStalls id n) := by
  cases id <;> exact ⟨rfl, rfl, rfl, rfl, rfl, rfl⟩

theorem arbitrates_arbChoice (d : Device) (id : ArbId) : d.Arbitrates (d.arbChoice id) := by
  unfold Device.arbChoice
  split
  · exact ⟨rfl, rfl, rfl, rfl, rfl, rfl⟩
  · cases id <;> exact ⟨rfl, rfl, rfl, rfl, rfl, rfl⟩

theorem arbitrates_grantNext (d : Device) (id : ArbId) : d.Arbitrates (d.grantNext id) := by
  unfold Device.grantNext
  dsimp only
  split
  · split
    · exact arbitrates_setArb _ _
    · split
      · exact (arbitrates_setArb _ _).trans (arbitrates_arbChoice _ _)
      · exact arbitrates_setArb _ _
  · have htable : d.Arbitrates (match d.slotTable id with
        | none => d.setArb (d.arb id)
        | some tab => d.setArb (d.tableGrant tab (d.arb id))) := by
      split <;> exact arbitrates_setArb _ _
    cases id with
    | scratchBank e b =>
      dsimp only
      split <;> exact arbitrates_setArb _ _
    | dramChannel c =>
      dsimp only
      split
      · exact arbitrates_setArb _ _
      · exact htable
    | _ => exact htable

theorem quiet_of_arbitrates {s : State} {t : Nat} {d : Device} (hs : s.Inv) (h : (s.dev.atTime t).Arbitrates d) : d.Quiet := by
  obtain ⟨hmem, hfresh, halert⟩ := hs
  refine ⟨?_, ?_, ?_⟩
  · rw [h.store]; exact hmem
  · rw [h.i3c]; exact hfresh
  · rw [h.pins, h.alert]; exact halert

/-- A command of an arbiter in an alive device. -/
theorem next_of_arbitrates {s : State} {t : Nat} {f : Device → Device} {d : Device} (hs : s.Inv) (hoff : s.dev.phase ≠ .off)
    (hinert : s.dev.phase ≠ .inert) (hd : f (s.dev.atTime t) = d) (h : (s.dev.atTime t).Arbitrates d) :
    (.next (s.run t fun d => d.whenAlive f) : Host.Outcome State Fault Refusal) = .next (s.withDev d) :=
  next_run_of_quiet ((whenAlive_of_alive (s.dev.atTime t) f hoff hinert).trans hd) (quiet_of_arbitrates hs h)

theorem arb_arbChoice (d : Device) (id i : ArbId) : (d.arbChoice id).arb i = d.arb i := by
  unfold Device.arbChoice
  split
  · rfl
  · cases id <;> rfl

theorem arb_countStalls (d : Device) (id i : ArbId) (n : Nat) : (d.countStalls id n).arb i = d.arb i := by
  cases id <;> rfl

theorem lockstep_arbChoice (d : Device) (id : ArbId) : (d.arbChoice id).ctl.lockstep = d.ctl.lockstep := by
  unfold Device.arbChoice
  split
  · rfl
  · cases id <;> rfl

theorem lockstep_countStalls (d : Device) (id : ArbId) (n : Nat) : (d.countStalls id n).ctl.lockstep = d.ctl.lockstep := by
  cases id <;> rfl

/-- R156: only a boundary counts stalled handshakes of a scratch bank; a free choice of one does not. -/
theorem bankStalls_arbChoice (d : Device) (id : ArbId) (e : Nat) (he : e < 6) :
    ((d.arbChoice id).eng e).regs.bankStalls = (d.eng e).regs.bankStalls := by
  unfold Device.arbChoice
  split
  · rfl
  · cases id with
    | scratchBank e' b =>
      by_cases h : e'.val = e
      · subst h
        dsimp only
        rw [eng_modEng d e'.val _ he]
      · exact congrArg (fun x : Engine => x.regs.bankStalls)
          (show (d.modEng e'.val _).eng e = d.eng e from vget_vmod_ne _ _ _ _ _ h)
    | _ => rfl

theorem bankStalls_countStalls (d : Device) (e : Fin 6) (b : Fin 128) (n : Nat) :
    ((d.countStalls (.scratchBank e b) n).eng e.val).regs.bankStalls = satAdd (d.eng e.val).regs.bankStalls n :=
  congrArg (fun x : Engine => x.regs.bankStalls) (eng_modEng d e.val _ e.isLt)

/-- Table 11.3: from T0 on the Serai's counter gathers the free choices of its arbiter. -/
theorem arbChoice_serai (d : Device) (h : d.phase = .running) :
    d.arbChoice .serai = { d with serai := { d.serai with freeChoice := satInc d.serai.freeChoice } } :=
  if_neg (not_not.mpr h)

/-! ### Free mode -/

/-- A resource is free in free mode: its arbiter has finished, or has revoked its transfer. -/
theorem freeResource_of_finished (d : Device) (id : ArbId) (hfree : d.ctl.lockstep = false) (h : (d.arb id).revoking = none) :
    d.freeResource id = (d.countStalls id (d.arb id).stalls).setArb (d.arb id).finish := by
  have hstalled : (d.arb id).stalled = (d.arb id).stalls := by
    unfold Arbiter.stalled
    rw [h]
    cases (d.arb id).granted <;> rfl
  have hboundary (now : Nat) : (d.arb id).boundaryFree now = ((d.arb id).finish, false) := by
    unfold Arbiter.boundaryFree
    rw [h]
    cases (d.arb id).granted <;> rfl
  unfold Device.freeResource
  dsimp only
  rw [lockstep_countStalls, hfree, hstalled, hboundary]
  rfl

theorem freeResource_of_revoked (d : Device) (id : ArbId) (g : ArbReq) (done m : Nat) (hfree : d.ctl.lockstep = false)
    (hg : (d.arb id).granted = some (g, done)) (h : (d.arb id).revoking = some m) :
    d.freeResource id = ((d.countStalls id (d.arb id).stalled).arbChoice id).setArb ((d.arb id).revoke g m d.now) := by
  have hnow : (d.countStalls id (d.arb id).stalled).now = d.now := by cases id <;> rfl
  unfold Device.freeResource Arbiter.boundaryFree
  dsimp only
  rw [lockstep_countStalls, hfree, hg, h, hnow]
  rfl

/-- R75: the request at the head of a freed arbiter is granted, a free choice where another waits. -/
theorem grantNext_of_head (d : Device) (id : ArbId) (a : Arbiter) (w : Nat × ArbReq) (rest : List (Nat × ArbReq))
    (hid : a.id = id) (hfree : d.ctl.lockstep = false) (hw : a.waiting = w :: rest) :
    (d.setArb a).grantNext id =
      if rest.isEmpty then d.setArb (a.give w.2) else (d.setArb (a.give w.2)).arbChoice id := by
  have hset : (d.setArb a).setArb (a.give w.2) = d.setArb (a.give w.2) := setArb_setArb _ _ _ rfl
  unfold Device.grantNext Arbiter.freeNext
  dsimp only
  rw [arb_setArb_same d a id hid, show (d.setArb a).ctl.lockstep = false from hfree, hw]
  cases rest <;> simp [hset]

theorem removeFirst_head {α : Type} (p : α → Bool) (x : α) (xs : List α) (h : p x = true) : removeFirst p (x :: xs) = xs :=
  if_pos h

/-- R79, R80: after a transfer that has ended the head is granted at its kept count. -/
theorem finish_give (a : Arbiter) (at_ : Nat) (g : ArbReq) (rest : List (Nat × ArbReq)) (hw : a.waiting = (at_, g) :: rest)
    (hrev : a.revoking = none) : a.finish.give g = { a with
      waiting := rest, granted := some (g, a.progress g), entry := none, freedAt := none
      kept := removeFirst (fun k => k.1 = g) a.kept, paused := removeFirst (fun k => k.1 = g) a.paused
      stalls := (g.len - a.progress g) * rest.length } := by
  have hrest : removeFirst (fun w : Nat × ArbReq => w.2 = g) a.waiting = rest := by
    rw [hw]
    exact removeFirst_head _ _ _ (decide_eq_true rfl)
  simp [Arbiter.give, Arbiter.finish, Arbiter.progress, hrest, hrev]

/-- R78, R80: after a revocation the head is granted, the revoked count kept and its requester behind. -/
theorem revoke_give (a : Arbiter) (g : ArbReq) (m now at_ : Nat) (w : ArbReq) (rest : List (Nat × ArbReq))
    (hw : a.waiting = (at_, w) :: rest) (hne : w ≠ g) : (a.revoke g m now).give w = { a with
      waiting := rest ++ [(now, g)], granted := some (w, a.progress w), entry := none, revoking := none, freedAt := none
      kept := removeFirst (fun k => k.1 = w) (a.kept ++ [(g, m)]), paused := removeFirst (fun k => k.1 = w) a.paused
      stalls := (w.len - a.progress w) * (rest.length + 1) } := by
  have hrest : removeFirst (fun x : Nat × ArbReq => x.2 = w) (a.waiting ++ [(now, g)]) = rest ++ [(now, g)] := by
    rw [hw]
    exact removeFirst_head _ _ _ (decide_eq_true rfl)
  have hprogress : (a.revoke g m now).progress w = a.progress w := by
    simp [Arbiter.progress, Arbiter.revoke, List.find?_append, Ne.symm hne]
  rw [Arbiter.give, hprogress]
  simp [Arbiter.revoke, hrest]

/-- The end of a grant in free mode, whether another waits or not. -/
theorem exec_arbiterGrant_of_free (t : Nat) (id : ArbId) (s : State) (hs : s.Inv) (hoff : s.dev.phase ≠ .off)
    (hinert : s.dev.phase ≠ .inert) (d : Device) (a b : Arbiter) (w : Nat × ArbReq) (rest : List (Nat × ArbReq)) (n : Nat)
    (choices : Bool)
    (hd : d = if choices then ((s.dev.atTime t).countStalls id n).arbChoice id else (s.dev.atTime t).countStalls id n)
    (hfreed : (s.dev.atTime t).freeResource id = d.setArb a) (hid : a.id = id) (hfree : s.dev.ctl.lockstep = false)
    (hw : a.waiting = w :: rest) (hb : a.give w.2 = b) :
    ∃ s', exec (.arbiterGrant t id) s = .next s' ∧ s'.pending = s.pending ∧ s'.dev.arb id = b ∧
      (∀ e b, id = .scratchBank e b →
        (s'.dev.eng e.val).regs.bankStalls = satAdd (s.dev.eng e.val).regs.bankStalls n) ∧
      s'.dev = (if rest.isEmpty then d.setArb b else (d.setArb b).arbChoice id) ∧
      (∀ i, i ≠ id → s'.dev.arb i = s.dev.arb i) ∧ s'.dev.store = s.dev.store ∧ s'.dev.itn = s.dev.itn ∧
      s'.dev.ctl.chips = s.dev.ctl.chips := by
  have hbid : b.id = id := by rw [← hb]; exact hid
  have hlock : d.ctl.lockstep = false := by
    rw [hd]
    cases choices <;> simp [lockstep_arbChoice, lockstep_countStalls, hfree]
  have hkeeps : (s.dev.atTime t).Arbitrates d := by
    rw [hd]
    cases choices
    · exact arbitrates_countStalls _ _ _
    · exact (arbitrates_countStalls _ _ _).trans (arbitrates_arbChoice _ _)
  have harb (i : ArbId) : d.arb i = s.dev.arb i := by
    rw [hd]
    cases choices <;> simp [arb_arbChoice, arb_countStalls] <;> rfl
  have hstalls (e : Fin 6) (k : Fin 128) (hk : id = .scratchBank e k) :
      (d.eng e.val).regs.bankStalls = satAdd (s.dev.eng e.val).regs.bankStalls n := by
    rw [hd, hk]
    cases choices <;> simp [bankStalls_arbChoice _ _ _ e.isLt, bankStalls_countStalls] <;> rfl
  have hgrant := grantNext_of_head d id a w rest hid hlock hw
  rw [hb] at hgrant
  generalize hend : (if rest.isEmpty then d.setArb b else (d.setArb b).arbChoice id) = d' at hgrant ⊢
  have hend' : (s.dev.atTime t).Arbitrates d' := by
    rw [← hend]
    split
    · exact hkeeps.trans (arbitrates_setArb _ _)
    · exact (hkeeps.trans (arbitrates_setArb _ _)).trans (arbitrates_arbChoice _ _)
  have harb' (i : ArbId) : d'.arb i = (d.setArb b).arb i := by
    rw [← hend]
    split
    · rfl
    · exact arb_arbChoice _ _ _
  refine ⟨s.withDev d', next_of_arbitrates hs hoff hinert ?_ hend', rfl, ?_, fun e k hk => ?_, rfl, fun i hi => ?_, hend'.store,
    hend'.itn, hend'.chips⟩
  · rw [hfreed, hgrant]
  · exact (harb' id).trans (arb_setArb_same _ _ _ hbid)
  · rw [← hstalls e k hk]
    change (d'.eng e.val).regs.bankStalls = _
    rw [← hend]
    split
    · rfl
    · exact bankStalls_arbChoice _ _ _ e.isLt
  · exact (harb' i).trans ((arb_setArb_other _ _ _ (hbid ▸ hi)).trans (harb i))

/-! ### Lockstep mode (R484 to R486) -/

/-- No transfer runs at an arbiter. -/
def Arbiter.Idle (a : Arbiter) : Prop := a.granted = none ∧ a.entry = none ∧ a.revoking = none

theorem tableNext_congr (d d' : Device) (h : ∀ x, d'.slotVoid x = d.slotVoid x) (tab : SlotTable) (fuel pos : Nat) :
    d'.tableNext tab fuel pos = d.tableNext tab fuel pos := by
  induction fuel generalizing pos with
  | zero => rfl
  | succ n ih =>
    unfold Device.tableNext
    simp only [h, ih]

/-- An arbiter with a slot table is no scratch bank (R487): it counts no stalled handshakes. -/
theorem countStalls_of_table (d : Device) (id : ArbId) (n : Nat) (tab : SlotTable) (h : d.slotTable id = some tab) :
    d.countStalls id n = d := by
  cases id with
  | scratchBank e b => exact nomatch h
  | _ => rfl

theorem freeResource_of_table (d : Device) (id : ArbId) (tab : SlotTable) (hlock : d.ctl.lockstep = true)
    (htab : d.slotTable id = some tab) :
    d.freeResource id = d.setArb ((d.arb id).boundaryLockstep tab.entries.length d.now) := by
  unfold Device.freeResource
  dsimp only
  rw [countStalls_of_table d id _ tab htab, hlock, htab]
  rfl

theorem boundaryLockstep_of_idle (a : Arbiter) (entries now : Nat) (h : a.Idle) :
    a.boundaryLockstep entries now = { a with stalls := 0 } := by
  obtain ⟨hg, he, hr⟩ := h
  unfold Arbiter.boundaryLockstep Arbiter.finish
  rw [hg, he, hr]

/-- The grant of an arbiter whose slot table says what comes next. -/
theorem grantNext_of_table (d : Device) (id : ArbId) (tab : SlotTable) (hlock : d.ctl.lockstep = true)
    (htab : d.slotTable id = some tab) (hopen : ∀ c, id = .dramChannel c → d.refreshing = false) :
    d.grantNext id = d.setArb (d.tableGrant tab (d.arb id)) := by
  unfold Device.grantNext
  dsimp only
  rw [hlock, htab]
  cases id with
  | scratchBank e b => exact nomatch htab
  | dramChannel c => simp [hopen c rfl]
  | _ => rfl

theorem exec_arbiterGrant_of_table (t : Nat) (id : ArbId) (tab : SlotTable) (s : State) (hs : s.Inv)
    (hrun : s.dev.phase = .running) (hlock : s.dev.ctl.lockstep = true) (htab : s.dev.slotTable id = some tab)
    (hopen : ∀ c, id = .dramChannel c → (s.dev.atTime t).refreshing = false) (hidle : (s.dev.arb id).Idle) :
    exec (.arbiterGrant t id) s = .next (s.withDev ((s.dev.atTime t).setArb
      ((s.dev.atTime t).tableGrant tab { s.dev.arb id with stalls := 0 }))) := by
  generalize hb : ({ s.dev.arb id with stalls := 0 } : Arbiter) = b
  have hid : b.id = id := by rw [← hb]; exact arb_id _ _
  have hfreed : (s.dev.atTime t).freeResource id = (s.dev.atTime t).setArb b := by
    rw [freeResource_of_table (s.dev.atTime t) id tab hlock htab, ← hb]
    exact congrArg _ (boundaryLockstep_of_idle _ _ _ hidle)
  have hgrant : ((s.dev.atTime t).setArb b).tableGrant tab b = (s.dev.atTime t).tableGrant tab b := by
    unfold Device.tableGrant
    rw [tableNext_congr (s.dev.atTime t) ((s.dev.atTime t).setArb b) (fun _ => rfl)]
  refine next_of_arbitrates hs (by simp [hrun]) (by simp [hrun]) ?_ (arbitrates_setArb _ _)
  rw [hfreed, grantNext_of_table ((s.dev.atTime t).setArb b) id tab hlock htab hopen, arb_setArb_same _ _ id hid, hgrant]
  refine setArb_setArb _ _ _ ?_
  unfold Device.tableGrant
  dsimp only
  split
  · rfl
  · split
    · rfl
    · split <;> rfl

theorem find_ladder_of_none (l : List (Nat × ArbReq)) (h : ∀ w ∈ l, w.2.ladder = false) :
    l.find? (fun w => w.2.ladder) = none :=
  List.find?_eq_none.mpr fun w hw => by simp [h w hw]

/-- R486: the repeat of a recovery comes before the next entry. -/
theorem tableGrant_of_ladder (d : Device) (tab : SlotTable) (a : Arbiter) (w : Nat × ArbReq)
    (h : a.waiting.find? (fun w => w.2.ladder) = some w) : d.tableGrant tab a = a.give w.2 := by
  rw [Device.tableGrant, h]

section
variable (d : Device) (tab : SlotTable) (a : Arbiter) (pos : Nat) (x : SlotEntry)
variable (hladder : a.waiting.find? (fun w => w.2.ladder) = none)
variable (hnext : d.tableNext tab tab.entries.length a.tablePos = some (pos, x))
include hladder hnext

/-- R484: the requester of the next entry is granted when it waits. -/
theorem tableGrant_of_entry (w : Nat × ArbReq)
    (hw : a.waiting.find? (fun w => w.2.req = x.req && (x.entry = 0xFFFF || w.2.tag = x.entry)) = some w) :
    d.tableGrant tab a =
      { ({ a with tablePos := pos, served := if pos = a.tablePos then a.served else 0 } : Arbiter).give w.2 with
        entry := some x } := by
  rw [Device.tableGrant, hladder]
  dsimp only
  rw [hnext]
  dsimp only
  rw [hw]

theorem tableGrant_of_absent
    (hw : a.waiting.find? (fun w => w.2.req = x.req && (x.entry = 0xFFFF || w.2.tag = x.entry)) = none) :
    d.tableGrant tab a = { a with tablePos := pos, served := if pos = a.tablePos then a.served else 0 } := by
  rw [Device.tableGrant, hladder]
  dsimp only
  rw [hnext]
  dsimp only
  rw [hw]

end

/-! ### Handshake boundaries of a table's entry (R80, R81, R484) -/

section
variable (a : Arbiter) (g : ArbReq) (done entries now : Nat) (y : SlotEntry)
variable (hg : a.granted = some (g, done)) (he : a.entry = some y) (hserved : a.served < y.count)
include hg he

/-- The transfer ends before its entry has had COUNT handshakes, or with them. -/
theorem boundaryLockstep_of_fewer (h : g.len - done < y.count - a.served) : a.boundaryLockstep entries now = { a with
    granted := none, entry := none, revoking := none, stalls := 0, served := a.served + (g.len - done) } := by
  unfold Arbiter.boundaryLockstep
  rw [hg, he]
  dsimp only
  rw [Nat.min_eq_right h.le, if_pos (by omega), Arbiter.serve, if_pos (by omega)]
  rfl

include hserved in
theorem boundaryLockstep_of_equal (h : g.len - done = y.count - a.served) : a.boundaryLockstep entries now = { a with
    granted := none, entry := none, revoking := none, stalls := 0, served := 0, tablePos := (a.tablePos + 1) % entries } := by
  unfold Arbiter.boundaryLockstep
  rw [hg, he]
  dsimp only
  rw [h, Nat.min_self, if_pos (by omega), Arbiter.serve, if_neg (by omega)]
  rfl

include hserved in
/-- A transfer with handshakes left stops at COUNT. -/
theorem boundaryLockstep_of_more (h : y.count - a.served < g.len - done) :
    a.boundaryLockstep entries now = { a with
      granted := none, entry := none, revoking := none, stalls := 0, served := 0, tablePos := (a.tablePos + 1) % entries
      kept := if y.revoke = true ∧ a.kept.length < 8 then a.kept ++ [(g, done + (y.count - a.served))] else a.kept
      paused := if y.revoke = true ∧ a.kept.length < 8 then a.paused else a.paused ++ [(g, done + (y.count - a.served))]
      waiting := a.waiting ++ [(now, g)] } := by
  unfold Arbiter.boundaryLockstep
  rw [hg, he]
  dsimp only
  rw [Nat.min_eq_left h.le, if_neg (show ¬ g.len ≤ done + (y.count - a.served) by omega), Arbiter.serve,
    if_neg (show ¬ a.served + (y.count - a.served) < y.count by omega)]
  by_cases hstops : y.revoke = true ∧ a.kept.length < 8
  · simp only [if_pos hstops]
    rfl
  · simp only [if_neg hstops]
    rfl

end

/-- Settles O47: a grant is the boundary of the running transfer, then the give to the head or to the entry of the slot table. -/
theorem arbitersServe : Obligations.ArbitersServe := by
  refine ⟨fun t p r done n s hs hoff hinert => ?_, fun t pos id tab x s hs hrun hlock htab hopen => ?_,
    fun t id tab g done y s hs hrun hlock htab => ?_⟩
  · dsimp only
    have halert : s.dev.pins.alertLow = s.dev.alert := hs.2.2
    generalize hid : p.id = id
    have haid : (s.dev.arb id).id = id := arb_id _ _
    refine ⟨fun hrun hfree hg hf => ?_, fun hrun hbusy => ?_, fun g hrun hfree hg hlc hbe hrev hkept hn => ?_,
      fun at_ g rest hfree hrev hw => ?_, fun g m at_ w rest hfree hg hrev hw hne => ?_, fun g hg hreq => ?_, fun hg => ?_⟩
    · rw [exec_arbiterRequest_of_running t p r n s hs hrun, hid]
      refine congrArg (fun a : Arbiter => Host.Outcome.next (s.withDev ((s.dev.atTime t).setArb a))) ?_
      simp [Arbiter.request, Arbiter.revokes, Arbiter.rest, hfree, hg, hf]
    · refine next_of_arbitrates hs hoff hinert (if_neg ?_) ⟨rfl, rfl, rfl, rfl, rfl, rfl⟩
      have harb : (s.dev.atTime t).arb p.id = s.dev.arb id := by rw [hid]; rfl
      rw [harb, Device.mayRequest]
      rcases hbusy with h | h
      · simp [hrun, Option.isNone_eq_false_iff.mpr h]
      · simp [hrun, h]
    · rw [exec_arbiterRequest_of_running t p r n s hs hrun, hid]
      refine congrArg (fun a : Arbiter => Host.Outcome.next (s.withDev ((s.dev.atTime t).setArb a))) ?_
      have hrevokes : (s.dev.arb id).revokes r n = true := by simp [Arbiter.revokes, hg, hlc, hbe, hrev, hkept, hn]
      simp [Arbiter.request, Arbiter.rest, hfree, hrevokes, hg]
    · have hgive := finish_give _ at_ g rest hw hrev
      obtain ⟨s', hexec, hpend, harb, hbank, -, hframe⟩ := exec_arbiterGrant_of_free t id s hs hoff hinert _ _ _ (at_, g) rest
        _ false rfl (freeResource_of_finished (s.dev.atTime t) id hfree hrev) haid hfree hw hgive
      exact ⟨s', hexec, hpend, harb, hbank, hframe⟩
    · have hgive := revoke_give _ g m (s.dev.atTime t).now at_ w rest hw hne
      obtain ⟨s', hexec, hpend, harb, -, hdev, hframe⟩ := exec_arbiterGrant_of_free t id s hs hoff hinert _ _ _ (at_, w)
        (rest ++ [((s.dev.atTime t).now, g)]) (s.dev.arb id).stalled true rfl
        (freeResource_of_revoked (s.dev.atTime t) id g done m hfree hg hrev) haid hfree
        (congrArg (· ++ [((s.dev.atTime t).now, g)]) hw) hgive
      refine ⟨s', hexec, hpend, harb, fun hserai hrun => ?_, hframe⟩
      subst hserai
      have hfirst := arbChoice_serai ((s.dev.atTime t).countStalls .serai (s.dev.arb .serai).stalled) hrun
      rw [hdev, if_neg (by simp), if_pos rfl, hfirst, arbChoice_serai]
      · rfl
      · exact hrun
    · refine next_of_arbitrates hs hoff hinert ?_ (arbitrates_setArb _ _)
      refine congrArg (s.dev.atTime t).setArb ?_
      change (s.dev.arb id).withdraw r.req _ = _
      rw [Arbiter.withdraw, hg]
      dsimp only
      rw [if_pos hreq]
      rfl
    · refine next_of_arbitrates hs hoff hinert ?_ (arbitrates_setArb _ _)
      refine congrArg (s.dev.atTime t).setArb ?_
      change (s.dev.arb id).withdraw r.req _ = _
      rw [Arbiter.withdraw, hg]
  · dsimp only
    intro hnext
    have hgrant (hidle : (s.dev.arb id).Idle) := exec_arbiterGrant_of_table t id tab s hs hrun hlock htab hopen hidle
    generalize s.dev.arb id = a at *
    refine ⟨fun w hg he hr hladder hw => ?_, fun w hg he hr hw => ?_, fun hg he hr hladder hw => ?_⟩
    · rw [hgrant ⟨hg, he, hr⟩, tableGrant_of_entry _ tab { a with stalls := 0 } pos x (find_ladder_of_none _ hladder) hnext w hw]
      refine congrArg (fun a : Arbiter => Host.Outcome.next (s.withDev ((s.dev.atTime t).setArb a))) ?_
      simp [Arbiter.give, Arbiter.progress, hr]
    · rw [hgrant ⟨hg, he, hr⟩, tableGrant_of_ladder _ tab { a with stalls := 0 } w hw]
      refine congrArg (fun a : Arbiter => Host.Outcome.next (s.withDev ((s.dev.atTime t).setArb a))) ?_
      simp [Arbiter.give, Arbiter.progress, hr, he]
    · rw [hgrant ⟨hg, he, hr⟩, tableGrant_of_absent _ tab { a with stalls := 0 } pos x (find_ladder_of_none _ hladder) hnext hw]
  · intro a now b hg he hserved
    refine ⟨boundaryLockstep_of_fewer a g done _ now y hg he, boundaryLockstep_of_equal a g done _ now y hg he hserved,
      boundaryLockstep_of_more a g done _ now y hg he hserved, ?_⟩
    have hfreed : (s.dev.atTime t).freeResource id = ((s.dev.atTime t).countStalls id a.stalled).setArb b := by
      rw [freeResource_of_table (s.dev.atTime t) id tab hlock htab, countStalls_of_table (s.dev.atTime t) id _ tab htab]
      rfl
    refine ⟨s.withDev _, next_of_arbitrates hs (by simp [hrun]) (by simp [hrun]) (congrArg (Device.grantNext · id) hfreed) ?_,
      rfl, rfl⟩
    exact ((arbitrates_countStalls _ _ _).trans (arbitrates_setArb _ _)).trans (arbitrates_grantNext _ _)

end Sys2Proof.Machine
end

section
/-! SUPPORT. Requests that take their effect (R695). -/
namespace Sys2Proof.Machine

/-! ### A PREEMPT with SAVE of a launch that was saved before -/

namespace SavedAgain

/-- A PREEMPT request of engine 0 with SAVE. -/
def request : List Byte := [2, 0, 0, 1]

/-- The launch runs on engine 0, and the request asks for its save. -/
def asked : Device :=
  { device .running with req := { (device .running).req with pending := some request } }.modEng 0 fun x => { x with request := none }

def askedState : State := { pending := [], dev := asked }

theorem askedState_inv : askedState.Inv := ⟨rfl, rfl, rfl⟩

theorem asked_eng : asked.eng 0 = { (device .running).eng 0 with request := none } := eng_modEng _ 0 _ (by decide)

theorem asked_run : (asked.eng 0).run = some run := (congrArg Engine.run asked_eng).trans (device_run .running)

theorem asked_still : asked.Still := by
  obtain ⟨hruns, hjobs, hwatch⟩ := device_still .running
  refine ⟨fun e he r hr => ?_, hjobs, hwatch⟩
  by_cases h : e = 0
  · subst h
    exact hruns 0 he r ((congrArg Engine.run asked_eng).symm.trans hr)
  · rw [show asked.eng e = (device .running).eng e from vget_vmod_ne _ _ _ _ _ (Ne.symm h)] at hr
    exact hruns e he r hr

end SavedAgain

/-- R695: a best-effort launch that may be saved stops for its full save at once. -/
theorem preempt_of_save (d : Device) (e : Nat) (r : Run) (hrun : (d.eng e).run = some r)
    (hrefused : ((d.eng e).retired || !r.bestEffort) = false) (hpre : (d.eng e).pre = .running)
    (hsave : (match d.entryOf r.due.index r.due.entry with | some y => y.saveOk | none => false) = true)
    (hyields : (!d.yields r || r.awaitShadow) = false) :
    d.preempt e true = ({ d with req := { d.req with watch := some (e, r.due, false) } } : Device).stopAndSave e := by
  unfold Device.preempt
  dsimp only
  rw [hrun]
  dsimp only
  rw [hrefused, if_neg Bool.false_ne_true]
  rw [if_neg (by simpa using hpre)]
  rw [Bool.true_and]
  exact (if_pos hsave).trans (if_neg (by rw [Bool.not_eq_true]; exact hyields))

open SavedAgain in
/-- Refutes O53: a full save enters the start of the wait that it withdraws, or 0, in the wait record (Table 4.6), so a launch that an
earlier full save left a wait record does not stay as it is. -/
theorem not_otherRequestsRun : ¬ Obligations.OtherRequestsRun := by
  rintro ⟨hpreempt, -⟩
  obtain ⟨s', hexec, -, -, -, -, hkept, -⟩ := ((hpreempt 0 0 request askedState askedState_inv asked_still rfl (by decide)
    (by decide)).2 run asked_run rfl (by decide +kernel) (by decide +kernel)).2 (by decide) (by decide +kernel) (by decide +kernel)
  have hmodel : exec (.preempt 0) askedState = .next (askedState.withDev
      (({ asked.atTime 0 with req := { asked.req with watch := some (0, run.due, false) } } : Device).startSave 0).pump.settle) := by
    refine congrArg (fun d : Device => Host.Outcome.next (askedState.withDev d.pump.settle)) ?_
    refine (requestOf_of_pending (asked.atTime 0) 2 _ request rfl (by decide) rfl).trans ?_
    dsimp only
    rw [show field request 2 1 = 0 by decide, show bit (field request 3 1) 0 = true by decide,
      preempt_of_save (asked.atTime 0) 0 run asked_run (by decide +kernel) (by decide +kernel) (by decide +kernel)
        (by decide +kernel)]
    exact stopAndSave_of_unready _ _ (by decide +kernel)
  have hleft : (((({ asked.atTime 0 with req := { asked.req with watch := some (0, run.due, false) } } : Device).startSave
      0).pump.settle.eng 0).run.map (·.waitedAt)) = some 0 := by
    decide +kernel
  have hright := congrArg (fun s' : State => (s'.dev.eng 0).run.map (·.waitedAt))
    (Host.Outcome.next.inj (hmodel.symm.trans hexec))
  have hrun := congrArg (Option.map (·.waitedAt)) hkept
  exact absurd (hleft.symm.trans (hright.trans hrun)) (by decide +kernel)

end Sys2Proof.Machine
end

section
/-! SUPPORT. ABORT requests (R690 to R694). -/
namespace Sys2Proof.Machine

/-! ### What an ABORT comes to -/

/-- The launch of an entry that stands alone is the one that an ABORT of it names. -/
theorem sortBy_singleton {α : Type} (lt : α → α → Bool) (x : α) : sortBy lt [x] = [x] := rfl

section
variable (d : Device) (index entry arg : Nat)

theorem abort_of_unsupported (h : d.phase ≠ .running ∨ index ≠ d.itn.active ∨ d.entryOf index entry = none) :
    d.abort index entry arg = d.finishRequest .unsupported arg := by
  unfold Device.abort
  refine if_pos ?_
  rcases h with h | h | h
  · simp [h]
  · simp [h]
  · simp [h]

variable (x : Entry) (hphase : d.phase = .running) (hindex : index = d.itn.active) (hentry : d.entryOf index entry = some x)
  (htarget : x.target = 0)
include hphase hindex hentry htarget

/-- The one launch of the entry that has not ended is aborted. -/
theorem abort_of_live (y : Due) (p : LivePlace) (hlive : d.liveLaunches index entry = [(y, p)])
    (harg : arg = 0xFFFFFFFF ∨ y.count % 2 ^ 32 = arg) :
    d.abort index entry arg = (d.abortLive y p).finishRequest .aborted y.count := by
  unfold Device.abort
  refine (if_neg (by simp [hphase, ← hindex, hentry, htarget])).trans ?_
  rw [hlive, sortBy_singleton]
  split
  · rfl
  · next hne =>
    have hfind : [(y, p)].find? (fun z => z.1.count % 2 ^ 32 = arg) = some (y, p) :=
      List.find?_cons_of_pos (by simpa using harg.resolve_left hne)
    rw [hfind]

theorem abort_of_next (hlive : d.liveLaunches index entry = []) (harg : arg = 0xFFFFFFFF) :
    d.abort index entry arg = d.abortNext index entry (d.nextCount entry) := by
  unfold Device.abort
  refine (if_neg (by simp [hphase, ← hindex, hentry, htarget])).trans ?_
  rw [hlive]
  exact if_pos harg

theorem abort_of_ended (hlive : d.liveLaunches index entry = []) (harg : arg ≠ 0xFFFFFFFF) (n : Ended)
    (hended : d.itn.ended.find? (fun y => y.index = index && y.entry = entry && y.count % 2 ^ 32 = arg) = some n)
    (hcommitted : committed n.status = true) :
    d.abort index entry arg = d.finishRequest .alreadyDone arg := by
  unfold Device.abort
  refine (if_neg (by simp [hphase, ← hindex, hentry, htarget])).trans ?_
  rw [hlive]
  refine (if_neg harg).trans ?_
  dsimp only [sortBy, List.foldl_nil, List.find?_nil]
  rw [hended]
  dsimp only
  rw [hcommitted, if_pos rfl]

end

/-! ### Launches that are withdrawn (R692) -/

/-- `d'` is `d` with the waiting launch `x` aborted: its record is written, and else the itinerary unit, the vision queues, the
contexts, the engines' marks, the streams and the sets alone differ. -/
structure Device.Withdraws (d d' : Device) (x : Due) (v : Serve) : Prop where
  same : d' = { d with
    itn := d'.itn, store := (d.write v.launch.record (recordBytes .aborted 0 0 (d.now / 1000) x.count)).store, ne := d'.ne
    vis := d'.vis, ctxs := d'.ctxs, streams := d'.streams, rfe := d'.rfe }
  waiting : x ∉ d'.itn.waiting
  runs : ∀ n, (d'.eng n).run = (d.eng n).run
  jobs : ∀ u < 7, (d'.unit u).run = (d.unit u).run

/-- A launch that waits leaves every queue. -/
def Device.unqueue (d : Device) (x : Due) : Device :=
  let d := (d.cancelRelaunches [x]).modItn (fun i => { i with waiting := i.waiting.filter (· ≠ x) })
  { d with ctxs := d.ctxs.map (fun (c : Ctx) => { c with ready := c.ready.filter (· ≠ x) }) }

theorem unit_map_run (d : Device) (f : Vision → Vision) (hf : ∀ x, (f x).run = x.run) (u : Nat) (hu : u < 7) :
    (({ d with vis := d.vis.map f } : Device).unit u).run = (d.unit u).run := by
  simp [Device.unit, vget, hu, hf]

theorem unqueue_same (d : Device) (x : Due) : d.unqueue x =
    { d with itn := { d.itn with waiting := (d.unqueue x).itn.waiting }, vis := (d.unqueue x).vis, ctxs := (d.unqueue x).ctxs } := by
  unfold Device.unqueue Device.cancelRelaunches
  dsimp only
  split <;> rfl

theorem unqueue_waiting (d : Device) (x : Due) : x ∉ (d.unqueue x).itn.waiting := fun h =>
  absurd rfl (of_decide_eq_true (List.mem_filter.mp h).2)

theorem unqueue_jobs (d : Device) (x : Due) (u : Nat) (hu : u < 7) : ((d.unqueue x).unit u).run = (d.unit u).run := by
  unfold Device.unqueue Device.cancelRelaunches
  dsimp only
  split
  · exact unit_map_run d (fun u => { u with queue := u.queue.filter (fun l => !l.due.producer) }) (fun _ => rfl) u hu
  · rfl

theorem flushesRest_of_none (d : Device) (h : d.rfe.sets = []) : d.FlushesRest := by
  intro x hx
  rw [h] at hx
  exact nomatch hx

/-- Whether a skip is excused concerns slots alone. -/
theorem skipDue_excused_of_unbound (d : Device) (x : Due) (v : Serve) (st : Status) (hx : x.shadow = false)
    (hv : v.entry.target = 0) (hbind : v.bind = none) : d.skipDue x v st true = d.skipDue x v st := by
  simp only [Device.skipDue, hx, hv, Bool.false_eq_true, if_false, if_true, missedDue_of_unbound _ x v _ _ hbind]

theorem withdraws_abortWaiting (d : Device) (x : Due) (v : Serve) (hserve : d.serveOf x = some v) (hx : x.shadow = false)
    (hv : v.entry.target = 0) (hbind : v.bind = none) (hsets : d.rfe.sets = []) : d.Withdraws (d.abortWaiting x) x v := by
  have hserve' : (d.unqueue x).serveOf x = some v := by
    rw [unqueue_same]
    exact hserve
  generalize hq : ((d.unqueue x).modCtx v.entry.ctx
    (fun c => if c.mode = CtxMode.queued && c.ready.isEmpty then { c with mode := .idle } else c)) = q
  have hqsame : q = { d with itn := { d.itn with waiting := (d.unqueue x).itn.waiting }, vis := (d.unqueue x).vis, ctxs := q.ctxs } := by
    rw [← hq]
    generalize hu : d.unqueue x = u
    have hsame := unqueue_same d x
    rw [hu] at hsame
    rw [hsame]
    rfl
  have habort : d.abortWaiting x = (q.skipDue x v .aborted).releaseMarks x.entry := by
    rw [Device.abortWaiting]
    refine (congrArg (fun o : Option Serve => (match o with
      | none => d.unqueue x
      | some v => ((d.unqueue x).modCtx v.entry.ctx
          (fun c => if c.mode = CtxMode.queued && c.ready.isEmpty then { c with mode := .idle } else c)).abortDue x v)) hserve').trans ?_
    dsimp only
    rw [hq, Device.abortDue, skipDue_excused_of_unbound q x v .aborted hx hv hbind, hbind]
    exact if_neg (fun h => nomatch h.1)
  have hskip := skipDue_of_unbound q x v .aborted hx hv hbind (flushesRest_of_none q (by rw [hqsame]; exact hsets))
  rw [recordSkip_same] at hskip
  have hstore : (q.recordSkip x v .aborted).store =
      (d.write v.launch.record (recordBytes .aborted 0 0 (d.now / 1000) x.count)).store := by
    rw [hqsame, Device.recordSkip, noteEnd_same]
    rfl
  have hitn : (q.skipDue x v .aborted).itn.waiting = (d.unqueue x).itn.waiting := by
    rw [hskip, hqsame]
  have hne : (q.skipDue x v .aborted).ne = d.ne := by
    rw [hskip, hqsame]
  have hvis : (q.skipDue x v .aborted).vis = (d.unqueue x).vis := by
    rw [hskip, hqsame]
  rw [habort]
  refine ⟨?_, ?_, fun n => ?_, fun u hu => ?_⟩
  · rw [hskip, hstore, hqsame]
    rfl
  · rw [show ((q.skipDue x v .aborted).releaseMarks x.entry).itn.waiting = _ from hitn]
    exact unqueue_waiting d x
  · rw [eng_releaseMarks_run, Device.eng, hne]
    rfl
  · rw [← unqueue_jobs d x u hu, Device.unit, Device.unit, show ((q.skipDue x v .aborted).releaseMarks x.entry).vis = _ from hvis]

/-! ### The end of an ABORT request -/

/-- The request `b` has ended with an effect: it is counted. -/
def Request.effected (r : Request) (b : List Byte) (st : Status) (n : Nat) : Request :=
  { r.ended b st n with count := satInc r.count }

section
variable (t : Nat) (b : List Byte) (s : State) (hp : s.dev.req.pending = some b) (hwatch : s.dev.req.watch = none)
  (hkind : field b 0 1 = 1)
include hp hwatch hkind

theorem exec_abort : exec (.abort t) s =
    .next (s.withDev ((s.dev.atTime t).abort (field b 2 1) (field b 8 2) (field b 4 4)).pump.settle) :=
  congrArg (fun d : Device => Host.Outcome.next (s.withDev d.pump.settle)) (requestOf_of_pending (s.dev.atTime t) 1 _ b hp hkind hwatch)

/-- An ABORT that leaves a device where nothing waits ends there with its effect. -/
theorem exec_abort_of_effect (d : Device) (st : Status) (n : Nat) (hst : st.tookEffect) (hcalm : d.Calm) (hreq : d.req = s.dev.req)
    (h : (s.dev.atTime t).abort (field b 2 1) (field b 8 2) (field b 4 4) = d.finishRequest st n) :
    ∃ d', exec (.abort t) s = .next (s.withDev d') ∧ Device.Records { d with req := s.dev.req.effected b st n } d' := by
  have hrec := finishRequest_of_effect d b st n (by rw [hreq]; exact hp) (by rw [hreq]; exact hwatch) hst
  rw [hreq] at hrec
  have hcalm' := hrec.calm (calm_withReq hcalm _ hwatch)
  exact ⟨_, by rw [exec_abort t b s hp hwatch hkind, h, calm_pump_settle hcalm'], hrec⟩

end

theorem calm_write {d : Device} (h : d.Calm) (a : Nat) (bs : List Byte) : (d.write a bs).Calm := by
  obtain ⟨hstill, hmem, hfresh, halert⟩ := h
  exact ⟨hstill, device_write_wf _ _ _ hmem, hfresh, halert⟩

theorem calm_of_withdraws {d d' : Device} {x : Due} {v : Serve} (hd : d.Calm) (h : d.Withdraws d' x v) : d'.Calm := by
  obtain ⟨⟨hruns, hjobs, hwatch⟩, hmem, hfresh, halert⟩ := hd
  obtain ⟨hsame, -, hruns', hjobs'⟩ := h
  refine ⟨⟨fun e he r hr => hruns e he r ((hruns' e).symm.trans hr), fun u hu => (hjobs' u hu).trans (hjobs u hu), ?_⟩, ?_, ?_, ?_⟩
  · rw [hsame]; exact hwatch
  · rw [hsame]; exact device_write_wf _ _ _ hmem
  · rw [hsame]; exact hfresh
  · rw [hsame]; exact halert

/-- An engine's list that an ABORT ends leaves nothing in its place: its entry serves no stripe. -/
theorem replaceAborted_of_unbound (d : Device) (x : Due) (v : Serve) (e : Nat) (hserve : d.serveOf x = some v)
    (hbind : v.bind = none) : d.replaceAborted x e = d := by
  simp [Device.replaceAborted, hserve, hbind]

/-- Settles O52: an ABORT of the one launch that has not ended, of the instance that falls due next, or of one that has ended. -/
theorem abortRuns : Obligations.AbortRuns := by
  intro t b s hs hp hwatch hkind index entry arg d ended
  have hended {d d' : Device} {st : Status} {n : Nat} (hexec : exec (.abort t) s = .next (s.withDev d'))
      (h : Device.Records { d with req := s.dev.req.effected b st n } d') : ended (s.withDev d') st n := by
    obtain ⟨c, r, l, rfl⟩ := h
    exact ⟨hexec, rfl, rfl⟩
  refine ⟨fun hstill hnone => ?_, fun x hphase hindex hentry htarget => ⟨fun hstill hlive harg hnew => ?_,
    fun n hstill hlive harg hn hcommitted => ?_, fun y v hstill hlive harg hserve hbind hve hsets => ?_,
    fun e r halone hr hplain hlive harg hsets => ?_⟩⟩
  · rw [exec_abort t b s hp hwatch hkind, abort_of_unsupported (s.dev.atTime t) index entry arg hnone,
      finishRequest_of_no_effect (s.dev.atTime t) b .unsupported arg hp hwatch (by simp [Status.tookEffect]),
      Device.atTime_req,
      calm_pump_settle (calm_withReq (calm_atTime s t hs hstill) (s.dev.req.ended b .unsupported arg) hwatch)]
    rfl
  · have hcalm : ((s.dev.atTime t).modItn (fun i => { i with
        aborted := s.dev.itn.aborted ++ [(index, entry, s.dev.nextCount entry)] })).Calm := by
      obtain ⟨hst, hmem, hfresh, halert⟩ := calm_atTime s t hs hstill
      exact ⟨hst, hmem, hfresh, halert⟩
    have habort : (s.dev.atTime t).abort index entry arg = ((s.dev.atTime t).modItn (fun i => { i with
        aborted := s.dev.itn.aborted ++ [(index, entry, s.dev.nextCount entry)] })).finishRequest .aborted
          (s.dev.nextCount entry) := by
      rw [abort_of_next (s.dev.atTime t) index entry arg x hphase hindex hentry htarget hlive harg, Device.abortNext]
      have hcontains : s.dev.itn.aborted.contains (index, entry, s.dev.nextCount entry) = false := by
        simpa using hnew
      refine congrArg (fun l => ((s.dev.atTime t).modItn (fun i => { i with aborted := l })).finishRequest .aborted
        (s.dev.nextCount entry)) (if_neg ?_)
      exact (Bool.not_eq_true _).mpr hcontains
    obtain ⟨d', hexec, hrec⟩ := exec_abort_of_effect t b s hp hwatch hkind _ .aborted _ (.inr (.inl rfl)) hcalm rfl habort
    have hend := hended hexec hrec
    obtain ⟨c, r, l, rfl⟩ := hrec
    exact ⟨_, hend, rfl, rfl, rfl, rfl⟩
  · obtain ⟨d', hexec, hrec⟩ := exec_abort_of_effect t b s hp hwatch hkind _ .alreadyDone arg (.inr (.inr rfl))
      (calm_atTime s t hs hstill) rfl
      (abort_of_ended (s.dev.atTime t) index entry arg x hphase hindex hentry htarget hlive harg n hn hcommitted)
    have hend := hended hexec hrec
    obtain ⟨c, r, l, rfl⟩ := hrec
    exact ⟨_, hend, rfl, rfl, rfl⟩
  · have hshadow : y.shadow = false := by
      have hmem : (y, LivePlace.waiting) ∈ s.dev.liveLaunches index entry := by rw [hlive]; exact List.mem_singleton_self _
      have hmine := (List.mem_filter.mp hmem).2
      simp only [Bool.and_eq_true, Bool.not_eq_true'] at hmine
      exact hmine.1.2
    have hwith := withdraws_abortWaiting (s.dev.atTime t) y v hserve hshadow (by rw [hve]; exact htarget) hbind hsets
    have hcalm := calm_of_withdraws (calm_atTime s t hs hstill) hwith
    obtain ⟨hsame, hwaiting, hruns, -⟩ := hwith
    obtain ⟨d', hexec, hrec⟩ := exec_abort_of_effect t b s hp hwatch hkind _ .aborted y.count (.inr (.inl rfl)) hcalm
      (by rw [hsame]; rfl) (abort_of_live (s.dev.atTime t) index entry arg x hphase hindex hentry htarget y .waiting hlive harg)
    have hend := hended hexec hrec
    have hstore : d'.store = ((s.dev.atTime t).write v.launch.record
        (recordBytes .aborted 0 0 ((s.dev.atTime t).now / 1000) y.count)).store := by
      have hwritten := congrArg Device.store hsame
      obtain ⟨c, r, l, rfl⟩ := hrec
      exact hwritten
    refine ⟨s.withDev d', hend, ?_, fun i hi => ?_, fun a ha => ?_, fun e he => ?_⟩
    · obtain ⟨c, r, l, rfl⟩ := hrec
      exact hwaiting
    · exact (congrArg (fun m : Store => memGet m.mem (v.launch.record + i)) hstore).trans
        (device_write_get_in (s.dev.atTime t) _ _ i hi)
    · exact (congrArg (fun m : Store => memGet m.mem a) hstore).trans
        (device_write_get_out (s.dev.atTime t) _ _ a (ha _ (List.mem_singleton_self _)))
    · obtain ⟨c, r, l, rfl⟩ := hrec
      exact hruns e
  · obtain ⟨v, hlist⟩ := Device.plainRun.plainList (d := s.dev.atTime t) hplain
    have hrun : (s.dev.atTime t).UnboundRun r v :=
      ⟨hlist.serve, hlist.target, hlist.bind, hlist.tune, hlist.comp, hlist.shadow, hlist.relaunch, hsets⟩
    have hsettles := settles_endRun (s.dev.atTime t) e.val r v .aborted true hrun hr
    have hkeeps := keepsLists_endRun (s.dev.atTime t) e.val r v .aborted true hlist hr
    have hfreed : ((s.dev.atTime t).freeEngine e.val r .aborted).Calm := by
      obtain ⟨hmem, hfresh, halert⟩ := hs
      exact ⟨still_freeEngine (s.dev.atTime t) e r .aborted halone, hmem, hfresh, halert⟩
    have hcalm := hsettles.calm (calm_write hfreed _ _)
    have hserve : ((s.dev.atTime t).endRun e.val .aborted true).serveOf r.due = some v :=
      ((hrun.congr (d' := ((s.dev.atTime t).freeEngine e.val r .aborted).recordEnd r v .aborted) rfl rfl rfl).settles hsettles).serve
    have habort : (s.dev.atTime t).abort index entry arg =
        ((s.dev.atTime t).endRun e.val .aborted true).finishRequest .aborted r.due.count := by
      rw [abort_of_live (s.dev.atTime t) index entry arg x hphase hindex hentry htarget r.due (.engine e.val) hlive harg]
      exact congrArg (fun d : Device => d.finishRequest .aborted r.due.count)
        (replaceAborted_of_unbound _ r.due v e.val hserve hlist.bind)
    obtain ⟨d', hexec, hrec⟩ := exec_abort_of_effect t b s hp hwatch hkind _ .aborted r.due.count (.inr (.inl rfl)) hcalm hkeeps.req
      habort
    have hend := hended hexec hrec
    obtain ⟨c, rr, l, rfl⟩ := hrec
    exact ⟨_, hend, hkeeps.ended_run e.isLt, hkeeps.ended_pre e.isLt, hkeeps.ended_status e.isLt⟩

end Sys2Proof.Machine
end

section
/-! SUPPORT. A list whose last command a pre-emption mark holds back (R461). -/
namespace Sys2Proof.Machine

/-! ### A mark whose STEP lies in the last SIGNAL of a list -/

namespace MarkInLast

/-- A SIGNAL, and the itinerary with a mark whose STEP lies in the decode of the list's first command. -/
def signal : List Byte := [10]

def itin : Itin := { SavedAgain.itin with marks := [{ lcEntry := 1, beEntry := 0, step := 10 }] }

/-- A launch that has issued nothing of its one command. -/
def run : Run := { SavedAgain.run with cmds := [signal], steps := 0, inCmd := false, waitedAt := 0 }

def device : Device :=
  ({ Device.reset [] with
      phase := .running
      image := { Image.none with itins := [itin] }
      itn := { Itinerary.reset with t0 := some 0, groupEn := 1 }
      ctl := { Ctl.reset with lockstep := true } } : Device).modEng 0 fun x =>
    { x with run := some run, pre := .running }

def state : State := { pending := [], dev := device }

theorem state_inv : state.Inv := ⟨rfl, rfl, rfl⟩

theorem device_eng : device.eng 0 = { (Device.reset []).eng 0 with run := some run, pre := .running } :=
  eng_modEng _ 0 _ (by decide)

theorem device_still : device.Still := by
  obtain ⟨hruns, hjobs, hwatch⟩ := still_reset [] 0 0
  refine ⟨fun e he r hr => ?_, hjobs, hwatch⟩
  by_cases h : e = 0
  · subst h
    rw [device_eng] at hr
    cases hr
    exact ⟨rfl, rfl, rfl⟩
  · rw [show device.eng e = (Device.reset []).eng e from vget_vmod_ne _ _ _ _ _ (Ne.symm h)] at hr
    exact hruns e he r hr

/-- What the entry of the launch serves. -/
def serve : Serve :=
  { entry := SavedAgain.entry, launch := { addr := 0, record := 0x20000, credits := 0, yieldWait := 10, row0 := 0, rows := 0 }
    bind := none, streams := [0], slot := 0 }

end MarkInLast

open MarkInLast in
/-- Refutes O29: the STEP of a pending mark may lie in the last SIGNAL of a best-effort list in lockstep mode; the list does not pass
it, so it has not ended. -/
theorem not_lastCommandEndsList : ¬ Obligations.LastCommandEndsList := by
  intro h
  obtain ⟨s', hexec, -, hended, -⟩ := h 0 0 run serve state state_inv device_still rfl (by decide +kernel) (by decide) (by decide)
    ⟨⟨serve, by decide +kernel, rfl, rfl⟩, by decide +kernel, by decide +kernel, by decide +kernel, rfl, rfl, rfl, rfl⟩
    (by decide +kernel) rfl (by decide) rfl rfl
  have hruns : (match exec (.signal 0 0) state with
      | .next s' => (s'.dev.eng 0).run.isSome
      | _ => false) = true := by
    decide +kernel
  rw [hexec] at hruns
  exact absurd ((congrArg Option.isSome hended).symm.trans hruns) (by decide)

end Sys2Proof.Machine
end

section
/-! SUPPORT. Restores of launches that a save cut while an array job had flags outstanding (R191). -/
namespace Sys2Proof.Machine

/-! ### A restore that enters range flags -/

namespace LateFlags

def itin : Itin := { SavedAgain.itin with
  marks := [], ctxs := [{ ctx := 1, part := 0, tuning := false, compositor := false, saveF := 0, saveBase := 0x1000000 }] }

/-- A launch that a save kept with range flags that its restore is to enter. -/
def run : Run := { SavedAgain.run with lateFlags := 1 }

/-- Engine 0 restores context 1, which keeps the launch. -/
def device : Device :=
  (({ Device.reset [] with
      phase := .running
      image := { Image.none with itins := [itin] }
      itn := { Itinerary.reset with t0 := some 0, groupEn := 1 } } : Device).modEng 0 fun x =>
    { x with pre := .restoring, moving := some 1 }).modCtx 1 fun c => { c with kept := some run, keptSaved := true }

def state : State := { pending := [], dev := device }

theorem state_inv : state.Inv := ⟨rfl, rfl, rfl⟩

theorem device_eng : device.eng 0 = { (Device.reset []).eng 0 with pre := .restoring, moving := some 1 } :=
  eng_modEng _ 0 _ (by decide)

theorem device_still : device.Still := by
  obtain ⟨hruns, hjobs, hwatch⟩ := still_reset [] 0 0
  refine ⟨fun e he r hr => ?_, hjobs, hwatch⟩
  by_cases h : e = 0
  · subst h
    rw [device_eng] at hr
    exact hruns 0 he r hr
  · rw [show device.eng e = (Device.reset []).eng e from vget_vmod_ne _ _ _ _ _ (Ne.symm h)] at hr
    exact hruns e he r hr

end LateFlags

open LateFlags in
/-- Refutes O26: the restore enters the range flags that the save left to it and clears them in the list, so a list with such flags
does not go on as it was kept. -/
theorem not_contextResumes : ¬ Obligations.ContextResumes := by
  intro h
  obtain ⟨s', hexec, -, hrun, -⟩ := (h 0 0 1 run
    { ctx := 1, part := 0, tuning := false, compositor := false, saveF := 0, saveBase := 0x1000000 } state state_inv device_still
    rfl (by decide +kernel) (by decide +kernel) rfl rfl rfl).2.2 (by decide +kernel) (by decide +kernel) (by decide +kernel)
    (by decide)
  have hflags : (match exec (.restoreComplete 0 0) state with
      | .next s' => (s'.dev.eng 0).run.map (·.lateFlags)
      | _ => none) = some 0 := by
    decide +kernel
  rw [hexec] at hflags
  exact absurd ((congrArg (Option.map (·.lateFlags)) hrun).symm.trans hflags) (by decide)

end Sys2Proof.Machine
end

section
/-! SUPPORT. Teardowns of a context whose one list runs (R468, R469), by the watchdogs (R467, R47). -/
namespace Sys2Proof.Machine

/-! ### A teardown with nothing but a list under way -/

/-- What a teardown does at engine `e` (R468). -/
def Device.tearEngine (c : Nat) (st : Status) (excused : Bool) (d : Device) (e : Nat) : Device :=
  let x := d.eng e
  let runs := (x.run.map (·.ctx)) == some c
  let d := if x.moving = some c then
      d.modEng e (fun x => { x with moving := none, pre := if x.run.isSome then x.pre else .idle })
    else d
  let d := if x.moving = some c ∨ runs then
      d.modEng e (fun x => { x with regs := { x.regs with teardowns := satInc x.regs.teardowns } })
    else d
  if runs then d.endRun e st excused else d

/-- What it does at vision unit `u`. -/
def Device.tearUnit (c : Nat) (st : Status) (excused : Bool) (d : Device) (u : Nat) : Device :=
  let x := d.unit u
  let mine := x.queue.filter (fun q => q.ctx = c)
  let d := d.modUnit u (fun x => { x with queue := x.queue.filter (fun q => q.ctx ≠ c) })
  let d := match x.run with
    | some r =>
      if r.launch.ctx = c then
        (d.modUnit u (fun x => { x with teardowns := satInc x.teardowns })).failVision u st 0 none excused
      else d
    | none => d
  mine.foldl (fun (d : Device) q => d.quarantineDue q.due true) d

/-- The context is quarantined and its teardown is counted, for a cause and an entry. -/
def Device.condemned (d : Device) (c cause entry : Nat) (excused : Bool) : Device :=
  (d.modItn (fun i =>
    { i with
      teardowns := satInc i.teardowns,
      lastTeardown := word (cause + c % 64 * 256 + entry % 2 ^ 16 * 2 ^ 16),
      semWatchdog := if cause = 4 then satInc i.semWatchdog else i.semWatchdog })).modCtx c (fun x =>
    { x with mode := .quarantined, ready := [], kept := none, keptOn := none, keptSaved := false, excused := excused })

theorem modItn_waiting_nil (d : Device) (h : d.itn.waiting = []) : d.modItn (fun i => { i with waiting := [] }) = d := by
  rw [← h]
  rfl

theorem cancelRelaunches_of_none (d : Device) (l : List Due) (h : d.itn.waiting = []) : d.cancelRelaunches l = d := by
  unfold Device.cancelRelaunches
  simp only [h, List.find?_nil, Option.any_none, Bool.false_eq_true, if_false]
  refine Eq.trans ?_ (modItn_waiting_nil d h)
  simp only [Device.modItn, h, List.filter_nil]

theorem teardown_of_one (d : Device) (c cause entry : Nat) (excused : Bool) (hmode : (d.ctx c).mode ≠ .quarantined)
    (hwaiting : d.itn.waiting = []) (hready : (d.ctx c).ready = []) (hkept : (d.ctx c).kept = none) :
    d.teardown c cause entry excused =
      ((((List.range 7).foldl (Device.tearUnit c (teardownStatus cause) excused)
        ((List.range 6).foldl (Device.tearEngine c (teardownStatus cause) excused) (d.condemned c cause entry excused))).dropSems
          c).stopFlushes c).dropProgress c := by
  unfold Device.teardown
  extract_lets st fresh ends d₁ dues d₂ ready kept keptOn d₃ d₄ d₅ d₆ d₇ d₈
  have hfresh : fresh := hmode
  have hd₁ : d₁ = d.modItn (fun i =>
      { i with
        teardowns := satInc i.teardowns, lastTeardown := word (cause + c % 64 * 256 + entry % 2 ^ 16 * 2 ^ 16)
        semWatchdog := if cause = 4 then satInc i.semWatchdog else i.semWatchdog }) := if_pos (by simp [hfresh])
  have hwaiting₁ : d₁.itn.waiting = [] := by rw [hd₁]; exact hwaiting
  have hdues : dues = [] := by simp [dues, hwaiting₁]
  have hd₂ : d₂ = d₁ := cancelRelaunches_of_none _ _ hwaiting₁
  have hctx : d₂.ctx c = d.ctx c := by rw [hd₂, hd₁]; rfl
  have hready' : ready = [] := by simp only [ready, hctx, hready]
  have hkept' : kept = none := by simp only [kept, hctx, hkept]
  have hd₃ : d₃ = d₁ := by
    refine Eq.trans ?_ (modItn_waiting_nil d₁ hwaiting₁)
    simp only [d₃, hd₂, Device.modItn, hwaiting₁, List.filter_nil]
  have hd₄ : d₄ = d.condemned c cause entry excused := by
    simp only [d₄, hd₃, hd₁, hfresh, if_true]
    rfl
  have hd₆ : d₆ = d₅ := by simp only [d₆, hkept']
  have hd₈ : d₈ = d₇ := by simp only [d₈, hdues, hready', List.filter_nil, List.nil_append, List.foldl_nil]
  rw [hd₈]
  simp only [d₇, hd₆, d₅, hd₄]
  rfl

/-! ### Engines of a teardown -/

/-- `d'` is `d` but for notes of its engines: lists, scores and last statuses stay. -/
structure Device.Clears (d d' : Device) : Prop where
  same : d' = { d with ne := d'.ne }
  runs : ∀ n, (d'.eng n).run = (d.eng n).run
  scores : ∀ n, (d'.eng n).score = (d.eng n).score
  retired : ∀ n, (d'.eng n).retired = (d.eng n).retired
  status : ∀ n, (d'.eng n).regs.lastStatus = (d.eng n).regs.lastStatus

theorem clears_refl (d : Device) : d.Clears d := ⟨rfl, fun _ => rfl, fun _ => rfl, fun _ => rfl, fun _ => rfl⟩

theorem Device.Clears.trans {d d' d'' : Device} (h : d.Clears d') (k : d'.Clears d'') : d.Clears d'' :=
  ⟨by rw [k.same, h.same], fun n => (k.runs n).trans (h.runs n), fun n => (k.scores n).trans (h.scores n),
    fun n => (k.retired n).trans (h.retired n), fun n => (k.status n).trans (h.status n)⟩

theorem clears_modEng (d : Device) (e : Nat) (f : Engine → Engine) (hrun : ∀ x, (f x).run = x.run)
    (hscore : ∀ x, (f x).score = x.score) (hret : ∀ x, (f x).retired = x.retired)
    (hstatus : ∀ x, (f x).regs.lastStatus = x.regs.lastStatus) : d.Clears (d.modEng e f) where
  same := rfl
  runs n := eng_modEng_field Engine.run d e n f hrun
  scores n := eng_modEng_field Engine.score d e n f hscore
  retired n := eng_modEng_field Engine.retired d e n f hret
  status n := eng_modEng_field (fun x => x.regs.lastStatus) d e n f hstatus

/-- At an engine the context's saves and restores stop, and then its list there ends. -/
theorem tearEngine_cases (c : Nat) (st : Status) (excused : Bool) (d : Device) (e : Nat) : ∃ d', d.Clears d' ∧
    d.tearEngine c st excused e = if ((d.eng e).run.map (·.ctx)) == some c then d'.endRun e st excused else d' := by
  have hstop : d.Clears (if (d.eng e).moving = some c then
      d.modEng e (fun x => { x with moving := none, pre := if x.run.isSome then x.pre else .idle }) else d) := by
    split
    · exact clears_modEng d e _ (fun _ => rfl) (fun _ => rfl) (fun _ => rfl) (fun _ => rfl)
    · exact clears_refl d
  have hcount (x : Device) : x.Clears (if (d.eng e).moving = some c ∨ ((d.eng e).run.map (·.ctx)) == some c then
      x.modEng e (fun x => { x with regs := { x.regs with teardowns := satInc x.regs.teardowns } }) else x) := by
    split
    · exact clears_modEng x e _ (fun _ => rfl) (fun _ => rfl) (fun _ => rfl) (fun _ => rfl)
    · exact clears_refl x
  exact ⟨_, hstop.trans (hcount _), rfl⟩

theorem clears_foldl_tearEngine (c : Nat) (st : Status) (excused : Bool) (l : List Nat) (d : Device)
    (h : ∀ i ∈ l, (d.eng i).run = none) : d.Clears (l.foldl (Device.tearEngine c st excused) d) := by
  refine List.foldlRecOn (motive := fun d' : Device => d.Clears d') l _ (clears_refl d) fun d' hd' i hi => ?_
  obtain ⟨d'', hclears, heq⟩ := tearEngine_cases c st excused d' i
  rw [heq, hd'.runs i, h i hi]
  exact hd'.trans hclears

/-- The engines before and after engine `e`. -/
theorem range_six_split (e : Fin 6) : List.range 6 = List.range e.val ++ e.val :: (List.range 6).drop (e.val + 1) := by
  revert e
  decide

theorem mem_drop_ne (e : Fin 6) : ∀ i ∈ (List.range 6).drop (e.val + 1), i < 6 ∧ i ≠ e.val := by
  revert e
  decide

/-- Where one engine's list is the context's and no other engine has a list, the teardown ends just that list. -/
theorem tearEngines_of_one (c : Nat) (st : Status) (excused : Bool) (d : Device) (e : Fin 6) (r : Run)
    (hothers : ∀ i < 6, i ≠ e.val → (d.eng i).run = none) (hr : (d.eng e.val).run = some r) (hc : r.ctx = c)
    (hends : ∀ d', d.Clears d' → ∀ i < 6, i ≠ e.val → ((d'.endRun e.val st excused).eng i).run = none) :
    ∃ d', d.Clears d' ∧ (d'.endRun e.val st excused).Clears ((List.range 6).foldl (Device.tearEngine c st excused) d) := by
  rw [range_six_split e, List.foldl_append, List.foldl_cons]
  have hbefore := clears_foldl_tearEngine c st excused (List.range e.val) d fun i hi =>
    hothers i ((List.mem_range.mp hi).trans e.isLt) (List.mem_range.mp hi).ne
  generalize (List.range e.val).foldl (Device.tearEngine c st excused) d = d₁ at hbefore ⊢
  obtain ⟨d₂, hclears, heq⟩ := tearEngine_cases c st excused d₁ e.val
  have hruns : ((d₁.eng e.val).run.map (·.ctx) == some c) = true := by rw [hbefore.runs, hr]; simp [hc]
  rw [heq, if_pos hruns]
  exact ⟨d₂, hbefore.trans hclears, clears_foldl_tearEngine c st excused _ _ fun i hi =>
    hends d₂ (hbefore.trans hclears) i (mem_drop_ne e i hi).1 (mem_drop_ne e i hi).2⟩

/-! ### Vision units, semaphores and sets of a teardown -/

theorem vmod_eq_self {α : Type} {n : Nat} (v : Vector α n) (i : Nat) (f : α → α) (dflt : α) (h : i < n)
    (hf : f (vget v i dflt) = vget v i dflt) : vmod v i f = v := by
  refine Vector.ext fun k hk => ?_
  have hget (w : Vector α n) : w[k] = vget w k dflt := by simp [vget, hk]
  rw [hget, hget]
  by_cases hik : i = k
  · subst hik
    rw [vget_vmod_same _ _ _ _ h, hf]
  · exact vget_vmod_ne _ _ _ _ _ hik

theorem tearUnit_of_none (c : Nat) (st : Status) (excused : Bool) (d : Device) (u : Nat) (hu : u < 7) (hrun : (d.unit u).run = none)
    (hqueue : (d.unit u).queue = []) : d.tearUnit c st excused u = d := by
  have hunit : d.modUnit u (fun x => { x with queue := x.queue.filter (fun q => q.ctx ≠ c) }) = d := by
    have hvis : vmod d.vis u (fun x => { x with queue := x.queue.filter (fun q => q.ctx ≠ c) }) = d.vis := by
      refine vmod_eq_self _ _ _ Vision.reset hu ?_
      have hq : (vget d.vis u Vision.reset).queue = [] := hqueue
      rw [hq, List.filter_nil, ← hq]
    rw [Device.modUnit, hvis]
  unfold Device.tearUnit
  dsimp only
  rw [hunit, hrun, hqueue]
  rfl

theorem tearUnits_of_none (c : Nat) (st : Status) (excused : Bool) (d : Device)
    (h : ∀ u < 7, (d.unit u).run = none ∧ (d.unit u).queue = []) : (List.range 7).foldl (Device.tearUnit c st excused) d = d :=
  List.foldlRecOn (motive := fun d' : Device => d' = d) _ _ rfl fun d' hd' u hu => by
    subst hd'
    obtain ⟨hrun, hqueue⟩ := h u (List.mem_range.mp hu)
    exact tearUnit_of_none c st excused d' u (List.mem_range.mp hu) hrun hqueue

theorem stopFlushes_of_none (d : Device) (c : Nat) (h : d.rfe.sets = []) : d.stopFlushes c = d := by
  simp only [Device.stopFlushes, h, List.filter_nil, List.foldl_nil]

/-- R70: a torn-down context holds no semaphore. -/
theorem heldBy_dropSems (d : Device) (c m : Nat) : ((d.dropSems c).sem m).heldBy c = false := by
  unfold Device.sem vget Device.dropSems Device.noteHeld Sem.heldBy
  by_cases hm : m < 256
  · simp [hm]
  · simp [hm]

/-! ### A quarantined context stays quarantined as its list ends -/

theorem mode_modCtx (d : Device) (c n : Nat) (f : Ctx → Ctx) (hf : ∀ x, (f x).mode = x.mode) :
    ((d.modCtx c f).ctx n).mode = (d.ctx n).mode := by
  by_cases h : c = n
  · subst h
    by_cases hc : c < 64
    · rw [ctx_modCtx_same d c f hc, hf]
    · rw [Device.ctx, Device.modCtx_ctxs, vmod_out _ _ _ (Nat.not_lt.mp hc), ← Device.ctx]
  · rw [ctx_modCtx_ne d c n f h]

theorem mode_settleCtx_of_quarantined (d : Device) (c n : Nat) (h : (d.ctx n).mode = .quarantined) :
    ((d.settleCtx c).ctx n).mode = .quarantined := by
  by_cases hc : c = n
  · subst hc
    by_cases hlt : c < 64
    · rw [Device.settleCtx, ctx_modCtx_same _ _ _ hlt]
      exact if_pos h
    · rw [Device.settleCtx, Device.ctx, Device.modCtx_ctxs, vmod_out _ _ _ (Nat.not_lt.mp hlt), ← Device.ctx, h]
  · rw [Device.settleCtx, ctx_modCtx_ne _ _ _ _ hc, h]

theorem mode_dropSems (d : Device) (c n : Nat) : ((d.dropSems c).ctx n).mode = (d.ctx n).mode :=
  mode_modCtx _ c n _ fun _ => rfl

/-- `d'` is `d` after work that leaves the sets, and leaves a quarantined context `n` quarantined. -/
def Device.Shuts (n : Nat) (d d' : Device) : Prop :=
  d'.rfe = d.rfe ∧ ((d.ctx n).mode = .quarantined → (d'.ctx n).mode = .quarantined)

section
variable {n : Nat} {d d' d'' : Device}

theorem Device.Shuts.trans (h : d.Shuts n d') (k : d'.Shuts n d'') : d.Shuts n d'' :=
  ⟨k.1.trans h.1, fun hq => k.2 (h.2 hq)⟩

theorem shuts_of_same (hrfe : d'.rfe = d.rfe) (hctxs : d'.ctxs = d.ctxs) : Device.Shuts n d d' :=
  ⟨hrfe, fun hq => by rwa [Device.ctx, hctxs, ← Device.ctx]⟩

theorem shuts_noteEnd (d : Device) (x : Due) (st : Status) : d.Shuts n (d.noteEnd x st) := by
  rw [noteEnd_same]
  exact shuts_of_same rfl rfl

theorem shuts_countLate (d : Device) (x : Due) (v : Serve) : d.Shuts n (d.countLate x v) := by
  unfold Device.countLate
  split <;> exact ⟨rfl, id⟩

theorem shuts_creditsBack (d : Device) (r : Run) : d.Shuts n (if r.credits = 0 then d else d.returnCredits r) := by
  split
  · exact ⟨rfl, id⟩
  · refine ⟨rfl, fun hq => ?_⟩
    unfold Device.returnCredits
    extract_lets
    rw [mode_modCtx]
    · exact hq
    · exact fun _ => rfl

theorem shuts_dropSems (d : Device) (c : Nat) : d.Shuts n (d.dropSems c) := ⟨rfl, fun hq => (mode_dropSems d c n).trans hq⟩

theorem shuts_settleCtx (d : Device) (c : Nat) : d.Shuts n (d.settleCtx c) := ⟨rfl, mode_settleCtx_of_quarantined d c n⟩

theorem shuts_releaseMarks (d : Device) (entry : Nat) : d.Shuts n (d.releaseMarks entry) := ⟨rfl, id⟩

end

section
variable (d : Device) (e : Nat) (r : Run) (v : Serve) (st : Status) (excused : Bool) (h : d.UnboundRun r v) (n : Nat)
include h

theorem shuts_endLaunch : d.Shuts n (d.endLaunch e r st excused) := by
  have hrec := (h.settles (settles_noteEnd d r.due st)).congr (d' := (d.noteEnd r.due st).write v.launch.record
      (recordBytes st r.lastStarted r.steps (d.now / 1000) r.due.count)) rfl rfl rfl
  have hwritten : d.Shuts n ((d.noteEnd r.due st).write v.launch.record
      (recordBytes st r.lastStarted r.steps (d.now / 1000) r.due.count)) :=
    (shuts_noteEnd d r.due st).trans (shuts_of_same rfl rfl)
  simp only [Device.endLaunch, h.serve, h.shadow, Bool.false_eq_true, if_false, writeRecord_of_unbound d r v st h,
    commitRun_of_unbound _ e r v st hrec, abandonRun_of_unbound _ r v excused hrec, ite_self,
    Device.endRelaunch, h.relaunch, Bool.not_false, if_true]
  have hclose (z : Device) (hz : d.Shuts n z) : d.Shuts n z.releaseSets := by
    rw [releaseSets_of_none z (by rw [hz.1]; exact h.sets)]
    exact hz
  refine hclose _ (Device.Shuts.trans (Device.Shuts.trans ?_ (shuts_dropSems _ _))
    ((shuts_settleCtx _ _).trans (shuts_releaseMarks _ _)))
  refine Device.Shuts.trans ?_ ((shuts_countLate _ _ _).trans (shuts_creditsBack _ r))
  split
  · exact hwritten
  split
  · exact hwritten
  · exact hwritten.trans ⟨rfl, id⟩

theorem shuts_endRun (hr : (d.eng e).run = some r) : d.Shuts n (d.endRun e st excused) := by
  have hbooked := ((settles_bookTime d r).trans (settles_withdrawSems _ e)).trans
    (settles_reloads _ (fun l => l.filter (fun y => y.2.1 ≠ some e)))
  have hend := shuts_endLaunch _ e r v st excused ((h.congr (d' := d.freeEngine e r st) rfl rfl rfl).settles
    (settles_freeEngine hbooked e r st)) n
  simp only [Device.endRun, hr]
  exact Device.Shuts.trans ⟨rfl, id⟩ hend

end

/-! ### A context whose one list runs is torn down (R468) -/

/-- What a teardown needs so that it ends one list and nothing else: engine `e` runs the context's plain list `r`, no other list or job
runs, and nothing else of the context is under way. -/
structure Device.OneList (d : Device) (c e : Nat) (r : Run) : Prop where
  alone : d.Alone e
  run : (d.eng e).run = some r
  ctx : r.ctx = c
  plain : d.plainRun r
  mode : (d.ctx c).mode = .running
  kept : (d.ctx c).kept = none
  ready : (d.ctx c).ready = []
  waiting : d.itn.waiting = []
  queues : ∀ u < 7, (d.unit u).queue = []
  sets : d.rfe.sets = []

/-- `d'` is `d` once context `c` is torn down with a cause for an entry and its list `r` on engine `e` has ended so. -/
structure Device.TornDown (d d' : Device) (c cause entry e : Nat) (r : Run) : Prop where
  runs : ∀ i < 6, (d'.eng i).run = none
  status : (d'.eng e).regs.lastStatus = word (statusCode (teardownStatus cause) + r.ctx * 256 + r.lastStarted % 2 ^ 16 * 2 ^ 16)
  scores : ∀ i < 6, (d'.eng i).score = (d.eng i).score
  retired : ∀ i < 6, (d'.eng i).retired = (d.eng i).retired
  thresh : d'.sealSt.retireThresh = d.sealSt.retireThresh
  mode : (d'.ctx c).mode = .quarantined
  sems : ∀ m, (d'.sem m).heldBy c = false
  teardowns : d'.itn.teardowns = satInc d.itn.teardowns
  last : d'.itn.lastTeardown = word (cause + c % 64 * 256 + entry % 2 ^ 16 * 2 ^ 16)
  watchdog : d'.itn.semWatchdog = if cause = 4 then satInc d.itn.semWatchdog else d.itn.semWatchdog
  still : d'.Still

theorem freeEngine_field {α : Type} (p : Engine → α) (d : Device) (e n : Nat) (r : Run) (st : Status)
    (h : ∀ x : Engine, ∀ a b c f g i, p { x with run := a, pre := b, request := c, slice := f, moving := g, regs := i } = p x) :
    p ((d.freeEngine e r st).eng n) = p (d.eng n) :=
  eng_modEng_field p d e n _ fun x => h x _ _ _ _ _ _

theorem tornDown_teardown (d : Device) (c : Nat) (e : Fin 6) (r : Run) (cause entry : Nat) (hc : c < 64)
    (h : d.OneList c e.val r) : d.TornDown (d.teardown c cause entry) c cause entry e.val r := by
  obtain ⟨⟨hothers, hjobs, hwatch⟩, hr, hctx, hplain, hmode, hkept, hready, hwaiting, hqueues, hsets⟩ := h
  obtain ⟨v, hlist⟩ := hplain.plainList
  have hunbound : d.UnboundRun r v :=
    ⟨hlist.serve, hlist.target, hlist.bind, hlist.tune, hlist.comp, hlist.shadow, hlist.relaunch, hsets⟩
  rw [teardown_of_one d c cause entry false (by rw [hmode]; decide) hwaiting hready hkept]
  generalize hst : teardownStatus cause = st
  generalize hcond : d.condemned c cause entry false = d₀
  have hcondemned : ∀ d', d₀.Clears d' → d'.UnboundRun r v ∧ (d'.eng e.val).run = some r := by
    intro d' hd'
    refine ⟨hunbound.congr ?_ ?_ ?_, ?_⟩
    · rw [hd'.same, ← hcond]; rfl
    · rw [hd'.same, ← hcond]; rfl
    · rw [hd'.same, ← hcond]; rfl
    · rw [hd'.runs, ← hcond]; exact hr
  have hsettles (d' : Device) (hd' : d₀.Clears d') :
      ((d'.freeEngine e.val r st).recordEnd r v st).Settles (d'.endRun e.val st false) :=
    settles_endRun d' e.val r v st false (hcondemned d' hd').1 (hcondemned d' hd').2
  have hnone (d' : Device) (hd' : d₀.Clears d') (i : Nat) (hi : i < 6) : ((d'.endRun e.val st false).eng i).run = none := by
    rw [(hsettles d' hd').engines i]
    change ((d'.freeEngine e.val r st).eng i).run = none
    by_cases hie : e.val = i
    · rw [← hie, freeEngine_eng d' e.val r st e.isLt]
    · rw [show (d'.freeEngine e.val r st).eng i = d'.eng i from vget_vmod_ne _ _ _ _ _ hie, hd'.runs, ← hcond]
      exact hothers i hi (Ne.symm hie)
  obtain ⟨d₁, hclears, hafter⟩ := tearEngines_of_one c st false d₀ e r (fun i hi hie => by rw [← hcond]; exact hothers i hi hie)
    (by rw [← hcond]; exact hr) hctx fun d' hd' i hi _ => hnone d' hd' i hi
  generalize (List.range 6).foldl (Device.tearEngine c st false) d₀ = d₂ at hafter ⊢
  have hset := hsettles d₁ hclears
  have hshut := shuts_endRun d₁ e.val r v st false (hcondemned d₁ hclears).1 c (hcondemned d₁ hclears).2
  have hruns := hnone d₁ hclears
  generalize d₁.endRun e.val st false = d' at hset hshut hruns hafter
  have hunit (u : Nat) : d₂.unit u = d.unit u := by
    rw [Device.unit, hafter.same, hset.same, Device.unit]
    change vget d₁.vis u Vision.reset = _
    rw [hclears.same, ← hcond]
    rfl
  have hrfe : d₂.rfe = d.rfe := by
    rw [hafter.same, hset.same]
    change d₁.rfe = _
    rw [hclears.same, ← hcond]
    rfl
  rw [tearUnits_of_none c st false d₂ fun u hu => by rw [hunit]; exact ⟨hjobs u hu, hqueues u hu⟩,
    stopFlushes_of_none (d₂.dropSems c) c (hrfe ▸ hsets)]
  have hend (i : Nat) (hi : i < 6) : (((d₂.dropSems c).dropProgress c).eng i).run = none := (hafter.runs i).trans (hruns i hi)
  have heng (i : Nat) : d'.eng i = { (d₁.freeEngine e.val r st).eng i with marked := (d'.eng i).marked } := hset.engines i
  have hitn : d₂.itn = { d₀.itn with ended := d'.itn.ended, lateEnds := d'.itn.lateEnds } := by
    rw [hafter.same, hset.same]
    change ({ d₁.itn with ended := d'.itn.ended, lateEnds := d'.itn.lateEnds } : Itinerary) = _
    rw [hclears.same]
  have hreq : d₂.req = d.req := by
    rw [hafter.same, hset.same]
    change d₁.req = _
    rw [hclears.same, ← hcond]
    rfl
  have hthresh : d₂.sealSt.retireThresh = d.sealSt.retireThresh := by
    rw [hafter.same, hset.same]
    change d₁.sealSt.retireThresh = _
    rw [hclears.same, ← hcond]
    rfl
  have hquarantined : (d₂.ctx c).mode = .quarantined := by
    rw [show d₂.ctx c = d'.ctx c by rw [Device.ctx, hafter.same, Device.ctx]]
    refine hshut.2 ?_
    rw [show d₁.ctx c = d₀.ctx c by rw [Device.ctx, hclears.same, Device.ctx], ← hcond, Device.condemned, ctx_modCtx_same _ _ _ hc]
  refine ⟨hend, ?_, fun i _ => ?_, fun i _ => ?_, hthresh, (mode_dropSems d₂ c c).trans hquarantined, heldBy_dropSems d₂ c,
    ?_, ?_, ?_, ⟨fun i hi q hq => ?_, fun u hu => ?_, ?_⟩⟩
  · refine (hafter.status e.val).trans ?_
    rw [heng, freeEngine_eng d₁ e.val r st e.isLt, hst]
  · refine (hafter.scores i).trans ?_
    rw [heng]
    refine (freeEngine_field Engine.score d₁ e.val i r st fun _ _ _ _ _ _ _ => rfl).trans ((hclears.scores i).trans ?_)
    rw [← hcond]; rfl
  · refine (hafter.retired i).trans ?_
    rw [heng]
    refine (freeEngine_field Engine.retired d₁ e.val i r st fun _ _ _ _ _ _ _ => rfl).trans ((hclears.retired i).trans ?_)
    rw [← hcond]; rfl
  · exact (congrArg Itinerary.teardowns hitn).trans (by rw [← hcond]; rfl)
  · exact (congrArg Itinerary.lastTeardown hitn).trans (by rw [← hcond]; rfl)
  · exact (congrArg Itinerary.semWatchdog hitn).trans (by rw [← hcond]; rfl)
  · rw [hend i hi] at hq
    cases hq
  · exact (congrArg Vision.run (hunit u)).trans (hjobs u hu)
  · exact (congrArg Request.watch hreq).trans hwatch

/-- R47: an unacknowledged handshake of a context scores its engine and tears the context down. -/
theorem exec_handshakeTimeout_of_running (t : Nat) (c : Fin 64) (e : Fin 6) (s : State) (hphase : s.dev.phase = .running) :
    exec (.handshakeTimeout t (some c) (some e)) s = .next (s.withDev
      ((((s.dev.atTime t).score e.val 8).teardown c.val 1 (s.dev.ctx c.val).lastEntry).retireCheck).pump.settle) :=
  congrArg (fun d : Device => Host.Outcome.next (s.withDev d.pump.settle)) (if_pos hphase)

/-- R682: the event 0x1A joins a queue with room, whatever the mask. -/
theorem settle_event_fatal (d : Device) (a : Nat) (ha : a < 256) (hmem : Memory.wf d.store.mem = true) (hfresh : d.i3c.fresh = [])
    (halert : d.pins.alertLow = d.alert) (hroom : d.i3c.queue.length < 32) : (d.event .fatal a 0 0).settle = d.modI3c (fun i =>
      { i with
        seq := (i.seq + 1) % 256
        queue := eventsInOrder d.now (i.queue ++
          [{ event := .fatal, seq := i.seq % 256, arg0 := a, arg1 := 0, arg2 := 0, at_ := some d.now }]) }) := by
  have hflush : ({ d.i3c with fresh := d.i3c.fresh ++ [(.fatal, a % 256, 0 % 256, 0 % 2 ^ 32)] } : I3c).flush d.now =
      { d.i3c with
        seq := (d.i3c.seq + 1) % 256
        queue := eventsInOrder d.now (d.i3c.queue ++
          [{ event := .fatal, seq := d.i3c.seq % 256, arg0 := a, arg1 := 0, arg2 := 0, at_ := some d.now }]) } := by
    simp [I3c.flush, hfresh, sortBy, insertBy, I3c.post, hroom, Nat.mod_eq_of_lt ha]
  have hsettle : (d.event .fatal a 0 0).settle = { d with
      store := d.store.close, pins := { d.pins with alertLow := d.alert }
      i3c := ({ d.i3c with fresh := d.i3c.fresh ++ [(.fatal, a % 256, 0 % 256, 0 % 2 ^ 32)] } : I3c).flush d.now } := rfl
  rw [hsettle, hflush, store_close_of_wf _ hmem, ← halert]
  rfl

/-- Settles O27: both watchdogs tear down a context whose one list runs; a handshake of no context queues its event. -/
theorem watchdogsTearDown : Obligations.WatchdogsTearDown := by
  intro t c e r s hs
  refine ⟨fun hphase halone hr hctx hplain hmode hkept hready hwaiting hqueues hsets hscores => ?_, fun hoff hinert hstill hroom => ?_⟩
  · intro torn
    have hone : (s.dev.atTime t).OneList c.val e.val r :=
      ⟨halone, hr, hctx, hplain, hmode, hkept, hready, hwaiting, hqueues, hsets⟩
    have htorn {d d' : Device} {cause : Nat} (hst : statusCode (teardownStatus cause) = 5)
        (h : d.TornDown d' c.val cause (s.dev.ctx c.val).lastEntry e.val r) (hitn : d.itn = s.dev.itn) :
        torn (s.withDev d'.settle) cause := by
      refine ⟨rfl, h.runs e.val e.isLt, ?_, h.mode, fun m _ => h.sems m, ?_, ?_⟩
      · refine h.status.trans ?_
        rw [hst, hctx]
      · exact h.teardowns.trans (by rw [hitn])
      · refine h.last.trans ?_
        rw [Nat.mod_eq_of_lt c.isLt]
    refine ⟨fun m since hholder hdue => ?_, ?_⟩
    · have h := tornDown_teardown (s.dev.atTime t) c.val e r 4 (s.dev.ctx c.val).lastEntry c.isLt hone
      refine ⟨s.withDev ((s.dev.atTime t).teardown c.val 4 (s.dev.ctx c.val).lastEntry).settle, ?_, htorn rfl h rfl,
        h.watchdog.trans (if_pos rfl)⟩
      refine (congrArg (fun d : Device => Host.Outcome.next (s.withDev d.pump.settle)) ((if_pos hphase).trans ?_)).trans
        (congrArg (fun d : Device => Host.Outcome.next (s.withDev d.settle)) (pump_of_still _ h.still))
      have hfind : ((s.dev.atTime t).sem m.val).holders.find? (fun h => h.1 = c.val) = some (c.val, since) := hholder
      dsimp only
      rw [hfind]
      exact if_pos (decide_eq_true hdue)
    · have hscore (n : Nat) : (((s.dev.atTime t).score e.val 8).eng n).run = (s.dev.eng n).run :=
        eng_modEng_field Engine.run (s.dev.atTime t) e.val n _ fun _ => rfl
      have hretired (n : Nat) : (((s.dev.atTime t).score e.val 8).eng n).retired = (s.dev.eng n).retired :=
        eng_modEng_field Engine.retired (s.dev.atTime t) e.val n _ fun _ => rfl
      have hone' : ((s.dev.atTime t).score e.val 8).OneList c.val e.val r := by
        obtain ⟨hothers, hjobs, hwatch⟩ := halone
        exact ⟨⟨fun i hi hie => (hscore i).trans (hothers i hi hie), hjobs, hwatch⟩, (hscore e.val).trans hr, hctx, hplain, hmode,
          hkept, hready, hwaiting, hqueues, hsets⟩
      have h := tornDown_teardown ((s.dev.atTime t).score e.val 8) c.val e r 1 (s.dev.ctx c.val).lastEntry c.isLt hone'
      have hpoints : (((s.dev.atTime t).score e.val 8).eng e.val).score = (s.dev.eng e.val).score + 8 :=
        congrArg Engine.score (eng_modEng (s.dev.atTime t) e.val _ e.isLt)
      have hbelow : (((s.dev.atTime t).score e.val 8).teardown c.val 1 (s.dev.ctx c.val).lastEntry).BelowThreshold := by
        intro i hi
        rw [h.retired i hi, h.scores i hi, h.thresh]
        refine (hscores i hi).imp (fun hret => ?_) fun hlow => ?_
        · exact (hretired i).trans hret
        · by_cases hie : e.val = i
          · rw [← hie, hpoints, hie]
            exact hlow
          · rw [show ((s.dev.atTime t).score e.val 8).eng i = s.dev.eng i from vget_vmod_ne _ _ _ _ _ hie]
            exact (Nat.le_add_right _ 8).trans_lt hlow
      rw [exec_handshakeTimeout_of_running t c e s hphase, retireCheck_of_below _ hbelow, pump_of_still _ h.still]
      generalize ((s.dev.atTime t).score e.val 8).teardown c.val 1 (s.dev.ctx c.val).lastEntry = d at h
      exact ⟨s.withDev d.settle, rfl, htorn rfl h rfl, h.watchdog.trans (if_neg (by decide)), (h.scores e.val e.isLt).trans hpoints⟩
  · refine (congrArg (fun d : Device => Host.Outcome.next (s.withDev d.pump.settle))
      (whenAlive_of_alive (s.dev.atTime t) _ hoff hinert)).trans ?_
    have hstill' : ((s.dev.atTime t).event .fatal 3 0 0).Still := hstill
    rw [pump_of_still _ hstill', settle_event_fatal (s.dev.atTime t) 3 (by decide) hs.1 hs.2.1 hs.2.2 hroom]
    rfl

end Sys2Proof.Machine
end

section
/-! SUPPORT. Toll periods, thermal readings and the holds of meters (R451 to R457, R720). -/
namespace Sys2Proof.Machine

/-! ### A period that starts (R451, R720) -/

/-- Event 0x19 changes nothing but what waits to be raised. -/
theorem capEvent_same (d : Device) (period a0 : Nat) : d.capEvent period a0 = { d with i3c := (d.capEvent period a0).i3c } := by
  unfold Device.capEvent
  extract_lets
  split
  · rfl
  · split <;> rfl

/-- The meters once the readings of the period that ends are charged to the device. -/
def Device.metered (d : Device) (r : Readings) : Vector Meter 73 :=
  (d.chargeDeviceEnergy (r.acInstructions * vget d.toll.weights 7 0)).toll.meters

theorem endPeriod_eq (d : Device) (r : Readings) : ∃ mask power low i, d.endPeriod r = { d with
    toll := { d.toll with
      meters := (d.metered r).map Meter.turn, heldLast := mask, lastDeviceHeld := d.toll.deviceHeld }
    therm := { d.therm with power := power }
    ne := d.ne.map (fun (x : Engine) => { x with periodSteps := 0 })
    ctxs := d.ctxs.map (fun (c : Ctx) => { c with held := false, wasHeld := false })
    ctl := { d.ctl with stepsNe := d.ne.map (·.periodSteps), rateLow := low }
    i3c := i } := by
  unfold Device.endPeriod
  extract_lets
  split
  · rw [capEvent_same]
    exact ⟨_, _, _, _, rfl⟩
  · exact ⟨_, _, _, _, rfl⟩

theorem beginPeriod_eq (d : Device) : ∃ meters hold n i, d.beginPeriod = { d with
      toll := { d.toll with
        meters := meters, deviceHeld := false, beHeld := false, thermHeld := decide (signed16 d.therm.holdAt ≤ d.therm.tj)
        period := d.toll.period + 1 }
      therm := { d.therm with hold := hold, holdPeriods := n }, i3c := i } ∧
    ∀ m < 72, vget meters m .reset = vget d.toll.meters m .reset := by
  have hmeters (m : Nat) (hm : m < 72) (f : Meter → Meter) : vget (vmod d.toll.meters 72 f) m .reset = vget d.toll.meters m .reset :=
    vget_vmod_ne _ _ _ _ _ (by omega)
  unfold Device.beginPeriod
  extract_lets
  split
  · rw [capEvent_same]
    exact ⟨_, _, _, _, rfl, fun m hm => hmeters m hm _⟩
  · exact ⟨_, _, _, _, rfl, fun m hm => hmeters m hm _⟩

theorem vget_map {α β : Type} {n : Nat} (v : Vector α n) (f : α → β) (i : Nat) (a : α) (b : β) (h : i < n) :
    vget (v.map f) i b = f (vget v i a) := by
  simp [vget, h]

/-! ### Holds (R453, R455) -/

theorem foldl_range_single {α : Type} (n k : Nat) (hk : k < n) (f : α → Nat → α) (hf : ∀ a i, i ≠ k → f a i = a) (a : α) :
    (List.range n).foldl f a = f a k := by
  have hskip (l : List Nat) (hl : k ∉ l) (a : α) : l.foldl f a = a :=
    List.foldlRecOn (motive := fun b => b = a) l f rfl fun b hb i hi => by
      rw [hf b i (fun h => hl (h ▸ hi)), hb]
  obtain ⟨l₁, l₂, hsplit, h₁, h₂⟩ : ∃ l₁ l₂, List.range n = l₁ ++ k :: l₂ ∧ k ∉ l₁ ∧ k ∉ l₂ := by
    obtain ⟨l₁, l₂, hsplit⟩ := List.append_of_mem (List.mem_range.mpr hk)
    have hnodup := hsplit ▸ List.nodup_range (n := n)
    rw [List.nodup_append] at hnodup
    refine ⟨l₁, l₂, hsplit, fun h => ?_, (List.nodup_cons.mp hnodup.2.1).1⟩
    exact hnodup.2.2 k h k (List.mem_cons_self) rfl
  rw [hsplit, List.foldl_append, hskip l₁ h₁, List.foldl_cons, hskip l₂ h₂]

theorem deviceMeter_eq (d : Device) (hfull : d.toll.energyBudget ≤ vget (vget d.toll.meters 72 .reset).use 3 0)
    (hheld : d.toll.deviceHeld = false) : ∃ meters i, d.deviceMeter = { d with
      toll := { d.toll with
        beHeld := true, deviceHeld := true, capPeriods := satInc d.toll.capPeriods, meters := meters }
      i3c := i } := by
  unfold Device.deviceMeter
  extract_lets m use budget full be first old d'
  have hf : full = true := by simp [full, budget, use, m, hfull]
  have hfirst : first = true := by simp [first, hf, hheld]
  have hd' : d' = { d with toll := { d.toll with
      beHeld := true, deviceHeld := true, capPeriods := satInc d.toll.capPeriods
      meters := vmod d.toll.meters 72 (fun (m : Meter) => { m with held := m.held || full }) } } := by
    simp [d', hf, hfirst, old]
  split
  · rw [capEvent_same, hd']
    exact ⟨_, _, rfl⟩
  · rw [hd']
    exact ⟨_, _, rfl⟩

/-- A context's meter that is full holds its context and no other (R453, R456). -/
theorem meterHold_ctx (d : Device) (c : Nat) (hc : c < 64) :
    (List.range 64).foldl (fun (d : Device) k =>
      if c = k ∨ (64 ≤ c ∧ (d.ctxRec k).isSome ∧ d.partOf k = c - 64) then
        (d.modCtx k (fun (x : Ctx) => { x with held := true })).noteHeld k
      else d) d = d.modCtx c (fun x => { x with held := true, wasHeld := x.wasHeld || !d.holdsSem c }) := by
  rw [foldl_range_single 64 c hc _ (fun a i hi => if_neg (by omega))]
  refine (if_pos (.inl rfl)).trans ?_
  have hvmod (v : Vector Ctx 64) (f g : Ctx → Ctx) : vmod (vmod v c f) c g = vmod v c (fun x => g (f x)) := by
    refine Vector.ext fun k hk => ?_
    have hget (w : Vector Ctx 64) : w[k] = vget w k .reset := by simp [vget, hk]
    rw [hget, hget]
    by_cases hck : c = k
    · subst hck
      rw [vget_vmod_same _ _ _ _ hc, vget_vmod_same _ _ _ _ hc, vget_vmod_same _ _ _ _ hc]
    · rw [vget_vmod_ne _ _ _ _ _ hck, vget_vmod_ne _ _ _ _ _ hck, vget_vmod_ne _ _ _ _ _ hck]
  refine (congrArg (fun v => ({ d with ctxs := v } : Device)) (hvmod d.ctxs _ _)).trans ?_
  simp only [Bool.true_and]
  rfl

section
variable (t : Nat) (s : State) (hs : s.Inv) (hstill : s.dev.Still) (hphase : s.dev.phase = .running)
  (ht0 : s.dev.itn.t0.isSome = true)
include hs hstill hphase ht0

theorem exec_tollPeriodStart_of_due (x : Readings) (hdue : s.dev.t0 + 100000 * s.dev.toll.period ≤ max s.dev.now t)
    (hperiod : s.dev.toll.period ≠ 0) (hcool : (hottest x.sensors).2 < signed16 s.dev.therm.tripAt) :
      ∃ s', exec (.tollPeriodStart t x) s = .next s' ∧ s'.pending = s.pending ∧ s'.dev.toll.period = s.dev.toll.period + 1 ∧
        s'.dev.therm.sensors = x.sensors ∧ s'.dev.therm.tj = (hottest x.sensors).2 ∧ s'.dev.therm.vddNe = x.vddNe ∧
        s'.dev.therm.vddBd = x.vddBd ∧ s'.dev.therm.peak = peakOf s.dev.therm.peak (hottest x.sensors).2 ∧
        (∀ m < 72, vget s'.dev.toll.meters m .reset = (vget s.dev.toll.meters m .reset).turn) ∧
        s'.dev.toll.deviceHeld = false ∧ s'.dev.toll.beHeld = false ∧
        (s'.dev.toll.thermHeld = true ↔ signed16 s.dev.therm.holdAt ≤ (hottest x.sensors).2) ∧
        (∀ c < 64, (s'.dev.ctx c).held = false) ∧ (∀ e < 6, (s'.dev.eng e).periodSteps = 0) ∧
        (∀ e < 6, vget s'.dev.ctl.stepsNe e 0 = (s.dev.eng e).periodSteps) ∧ s'.dev.store = s.dev.store ∧
        s'.dev.itn = s.dev.itn := by
  obtain ⟨mask, power, low, i₁, hend⟩ := endPeriod_eq ((s.dev.atTime t).readSensors x) x
  obtain ⟨meters, hold, n, i₂, hbegin, hmeters⟩ := beginPeriod_eq (((s.dev.atTime t).readSensors x).endPeriod x)
  rw [hend] at hbegin hmeters
  generalize hD : (((s.dev.atTime t).readSensors x).endPeriod x).beginPeriod = D
  rw [hend, hbegin] at hD
  have hne : D.ne = s.dev.ne.map (fun (x : Engine) => { x with periodSteps := 0 }) := by rw [← hD]; rfl
  have heng (e : Nat) (he : e < 6) : D.eng e = { s.dev.eng e with periodSteps := 0 } := by
    rw [Device.eng, hne, vget_map s.dev.ne _ e Engine.reset Engine.reset he]
    rfl
  have hrun (e : Nat) (he : e < 6) : (D.eng e).run = (s.dev.eng e).run := by rw [heng e he]
  have hstill' : D.Still := still_of_runs s.dev D hstill hrun (by rw [← hD]; rfl) (by rw [← hD]; rfl)
  have hmeaning : (s.dev.atTime t).whenRunning (fun d =>
      d.guard (decide (d.t0 + 100000 * d.toll.period ≤ d.now)) fun d =>
        let d := d.readSensors x
        let d := if d.toll.period = 0 then d else d.endPeriod x
        let d := d.beginPeriod.pumpCopies
        if signed16 d.therm.tripAt ≤ d.therm.tj then d.thermalTrip else d) = D := by
    refine (if_pos hphase).trans ((if_pos ?_).trans ?_)
    · rw [t0_atTime s.dev t ht0]
      exact decide_eq_true hdue
    · dsimp only
      rw [if_neg (show ((s.dev.atTime t).readSensors x).toll.period ≠ 0 from hperiod), hend, hbegin, hD,
        pumpCopies_of_still D hstill']
      refine if_neg (Int.not_le.mpr ?_)
      rw [← hD]
      exact hcool
  have hexec : exec (.tollPeriodStart t x) s = .next (s.withDev D.settle) :=
    congrArg (fun d : Device => Host.Outcome.next (s.withDev d.settle))
      ((congrArg Device.pump hmeaning).trans (pump_of_still D hstill'))
  have htoll : D.toll = { s.dev.toll with
      meters := meters, heldLast := mask, lastDeviceHeld := s.dev.toll.deviceHeld, deviceHeld := false, beHeld := false
      thermHeld := decide (signed16 s.dev.therm.holdAt ≤ (hottest x.sensors).2), period := s.dev.toll.period + 1 } := by
    rw [← hD]; rfl
  have hmeters' (m : Nat) (hm : m < 72) : vget meters m .reset = (vget s.dev.toll.meters m .reset).turn := by
    rw [hmeters m hm]
    refine (vget_map (((s.dev.atTime t).readSensors x).metered x) Meter.turn m .reset .reset (by omega)).trans ?_
    exact congrArg Meter.turn (vget_vmod_ne _ _ _ _ _ (by omega))
  have htherm : D.therm = { s.dev.therm with
      power := power, hold := hold, holdPeriods := n, sensors := x.sensors, hottest := (hottest x.sensors).1
      tj := (hottest x.sensors).2, peak := peakOf s.dev.therm.peak (hottest x.sensors).2, vddNe := x.vddNe, vddBd := x.vddBd } := by
    rw [← hD]; rfl
  have hctxs : D.ctxs = s.dev.ctxs.map (fun (c : Ctx) => { c with held := false, wasHeld := false }) := by rw [← hD]; rfl
  have hsteps : D.ctl.stepsNe = s.dev.ne.map (·.periodSteps) := by rw [← hD]; rfl
  have hstore : D.settle.store = D.store := settle_store_of_wf D (by rw [← hD]; exact hs.1)
  refine ⟨s.withDev D.settle, hexec, rfl, congrArg Toll.period htoll, congrArg Therm.sensors htherm, congrArg Therm.tj htherm,
    congrArg Therm.vddNe htherm, congrArg Therm.vddBd htherm, congrArg Therm.peak htherm, fun m hm => ?_,
    congrArg Toll.deviceHeld htoll, congrArg Toll.beHeld htoll, ?_, fun c hc => ?_, fun e he => ?_, fun e he => ?_,
    hstore.trans (by rw [← hD]; rfl), (by rw [← hD]; rfl)⟩
  · exact (congrArg (fun x : Toll => vget x.meters m .reset) htoll).trans (hmeters' m hm)
  · exact (congrArg (· = true) (congrArg Toll.thermHeld htoll)).to_iff.trans decide_eq_true_iff
  · refine (congrArg (fun v => (vget v c Ctx.reset).held) hctxs).trans ?_
    rw [vget_map s.dev.ctxs _ c Ctx.reset Ctx.reset hc]
  · exact congrArg Engine.periodSteps (heng e he)
  · refine (congrArg (fun v => vget v e 0) hsteps).trans ?_
    rw [vget_map s.dev.ne _ e Engine.reset 0 he]
    rfl

theorem exec_tollPeriodStart_of_early (x : Readings) (hearly : max s.dev.now t < s.dev.t0 + 100000 * s.dev.toll.period) :
    exec (.tollPeriodStart t x) s = .next (s.withDev (s.dev.atTime t)) := by
  refine next_whenRunning_of_calm hphase (if_neg ?_) (calm_atTime s t hs hstill)
  rw [t0_atTime s.dev t ht0]
  simpa using hearly

variable (hperiod : s.dev.toll.period ≠ 0) (hearly : max s.dev.now t < s.dev.t0 + 100000 * s.dev.toll.period)
include hperiod hearly

omit hs hstill hphase in
/-- A meter may hold within a period. -/
theorem holds_within_period : (s.dev.toll.period ≠ 0 &&
    decide ((s.dev.atTime t).now < (s.dev.atTime t).t0 + 100000 * s.dev.toll.period)) = true := by
  rw [t0_atTime s.dev t ht0]
  simpa [hperiod] using hearly

theorem exec_meterHold_of_full (c : Fin 64) (hfull : (vget s.dev.toll.meters c.val .reset).full = true) :
    exec (.meterHold t ⟨c.val, by omega⟩) s = .next (s.withDev ({ s.dev.atTime t with
        toll := { s.dev.toll with meters := vmod s.dev.toll.meters c.val (fun (m : Meter) => { m with held := true }) } }.modCtx c.val
          (fun x => { x with held := true, wasHeld := x.wasHeld || !s.dev.holdsSem c.val }))) := by
  have hguard := holds_within_period t s ht0 hperiod hearly
  refine next_whenRunning_of_calm hphase ((if_pos hguard).trans ((if_neg (by simp; omega)).trans ((if_pos hfull).trans ?_))) ?_
  · exact meterHold_ctx _ c.val c.isLt
  · obtain ⟨hstill', hmem, hfresh, halert⟩ := calm_atTime s t hs hstill
    exact ⟨hstill', hmem, hfresh, halert⟩

theorem exec_meterHold_of_rest (c : Fin 64) (hrest : (vget s.dev.toll.meters c.val .reset).full = false) :
    exec (.meterHold t ⟨c.val, by omega⟩) s = .next (s.withDev (s.dev.atTime t)) := by
  have hguard := holds_within_period t s ht0 hperiod hearly
  exact next_whenRunning_of_calm hphase ((if_pos hguard).trans ((if_neg (by simp; omega)).trans
    (if_neg (by rw [Bool.not_eq_true]; exact hrest)))) (calm_atTime s t hs hstill)

omit hs in
/-- R455: the device meter at its whole budget holds every context. -/
theorem exec_meterHold_device_eq (hfull : s.dev.toll.energyBudget ≤ vget (vget s.dev.toll.meters 72 .reset).use 3 0)
    (hheld : s.dev.toll.deviceHeld = false) (m : Fin 73) (hm : m.val = 72) : ∃ meters i,
    exec (.meterHold t m) s = .next (s.withDev ({ s.dev.atTime t with
      toll := { s.dev.toll with
        beHeld := true, deviceHeld := true, capPeriods := satInc s.dev.toll.capPeriods, meters := meters }
      i3c := i } : Device).settle) := by
  obtain ⟨meters, i, heq⟩ := deviceMeter_eq (s.dev.atTime t) hfull hheld
  refine ⟨meters, i, (congrArg (fun d : Device => Host.Outcome.next (s.withDev d.pump.settle))
    ((if_pos hphase).trans ((if_pos (holds_within_period t s ht0 hperiod hearly)).trans ((if_pos hm).trans heq)))).trans ?_⟩
  exact congrArg (fun d : Device => Host.Outcome.next (s.withDev d.settle)) (pump_of_still _ hstill)

theorem exec_meterHold_of_device (hfull : s.dev.toll.energyBudget ≤ vget (vget s.dev.toll.meters 72 .reset).use 3 0)
    (hheld : s.dev.toll.deviceHeld = false) :
      ∃ s', exec (.meterHold t 72) s = .next s' ∧ s'.pending = s.pending ∧ s'.dev.toll.deviceHeld = true ∧
        s'.dev.toll.beHeld = true ∧ s'.dev.toll.capPeriods = satInc s.dev.toll.capPeriods ∧ s'.dev.pins.alertLow = true ∧
        (∀ k be, s'.dev.heldCtx k be = true) ∧ s'.dev.store = s.dev.store ∧ s'.dev.ne = s.dev.ne ∧
        s'.dev.itn = s.dev.itn ∧ s'.dev.ctxs = s.dev.ctxs := by
  obtain ⟨meters, i, hexec⟩ := exec_meterHold_device_eq t s hstill hphase ht0 hperiod hearly hfull hheld 72 rfl
  refine ⟨_, hexec, rfl, rfl, rfl, rfl, ?_, fun k be => ?_, settle_store_of_wf _ hs.1, rfl, rfl, rfl⟩
  · change Device.alert _ = true
    simp [Device.alert, hphase]
  · simp [Device.heldCtx, State.withDev, Device.settle]

end

/-- Settles O28: a period's start is the end of the one before it and its own beginning; a full meter holds. -/
theorem tollPeriodsAndHolds : Obligations.TollPeriodsAndHolds :=
  ⟨fun t x s hs hstill hphase ht0 => ⟨exec_tollPeriodStart_of_due t s hs hstill hphase ht0 x,
    exec_tollPeriodStart_of_early t s hs hstill hphase ht0 x⟩,
    fun t c s hs hstill hphase hperiod ht0 hearly => ⟨exec_meterHold_of_full t s hs hstill hphase ht0 hperiod hearly c,
      exec_meterHold_of_rest t s hs hstill hphase ht0 hperiod hearly c,
      exec_meterHold_of_device t s hs hstill hphase ht0 hperiod hearly⟩⟩

end Sys2Proof.Machine
end

section
/-! SUPPORT. A release of a semaphore by a context whose budget is used up (R456). -/
namespace Sys2Proof.Machine

/-! ### A held context that gives back its last semaphore -/

namespace HeldRelease

/-- A release of semaphore 0, which is not the last command of its list. -/
def run : Run := { SavedAgain.run with
  cmds := [[11] ++ List.replicate 16 0 ++ [1], [10]], steps := 0, inCmd := false, waitedAt := 0 }

/-- The launch runs on engine 0. -/
def started : Device :=
  ({ Device.reset [] with
      phase := .running
      image := { Image.none with itins := [SavedAgain.itin] }
      itn := { Itinerary.reset with t0 := some 0, groupEn := 1 } } : Device).modEng 0 fun x =>
    { x with run := some run, pre := .running }

/-- Context 1, whose budget is used up, runs on while it holds semaphore 0. -/
def device : Device :=
  (started.modCtx 1 fun c => { c with held := true }).modSem 0 fun x => { x with holders := [(1, 0)] }

def state : State := { pending := [], dev := device }

theorem state_inv : state.Inv := ⟨rfl, rfl, rfl⟩

theorem started_eng : started.eng 0 = { (Device.reset []).eng 0 with run := some run, pre := .running } :=
  eng_modEng _ 0 _ (by decide)

theorem started_still : started.Still := by
  obtain ⟨hruns, hjobs, hwatch⟩ := still_reset [] 0 0
  refine ⟨fun e he r hr => ?_, hjobs, hwatch⟩
  by_cases h : e = 0
  · subst h
    rw [started_eng] at hr
    cases hr
    exact ⟨rfl, rfl, rfl⟩
  · rw [show started.eng e = (Device.reset []).eng e from vget_vmod_ne _ _ _ _ _ (Ne.symm h)] at hr
    exact hruns e he r hr

theorem device_still : device.Still := (still_congr started device rfl rfl rfl).mpr started_still

theorem device_atCommand : device.atCommand 0 run :=
  ⟨rfl, by decide +kernel, by decide, rfl, by decide +kernel, .inl rfl, by decide +kernel, rfl, rfl⟩

end HeldRelease

open HeldRelease in
/-- Refutes O31: the release of the last semaphore of a context whose budget is used up holds the context, which its period's report
notes (R456). -/
theorem not_semaphoreCommands : ¬ Obligations.SemaphoreCommands := by
  intro h
  have hexec := ((h 0 0 run state state_inv device_still device_atCommand (by decide) (by decide +kernel)).2.2
    (by decide)).2.1 (by decide +kernel) (by decide +kernel)
  have hnoted : (match exec (.semRelease 0 0) state with
      | .next s' => (s'.dev.ctx 1).wasHeld
      | _ => false) = true := by
    decide +kernel
  rw [hexec] at hnoted
  exact absurd hnoted (by decide +kernel)

end Sys2Proof.Machine
end

section
/-! SUPPORT. Commands of an encode list that write over the stream state block that names the rows to discard (R449, Table 6.1). -/
namespace Sys2Proof.Machine

/-! ### An encode list whose output lies in a member's stream state block -/

namespace OwnBlock

/-- A launch of an encode list for stream 0, which has no newer anchor, at the first of two commands. -/
def run (cmd : List Byte) (descs : List Desc) : Run := { SavedAgain.run with
  bestEffort := false, bind := some .encode, streams := [0], cmds := [cmd, []], descs := descs, steps := 0, inCmd := false
  waitedAt := 0 }

/-- A raster record of one pixel, and an accepted set of no triangles for it. -/
def raster : RasterRec :=
  { stream := 0, kind := 0, order := 0, fMax := 2, flushEngine := 0, width := 1, height := 1, binBase := 0, quota := 64
    geoBytes := 0x8000, geoBase := #v[0x200000, 0x208000], flushBase := #v[0x300000, 0x304000] }

def set : GeoSet :=
  { recIdx := 0, buf := 0, stream := 0, kind := 0, slot := 0, frame := 0, width := 1, height := 1, order := 0, tSpan := 0, mScale := 0
    ndraw := 1, ntri := 0, nvert := 0, phase := .accepted, tail := [], total := 0, draw := none, drawsDone := 0, vertsDone := 0 }

def prog : GeoProg :=
  { trisDone := 0, drawEnds := [], trailer := none, digest := [], nextTri := 0, nextBlock := 0, partials := 0, denied := false
    incomplete := false, fault := none, flush := none, flushAt := 0, accepted := true }

/-- The state block of stream 0 stands at address 0; the tensors that it names all have number 1. -/
def device (cmd : List Byte) (descs : List Desc) : Device :=
  ({ Device.reset [] with
      phase := .running
      store := { (Device.reset []).store with mem := [(0x30, 1), (0x32, 1), (0x62, 1)] }
      sealRegs := { SealRegs.reset with genDram := 1, genWell := 1 }
      image := { Image.none with itins := [SavedAgain.itin], ssbs := [(0, 0)], rasters := [raster] }
      rfe := { (Device.reset []).rfe with sets := [(set, prog)] }
      itn := { Itinerary.reset with t0 := some 0, groupEn := 1 } } : Device).modEng 0 fun x =>
    { x with run := some (run cmd descs), pre := .running }

def state (cmd : List Byte) (descs : List Desc) : State := { pending := [], dev := device cmd descs }

theorem state_inv (cmd : List Byte) (descs : List Desc) : (state cmd descs).Inv := ⟨rfl, rfl, rfl⟩

theorem device_eng (cmd : List Byte) (descs : List Desc) : (device cmd descs).eng 0 =
    { (Device.reset []).eng 0 with run := some (run cmd descs), pre := .running } :=
  eng_modEng _ 0 _ (by decide)

theorem device_still (cmd : List Byte) (descs : List Desc) : (device cmd descs).Still := by
  obtain ⟨hruns, hjobs, hwatch⟩ := still_reset [] 0 0
  refine ⟨fun e he r hr => ?_, hjobs, hwatch⟩
  by_cases h : e = 0
  · subst h
    rw [device_eng] at hr
    cases hr
    exact ⟨rfl, rfl, rfl⟩
  · rw [show (device cmd descs).eng e = (Device.reset []).eng e from vget_vmod_ne _ _ _ _ _ (Ne.symm h)] at hr
    exact hruns e he r hr

theorem device_atCommand {cmd : List Byte} {descs : List Desc} (hready : (device cmd descs).ready 0 = some (run cmd descs))
    (hkeeps : (device cmd descs).rowsDropped (run cmd descs) = []) : (device cmd descs).atCommand 0 (run cmd descs) :=
  ⟨rfl, hready, Nat.one_lt_two, rfl, by rfl, .inl rfl, hkeeps, rfl, rfl⟩

/-- A tensor of number 0 with one element, which lies where the state block names a tensor. -/
def element (fmt : Nat) : Desc :=
  { base := 0x30, tensorId := 0, fmt := fmt, layout := 0, comp := 0, channels := 1, width := 1, height := 1, rowPitch := 64
    planeStride := 64, scaleOffset := 0 }

/-- The same elsewhere in stack DRAM. -/
def elsewhere (fmt : Nat) : Desc := { element fmt with base := 0x80000 }

/-- A command of this opcode whose fields are 0. -/
def command (op : Byte) : List Byte := op :: List.replicate 47 0

/-- The byte of the state block that the command writes. -/
def named (o : Host.Outcome State Fault Refusal) : Byte :=
  match o with
  | .next s' => memGet s'.dev.store.mem 0x30
  | _ => 0

end OwnBlock

open OwnBlock

/-! ### The commands -/

namespace OwnBlock

def cvt : List Byte := command 7 |>.set 16 0x20 |>.set 17 1
def pool : List Byte := command 4 |>.set 16 1 |>.set 20 0x11 |>.set 36 1
def matmul : List Byte :=
  command 2 |>.set 6 13 |>.set 16 1 |>.set 17 1 |>.set 19 0xFF |>.set 24 1 |>.set 28 1 |>.set 32 1
def attn : List Byte :=
  command 3 |>.set 6 13 |>.set 16 1 |>.set 17 1 |>.set 18 1 |>.set 20 0xFF |>.set 21 1 |>.set 22 1 |>.set 24 1 |>.set 37 1
def copy : List Byte := command 8 |>.set 16 1
def rasterTile : List Byte := command 6 |>.set 20 1 |>.set 22 1 |>.set 26 1

end OwnBlock

/-- Refutes O32: a VEC of an encode list that writes over the tensor that its member's state block names has its output discarded,
since the block as it then stands names it (R449). -/
theorem not_vectorCommands : ¬ Obligations.VectorCommands := by
  intro h
  obtain ⟨hexec, -⟩ := h 0 0 (run cvt [element 0, Desc.zero]) (state cvt [element 0, Desc.zero]) (state_inv _ _) (device_still _ _)
    (device_atCommand (by decide +kernel) (by decide +kernel)) (by decide)
    ⟨by decide +kernel, by decide +kernel, by decide +kernel⟩ (by decide) (0x20, .cvt) (by simp [vecCommands]) (by decide)
  have hkept : named (exec (.cvt 0 0) (state cvt [element 0, Desc.zero])) = 1 := by decide +kernel
  rw [hexec] at hkept
  exact absurd hkept (by decide +kernel)

/-- Refutes O33: a POOL of an encode list that writes over the tensor that its member's state block names has its output discarded,
since the block as it then stands names it (R449). -/
theorem not_imageCommands : ¬ Obligations.ImageCommands := by
  intro h
  obtain ⟨hexec, -⟩ := (h 0 0 (run pool [element 0, Desc.zero]) (state pool [element 0, Desc.zero]) (state_inv _ _) (device_still _ _)
    (device_atCommand (by decide +kernel) (by decide +kernel))).1 (by decide)
    ⟨by decide +kernel, by decide +kernel, by decide +kernel⟩
  have hkept : named (exec (.pool 0 0) (state pool [element 0, Desc.zero])) = 1 := by decide +kernel
  rw [hexec] at hkept
  exact absurd hkept (by decide +kernel)

/-- Refutes O34: a MATMUL of an encode list that writes over the tensor that its member's state block names has its output discarded,
since the block as it then stands names it (R449). -/
theorem not_arrayProducts : ¬ Obligations.ArrayProducts := by
  rintro ⟨h, -⟩
  obtain ⟨hexec, -⟩ := (h 0 0 (run matmul [element 13, Desc.zero]) [] [] (state matmul [element 13, Desc.zero]) (state_inv _ _)
    (device_still _ _) (device_atCommand (by decide +kernel) (by decide +kernel))).2 (by decide)
    ⟨by decide +kernel, by decide +kernel, by decide +kernel⟩ (by decide +kernel)
  have hkept : named (exec (.matmul 0 0 [] []) (state matmul [element 13, Desc.zero])) = 1 := by decide +kernel
  rw [hexec] at hkept
  exact absurd hkept (by decide +kernel)

/-- Refutes O35: an ATTN of an encode list that writes over the tensor that its member's state block names has its output discarded,
since the block as it then stands names it (R449). -/
theorem not_attentionCommand : ¬ Obligations.AttentionCommand := by
  intro h
  obtain ⟨hexec, -⟩ := h 0 { engine := 0, faults1 := [], faults2 := [] } (run attn [element 13, Desc.zero])
    (state attn [element 13, Desc.zero]) (state_inv _ _) (device_still _ _)
    (device_atCommand (by decide +kernel) (by decide +kernel)) (by decide)
    ⟨by decide +kernel, by decide +kernel, by decide +kernel⟩ (by decide +kernel)
  have hkept : named (exec (.attn 0 { engine := 0, faults1 := [], faults2 := [] }) (state attn [element 13, Desc.zero])) = 1 := by
    decide +kernel
  rw [hexec] at hkept
  exact absurd hkept (by decide +kernel)

/-- Refutes O36: a COPY of an encode list that writes over the tensor that its member's state block names has its output discarded,
since the block as it then stands names it (R449). -/
theorem not_copyCommand : ¬ Obligations.CopyCommand := by
  intro h
  obtain ⟨hexec, -⟩ := (h 0 0 (run copy [element 0, elsewhere 0]) (state copy [element 0, elsewhere 0]) (state_inv _ _)
    (device_still _ _) (device_atCommand (by decide +kernel) (by decide +kernel)) (by decide)).1 (by decide)
    ⟨by decide +kernel, by decide +kernel, by decide +kernel⟩
  have hkept : named (exec (.copy 0 0) (state copy [element 0, elsewhere 0])) = 1 := by decide +kernel
  rw [hexec] at hkept
  exact absurd hkept (by decide +kernel)

/-- Refutes O37: a RASTER_TILE of an encode list that writes over the tensor that its member's state block names has its output
discarded, since the block as it then stands names it (R449). -/
theorem not_rasterCommand : ¬ Obligations.RasterCommand := by
  intro h
  obtain ⟨hexec, -⟩ := (h 0 0 (run rasterTile [elsewhere 13, element 1]) raster set prog (state rasterTile [elsewhere 13, element 1])
    (state_inv _ _) (device_still _ _) (device_atCommand (by decide +kernel) (by decide +kernel)) (by decide)).1 (by decide +kernel)
    ⟨by decide +kernel, by decide +kernel, by decide +kernel⟩
  have hkept : named (exec (.rasterTile 0 0) (state rasterTile [elsewhere 13, element 1])) = 1 := by decide +kernel
  rw [hexec] at hkept
  exact absurd hkept (by decide +kernel)

end Sys2Proof.Machine
end

section
/-! SUPPORT. Line slots of a device whose T0 is not fixed (R556). -/
namespace Sys2Proof.Machine

/-! ### A line slot that recedes with the clock -/

namespace SlotWithoutT0

/-- Frame 0 of the port's only stream starts 1 ns after T0. -/
def port : PortRec :=
  { stream := 0, port := 0, vc := 0, profile := 0, fsOffset := 1, noiseSeed := 0, lbBase := 0, laUs := 0, lgUs := 0 }

def profile : Profile :=
  { profile := 0, dt := 0x2A, lsLe := false, cfa := 0, width := 2, height := 2, lineNs := 1, frameLines := 6, embBytes := 0
    white := 0, black := 0, kShot := 0, read2 := 0, lbLines := 2, wmark := 0, embStatic := [] }

/-- A running device at 0 ns with no T0 noted, so that T0 is read as the present instant. -/
def device : Device :=
  { Device.reset [] with phase := .running, image := { Image.none with ports := [port], profiles := [profile] } }

def state : State := { pending := [], dev := device }

theorem state_inv : state.Inv := ⟨rfl, rfl, rfl⟩

theorem device_still : device.Still := (still_congr (Device.reset []) device rfl rfl rfl).mpr (still_reset _ _ _)

def started (o : Host.Outcome State Fault Refusal) : Bool :=
  match o with
  | .next s' => (s'.dev.port 0).running
  | _ => false

end SlotWithoutT0

open SlotWithoutT0 in
/-- Refutes O43: without a T0 the frame starts 1 ns after the present instant, so at 1 ns the line slot that at 0 ns was to start
then has moved on to 2 ns. -/
theorem not_linesLeave : ¬ Obligations.LinesLeave := by
  rintro ⟨-, hslots⟩
  obtain ⟨s', hexec, -, hruns, -⟩ := (hslots 1 0 port profile state state_inv device_still rfl (by decide +kernel) (by decide +kernel)
    (by decide) rfl).1 (by decide +kernel) (by decide +kernel)
  have hidle : started (exec (.lineSlotStart 1 0) state) = false := by decide +kernel
  rw [hexec] at hidle
  exact absurd (hruns.symm.trans hidle) (by decide)

end Sys2Proof.Machine
end

section
/-! SUPPORT. A remap job whose source lies in the local window, which is an alias for engines only (R59, R386). -/
namespace Sys2Proof.Machine

/-! ### A remap job of an image in the local window -/

namespace LocalSource

/-- A tensor of one pixel of one channel of 8 bits at this address. -/
def pixel (base : Nat) : Desc :=
  { base := base, tensorId := 0, fmt := 1, layout := 0, comp := 0, channels := 1, width := 1, height := 1, rowPitch := 64
    planeStride := 64, scaleOffset := 0 }

/-- The source stands at the start of the local window; the mesh is zero, so that the pixel stays where it is. -/
def descs : List Desc :=
  [pixel localBase, pixel 0x80000,
   { pixel 0x90000 with fmt := 14, channels := 2, width := 2, height := 2, planeStride := 128 }]

/-- A bilinear remap of one row, with its record at address 0. -/
def job : List Byte := List.replicate 64 0 |>.set 2 2 |>.set 33 1 |>.set 34 2 |>.set 38 1

def run : VRun :=
  { launch := { due := SavedAgain.run.due, ctx := 1, addr := 0 }, job := job, descs := descs, waitStart := 0, satisfied := true }

def serve : Serve :=
  { entry := SavedAgain.entry, launch := { addr := 0, record := 0x20000, credits := 0, yieldWait := 10, row0 := 0, rows := 0 }
    bind := none, streams := [0], slot := 0 }

/-- The first byte of SCR0 is 5, under its seal, and every byte of the local window is 0. -/
def mem : List (Nat × Byte) := [(scratchBase 0, 5)]

/-- REMAP0 may run the job now. -/
def device : Device :=
  ({ Device.reset [] with
      phase := .running
      store := { (Device.reset []).store with mem := mem, seals := [(scratchBase 0, sealOf mem (scratchBase 0) 0)] }
      sealRegs := { SealRegs.reset with genDram := 1, genWell := 1 }
      image := { Image.none with itins := [SavedAgain.itin] }
      itn := { Itinerary.reset with t0 := some 0, groupEn := 1 } } : Device).modUnit 3 fun x => { x with run := some run }

def state : State := { pending := [], dev := device }

theorem state_inv : state.Inv := ⟨rfl, rfl, rfl⟩

theorem device_visionAlone : device.VisionAlone 3 := by
  obtain ⟨hruns, hjobs, hwatch⟩ := still_reset [] 0 0
  refine ⟨hruns, fun u hu hne => ?_, hwatch⟩
  rw [show device.unit u = (Device.reset []).unit u from vget_vmod_ne _ _ _ _ _ (Ne.symm hne)]
  exact hjobs u hu

theorem device_jobReady : device.jobReady 3 run serve :=
  ⟨rfl, by decide +kernel, rfl, by decide +kernel, rfl, by decide, by decide, by decide +kernel, nofun, rfl⟩

/-- The output byte in this memory. -/
def output (d : Device) : Byte := memGet d.store.mem 0x80000

end LocalSource

open LocalSource in
/-- Refutes O41: a remap job whose source stands in the local window reads the bytes of the window's own addresses, not those of the
scratch that the window stands for to engine 0. -/
theorem not_visionJobsRun : ¬ Obligations.VisionJobsRun := by
  rintro ⟨-, -, hremap⟩
  obtain ⟨⟨s', hexec, hends⟩, -⟩ := hremap 0 0 run serve state state_inv device_visionAlone device_jobReady (by decide +kernel)
  obtain ⟨-, -, -, -, -, -, hrecord, -⟩ := hends
  have hsame := (hrecord 0 (by decide)).2 0x80000 (by simp)
  have hzero : (match exec (.remapJob 0 0) state with
      | .next s' => output s'.dev
      | _ => 1) = 0 := by decide +kernel
  rw [hexec] at hzero
  exact absurd (hsame.symm.trans hzero) (by decide +kernel)

end Sys2Proof.Machine
end

section
/-! SUPPORT. Epochs, batches and candidates of a stream's tuning (R412 to R418, R425, R426). -/
namespace Sys2Proof.Machine

/-! ### Commands that need T0 and satisfy no wait -/

theorem next_whenRunning_of_quiet {s : State} {t : Nat} {f : Device → Device} {d : Device} (hphase : s.dev.phase = .running)
    (hd : f (s.dev.atTime t) = d) (h : d.Quiet) :
    (.next (s.run t fun d => d.whenRunning f) : Host.Outcome State Fault Refusal) = .next (s.withDev d) :=
  next_run_of_quiet ((if_pos hphase).trans hd) h

theorem quiet_modStrm {d : Device} (h : d.Quiet) (k : Nat) (f : Stream → Stream) : (d.modStrm k f).Quiet :=
  ⟨h.mem, h.fresh, h.alert⟩

theorem quiet_modTune {d : Device} (h : d.Quiet) (k : Nat) (f : Tune → Tune) : (d.modTune k f).Quiet := quiet_modStrm h k _

/-- A change that keeps a stream's tuning state changes nothing. -/
theorem modTune_eq_self (d : Device) (k : Nat) (f : Tune → Tune) (h : f (d.tune k) = d.tune k) : d.modTune k f = d :=
  (modTune_congr d k f id h).trans (by simp [Device.modTune, Device.modStrm])

theorem modTune_modTune (d : Device) (k : Nat) (f g : Tune → Tune) :
    (d.modTune k f).modTune k g = d.modTune k (fun x => g (f x)) := by
  simp [Device.modTune, Device.modStrm, vmod_vmod]

/-! ### The walk of an epoch (R415 to R417) -/

theorem openBatch_bucket (x : Tune) (z i : Nat) : (openBatch x z i).bucket = z := by
  unfold openBatch
  split
  next b hb => simpa using List.find?_some hb
  next => rfl

/-- The open batch of bucket z once sample n has completed it, numbered. -/
def Tune.completed (x : Tune) (z n : Nat) : Batch :=
  let b := openBatch x z x.walkPos
  let b := if b.samples.isEmpty then { b with first := x.walkPos } else b
  { b with samples := b.samples ++ [n], number := x.batches }

theorem completed_samples (x : Tune) (z n : Nat) : (x.completed z n).samples = (openBatch x z x.walkPos).samples ++ [n] := by
  unfold Tune.completed
  dsimp only
  split <;> rfl

theorem completed_bucket (x : Tune) (z n : Nat) : (x.completed z n).bucket = z := by
  refine Eq.trans ?_ (openBatch_bucket x z x.walkPos)
  unfold Tune.completed
  dsimp only
  split <;> rfl

theorem completed_skipped (x : Tune) (z n : Nat) : (x.completed z n).skipped = (openBatch x z x.walkPos).skipped := by
  unfold Tune.completed
  dsimp only
  split <;> rfl

/-- That batch with the contents of its queue slot. -/
def Device.emitted (d : Device) (r : TuneRec) (z n : Nat) : Batch :=
  { (d.tune r.stream).completed z n with slot := d.batchSlot r ((d.tune r.stream).completed z n) }

/-- The walk has passed its sample and emitted a batch. -/
def Tune.emit (x : Tune) (b : Batch) : Tune :=
  { x with
    walkPos := x.walkPos + 1, open_ := x.open_.filter (fun y => y.bucket ≠ b.bucket), batches := x.batches + 1
    queue := x.queue ++ [b], low := false }

theorem sampleCorrupt_of_passes (d : Device) (r : TuneRec) (n z : Nat)
    (h : ∀ i < d.patchTiles r z, d.passes (r.slotAddr n + i * tileBytes) = true) : d.sampleCorrupt r (n, z, false) = (false, d) := by
  unfold Device.sampleCorrupt
  dsimp only
  rw [if_neg Bool.false_ne_true, verifyAll_of_passes d 0 _ (by simpa using h)]
  rfl

/-- The walk stands at an intact training sample that completes the open batch of its bucket. -/
theorem walkOn_of_completes (d : Device) (r : TuneRec) (fuel n z : Nat)
    (hn : (d.tune r.stream).walk[(d.tune r.stream).walkPos]? = some n) (hval : r.isValidation n = false)
    (hman : (d.tune r.stream).manifest.find? (fun m => m.1 = n) = some (n, z, false))
    (hpass : ∀ i < d.patchTiles r z, d.passes (r.slotAddr n + i * tileBytes) = true)
    (hfull : (openBatch (d.tune r.stream) z (d.tune r.stream).walkPos).samples.length + 1 = bucketBatch z) :
    Device.walkOn r (fuel + 1) d = (d.modTune r.stream (·.emit (d.emitted r z n))).endWalk r := by
  rw [Device.walkOn]
  simp only [hn, hval, hman, Option.getD_some, Bool.false_eq_true, if_false, sampleCorrupt_of_passes d r n z hpass]
  have hb := openBatch_bucket (d.tune r.stream) z (d.tune r.stream).walkPos
  split
  next hempty =>
    rw [if_neg (by simp [hb, hfull])]
    simp only [Device.emitted, Tune.completed, Tune.emit, hempty, if_true]
  next hempty =>
    rw [if_neg (by simp [hb, hfull])]
    simp only [Device.emitted, Tune.completed, Tune.emit, hempty]
    rfl

theorem walkOn_of_end (d : Device) (r : TuneRec) (fuel : Nat) (h : (d.tune r.stream).walk.length ≤ (d.tune r.stream).walkPos) :
    Device.walkOn r (fuel + 1) d =
      d.modTune r.stream (fun x => { x with open_ := [], epochRunning := false, epoch := x.epoch + 1 }) := by
  rw [Device.walkOn]
  simp only [List.getElem?_eq_none h, Device.endWalk, List.drop_eq_nil_of_le h, List.all_nil, if_true]

/-- What the end of a walk leaves of a stream's tuning state, when a sample of it is left or not. -/
def Tune.walked (x : Tune) (left : Bool) : Tune :=
  if left then x else { x with open_ := [], epochRunning := false, epoch := x.epoch + 1 }

theorem endWalk_eq (d : Device) (r : TuneRec) :
    d.endWalk r = d.modTune r.stream (·.walked
      (((d.tune r.stream).walk.drop (d.tune r.stream).walkPos).any (fun m => !r.isValidation m))) := by
  unfold Device.endWalk
  dsimp only
  split
  next h =>
    rw [show List.any _ _ = false by simpa [List.any_eq_false] using h]
    rfl
  next h =>
    rw [show List.any _ _ = true by simpa [List.any_eq_true] using h]
    exact (modTune_eq_self d r.stream _ rfl).symm

theorem Tune.walked_emit (y : Tune) (b : Batch) (hruns : y.epochRunning = true) (left : Bool) :
    ((y.emit b).walked left).queue = y.queue ++ [b] ∧ ((y.emit b).walked left).batches = y.batches + 1 ∧
      ((y.emit b).walked left).low = false ∧ ((y.emit b).walked left).walkPos = y.walkPos + 1 ∧
      ((y.emit b).walked left).epochRunning = left ∧ ((y.emit b).walked left).epoch = (if left then y.epoch else y.epoch + 1) ∧
      ((y.emit b).walked left).open_ = if left then y.open_.filter (fun w => w.bucket ≠ b.bucket) else [] := by
  cases left with
  | false => exact ⟨rfl, rfl, rfl, rfl, rfl, rfl, rfl⟩
  | true => exact ⟨rfl, rfl, rfl, rfl, hruns, rfl, rfl⟩

/-! ### The commands -/

section
variable {t : Nat} {x : Fin 32} {r : TuneRec} {s : State} (hphase : s.dev.phase = .running)
  (hrec : s.dev.tuneRec x.val = some r)
include hphase hrec

/-- What an epoch's start is, when its stream's record is `r`. -/
theorem exec_epochStart {d : Device}
    (hd : (s.dev.atTime t).guard (r.enable && !(s.dev.tune x.val).epochRunning &&
        decide (((s.dev.tune x.val).epoch + 1) * (r.capacity / 4) ≤ (s.dev.tune x.val).samples))
      (fun d => d.modTune x.val (fun y => { y with epochRunning := true, walk := r.walk y.epoch, walkPos := 0, open_ := [] })) = d)
    (hq : d.Quiet) : exec (.epochStart t x) s = .next (s.withDev d) := by
  refine next_whenRunning_of_quiet hphase ?_ hq
  rw [show (s.dev.atTime t).tuneRec x.val = some r from hrec]
  exact hd

theorem exec_batchAssembly {d : Device}
    (hd : (s.dev.atTime t).guard (s.dev.tuning x.val && (s.dev.tune x.val).epochRunning &&
        decide ((s.dev.tune x.val).queue.length < 4))
      (fun d => Device.walkOn r ((s.dev.tune x.val).walk.length + 1) d) = d)
    (hq : d.Quiet) : exec (.batchAssembly t x) s = .next (s.withDev d) := by
  refine next_whenRunning_of_quiet hphase ?_ hq
  rw [show (s.dev.atTime t).tuneRec x.val = some r from hrec]
  exact hd

section
variable (hs : s.Inv)
include hs

theorem exec_epochStart_of_due (hon : r.enable = true) (hidle : (s.dev.tune x.val).epochRunning = false)
    (hcut : ((s.dev.tune x.val).epoch + 1) * (r.capacity / 4) ≤ (s.dev.tune x.val).samples) :
    exec (.epochStart t x) s = .next (s.withDev ((s.dev.atTime t).modTune x.val (fun z =>
      { z with epochRunning := true, walk := r.walk z.epoch, walkPos := 0, open_ := [] }))) :=
  exec_epochStart hphase hrec (if_pos (by simp [hon, hidle, hcut])) (quiet_modTune (quiet_atTime s t hs) _ _)

theorem exec_epochStart_of_early (h : (s.dev.tune x.val).epochRunning = true ∨
    (s.dev.tune x.val).samples < ((s.dev.tune x.val).epoch + 1) * (r.capacity / 4)) :
    exec (.epochStart t x) s = .next (s.withDev (s.dev.atTime t)) := by
  refine exec_epochStart hphase hrec (if_neg ?_) (quiet_atTime s t hs)
  obtain h | h := h <;> simp [h]

theorem exec_batchAssembly_of_shut (h : (s.dev.tune x.val).epochRunning = false ∨ 4 ≤ (s.dev.tune x.val).queue.length) :
    exec (.batchAssembly t x) s = .next (s.withDev (s.dev.atTime t)) := by
  refine exec_batchAssembly hphase hrec (if_neg ?_) (quiet_atTime s t hs)
  obtain h | h := h <;> simp [h]

section
variable (hon : s.dev.tuning x.val = true) (hruns : (s.dev.tune x.val).epochRunning = true)
  (hroom : (s.dev.tune x.val).queue.length < 4)
include hon hruns hroom

theorem exec_batchAssembly_of_end (h : (s.dev.tune x.val).walk.length ≤ (s.dev.tune x.val).walkPos) :
    exec (.batchAssembly t x) s = .next (s.withDev ((s.dev.atTime t).modTune x.val (fun z =>
      { z with open_ := [], epochRunning := false, epoch := z.epoch + 1 }))) := by
  refine exec_batchAssembly hphase hrec ((if_pos (by simp [hon, hruns, hroom])).trans ?_)
    (quiet_modTune (quiet_atTime s t hs) _ _)
  have hx := tuneRec_stream hrec
  exact (walkOn_of_end (s.dev.atTime t) r _ (hx ▸ h)).trans (hx ▸ rfl)

theorem exec_batchAssembly_of_completes {n z : Nat}
    (hn : (s.dev.tune x.val).walk[(s.dev.tune x.val).walkPos]? = some n) (hval : r.isValidation n = false)
    (hman : (s.dev.tune x.val).manifest.find? (fun m => m.1 = n) = some (n, z, false))
    (hpass : ∀ i < s.dev.patchTiles r z, s.dev.passes (r.slotAddr n + i * tileBytes) = true)
    (hfull : (openBatch (s.dev.tune x.val) z (s.dev.tune x.val).walkPos).samples.length + 1 = bucketBatch z) :
    exec (.batchAssembly t x) s = .next (s.withDev ((s.dev.atTime t).modTune x.val (fun y =>
      (y.emit (s.dev.emitted r z n)).walked ((y.walk.drop (y.walkPos + 1)).any (fun m => !r.isValidation m))))) := by
  refine exec_batchAssembly hphase hrec ((if_pos (by simp [hon, hruns, hroom])).trans ?_)
    (quiet_modTune (quiet_atTime s t hs) _ _)
  have hx := tuneRec_stream hrec
  refine (walkOn_of_completes (s.dev.atTime t) r _ n z (hx ▸ hn) hval (hx ▸ hman) hpass (hx ▸ hfull)).trans ?_
  rw [endWalk_eq, hx, tune_modTune _ _ _ x.isLt, modTune_modTune]
  exact modTune_congr _ _ _ _ rfl

end
end
end

/-! ### Candidates (R425, R426) -/

/-- A candidate whose digest is complete, ready from `now` unless POLICY 2 still lacks its evaluation. -/
def Candidate.digested (c : Candidate) (r : TuneRec) (digest : List Byte) (now : Nat) : Candidate :=
  { c with digest := some digest, readyAt := if r.policy ≠ 2 ∨ c.evalDone = true then some now else none }

theorem candReady_of_digested (d : Device) (r : TuneRec) (c : Candidate)
    (hcand : (d.tune r.stream).cand = some c) (hwait : c.readyAt = none) (digest : List Byte) :
    ((d.modTune r.stream (fun x => { x with cand := x.cand.map (fun c => { c with digest := some digest }) })).candReady r) =
      d.modTune r.stream (fun x => { x with cand := some (c.digested r digest d.now) }) := by
  rw [Device.candReady, modTune_modTune]
  refine modTune_congr _ _ _ _ ?_
  by_cases h : r.policy ≠ 2 ∨ c.evalDone = true
  · simp [hcand, hwait, Candidate.digested, h, Device.modTune]
  · simp [hcand, hwait, Candidate.digested, h]

/-- The approval concerns the candidate that is ready since an earlier instant, by its number. -/
def Candidate.ReadyFor (c : Candidate) (c16 now : Nat) : Prop := ∃ at_, c.readyAt = some at_ ∧ at_ < now ∧ c.c % 2 ^ 16 = c16

theorem approve_of_ready (d : Device) (k c16 : Nat) (c : Candidate) (hcand : (d.tune k).cand = some c) (h : c.ReadyFor c16 d.now) :
    d.approve k c16 = d.modTune k (fun z => { z with cand := some { c with approved := true } }) := by
  obtain ⟨at_, hat, hlt, hc⟩ := h
  refine modTune_congr _ _ _ _ ?_
  simp only [hcand, Option.map_some, hat, if_pos (And.intro hc hlt)]

theorem approve_of_not_ready (d : Device) (k c16 : Nat) (c : Candidate) (hcand : (d.tune k).cand = some c)
    (h : ¬ c.ReadyFor c16 d.now) : d.approve k c16 = d := by
  refine modTune_eq_self d k _ (congrArg (fun o => { d.tune k with cand := o }) (?_ : Option.map _ (d.tune k).cand = _))
  rw [hcand, Option.map_some]
  split
  next at_ hat => rw [if_neg fun hready => h ⟨at_, hat, hready.2, hready.1⟩]; exact hcand.symm
  next => exact hcand.symm

section
variable {t : Nat} {x : Fin 32} {r : TuneRec} {c : Candidate} {s : State} (hs : s.Inv) (hphase : s.dev.phase = .running)
  (hrec : s.dev.tuneRec x.val = some r) (hcand : (s.dev.tune x.val).cand = some c)
include hs hphase hrec hcand

theorem exec_weightDigestComplete {p : Package} (hpack : s.dev.package (s.dev.ssbModel x.val) = some p)
    (hout : c.exported = true) (hnone : c.digest = none) (hwait : c.readyAt = none) :
    exec (.weightDigestComplete t x) s = .next (s.withDev ((s.dev.atTime t).modTune x.val (fun y => { y with
      cand := some (c.digested r (weightDigest p.package (s.dev.peek (r.bankBase c.bank) p.bank0Bytes)) (max s.dev.now t)) }))) := by
  refine next_whenRunning_of_quiet hphase ?_ (quiet_modTune (quiet_atTime s t hs) _ _)
  have hx := tuneRec_stream hrec
  simp only [show (s.dev.atTime t).tuneRec x.val = some r from hrec,
    show (s.dev.atTime t).package ((s.dev.atTime t).ssbModel x.val) = some p from hpack,
    show ((s.dev.atTime t).tune x.val).cand = some c from hcand, Device.guard, hout, hnone, Option.isNone_none, Bool.and_self,
    if_true]
  exact hx ▸ candReady_of_digested (s.dev.atTime t) r c (hx ▸ hcand) hwait _

end

/-- Settles O50: an epoch starts, its walk ends or emits, and a candidate is digested and approved. -/
theorem batchesAndCandidates : Obligations.BatchesAndCandidates := by
  refine ⟨fun t x r s hs hphase hrec => ⟨exec_epochStart_of_due hphase hrec hs, exec_epochStart_of_early hphase hrec hs,
    exec_batchAssembly_of_shut hphase hrec hs, fun hon hruns hroom => ⟨exec_batchAssembly_of_end hphase hrec hs hon hruns hroom,
      fun n z hn hval hman hpass => ?_⟩⟩,
    fun t x r c c16 s hs hphase hrec hcand => ⟨fun p hpack hout hnone hwait => ?_, fun hready => ?_, fun hready => ?_⟩⟩
  · intro b hfull
    have hbucket : (s.dev.emitted r z n).bucket = z := completed_bucket _ z n
    have hexec := exec_batchAssembly_of_completes (t := t) hphase hrec hs hon hruns hroom hn hval hman hpass hfull
    obtain ⟨d, hd⟩ : ∃ d, d = (s.dev.atTime t).modTune x.val (fun y =>
      (y.emit (s.dev.emitted r z n)).walked ((y.walk.drop (y.walkPos + 1)).any (fun m => !r.isValidation m))) := ⟨_, rfl⟩
    have htune := (congrArg (Device.tune · x.val) hd).trans (tune_modTune _ _ _ x.isLt)
    have hkept : d.store = s.dev.store ∧ d.itn = s.dev.itn ∧ d.i3c = s.dev.i3c := hd ▸ ⟨rfl, rfl, rfl⟩
    rw [← hd] at hexec
    refine ⟨s.withDev d, s.dev.emitted r z n, hexec, rfl, ?_⟩
    rw [show (s.withDev d).dev.tune x.val = _ from htune]
    have hy : s.dev.tune r.stream = s.dev.tune x.val := congrArg s.dev.tune (tuneRec_stream hrec)
    have hlast := (s.dev.tune x.val).walked_emit (s.dev.emitted r z n) hruns
      (((s.dev.tune x.val).walk.drop ((s.dev.tune x.val).walkPos + 1)).any (fun m => !r.isValidation m))
    rw [hbucket] at hlast
    obtain ⟨hqueue, hbatches, hlow, hpos, hrunning, hepoch, hopen⟩ := hlast
    refine ⟨hqueue, ?_, ?_, hbucket, ?_, hbatches, hlow, ?_, ⟨hpos, hrunning, hepoch, hopen⟩, hkept⟩
    · exact (completed_samples _ z n).trans (congrArg (fun y => (openBatch y z y.walkPos).samples ++ [n]) hy)
    · exact congrArg Tune.batches hy
    · exact (completed_skipped _ z n).trans (congrArg (fun y => (openBatch y z y.walkPos).skipped) hy)
    · exact congrArg (· ++ _) (by rw [completed_bucket]; rfl)
  · exact ⟨_, exec_weightDigestComplete hs hphase hrec hcand hpack hout hnone hwait, rfl,
      congrArg Tune.cand (tune_modTune _ _ _ x.isLt), treg_modTune _ _ _, rfl, rfl⟩
  · exact next_whenRunning_of_quiet hphase (approve_of_ready _ _ _ c hcand hready) (quiet_modTune (quiet_atTime s t hs) _ _)
  · exact next_whenRunning_of_quiet hphase (approve_of_not_ready _ _ _ c hcand hready) (quiet_atTime s t hs)

end Sys2Proof.Machine
end

section
/-! SUPPORT. Rejoins: their start, their tests and the scratch that they refill (R623 to R625, R596). -/
namespace Sys2Proof.Machine

/-! ### Changes that leave a calm device calm -/

/-- A change of an engine that keeps its list. -/
theorem calm_modEng {d : Device} (h : d.Calm) (e : Nat) (f : Engine → Engine) (hf : ∀ y, (f y).run = y.run) :
    (d.modEng e f).Calm :=
  ⟨still_of_runs d _ h.still (fun n _ => eng_modEng_field Engine.run d e n f hf) rfl rfl, h.mem, h.fresh, h.alert⟩

theorem memory_wf_filter (m : List (Nat × Byte)) (p : Nat × Byte → Bool) (h : Memory.wf m = true) :
    Memory.wf (m.filter p) = true := by
  obtain ⟨hp, hz⟩ := (memory_wf_iff m).mp h
  exact (memory_wf_iff _).mpr ⟨hp.filter _, fun c hc => hz c (List.mem_filter.mp hc).1⟩

theorem calm_refillScratch {d : Device} (h : d.Calm) (e : Nat) : (d.refillScratch e).Calm :=
  ⟨h.still, memory_wf_filter _ _ h.mem, h.fresh, h.alert⟩

/-! ### Scratch filled with zeros (R624 order 5) -/

/-- A filter that keeps no entry of an address leaves it 0. -/
theorem memGet_filter_none (m : List (Nat × Byte)) (x : Nat) (p : Nat × Byte → Bool) (h : ∀ b, p (x, b) = false) :
    memGet (m.filter p) x = 0 := by
  induction m with
  | nil => rfl
  | cons c m ih =>
    obtain ⟨a, b⟩ := c
    by_cases hp : p (a, b) = true
    · have ha : a ≠ x := by rintro rfl; exact Bool.false_ne_true ((h b).symm.trans hp)
      simp [hp, memGet, ha, ih]
    · rw [List.filter_cons_of_neg hp, ih]

/-- An address of the scratch of engine `e`. -/
def OwnScratch (e a : Nat) : Prop := scratchBase e ≤ a ∧ a < scratchBase e + scratchBytes

theorem memGet_refillScratch (d : Device) (e a : Nat) : memGet (d.refillScratch e).store.mem a =
    if scratchBase e ≤ a ∧ a < scratchBase e + scratchBytes then 0 else memGet d.store.mem a := by
  split
  next h => exact memGet_filter_none _ _ _ fun b => by simpa using h
  next h =>
    refine memGet_filter _ _ _ fun b => ?_
    simp only [Bool.not_eq_true', Bool.and_eq_false_imp, decide_eq_true_eq, decide_eq_false_iff_not]
    exact fun hlow hhigh => h ⟨hlow, hhigh⟩

theorem regionOf_ownScratch (e : Fin 6) (a : Nat) (h : OwnScratch e.val a) : regionOf a = .scratch e := by
  obtain ⟨hlow, hhigh⟩ := h
  have he := e.isLt
  simp only [scratchBase, scratchBytes] at hlow hhigh
  have hbank : (a - 0x900000000) / 0x2000000 = e.val := by omega
  rw [regionOf, if_neg (by simp only [dramEnd]; omega), if_neg (by omega), if_neg (by simp only [wellBase, wellBytes]; omega),
    if_neg (by simp only [localBase, scratchBytes]; omega), dif_pos (by omega), if_pos (by simp only [scratchBytes]; omega)]
  exact congrArg Region.scratch (Fin.ext hbank)

/-- All bytes of a tile that starts in the scratch of an engine lie in it. -/
theorem tile_in_scratch (e : Fin 6) (k a : Nat) (h : OwnScratch e.val (k * tileBytes)) (hlow : k * tileBytes ≤ a)
    (hhigh : a < k * tileBytes + tileBytes) : OwnScratch e.val a := by
  obtain ⟨hl, hh⟩ := h
  simp only [OwnScratch, scratchBase, scratchBytes, tileBytes] at *
  omega

/-- Every tile of the refilled scratch agrees with its seal in the present generation. -/
theorem sealed_refillScratch (d : Device) (e : Fin 6) (k : Nat) (h : OwnScratch e.val (k * tileBytes)) :
    (d.refillScratch e.val).sealed (k * tileBytes) = true := by
  have hdomain : domainOf (k * tileBytes) = 2 + e.val := by rw [domainOf, regionOf_ownScratch e _ h]
  have hgen : sealGet (d.refillScratch e.val).store (k * tileBytes) =
      sealPack (k * tileBytes / tileBytes) (d.sealRegs.gen (2 + e.val)) := by
    have hgone : (d.refillScratch e.val).store.seals.find? (fun c => c.1 = k * tileBytes) = none :=
      find_key_filter_none _ _ _ fun v => by simpa [OwnScratch] using h
    rw [sealGet, hgone]
    simp only [sealFill, hdomain, show ¬ 2 + e.val < 2 by omega, if_false, Nat.add_sub_cancel_left]
    exact congrArg _ (vget_vset_same _ _ _ _ e.isLt)
  have hempty : memWindow (d.refillScratch e.val).store.mem (k * tileBytes) tileBytes = [] := by
    refine List.filter_eq_nil_iff.mpr fun c hc hin => ?_
    have hkept := (List.mem_filter.mp hc).2
    have hown := tile_in_scratch e k c.1 h (by simpa using (by simpa using hin : _ ∧ _).1) (by simpa using (by simpa using hin : _ ∧ _).2)
    simp [OwnScratch] at hown
    simp [hown] at hkept
  rw [sealed_iff, Store.agrees, hgen, hdomain, sealOf_eq, hempty]
  rfl

/-! ### The start of a rejoin (R623) -/

/-- Whether a request with this mask starts the tests of engine `i`. -/
def Device.Rejoins (d : Device) (mask : BitVec 6) (i : Nat) : Prop :=
  mask.getLsbD i = true ∧ (d.eng i).asleep = false ∧ (d.eng i).retired = true ∧ (d.eng i).rejoin = .none

/-- What a request does at engine `n`. -/
def Device.rejoinStep (mask : BitVec 6) (d : Device) (n : Nat) : Device :=
  if mask.getLsbD n && !(d.eng n).asleep then d.startRejoin n else d

theorem startRejoin_of_idle (d : Device) (e : Nat) (hret : (d.eng e).retired = true) (hidle : (d.eng e).rejoin = .none) :
    d.startRejoin e = d.modEng e (fun y => { y with rejoin := .testing }) := if_pos ⟨hret, hidle⟩

theorem rejoinStep_of_rejoins (d : Device) (mask : BitVec 6) (n : Nat) (h : d.Rejoins mask n) :
    d.rejoinStep mask n = d.modEng n (fun y => { y with rejoin := .testing }) := by
  obtain ⟨hmask, hawake, hret, hidle⟩ := h
  rw [Device.rejoinStep, if_pos (by simp [hmask, hawake]), startRejoin_of_idle d n hret hidle]

theorem rejoinStep_of_not (d : Device) (mask : BitVec 6) (n : Nat) (h : ¬ d.Rejoins mask n) : d.rejoinStep mask n = d := by
  unfold Device.rejoinStep
  split
  next hon => exact if_neg fun hready => h (by simpa [Device.Rejoins, and_assoc, hready] using hon)
  next => rfl

/-- The engines after a request has reached the first `n` of them. -/
theorem rejoinSteps_eng (d : Device) (mask : BitVec 6) (n : Nat) (hn : n ≤ 6) (i : Nat) :
    let d' := (List.range n).foldl (Device.rejoinStep mask) d
    (i < n → d.Rejoins mask i → d'.eng i = { d.eng i with rejoin := .testing }) ∧
      (¬ (i < n ∧ d.Rejoins mask i) → d'.eng i = d.eng i) := by
  induction n generalizing i with
  | zero => exact ⟨fun h => absurd h (Nat.not_lt_zero i), fun _ => rfl⟩
  | succ n ih =>
    have ih := ih (Nat.le_of_succ_le hn)
    simp only [List.range_succ, List.foldl_append, List.foldl_cons, List.foldl_nil]
    generalize (List.range n).foldl (Device.rejoinStep mask) d = c at ih ⊢
    have hn' : c.eng n = d.eng n := (ih n).2 fun h => Nat.lt_irrefl n h.1
    have hiff : c.Rejoins mask n ↔ d.Rejoins mask n := by rw [Device.Rejoins, hn', Device.Rejoins]
    by_cases hr : d.Rejoins mask n
    · rw [rejoinStep_of_rejoins c mask n (hiff.mpr hr)]
      by_cases hi : i = n
      · subst hi
        rw [eng_modEng c i _ hn, hn']
        exact ⟨fun _ _ => rfl, fun h => absurd ⟨Nat.lt_succ_self i, hr⟩ h⟩
      · rw [show (c.modEng n _).eng i = c.eng i from vget_vmod_ne _ _ _ _ _ (Ne.symm hi)]
        exact ⟨fun h => (ih i).1 (by omega), fun h => (ih i).2 fun hlt => h ⟨by omega, hlt.2⟩⟩
    · rw [rejoinStep_of_not c mask n (mt hiff.mp hr)]
      refine ⟨fun h hri => (ih i).1 ?_ hri, fun h => (ih i).2 fun hlt => h ⟨by omega, hlt.2⟩⟩
      have hne : i ≠ n := by rintro rfl; exact hr hri
      omega

theorem calm_startRejoin {d : Device} (h : d.Calm) (e : Nat) : (d.startRejoin e).Calm := by
  unfold Device.startRejoin
  dsimp only
  split
  · exact calm_modEng h e _ fun _ => rfl
  · exact h

/-- What differs between two devices is in their engines' registers alone. -/
def Device.SameBut (d d' : Device) : Prop :=
  d'.store = d.store ∧ d'.sealSt = d.sealSt ∧ d'.sealRegs = d.sealRegs ∧ d'.i3c = d.i3c

/-- A request leaves a calm device, whose memory and registers beside the engines' are as they were. -/
theorem rejoinRequest_calm {d : Device} (hd : d.Calm) (mask : BitVec 6) :
    (d.rejoinRequest mask).Calm ∧ d.SameBut (d.rejoinRequest mask) := by
  refine List.foldlRecOn (motive := fun d' => d'.Calm ∧ d.SameBut d') _ _ ⟨hd, rfl, rfl, rfl, rfl⟩ fun c hc n _ => ?_
  obtain ⟨hcalm, hsame⟩ := hc
  split
  · refine ⟨calm_startRejoin hcalm n, ?_⟩
    unfold Device.startRejoin
    dsimp only
    split
    · exact hsame
    · exact hsame
  · exact ⟨hcalm, hsame⟩

/-! ### The end of the tests (R624, R625) -/

/-- A rejoin that its tests end without success. -/
def Device.failRejoin (d : Device) (e : Nat) : Device :=
  (d.modEng e (fun x => { x with rejoin := .none, retiredAt := d.now })).modSealSt
    (fun x => { x with rejoinFails := satInc x.rejoinFails })

theorem calm_failRejoin {d : Device} (h : d.Calm) (e : Nat) : (d.failRejoin e).Calm :=
  calm_modSealSt (calm_modEng h e (fun x => { x with rejoin := .none, retiredAt := d.now }) fun _ => rfl) _

/-- A rejoin that passes its tests: scratch refilled in its new generation, and the engine awaits the boundary. -/
def Device.passRejoin (d : Device) (e : Nat) : Device :=
  ((d.raiseGen e).refillScratch e).modEng e (fun x => { x with rejoin := .awaiting d.now, acc := [] })

theorem calm_passRejoin {d : Device} (h : d.Calm) (e : Nat) : (d.passRejoin e).Calm :=
  calm_modEng (calm_refillScratch (calm_modSeal h _) e) e _ fun _ => rfl

theorem sparesCover_iff (f : RejoinFacts) : sparesCover f = true ↔
    f.bankRows ≤ 48 ∧ f.weightRows ≤ 16 ∧ f.accRows ≤ 16 ∧ f.logicOk = true := by
  simp [sparesCover, and_assoc]

theorem selfTestOk_iff (d : Device) (f : RejoinFacts) : d.selfTestOk f = true ↔ f.testsOk = true ∧
    ∀ p, d.image.selfTest = some p → f.signature = Config.selfTestExpected (memGetN d.store.mem p.1 p.2) := by
  rw [Device.selfTestOk, Bool.and_eq_true, Option.all_eq_true]
  exact and_congr_right fun _ => forall_congr' fun p => imp_congr_right fun _ => decide_eq_true_iff

section
variable {t : Nat} {e : Fin 6} {s : State} (hs : s.Inv) (hstill : s.dev.Still) (hphase : s.dev.phase = .running)
include hs hstill hphase

theorem exec_rejoinAutoStart_of_due (hauto : bit s.dev.sealSt.rejoinCtl.toNat 0 = true ∧ (s.dev.eng e.val).retired = true ∧
      (s.dev.eng e.val).asleep = false ∧
      (s.dev.eng e.val).retiredAt + 1000000000 * bits s.dev.sealSt.rejoinCtl.toNat 15 8 ≤ max s.dev.now t)
    (hidle : (s.dev.eng e.val).rejoin = .none) :
    exec (.rejoinAutoStart t e) s = .next (s.withDev ((s.dev.atTime t).modEng e.val (fun y => { y with rejoin := .testing }))) := by
  obtain ⟨hon, hret, hawake, hhold⟩ := hauto
  refine next_whenRunning_of_calm hphase ((if_pos ?_).trans ?_) (calm_modEng (calm_atTime s t hs hstill) _ _ fun _ => rfl)
  · rw [show (s.dev.atTime t).eng e.val = s.dev.eng e.val from rfl, hret, hawake]
    exact Bool.and_eq_true_iff.mpr ⟨by simpa using hon, decide_eq_true hhold⟩
  · exact startRejoin_of_idle _ _ hret hidle

theorem exec_rejoinAutoStart_of_not (h : ¬ (bit s.dev.sealSt.rejoinCtl.toNat 0 = true ∧ (s.dev.eng e.val).retired = true ∧
      (s.dev.eng e.val).asleep = false ∧
      (s.dev.eng e.val).retiredAt + 1000000000 * bits s.dev.sealSt.rejoinCtl.toNat 15 8 ≤ max s.dev.now t)) :
    exec (.rejoinAutoStart t e) s = .next (s.withDev (s.dev.atTime t)) := by
  refine next_whenRunning_of_calm hphase (if_neg fun hdue => h ?_) (calm_atTime s t hs hstill)
  rw [show (s.dev.atTime t).eng e.val = s.dev.eng e.val from rfl] at hdue
  simpa [and_assoc] using hdue

section
variable (htest : (s.dev.eng e.val).rejoin = .testing)
include htest

theorem exec_rejoinComplete_of_unspared (f : RejoinFacts) (h : sparesCover f = false) :
    exec (.rejoinComplete t e f) s = .next (s.withDev ((s.dev.atTime t).failRejoin e.val)) := by
  refine next_whenRunning_of_calm hphase ((if_pos (decide_eq_true htest)).trans (if_pos ?_))
    (calm_failRejoin (calm_atTime s t hs hstill) _)
  simp [h]

theorem exec_rejoinComplete_of_mismatch (f : RejoinFacts) (h : sparesCover f = true) (hbad : s.dev.selfTestOk f = false) :
    exec (.rejoinComplete t e f) s = .next (s.withDev (((s.dev.atTime t).raiseGen e.val).failRejoin e.val)) := by
  refine next_whenRunning_of_calm hphase ((if_pos (decide_eq_true htest)).trans ((if_neg ?_).trans (if_neg ?_)))
    (calm_failRejoin (calm_modSeal (calm_atTime s t hs hstill) _) _)
  · simp [h]
  · exact Bool.eq_false_iff.mp hbad

theorem exec_rejoinComplete_of_passed (f : RejoinFacts) (h : sparesCover f = true) (hok : s.dev.selfTestOk f = true) :
    exec (.rejoinComplete t e f) s = .next (s.withDev ((s.dev.atTime t).passRejoin e.val)) := by
  refine next_whenRunning_of_calm hphase ((if_pos (decide_eq_true htest)).trans ((if_neg ?_).trans (if_pos ?_)))
    (calm_passRejoin (calm_atTime s t hs hstill) _)
  · simp [h]
  · exact hok

end
end

/-- Settles O46: each rejoin starts, fails or passes. -/
theorem rejoinRuns : Obligations.RejoinRuns := by
  intro t e mask s hs hstill hphase
  refine ⟨?_, exec_rejoinAutoStart_of_due hs hstill hphase, exec_rejoinAutoStart_of_not hs hstill hphase, fun htest f => ⟨?_, ?_⟩⟩
  · obtain ⟨hcalm, hstore, hsealSt, hregs, hi3c⟩ := rejoinRequest_calm (calm_atTime s t hs hstill) mask
    refine ⟨_, next_whenRunning_of_calm hphase rfl hcalm, rfl, hstore, hsealSt, hregs, hi3c, fun i hi => ?_⟩
    obtain ⟨hstarts, hkept⟩ := rejoinSteps_eng (s.dev.atTime t) mask 6 (Nat.le_refl 6) i
    exact ⟨hstarts hi, fun h => hkept fun hr => h hr.2⟩
  · intro hbad
    by_cases hspared : sparesCover f = true
    · have htested : s.dev.selfTestOk f = false := Bool.eq_false_iff.mpr fun hok =>
        hbad.elim (absurd ((sparesCover_iff f).mp hspared)) (absurd ((selfTestOk_iff s.dev f).mp hok))
      exact ⟨_, exec_rejoinComplete_of_mismatch hs hstill hphase htest f hspared htested, rfl, eng_modEng _ _ _ e.isLt, rfl,
        fun h => absurd ((sparesCover_iff f).mp hspared) h, fun _ => rfl, rfl, rfl, fun i _ hne => vget_vmod_ne _ _ _ _ _ (Ne.symm hne)⟩
    · exact ⟨_, exec_rejoinComplete_of_unspared hs hstill hphase htest f (Bool.eq_false_iff.mpr hspared), rfl,
        eng_modEng _ _ _ e.isLt, rfl, fun _ => rfl, fun h => absurd ((sparesCover_iff f).mpr h) hspared, rfl, rfl,
        fun i _ hne => vget_vmod_ne _ _ _ _ _ (Ne.symm hne)⟩
  · intro hspared htested
    refine ⟨_, exec_rejoinComplete_of_passed hs hstill hphase htest f ((sparesCover_iff f).mpr hspared)
      ((selfTestOk_iff s.dev f).mpr htested), rfl, eng_modEng _ _ _ e.isLt, fun a => memGet_refillScratch _ _ a,
      fun k hlow hhigh => sealed_refillScratch _ e k ⟨hlow, hhigh⟩, fun i hi hne => vget_vmod_ne _ _ _ _ _ (Ne.symm hne), rfl, rfl⟩

end Sys2Proof.Machine
end

section
/-! SUPPORT. Vision jobs that start, fail their checks or wait too long (R357 to R362). -/
namespace Sys2Proof.Machine

/-! ### What the end of a job leaves alone -/

theorem keepsLists_degrade (d : Device) (s n cause : Nat) (excused : Bool) : d.KeepsLists (d.degrade s n cause excused) := by
  unfold Device.degrade
  dsimp only
  split <;> exact keepsLists_of_same rfl rfl rfl rfl

theorem keepsLists_controlChoice (d : Device) : d.KeepsLists d.controlChoice := by
  unfold Device.controlChoice
  split
  · exact keepsLists_of_same rfl rfl rfl rfl
  · exact keepsLists_refl d

theorem keepsLists_modSlot (d : Device) (s n : Nat) (f : Slot → Slot) : d.KeepsLists (d.modSlot s n f) :=
  keepsLists_of_same rfl rfl rfl rfl

theorem keepsLists_reproject (d : Device) (x : Due) (v : Serve) (cause : Nat) (excused : Bool) (on : Option Nat) :
    d.KeepsLists (d.reproject x v cause excused on) := by
  unfold Device.reproject
  extract_lets fills d₁ d₂
  have hserved : d.KeepsLists d₁ := keepsLists_foldl _ _ (fun d s => keepsLists_degrade d s v.slot cause excused) d
  have hfilled : d₁.KeepsLists d₂ :=
    keepsLists_foldl _ _ (fun d s => (keepsLists_modSlot d s v.slot _).trans (keepsLists_controlChoice _)) d₁
  refine (hserved.trans hfilled).trans (keepsLists_foldl _ _ (fun d s => ?_) d₂)
  extract_lets d₃
  have hback : d.KeepsLists d₃ := keepsLists_modSlot d s v.slot _
  split
  · exact hback.trans (keepsLists_of_same rfl rfl rfl rfl)
  · exact hback

theorem keepsLists_loseJob (d : Device) (x : Due) (job : List Byte) (st : Status) (excused : Bool) :
    d.KeepsLists (d.loseJob x job st excused) := by
  unfold Device.loseJob
  split
  next v f hserve hflag =>
    refine keepsLists_foldl _ _ (fun d s => ?_) d
    extract_lets d₁ hit d₂ d₃
    have hlost : d.KeepsLists d₁ := (keepsLists_degrade d s v.slot _ excused).trans (keepsLists_modSlot _ s v.slot _)
    have hgone : d₁.KeepsLists d₃ := keepsLists_of_same rfl rfl rfl rfl
    refine (hlost.trans hgone).trans (keepsLists_foldl _ _ (fun d y => ?_) d₃)
    split
    · exact keepsLists_refl d
    · split
      · exact keepsLists_of_same rfl rfl rfl rfl
      · exact keepsLists_reproject d _ _ _ _ _
  next => exact keepsLists_refl d

/-- Unit `u` is free of its job of context `c`, with its last status. -/
def Device.freeUnit (d : Device) (u c : Nat) (st : Status) (order : Nat) : Device :=
  d.modUnit u (fun x => { x with run := none, lastStatus := word (statusCode st + c * 256 + order * 2 ^ 16) })

/-- A job that has written nothing yet and is no relaunch leaves its unit free and every list as it is. -/
theorem keepsLists_failVision (d : Device) (u : Nat) (r : VRun) (st : Status) (order : Nat) (hr : (d.unit u).run = some r)
    (hwaits : r.satisfied = false) (hrelaunch : r.launch.due.relaunch = false) :
    (d.freeUnit u r.launch.ctx st order).KeepsLists (d.failVision u st order) := by
  have hstop : d.stopJob u r none = (0, d) := if_pos (by simp [hwaits])
  suffices hstopped : (d.freeUnit u r.launch.ctx st order).KeepsLists (d.stopVision u st order none) by
    simp only [Device.failVision, hr]
    exact hstopped.trans (keepsLists_loseJob _ _ _ _ _)
  simp only [Device.stopVision, hr, hstop, Device.endRelaunch, hrelaunch, Bool.not_false, if_true]
  have hnoted : (d.freeUnit u r.launch.ctx st order).KeepsLists (((d.freeUnit u r.launch.ctx st order).modSealSt (fun x =>
      { x with reloads := x.reloads.filter (fun y => y.2.1 ≠ some (6 + u)) })).noteEnd r.launch.due st) :=
    (settles_reloads _ (fun l => l.filter (fun y => y.2.1 ≠ some (6 + u)))).keepsLists.trans (settles_noteEnd _ _ _).keepsLists
  have hmarks (c : Device) (v : Serve) : c.KeepsLists ((c.countLate r.launch.due v).releaseMarks r.launch.due.entry) :=
    ((settles_countLate c _ v).trans (settles_releaseMarks _ _)).keepsLists
  cases visionRecordAddr r.job with
  | none =>
    split
    · exact hnoted.trans (hmarks _ _)
    · exact hnoted
  | some a =>
    have hwrite (c : Device) (bs : List Byte) : c.KeepsLists (c.write a bs) := keepsLists_of_same rfl rfl rfl rfl
    split
    · exact (hnoted.trans (hwrite _ _)).trans (hmarks _ _)
    · exact hnoted.trans (hwrite _ _)

/-! ### Waits that a command satisfies while no list waits -/

/-- What the end of a command does at vision unit `u` (R359). -/
def Device.visionStep (d : Device) (u : Nat) : Device :=
  match (d.unit u).run with
  | some r =>
    let f := field r.job 12 2
    let limit := field r.job 16 2
    if !r.satisfied && (f = 0xFFFF || d.flagReached f (field r.job 14 2)) &&
        (limit = 0 || decide (d.now ≤ r.waitStart + 1000 * limit)) then
      d.modUnit u (fun v => { v with run := some { r with satisfied := true } })
    else d
  | none => d

theorem pumpVision_eq (d : Device) : d.pumpVision = (List.range 7).foldl Device.visionStep d := rfl

theorem visionStep_vis (d : Device) (u : Nat) : ∃ vis, d.visionStep u = { d with vis := vis } := by
  unfold Device.visionStep
  split
  · dsimp only
    split
    · exact ⟨_, rfl⟩
    · exact ⟨_, rfl⟩
  · exact ⟨_, rfl⟩

theorem pumpVision_vis (d : Device) : ∃ vis, d.pumpVision = { d with vis := vis } :=
  List.foldlRecOn (motive := fun d' : Device => ∃ vis, d' = { d with vis := vis }) _ _ ⟨d.vis, rfl⟩ fun d' hd' u _ => by
    obtain ⟨vis, rfl⟩ := hd'
    obtain ⟨vis', h⟩ := visionStep_vis { d with vis := vis } u
    exact ⟨vis', h⟩

/-- Where no list waits, no commit is held and no request is watched, only vision jobs can be satisfied. -/
theorem pump_eq_pumpVision (d : Device)
    (hruns : ∀ e < 6, ∀ r, (d.eng e).run = some r → r.wait = none ∧ r.remote = none ∧ r.awaitShadow = false)
    (hwatch : d.req.watch = none) : d.pump = d.pumpVision := by
  have hfold (l : List Nat) (d : Device) (f : Device → Nat → Device) (hf : ∀ n ∈ l, f d n = d) : l.foldl f d = d :=
    List.foldlRecOn (motive := fun d' : Device => d' = d) l f rfl fun d' hd' n hn => hd' ▸ hf n hn
  have hengines : Device.pumpEngines 64 d = d := pumpEngines_of_still _ _ fun e he r hr => (hruns e he r hr).1
  have hlost : d.pumpLost = d := by
    refine hfold _ _ _ fun e he => ?_
    cases hr : (d.eng e).run with
    | none => rfl
    | some r => simp [(hruns e (List.mem_range.mp he) r hr).1]
  obtain ⟨vis, hvis⟩ := pumpVision_vis d
  have hcommits : d.pumpVision.pumpCommits = d.pumpVision := by
    refine hfold _ _ _ fun e he => ?_
    rw [show d.pumpVision.eng e = d.eng e by rw [hvis]; rfl]
    cases hr : (d.eng e).run with
    | none => rfl
    | some r => simp [(hruns e (List.mem_range.mp he) r hr).2.2]
  have hrequest : d.pumpVision.pumpRequest = d.pumpVision := by
    rw [Device.pumpRequest, show d.pumpVision.req = d.req by rw [hvis], hwatch]
  rw [Device.pump, hengines, hlost, hcommits, hrequest]

/-- Where only unit `u` may run a job, only its job can be satisfied. -/
theorem pumpVision_of_one (d : Device) (u : Nat) (hu : u < 7) (hothers : ∀ w < 7, w ≠ u → (d.unit w).run = none) :
    d.pumpVision = d.visionStep u := by
  have hskip (l : List Nat) (c : Device) (hl : ∀ w ∈ l, (c.unit w).run = none) : l.foldl Device.visionStep c = c :=
    List.foldlRecOn (motive := fun d' : Device => d' = c) l _ rfl fun d' hd' w hw => by
      rw [hd', Device.visionStep, hl w hw]
  obtain ⟨l₁, l₂, hsplit⟩ := List.append_of_mem (List.mem_range.mpr hu)
  have hnodup := hsplit ▸ List.nodup_range (n := 7)
  have hlt (w : Nat) (hw : w ∈ l₁ ++ u :: l₂) : w < 7 := List.mem_range.mp (hsplit ▸ hw)
  rw [List.nodup_append] at hnodup
  have h₁ (w : Nat) (hw : w ∈ l₁) : w ≠ u := hnodup.2.2 w hw u List.mem_cons_self
  have h₂ (w : Nat) (hw : w ∈ l₂) : w ≠ u := fun h => (List.nodup_cons.mp hnodup.2.1).1 (h ▸ hw)
  have hafter (w : Nat) (hw : w ∈ l₂) : ((d.visionStep u).unit w).run = none := by
    have hnone := hothers w (hlt w (by simp [hw])) (h₂ w hw)
    unfold Device.visionStep
    split
    · dsimp only
      split
      · rw [Device.unit, Device.modUnit, vget_vmod_ne _ _ _ _ _ (Ne.symm (h₂ w hw))]
        exact hnone
      · exact hnone
    · exact hnone
  rw [pumpVision_eq, hsplit, List.foldl_append, hskip l₁ d fun w hw => hothers w (hlt w (by simp [hw])) (h₁ w hw),
    List.foldl_cons, hskip l₂ _ hafter]

/-! ### A wait that lasts too long (R359) -/

/-- Where no list waits, no commit is held and no vision job runs, the end of a command satisfies nothing. -/
theorem pump_of_free (d : Device) (u : Nat) (halone : d.VisionAlone u) (hfree : (d.unit u).run = none) : d.pump = d := by
  obtain ⟨hruns, hothers, hwatch⟩ := halone
  refine pump_of_unwaiting d (fun e he r hr => ⟨(hruns e he r hr).1, (hruns e he r hr).2.2⟩) (fun w hw => ?_) hwatch
  by_cases h : w = u
  · rw [h, hfree]
  · exact hothers w hw h

theorem visionAlone_of_keepsLists {d d' : Device} {u : Nat} (h : d.KeepsLists d') (halone : d.VisionAlone u) : d'.VisionAlone u := by
  obtain ⟨hruns, hothers, hwatch⟩ := halone
  refine ⟨fun e he r hr => hruns e he r ((h.runs e).symm.trans hr), fun w hw hne => ?_, by rw [h.req, hwatch]⟩
  rw [Device.unit, h.vis]
  exact hothers w hw hne

theorem visionAlone_modUnit {d : Device} {u : Nat} (halone : d.VisionAlone u) (f : Vision → Vision) : (d.modUnit u f).VisionAlone u := by
  obtain ⟨hruns, hothers, hwatch⟩ := halone
  refine ⟨hruns, fun w hw hne => ?_, hwatch⟩
  rw [Device.unit, Device.modUnit, vget_vmod_ne _ _ _ _ _ (Ne.symm hne)]
  exact hothers w hw hne

section
variable {t : Nat} {s : State} {u : Fin 7} {r : VRun}

/-- A command that ends a job which has written nothing leaves its unit free, with its last status. -/
theorem failVision_frees {d c : Device} (st : Status) (order : Nat) (halone : d.VisionAlone u.val) (hr : (d.unit u.val).run = some r)
    (hwaits : r.satisfied = false) (hrelaunch : r.launch.due.relaunch = false)
    (hc : c = (d.failVision u.val st order).pump.settle) : (c.unit u.val).run = none ∧
      (c.unit u.val).lastStatus = word (statusCode st + r.launch.ctx * 256 + order * 2 ^ 16) := by
  have hkeeps := keepsLists_failVision d u.val r st order hr hwaits hrelaunch
  have hunit : (d.failVision u.val st order).unit u.val = (d.freeUnit u.val r.launch.ctx st order).unit u.val := by
    rw [Device.unit, hkeeps.vis, Device.unit]
  have hfreed : (d.freeUnit u.val r.launch.ctx st order).unit u.val = { d.unit u.val with
      run := none, lastStatus := word (statusCode st + r.launch.ctx * 256 + order * 2 ^ 16) } := vget_vmod_same _ _ _ _ u.isLt
  have hpump := pump_of_free _ u.val (visionAlone_of_keepsLists hkeeps (visionAlone_modUnit halone _)) (by rw [hunit, hfreed])
  rw [hc, hpump, show (Device.settle _).unit u.val = _ from hunit, hfreed]
  exact ⟨rfl, rfl⟩

end

/-! ### Reads of a unit that pass (R364) -/

theorem readTileVision_of_passes (d : Device) (u : Nat) (r : VRun) (tile : Nat) (h : d.passes tile = true) :
    d.readTileVision u r tile = (true, d) := by
  have hverify : d.verify tile = (.ok, d) := if_pos h
  unfold Device.readTileVision
  rw [if_neg (by simp [h]), hverify]

/-- What the read of `n` bytes at `a` for context `c` charges. -/
def Device.chargeHead (d : Device) (c a n : Nat) : Device :=
  (d.countFill (partTiles a n)).charge c ((tilesOf a n).foldl (fun u t => u.add (bytesUse t tileBytes)) {})

theorem readHead_of_passes (d : Device) (u : Nat) (r : VRun) (a n : Nat) (h : ∀ k ∈ tilesOf a n, d.passes k = true) :
    d.readHead u r a n = (some (d.peek a n), d.chargeHead r.launch.ctx a n) := by
  unfold Device.readHead
  extract_lets tiles
  have hread : tiles.foldl (fun (s : Bool × Device) t =>
      if !s.1 then s
      else if (s.2.rangeOf t).any (·.imageBacked) then
        match s.2.verifyRead t r.launch.ctx with
        | (true, d) => (true, d)
        | (false, d) => (false, d.failVision u .sealFail)
      else s.2.readTileVision u r t) (true, d) = (true, d) := by
    refine List.foldlRecOn (motive := fun s : Bool × Device => s = (true, d)) _ _ rfl fun s hs k hk => ?_
    subst hs
    simp only [Bool.not_true, Bool.false_eq_true, verifyRead_of_passes d k _ (h k hk),
      readTileVision_of_passes d u r k (h k hk), ite_self]
  exact congrArg (fun s : Bool × Device => ((if s.1 then some (((s.2.countFill (partTiles a n)).charge r.launch.ctx
    (tiles.foldl (fun u t => u.add (bytesUse t tileBytes)) {})).peek a n) else none), s.2.chargeHead r.launch.ctx a n)) hread

/-! ### The start of a job -/

/-- `d'` is `d` but for vision unit `u`, meters, accounts, counters and what the itinerary has begun. -/
structure Device.Tallies (d d' : Device) (u : Nat) : Prop where
  same : d' = { d with
    vis := d'.vis, ctxs := d'.ctxs, toll := d'.toll, sealRegs := d'.sealRegs
    itn := { d.itn with launches := d'.itn.launches, began := d'.itn.began } }
  gens : d'.sealRegs.gen = d.sealRegs.gen
  others : ∀ w, w ≠ u → d'.unit w = d.unit w

section
variable {d d' d'' : Device} {u : Nat}

theorem Device.Tallies.trans (h : d.Tallies d' u) (h' : d'.Tallies d'' u) : d.Tallies d'' u where
  same := by
    have hsame := h'.same
    rw [h.same] at hsame
    exact hsame
  gens := h'.gens.trans h.gens
  others w hw := (h'.others w hw).trans (h.others w hw)

theorem tallies_modUnit (d : Device) (u : Nat) (f : Vision → Vision) : d.Tallies (d.modUnit u f) u :=
  ⟨rfl, rfl, fun _ hw => vget_vmod_ne _ _ _ _ _ (Ne.symm hw)⟩

theorem tallies_chargeHead (d : Device) (u c a n : Nat) : d.Tallies (d.chargeHead c a n) u := ⟨rfl, rfl, fun _ _ => rfl⟩

@[simp] theorem Device.chargeHead_vis (d : Device) (c a n : Nat) : (d.chargeHead c a n).vis = d.vis := rfl
@[simp] theorem Device.chargeHead_itn (d : Device) (c a n : Nat) : (d.chargeHead c a n).itn = d.itn := rfl

theorem Device.Tallies.store (h : d.Tallies d' u) : d'.store = d.store := by rw [h.same]
theorem Device.Tallies.ne (h : d.Tallies d' u) : d'.ne = d.ne := by rw [h.same]
theorem Device.Tallies.req (h : d.Tallies d' u) : d'.req = d.req := by rw [h.same]
theorem Device.Tallies.now (h : d.Tallies d' u) : d'.now = d.now := by rw [h.same]
theorem Device.Tallies.i3c (h : d.Tallies d' u) : d'.i3c = d.i3c := by rw [h.same]
theorem Device.Tallies.well (h : d.Tallies d' u) : d'.well = d.well := by rw [h.same]

theorem Device.Tallies.passes (h : d.Tallies d' u) (k : Nat) : d'.passes k = d.passes k := by
  rw [Device.passes, Device.sealed, h.store, h.gens, Device.passes, Device.sealed]

theorem Device.Tallies.peek (h : d.Tallies d' u) (a n : Nat) : d'.peek a n = d.peek a n := by
  rw [Device.peek, h.store, Device.peek]

theorem Device.Tallies.visionAlone (h : d.Tallies d' u) (halone : d.VisionAlone u) : d'.VisionAlone u := by
  obtain ⟨hruns, hothers, hwatch⟩ := halone
  refine ⟨fun e he r hr => hruns e he r ?_, fun w hw hne => ?_, by rw [h.req, hwatch]⟩
  · rwa [Device.eng, h.ne] at hr
  · rw [h.others w hne]
    exact hothers w hw hne

end

/-- What stands in the unit while it reads a launch's record and descriptors. -/
def VRun.head (l : VLaunch) (job : List Byte) (descs : List Desc) (now : Nat) : VRun :=
  { launch := l, job := job, descs := descs, waitStart := now, satisfied := false }

/-- The descriptors that `n` runs of 32 bytes give. -/
def rawDescs (db : List Byte) (n : Nat) : List (List Byte) := (List.range n).map (fun i => (db.drop (32 * i)).take 32)

/-- The first failed check of Table 8.4 of a job for unit `u`. -/
def jobFailure (u : Nat) (job : List Byte) (raws : List (List Byte)) : Option (Nat × Status) :=
  if jobHeaderOk u job then jobFails job raws (raws.map descOf) else some (1, .unsupported)

/-- The unit's job before its descriptors have been read. -/
def Device.standing (d : Device) (u : Nat) (l : VLaunch) (job : List Byte) : Device :=
  d.modUnit u (fun x => { x with run := some (.head l job [] d.now) })

theorem tallies_standing (d : Device) (u : Nat) (l : VLaunch) (job : List Byte) : d.Tallies (d.standing u l job) u :=
  tallies_modUnit d u _

theorem rebind_none (raws : List Desc) : raws.map (rebind []) = raws := List.map_id'' (fun _ => rfl) raws

section
variable (d : Device) (u : Nat) (l : VLaunch) (v : Serve) (job : List Byte) (hbind : v.bind = none)
  (hregion : inOneRegion (field job 4 6) (32 * field job 10 1) = true)
  (hpass : ∀ k ∈ tilesOf (field job 4 6) (32 * field job 10 1), d.passes k = true)
include hbind hregion hpass

/-- The checks of a job end with a failure, or with the job and its descriptors in the unit. -/
theorem checkVision_eq : ∃ c, (d.standing u l job).Tallies c u ∧ c.vis = (d.standing u l job).vis ∧ c.itn = d.itn ∧
    let raws := rawDescs (d.peek (field job 4 6) (32 * field job 10 1)) (field job 10 1)
    d.checkVision u l v job = match jobFailure u job raws with
      | some (order, st) => c.failVision u st order
      | none => c.modUnit u (fun x => { x with run := some (.head l job (raws.map descOf) d.now) }) := by
  have hread := readHead_of_passes (d.standing u l job) u (.head l job [] d.now) (field job 4 6) (32 * field job 10 1)
    fun k hk => ((tallies_standing d u l job).passes k).trans (hpass k hk)
  unfold Device.checkVision
  by_cases hheader : jobHeaderOk u job = true
  · refine ⟨(d.standing u l job).chargeHead l.ctx (field job 4 6) (32 * field job 10 1), tallies_chargeHead _ _ _ _ _,
      Device.chargeHead_vis _ _ _ _, Device.chargeHead_itn _ _ _ _, ?_⟩
    extract_lets raws run c n a
    rw [if_neg (by simp [hheader]), if_neg (by simp [a, n, hregion])]
    have hc : c.readHead u (run []) a (32 * n) = _ := hread
    simp only [hc]
    have hrows (c : Device) : c.bindRowsOf l.due v [] = [] := by rw [Device.bindRowsOf, hbind]; rfl
    simp only [hrows, rebind_none, jobFailure, hheader, if_true]
    rfl
  · refine ⟨d.standing u l job, ⟨rfl, rfl, fun _ _ => rfl⟩, rfl, rfl, ?_⟩
    extract_lets raws run c n a
    rw [if_pos (by simp [hheader])]
    simp only [jobFailure, hheader]
    rfl

end

/-- A launch has left the unit's queue and is counted. -/
def Device.launched (d : Device) (u : Nat) (l : VLaunch) : Device :=
  let d := d.modUnit u (fun x => { x with queue := x.queue.drop 1 })
  let d := (d.modItn (fun i => { i with launches := satInc i.launches })).noteBegan l.due
  let d := d.modCtx l.ctx (fun c => { c with lastEntry := l.due.entry })
  { d with toll := { d.toll with acct := vmod d.toll.acct l.ctx (fun a => { a with launches := satInc a.launches }) } }

theorem noteBegan_same (d : Device) (x : Due) :
    d.noteBegan x = { d with itn := { d.itn with began := (d.noteBegan x).itn.began } } := by
  unfold Device.noteBegan
  split <;> rfl

theorem launched_same (d : Device) (u : Nat) (l : VLaunch) : ∃ ctxs toll began, d.launched u l = { d with
    vis := vmod d.vis u (fun x => { x with queue := x.queue.drop 1 }), ctxs := ctxs, toll := toll
    itn := { d.itn with launches := satInc d.itn.launches, began := began } } := by
  refine ⟨(d.launched u l).ctxs, (d.launched u l).toll, (d.launched u l).itn.began, ?_⟩
  unfold Device.launched
  extract_lets d₁ d₂ d₃
  have hnoted : d₂ = { d₁ with itn := { d₁.itn with launches := satInc d₁.itn.launches, began := d₂.itn.began } } :=
    noteBegan_same _ _
  rw [show d₃ = d₂.modCtx l.ctx (fun c => { c with lastEntry := l.due.entry }) from rfl, hnoted]
  rfl

theorem tallies_launched (d : Device) (u : Nat) (l : VLaunch) : d.Tallies (d.launched u l) u := by
  obtain ⟨ctxs, toll, began, h⟩ := launched_same d u l
  rw [h]
  exact ⟨rfl, rfl, fun _ hw => vget_vmod_ne _ _ _ _ _ (Ne.symm hw)⟩

section
variable (d : Device) (u : Nat) (hu : u < 7) (l : VLaunch) (v : Serve) (htile : l.due.tile = none)
  (hregion : inOneRegion l.addr 64 = true) (hpass : ∀ k ∈ tilesOf l.addr 64, d.passes k = true)
  (hrecord : (visionRecordAddr (d.peek l.addr 64)).isSome = true)
include hu htile hregion hpass hrecord

/-- A launch whose record passes its reads comes to its checks, counted, in a unit that is free again. -/
theorem startVision_eq : ∃ c, d.Tallies c u ∧
    c.unit u = { d.unit u with queue := (d.unit u).queue.drop 1, run := none } ∧ c.itn.launches = satInc d.itn.launches ∧
    d.startVision u l v = c.checkVision u l v (d.peek l.addr 64) := by
  have hhead : d.Tallies ((d.launched u l).standing u l []) u := (tallies_launched d u l).trans (tallies_standing _ _ _ _)
  have hread := readHead_of_passes _ u (.head l [] [] (d.launched u l).now) l.addr 64 fun k hk => (hhead.passes k).trans (hpass k hk)
  rw [hhead.peek] at hread
  have hcharged := hhead.trans (tallies_chargeHead _ u l.ctx l.addr 64)
  refine ⟨_, hcharged.trans (tallies_modUnit _ u (fun x => { x with run := none })), ?_, ?_, ?_⟩
  · obtain ⟨ctxs, toll, began, hsame⟩ := launched_same d u l
    refine (vget_vmod_same _ _ _ _ hu).trans ?_
    rw [Device.chargeHead_vis, Device.standing, Device.modUnit_vis, hsame, vget_vmod_same _ _ _ _ hu, vget_vmod_same _ _ _ _ hu,
      Device.unit]
  · obtain ⟨ctxs, toll, began, hsame⟩ := launched_same d u l
    rw [Device.modUnit_itn, Device.chargeHead_itn, Device.standing, Device.modUnit_itn, hsame]
  · have hchecks : d.startVision u l v =
        match ((d.launched u l).standing u l []).readHead u (.head l [] [] (d.launched u l).now) l.addr 64 with
        | (none, d) => d
        | (some job, d) =>
          let d := d.modUnit u (fun x => { x with run := none })
          if (visionRecordAddr job).isNone then d.refuseVision u l job (field job 24 6)
          else d.checkVision u l v job := by
      unfold Device.startVision
      simp only [htile, Option.isSome_none, Bool.false_eq_true, if_false, hregion, Bool.not_true]
      rfl
    rw [hchecks, hread]
    exact if_neg (by simpa using Option.isSome_iff_ne_none.mp hrecord)

end

/-- A job that has just come to stand in its unit is satisfied at once when its flag has reached its target. -/
theorem visionStep_of_fresh (d : Device) (u : Nat) (hu : u < 7) (r : VRun) (hr : (d.unit u).run = some r) (hwaits : r.satisfied = false)
    (hstart : r.waitStart = d.now) : (d.visionStep u).unit u = { d.unit u with
      run := some { r with satisfied := decide (field r.job 12 2 = 0xFFFF) || d.flagReached (field r.job 12 2) (field r.job 14 2) } } := by
  unfold Device.visionStep
  simp only [hr, hwaits, hstart, Nat.le_add_right, decide_true, Bool.or_true, Bool.and_true, Bool.not_false, Bool.true_and]
  cases h : decide (field r.job 12 2 = 0xFFFF) || d.flagReached (field r.job 12 2) (field r.job 14 2) with
  | true => exact (if_pos rfl).symm ▸ vget_vmod_same _ _ _ _ hu
  | false =>
    have hsame : d.unit u = { d.unit u with run := some { r with waitStart := d.now, satisfied := false } } := by
      rw [← hstart, ← hwaits]
      exact congrArg (fun o => { d.unit u with run := o }) hr
    exact hsame

section
variable {t : Nat} {s : State} {u : Fin 7} {l : VLaunch} {rest : List VLaunch} {v : Serve} (hs : s.Inv) (hstill : s.dev.Still)
  (hphase : s.dev.phase = .running) (hqueue : (s.dev.unit u.val).queue = l :: rest)

theorem visionAlone_of_still {d : Device} (h : d.Still) (u : Nat) : d.VisionAlone u := by
  obtain ⟨hruns, hjobs, hwatch⟩ := h
  exact ⟨hruns, fun w hw _ => hjobs w hw, hwatch⟩

include hstill hphase hqueue in
theorem exec_visionJobStart (hstalled : (s.dev.unit u.val).stalled = false) (hserve : s.dev.serveOf l.due = some v)
    (hbind : v.bind = none) (hheld : s.dev.heldCtx l.ctx (s.dev.visionBe l) = false)
    (htime : (s.dev.atTime t).pastDeadline l.due v = false) : exec (.visionJobStart t u) s =
      .next (s.withDev ((s.dev.atTime t).startVision u.val l v).pump.settle) := by
  refine congrArg (fun d : Device => Host.Outcome.next (s.withDev d.pump.settle)) ((if_pos hphase).trans ?_)
  dsimp only
  rw [show ((s.dev.atTime t).unit u.val).queue = l :: rest from hqueue]
  dsimp only
  rw [show (s.dev.atTime t).serveOf l.due = some v from hserve]
  refine if_pos ?_
  have hpending : (s.dev.atTime t).pendingStream v = false := by rw [Device.pendingStream, hbind]; rfl
  rw [show ((s.dev.atTime t).unit u.val).run = none from hstill.2.1 u.val u.isLt,
    show ((s.dev.atTime t).unit u.val).stalled = false from hstalled,
    show (s.dev.atTime t).heldCtx l.ctx ((s.dev.atTime t).visionBe l) = false from hheld, hpending, htime]
  rfl

/-- A job that stands in its unit from this instant, checked, when its launch command ends. -/
theorem standing_job_end {d c : Device} {r : VRun} (hd : d.Tallies c u.val) (halone : d.VisionAlone u.val)
    (hmem : Memory.wf d.store.mem = true) (hfresh : d.i3c.fresh = []) (hr : (c.unit u.val).run = some r)
    (hwaits : r.satisfied = false) (hstart : r.waitStart = c.now) :
    c.pump.settle.unit u.val = { c.unit u.val with
      run := some { r with satisfied := decide (field r.job 12 2 = 0xFFFF) || d.flagReached (field r.job 12 2) (field r.job 14 2) } } ∧
    c.pump.settle.itn = c.itn ∧ c.pump.settle.store = d.store ∧ c.pump.settle.i3c = d.i3c := by
  have hc := hd.visionAlone halone
  obtain ⟨hruns, hothers, hwatch⟩ := hc
  have hflag : c.flagReached = d.flagReached := by
    funext f target
    rw [Device.flagReached, Device.flag, hd.well, Device.flagReached, Device.flag]
  have hstep : (c.visionStep u.val).unit u.val = _ := visionStep_of_fresh c u.val u.isLt r hr hwaits hstart
  rw [hflag] at hstep
  obtain ⟨vis, hvis⟩ := visionStep_vis c u.val
  rw [pump_eq_pumpVision c hruns hwatch, pumpVision_of_one c u.val u.isLt hothers]
  refine ⟨hstep, by rw [Device.settle, hvis], ?_, ?_⟩
  · rw [Device.settle, hvis]
    exact (congrArg Store.close hd.store).trans (store_close_of_wf _ hmem)
  · rw [Device.settle, hvis]
    exact (flush_of_quiet _ _ (by rw [hd.i3c, hfresh])).trans hd.i3c

end

/-! ### The obligation -/

section
variable {t : Nat} {s : State} {u : Fin 7} {l : VLaunch} {rest : List VLaunch} {v : Serve}
  (hqueue : (s.dev.unit u.val).queue = l :: rest) (hbind : v.bind = none) (htile : l.due.tile = none)
  (hhead : inOneRegion l.addr 64 = true)
include hqueue hbind htile hhead

/-- A launch whose reads pass has its checks made. -/
theorem startVision_checks {job : List Byte} (hjob : s.dev.peek l.addr 64 = job)
    (hdescs : inOneRegion (field job 4 6) (32 * field job 10 1) = true) (hrecord : (visionRecordAddr job).isSome = true)
    (hpass : ∀ k ∈ tilesOf l.addr 64 ++ tilesOf (field job 4 6) (32 * field job 10 1), s.dev.passes k = true)
    {raws : List (List Byte)} (hraws : rawDescs (s.dev.peek (field job 4 6) (32 * field job 10 1)) (field job 10 1) = raws) :
    ∃ c, (s.dev.atTime t).Tallies c u.val ∧ (c.unit u.val).queue = rest ∧ (c.unit u.val).run = some (.head l job [] c.now) ∧
      c.itn.launches = satInc s.dev.itn.launches ∧
      (s.dev.atTime t).startVision u.val l v = match jobFailure u.val job raws with
        | some (order, st) => c.failVision u.val st order
        | none => c.modUnit u.val (fun x => { x with run := some (.head l job (raws.map descOf) c.now) }) := by
  subst hjob
  subst hraws
  obtain ⟨c, hc, hunit, hlaunches, hstart⟩ := startVision_eq (s.dev.atTime t) u.val u.isLt l v htile hhead
    (fun k hk => hpass k (List.mem_append_left _ hk)) hrecord
  obtain ⟨c', hc', hvis, hitn, hchecks⟩ := checkVision_eq c u.val l v (s.dev.peek l.addr 64) hbind hdescs
    (fun k hk => (hc.passes k).trans (hpass k (List.mem_append_right _ hk)))
  have hall := hc.trans ((tallies_standing c u.val l _).trans hc')
  have hstands : c'.unit u.val = { c.unit u.val with run := some (.head l (s.dev.peek l.addr 64) [] c.now) } := by
    rw [Device.unit, hvis]
    exact vget_vmod_same _ _ _ _ u.isLt
  have hnow : c'.now = c.now := hc'.now
  refine ⟨c', hall, ?_, ?_, hitn ▸ hlaunches, ?_⟩
  · rw [hstands, hunit]
    exact congrArg (List.drop 1) hqueue
  · rw [hstands, hnow]
  · rw [hstart, hnow]
    rw [hc.peek] at hchecks
    exact hchecks

end

section
variable {t : Nat} {s : State} {u : Fin 7} {r : VRun} (hs : s.Inv) (halone : s.dev.VisionAlone u.val)
  (hphase : s.dev.phase = .running) (hr : (s.dev.unit u.val).run = some r)
include hphase hr

/-- The guard of a wait's expiry is that of its job. -/
theorem exec_visionWaitExpiry : exec (.visionWaitExpiry t u) s = .next (s.withDev ((s.dev.atTime t).guard
    (!r.satisfied && field r.job 16 2 != 0 && decide (r.waitStart + 1000 * field r.job 16 2 < max s.dev.now t))
    (fun d => d.failVision u.val .timeout)).pump.settle) := by
  refine congrArg (fun d : Device => Host.Outcome.next (s.withDev d.pump.settle)) ((if_pos hphase).trans ?_)
  dsimp only
  rw [show ((s.dev.atTime t).unit u.val).run = some r from hr]
  rfl

include hs halone in
theorem exec_visionWaitExpiry_of_early (hflag : field r.job 12 2 ≠ 0xFFFF)
    (hshort : s.dev.flagReached (field r.job 12 2) (field r.job 14 2) = false)
    (h : field r.job 16 2 = 0 ∨ max s.dev.now t ≤ r.waitStart + 1000 * field r.job 16 2) :
    exec (.visionWaitExpiry t u) s = .next (s.withDev (s.dev.atTime t)) := by
  obtain ⟨hmem, hfresh, halert⟩ := hs
  have hguard : (!r.satisfied && field r.job 16 2 != 0 &&
      decide (r.waitStart + 1000 * field r.job 16 2 < max s.dev.now t)) = false := by
    obtain h | h := h
    · simp [h]
    · rw [decide_eq_false (Nat.not_lt.mpr h), Bool.and_false]
  obtain ⟨hruns, hothers, hwatch⟩ := (halone : (s.dev.atTime t).VisionAlone u.val)
  have hstep : (s.dev.atTime t).visionStep u.val = s.dev.atTime t := by
    unfold Device.visionStep
    rw [show ((s.dev.atTime t).unit u.val).run = some r from hr]
    refine if_neg ?_
    rw [show (s.dev.atTime t).flagReached (field r.job 12 2) (field r.job 14 2) = false from hshort, decide_eq_false hflag]
    simp
  rw [exec_visionWaitExpiry hphase hr, hguard, Device.guard, if_neg Bool.false_ne_true,
    pump_eq_pumpVision (s.dev.atTime t) hruns hwatch, pumpVision_of_one (s.dev.atTime t) u.val u.isLt hothers, hstep,
    settle_of_quiet (s.dev.atTime t) hmem hfresh halert]

end

/-- Settles O40: a launch comes to its checks, and its job then stands in the unit or has failed; a wait expires only once its limit
has passed. -/
theorem visionJobsStartAndWait : Obligations.VisionJobsStartAndWait := by
  refine ⟨?_, fun t u r s hs halone hphase hr hwaits hflag hshort => ⟨fun hlimit hlate hrelaunch => ?_,
      exec_visionWaitExpiry_of_early hs halone hphase hr hflag hshort⟩⟩
  · intro t u l rest v s hs hstill hphase hqueue hstalled hserve hbind hrelaunch htile hheld htime job a n raws hhead hdescs hrecord
      hpass
    obtain ⟨c, hc, hrest, hrun, hlaunches, hstart⟩ := startVision_checks (t := t) hqueue hbind htile hhead (job := job) rfl hdescs
      hrecord hpass (raws := raws) rfl
    have hexec := exec_visionJobStart hstill hphase hqueue hstalled hserve hbind hheld htime
    have halone : (s.dev.atTime t).VisionAlone u.val := visionAlone_of_still hstill u.val
    obtain ⟨hmem, hfresh, -⟩ := hs
    clear_value raws a n job
    constructor
    · intro hheader hnofail
      rw [show jobFailure u.val job raws = none from (if_pos hheader).trans hnofail] at hstart
      rw [hstart] at hexec
      obtain ⟨hunit, hitn, hstore, hi3c⟩ := standing_job_end
        (hc.trans (tallies_modUnit c u.val (fun x => { x with run := some (.head l job (raws.map descOf) c.now) }))) halone hmem hfresh
        (congrArg Vision.run (vget_vmod_same _ _ _ _ u.isLt)) rfl rfl
      generalize Device.settle _ = d at hexec hunit hitn hstore hi3c
      refine ⟨s.withDev d, _, hexec, rfl, congrArg Vision.run hunit, ?_, rfl, rfl, rfl, hc.now, ?_, ?_, hstore, hi3c⟩
      · rw [show (s.withDev _).dev.unit u.val = _ from hunit]
        exact (congrArg Vision.queue (vget_vmod_same _ _ _ _ u.isLt)).trans hrest
      · exact Bool.or_eq_true_iff.trans (or_congr decide_eq_true_iff Iff.rfl)
      · exact (congrArg Itinerary.launches hitn).trans hlaunches
    · intro order st hfails
      rw [show jobFailure u.val job raws = some (order, st) from hfails] at hstart
      rw [hstart] at hexec
      obtain ⟨d, hd⟩ : ∃ d, d = (c.failVision u.val st order).pump.settle := ⟨_, rfl⟩
      rw [← hd] at hexec
      obtain ⟨hfree, hstatus⟩ := failVision_frees st order (hc.visionAlone halone) hrun rfl hrelaunch hd
      simp only [VRun.head] at hstatus
      exact ⟨s.withDev d, hexec, rfl, hfree, hstatus⟩
  · have hdue : (!r.satisfied && field r.job 16 2 != 0 &&
        decide (r.waitStart + 1000 * field r.job 16 2 < max s.dev.now t)) = true := by
      rw [hwaits, decide_eq_true hlate, bne_iff_ne.mpr hlimit]
      rfl
    have hexec := exec_visionWaitExpiry (t := t) hphase hr
    rw [hdue, Device.guard, if_pos rfl] at hexec
    obtain ⟨d, hd⟩ : ∃ d, d = ((s.dev.atTime t).failVision u.val .timeout).pump.settle := ⟨_, rfl⟩
    rw [← hd] at hexec
    obtain ⟨hfree, hstatus⟩ := failVision_frees (d := s.dev.atTime t) .timeout 0 halone hr hwaits hrelaunch hd
    rw [show statusCode .timeout = 5 from rfl, Nat.zero_mul, Nat.add_zero] at hstatus
    exact ⟨s.withDev d, hexec, rfl, hfree, hstatus⟩

end Sys2Proof.Machine
end

section
/-! SUPPORT. Registers written and read by private transfers (R678 to R681, R633, R9 to R12). -/
namespace Sys2Proof.Machine

/-! ### The bytes of a transfer -/

theorem length_leBytes (n v : Nat) : (leBytes n v).length = n := by
  induction n generalizing v with
  | zero => rfl
  | succ n ih => rw [leBytes, List.length_cons, ih]

theorem leNat_leBytes (n v : Nat) : leNat (leBytes n v) = v % 256 ^ n := by
  induction n generalizing v with
  | zero => simp [leBytes, leNat, Nat.mod_one]
  | succ n ih =>
    rw [leBytes, leNat, ih, BitVec.toNat_ofNat, show 256 ^ (n + 1) = 256 * 256 ^ n from Nat.pow_succ']
    exact Nat.mod_mul.symm

theorem leBytes_add (m n v : Nat) : leBytes (m + n) v = leBytes m v ++ leBytes n (v / 256 ^ m) := by
  induction m generalizing v with
  | zero => simp [leBytes]
  | succ m ih =>
    rw [Nat.succ_add, leBytes, ih, leBytes, List.cons_append, Nat.div_div_eq_div_mul, Nat.pow_succ']

/-- The bytes of a number are those of its low bits. -/
theorem leBytes_mod (n v : Nat) : leBytes n (v % 256 ^ n) = leBytes n v := by
  induction n generalizing v with
  | zero => rfl
  | succ n ih =>
    have hlow : BitVec.ofNat 8 (v % 256 ^ (n + 1)) = BitVec.ofNat 8 v := by
      refine BitVec.eq_of_toNat_eq ?_
      rw [BitVec.toNat_ofNat, BitVec.toNat_ofNat]
      exact Nat.mod_mod_of_dvd v (Dvd.intro_left (256 ^ n) (Nat.pow_succ ..).symm)
    rw [leBytes, leBytes, hlow, Nat.pow_succ', Nat.mod_mul_right_div_self, ih]

/-- The bytes of a register write: the tag, the offset and one word (R680). -/
def writeBytes (tag : Byte) (off : Nat) (w : Word) : List Byte := tag :: (leBytes 4 off ++ leBytes 4 w.toNat)

theorem field_tag (tag : Byte) (b : List Byte) : field (tag :: b) 0 1 = tag.toNat := by simp [field, leNat]

theorem field_offset (tag : Byte) (off : Nat) (b : List Byte) (h : off < 2 ^ 32) : field (tag :: (leBytes 4 off ++ b)) 1 4 = off := by
  have hbytes : (List.drop 1 (tag :: (leBytes 4 off ++ b))).take 4 = leBytes 4 off :=
    List.take_left' (length_leBytes 4 off)
  rw [field, hbytes, leNat_leBytes]
  exact Nat.mod_eq_of_lt h

theorem field_word (tag : Byte) (off : Nat) (w : Word) : word (field (writeBytes tag off w) 5 4) = w := by
  have hbytes : ((writeBytes tag off w).drop 5).take 4 = leBytes 4 w.toNat := by
    rw [writeBytes, List.drop_succ_cons, List.drop_left' (length_leBytes 4 off)]
    exact List.take_of_length_le (length_leBytes 4 _).le
  rw [field, hbytes, leNat_leBytes, show w.toNat % 256 ^ 4 = w.toNat from Nat.mod_eq_of_lt w.isLt]
  simp [word]

theorem privateKind_write (tag : Byte) (off : Nat) (w : Word) (hkind : bits tag.toNat 7 6 = 0) (haligned : off % 4 = 0)
    (hlimit : off + 4 ≤ registerLimit) : privateKind (writeBytes tag off w) = .words off [w] := by
  have hlt : off < 2 ^ 32 := Nat.lt_of_le_of_lt (Nat.le_of_add_right_le hlimit) (by decide)
  have hlen : (writeBytes tag off w).length = 9 := by simp [writeBytes, length_leBytes]
  have htag : field (writeBytes tag off w) 0 1 = tag.toNat := field_tag _ _
  have hoff : field (writeBytes tag off w) 1 4 = off := field_offset _ _ _ hlt
  have hword := field_word tag off w
  unfold privateKind
  dsimp only
  rw [htag, hoff, hlen, hkind, if_neg (by omega), if_pos rfl, if_neg (by omega)]
  simp [hword]

theorem privateKind_setup (tag n : Byte) (off : Nat) (hkind : bits tag.toNat 7 6 = 1) (haligned : off % 4 = 0)
    (hlow : 1 ≤ n.toNat) (hhigh : n.toNat ≤ 64) (hlimit : off + 4 * n.toNat ≤ registerLimit) :
    privateKind (tag :: leBytes 4 off ++ [n]) = .setup off n.toNat := by
  have hlt : off < 2 ^ 32 := Nat.lt_of_le_of_lt (Nat.le_of_add_right_le hlimit) (by decide)
  have hlen : (tag :: leBytes 4 off ++ [n]).length = 6 := by simp [length_leBytes]
  have htag : field (tag :: leBytes 4 off ++ [n]) 0 1 = tag.toNat := field_tag _ _
  have hoff : field (tag :: leBytes 4 off ++ [n]) 1 4 = off := field_offset _ _ _ hlt
  have hcount : field (tag :: leBytes 4 off ++ [n]) 5 1 = n.toNat := by
    rw [field, List.cons_append, List.drop_succ_cons, List.drop_left' (length_leBytes 4 off)]
    simp [leNat]
  unfold privateKind
  dsimp only
  rw [htag, hoff, hlen, hkind, hcount, if_neg (by omega), if_neg (by decide), if_pos rfl, if_neg (by omega)]

/-! ### Private transfers (R678) -/

theorem calm_modI3c {d : Device} (h : d.Calm) (f : I3c → I3c) (hf : (f d.i3c).fresh = d.i3c.fresh) : (d.modI3c f).Calm :=
  ⟨h.still, h.mem, hf.trans h.fresh, h.alert⟩

theorem quiet_modI3c {d : Device} (h : d.Quiet) (f : I3c → I3c) (hf : (f d.i3c).fresh = d.i3c.fresh) : (d.modI3c f).Quiet :=
  ⟨h.mem, hf.trans h.fresh, h.alert⟩

/-- The bus once a transfer has reached the target: one in SDR ends the HDR mode. -/
def Device.bus (d : Device) (xfer : Xfer) : Device := d.modI3c (fun r => { r with hdr := r.hdr && xfer ≠ .sdr })

/-- The transfer reaches a target with a dynamic address: in SDR, or in HDR mode by its command code. -/
def Device.Reached (d : Device) (xfer : Xfer) (code : Byte) : Prop :=
  d.phase ≠ .off ∧ d.i3c.dynAddr.isSome = true ∧ (xfer = .sdr ∨ (xfer = .hdr code ∧ d.i3c.hdr = true))

theorem bus_sdr (d : Device) : d.bus .sdr = d.modI3c (fun r => { r with hdr := false }) := by
  simp [Device.bus]

theorem bus_hdr (d : Device) (code : Byte) : d.bus (.hdr code) = d := by
  simp [Device.bus, Device.modI3c]

/-- A transfer that reaches the target gives it `b`, the bytes that its form carries. -/
theorem transfer_of_reached (d : Device) (xfer : Xfer) (code : Byte) (bytes b : List Byte) (f : Device → List Byte → Device)
    (h : d.Reached xfer code) (hbytes : transferBytes xfer code.toNat bytes = some b) :
    d.transfer xfer code.toNat bytes f = f (d.bus xfer) b := by
  obtain ⟨hoff, hdyn, hform⟩ := h
  have hup : ¬ (d.phase = .off ∨ d.i3c.dynAddr.isNone) := by
    rintro (h | h)
    · exact hoff h
    · rw [Option.isNone_iff_eq_none.mp h] at hdyn
      exact Bool.false_ne_true hdyn
  unfold Device.transfer
  rw [if_neg hup]
  obtain rfl | ⟨rfl, hhdr⟩ := hform
  · simp only [hbytes, bus_sdr]
  · simp only [hbytes, hhdr, if_true, bus_hdr]

theorem transferBytes_write (xfer : Xfer) (tag : Byte) (off : Nat) (w : Word) (hform : xfer = .sdr ∨ xfer = .hdr 0x20)
    (hkind : bits tag.toNat 7 6 = 0) :
    transferBytes xfer 0x20 (writeBytes tag off w ++ (if xfer = .sdr then [] else [0])) = some (writeBytes tag off w) := by
  obtain rfl | rfl := hform
  · simp [transferBytes]
  · have htag : field (writeBytes tag off w ++ [0]) 0 1 = tag.toNat := field_tag _ _
    have hlen : (writeBytes tag off w ++ [0]).length = 10 := by simp [writeBytes, length_leBytes]
    rw [if_neg (by decide), transferBytes, if_neg (by decide), htag, hlen, if_pos ⟨hkind, rfl⟩, List.dropLast_concat]

/-! ### Register writes (R680, R681, R633) -/

theorem noteWrite_eq (d : Device) (tag : Byte) (b : List Byte) (st : Status) : d.noteWrite (tag :: b) st =
    d.modI3c (fun r => { r with last := word (tag.toNat + statusCode st * 256) }) :=
  congrArg (fun n => d.modI3c (fun r => { r with last := word (n + statusCode st * 256) })) (field_tag tag b)

section
variable (d : Device) (tag : Byte) (off : Nat) (w : Word) (hkind : bits tag.toNat 7 6 = 0) (haligned : off % 4 = 0)
  (hlimit : off + 4 ≤ registerLimit)
include hkind haligned hlimit

theorem privateWrite_of_refused (h : d.writeAllowed off 1 = false) : d.privateWrite (writeBytes tag off w) =
    d.modI3c (fun r => { r with last := word (tag.toNat + statusCode .unsupported * 256) }) := by
  rw [Device.privateWrite, privateKind_write tag off w hkind haligned hlimit]
  simp only [List.length_cons, List.length_nil, Nat.zero_add, h, Bool.not_false, if_true]
  exact noteWrite_eq d tag _ _

theorem privateWrite_of_allowed (h : d.writeAllowed off 1 = true) (hgo : writableAt off ≠ some .requestGo) :
    d.privateWrite (writeBytes tag off w) =
      (d.writeWord off w).modI3c (fun r => { r with last := word (tag.toNat + statusCode .ok * 256) }) := by
  have hfree : d.goBlocked off [w] = false := by simp [Device.goBlocked, hgo]
  rw [Device.privateWrite, privateKind_write tag off w hkind haligned hlimit]
  simp only [List.length_cons, List.length_nil, Nat.zero_add, h, hfree]
  exact noteWrite_eq (d.writeWord off w) tag _ _

end

/-- A register write of one word comes to the register at its offset. -/
theorem exec_registerWrite {t : Nat} {xfer : Xfer} {tag : Byte} {off : Nat} {w : Word} {s : State} {d : Device}
    (hreach : s.dev.Reached xfer 0x20) (hkind : bits tag.toNat 7 6 = 0)
    (hd : ((s.dev.atTime t).bus xfer).privateWrite (writeBytes tag off w) = d) (hcalm : d.Calm) :
    exec (.registerWrite t xfer (writeBytes tag off w ++ (if xfer = .sdr then [] else [0]))) s = .next (s.withDev d) :=
  next_runI_of_calm ((transfer_of_reached (s.dev.atTime t) xfer 0x20 _ _ _ hreach
    (transferBytes_write xfer tag off w (hreach.2.2.imp id And.left) hkind)).trans hd) hcalm

theorem calm_bus {d : Device} (h : d.Calm) (xfer : Xfer) : (d.bus xfer).Calm := calm_modI3c h _ rfl

theorem writeAllowed_of_settable (d : Device) (off : Nat) (hinert : d.phase ≠ .inert) (h : settable off = true) :
    d.writeAllowed off 1 = true := by
  simp [Device.writeAllowed, hinert, h]

theorem writeAllowed_of_inert (d : Device) (off n : Nat) (hinert : d.phase = .inert) : d.writeAllowed off n = false := by
  simp [Device.writeAllowed, Device.normal, hinert]

/-- A write of one word to a register that may be set in this device. -/
theorem exec_registerWrite_of_settable {t : Nat} {xfer : Xfer} {tag : Byte} {off : Nat} {w : Word} {s : State} {d : Device}
    (hreach : s.dev.Reached xfer 0x20) (hkind : bits tag.toNat 7 6 = 0) (hinert : s.dev.phase ≠ .inert) (haligned : off % 4 = 0)
    (hlimit : off + 4 ≤ registerLimit) (hset : settable off = true) (hgo : writableAt off ≠ some .requestGo)
    (hd : ((s.dev.atTime t).bus xfer).writeWord off w = d) (hcalm : d.Calm) :
    exec (.registerWrite t xfer (writeBytes tag off w ++ (if xfer = .sdr then [] else [0]))) s =
      .next (s.withDev (d.modI3c (fun r => { r with last := word (tag.toNat + statusCode .ok * 256) }))) := by
  subst hd
  exact exec_registerWrite hreach hkind (privateWrite_of_allowed ((s.dev.atTime t).bus xfer) tag off w hkind haligned hlimit
    (writeAllowed_of_settable ((s.dev.atTime t).bus xfer) off hinert hset) hgo) (calm_modI3c hcalm _ rfl)

section
variable {t off : Nat} {tag n : Byte} {s : State} (hs : s.Inv) (hstill : s.dev.Still) (hoff : s.dev.phase ≠ .off)
  (hdyn : s.dev.i3c.dynAddr.isSome = true)
include hs hstill hoff hdyn

/-- A write that is too short is refused, with the protocol-error flag. -/
theorem exec_registerWrite_of_short : exec (.registerWrite t .sdr [tag]) s = .next (s.withDev
    ((((s.dev.atTime t).modI3c (fun r => { r with hdr := false })).modI3c (fun r =>
      { r with last := word (tag.toNat + statusCode .unsupported * 256) })).modI3c (fun r => { r with protocolError := true }))) := by
  have hshort : privateKind [tag] = .refused := by simp [privateKind]
  refine next_runI_of_calm ((transfer_of_reached (s.dev.atTime t) .sdr 0x20 [tag] [tag] _ ⟨hoff, hdyn, .inl rfl⟩ rfl).trans ?_)
    (calm_modI3c (calm_modI3c (calm_modI3c (calm_atTime s t hs hstill) _ rfl) _ rfl) _ rfl)
  rw [bus_sdr, Device.privateWrite, hshort]
  dsimp only
  rw [noteWrite_eq]

/-- A read setup waits for its read. -/
theorem exec_readSetup (hkind : bits tag.toNat 7 6 = 1) (haligned : off % 4 = 0) (hlow : 1 ≤ n.toNat) (hhigh : n.toNat ≤ 64)
    (hlimit : off + 4 * n.toNat ≤ registerLimit) : exec (.readSetup t .sdr (tag :: leBytes 4 off ++ [n])) s =
      .next (s.withDev ((s.dev.atTime t).modI3c (fun r =>
        { r with hdr := false, last := word tag.toNat, setup := some (tag, off, n.toNat) }))) := by
  refine next_runI_of_calm ((transfer_of_reached (s.dev.atTime t) .sdr 0x20 _ _ _ ⟨hoff, hdyn, .inl rfl⟩ rfl).trans ?_)
    (calm_modI3c (calm_atTime s t hs hstill) _ rfl)
  rw [bus_sdr, Device.privateWrite, privateKind_setup tag n off hkind haligned hlow hhigh hlimit]
  dsimp only
  rw [List.cons_append, noteWrite_eq]
  rfl

end

/-! ### Register reads (R679, R633) -/

theorem normal_of_locked (d : Device) (hlocked : d.ctl.locked = true) (hinert : d.phase ≠ .inert) : d.normal = true := by
  simp [Device.normal, hlocked, hinert]

/-- The device once the low half of the time base has been read: it has latched the high half. -/
def Device.latchTime (d : Device) : Device := { d with ctl := { d.ctl with timeHi := word (d.now / 2 ^ 32) } }

theorem word_hi32 (n : Nat) : word (hi32 n) = word (n / 2 ^ 32) := by
  refine BitVec.eq_of_toNat_eq ?_
  rw [word, word, BitVec.toNat_ofNat, BitVec.toNat_ofNat, hi32, Nat.mod_mod]

theorem regRead_time (d : Device) : d.regRead 0x10 = (lo32 d.now, d.latchTime) := by
  have hidle : d.progress 0x10 0 0 = none := rfl
  have hlatch : d.regLatch 0x10 = d.latchTime := by
    rw [Device.latchTime, ← word_hi32]
    rfl
  rw [Device.regRead, hidle, hlatch]
  rfl

theorem regRead_timeHi (d : Device) : d.regRead 0x14 = (d.ctl.timeHi.toNat, d) := rfl

/-- The two time-base registers read together give the time base whole. -/
theorem readWords_time (d : Device) : Device.readWords 2 d 0x10 = (leBytes 8 d.now, d.latchTime) := by
  have hlow : leBytes 4 (lo32 d.now) = leBytes 4 d.now := leBytes_mod 4 d.now
  have hhigh : leBytes 4 (word (d.now / 2 ^ 32)).toNat = leBytes 4 (d.now / 2 ^ 32) := leBytes_mod 4 (d.now / 2 ^ 32)
  have hnext : d.latchTime.regRead (0x10 + 4) = ((word (d.now / 2 ^ 32)).toNat, d.latchTime) := rfl
  simp only [Device.readWords, regRead_time, hnext, List.append_nil]
  rw [hlow, hhigh, leBytes_add 4 4 d.now]
  rfl

theorem privateRead_of_none (d : Device) (h : d.i3c.setup = none) :
    d.privateRead = d.modI3c (fun r => { r with reply := [0x00, 0x0B] }) := by
  rw [Device.privateRead, h]
  rfl

section
variable (d : Device) (tag : Byte) (hsetup : d.i3c.setup = some (tag, 0x10, 2))
include hsetup

theorem privateRead_time (hnormal : d.normal = true) : d.privateRead =
    { d.latchTime with i3c := { d.i3c with setup := none, reply := tag :: 0x00 :: leBytes 8 d.now } } := by
  have hallowed : (d.modI3c (fun r => { r with setup := none })).readAllowed 0x10 2 = true := by
    rw [Device.readAllowed, show (d.modI3c (fun r => { r with setup := none })).normal = true from hnormal, Bool.true_or]
  rw [Device.privateRead, hsetup]
  simp only [hallowed, readWords_time]
  rfl

theorem privateRead_time_of_inert (hinert : d.phase = .inert) : d.privateRead =
    d.modI3c (fun r => { r with setup := none, reply := [tag, 0x0B] }) := by
  have hrefused : (d.modI3c (fun r => { r with setup := none })).readAllowed 0x10 2 = false := by
    have hnormal : (d.modI3c (fun r => { r with setup := none })).normal = false := by
      rw [Device.normal, show (d.modI3c (fun r => { r with setup := none })).phase = .inert from hinert]
      simp
    rw [Device.readAllowed, hnormal]
    decide
  rw [Device.privateRead, hsetup]
  simp only [hrefused, Bool.not_false, if_true]
  rfl

end

section
variable {t : Nat} {xfer : Xfer} {s : State}

/-- A private read that reaches the target. -/
theorem exec_privateRead {d : Device} (hreach : s.dev.Reached xfer 0xA0) (hd : ((s.dev.atTime t).bus xfer).privateRead = d)
    (hq : d.Quiet) : exec (.privateRead t xfer) s = .next (s.withDev d) := by
  have hbytes : transferBytes xfer (0xA0 : Byte).toNat [] = some [] := by
    obtain rfl | ⟨rfl, -⟩ := hreach.2.2
    · rfl
    · rfl
  exact next_run_of_quiet ((transfer_of_reached (s.dev.atTime t) xfer 0xA0 [] [] _ hreach hbytes).trans hd) hq

/-- An HDR-DDR read with another command code is ignored. -/
theorem exec_privateRead_of_other (hs : s.Inv) (c : Byte) (h : c ≠ 0xA0) :
    exec (.privateRead t (.hdr c)) s = .next (s.withDev (s.dev.atTime t)) := by
  refine next_run_of_quiet ?_ (quiet_atTime s t hs)
  have hcode : c.toNat ≠ 0xA0 := fun hc => h (BitVec.eq_of_toNat_eq hc)
  unfold Device.transfer
  split
  · rfl
  · simp only [transferBytes, hcode, ne_eq, not_false_eq_true, if_true]

/-- A read of one register by itself (R679). -/
theorem exec_loRegisterRead (hoff : s.dev.phase ≠ .off) (hnormal : s.dev.normal = true) (w : Word) (v : Nat) (c : Device)
    (haligned : w.toNat % 4 = 0) (hlimit : w.toNat < registerLimit) (hread : (s.dev.atTime t).regRead w.toNat = (v, c))
    (hq : c.Quiet) : exec (.loRegisterRead t w) s = .next (s.withDev (c.answerBytes (leBytes 4 v))) := by
  refine next_run_of_quiet ((if_pos ?_).trans ?_) (quiet_modI3c hq _ rfl)
  · have hallowed : (s.dev.atTime t).readAllowed w.toNat 1 = true := by
      rw [Device.readAllowed, show (s.dev.atTime t).normal = true from hnormal, Bool.true_or]
    rw [hallowed, decide_eq_true hlimit, decide_eq_true haligned]
    simp [hoff]
  · dsimp only
    rw [hread]

end

/-- Settles O57: every transfer has the effect that its form and its register give it. -/
theorem registersWrittenAndRead : Obligations.RegistersWrittenAndRead := by
  refine ⟨fun t xfer tag w s hs hstill hoff hdyn hform hkind => ?_, fun t off xfer tag n s hs hstill hoff hdyn hform => ?_⟩
  · have hreach : s.dev.Reached xfer 0x20 := ⟨hoff, hdyn, hform⟩
    have hcalm : ((s.dev.atTime t).bus xfer).Calm := calm_bus (calm_atTime s t hs hstill) xfer
    refine ⟨fun hinert => ⟨?_, fun hlocked => ?_, fun hopen => ?_⟩, fun hinert => ?_, ?_⟩
    · exact exec_registerWrite_of_settable hreach hkind hinert (by decide) (by decide) (by decide) (by decide) rfl
        (calm_modI3c hcalm _ rfl)
    · exact exec_registerWrite_of_settable (off := 0x800004) hreach hkind hinert (by decide) (by decide) (by decide) (by decide)
        (if_pos hlocked) hcalm
    · exact exec_registerWrite_of_settable (off := 0x800004) hreach hkind hinert (by decide) (by decide) (by decide) (by decide)
        (if_neg (ne_true_of_eq_false hopen)) ⟨hcalm.still, hcalm.mem, hcalm.fresh, hcalm.alert⟩
    · exact exec_registerWrite hreach hkind (privateWrite_of_refused _ tag 0x20C w hkind (by decide) (by decide)
        (writeAllowed_of_inert _ _ _ hinert)) (calm_modI3c hcalm _ rfl)
    · exact exec_registerWrite_of_short hs hstill hoff hdyn
  · have hreach : s.dev.Reached xfer 0xA0 := ⟨hoff, hdyn, hform⟩
    have hquiet : ((s.dev.atTime t).bus xfer).Quiet := quiet_modI3c (quiet_atTime s t hs) _ rfl
    refine ⟨fun hkind haligned hlow hhigh hlimit => ?_, fun hnone => ?_, fun hsetup => ⟨fun hlocked hinert => ?_, fun hinert => ?_⟩,
      exec_privateRead_of_other hs, fun hlocked hinert => ⟨?_, ?_⟩⟩
    · exact exec_readSetup hs hstill hoff hdyn hkind haligned hlow hhigh hlimit
    · exact exec_privateRead hreach (privateRead_of_none _ hnone) (quiet_modI3c hquiet _ rfl)
    · exact exec_privateRead hreach (privateRead_time _ tag hsetup (normal_of_locked _ hlocked hinert))
        ⟨hquiet.mem, hquiet.fresh, hquiet.alert⟩
    · exact exec_privateRead hreach (privateRead_time_of_inert _ tag hsetup hinert) (quiet_modI3c hquiet _ rfl)
    · refine (exec_loRegisterRead hoff (normal_of_locked _ hlocked hinert) 0x10 _ _ (by decide) (by decide)
        (regRead_time (s.dev.atTime t)) ⟨hs.1, hs.2.1, hs.2.2⟩).trans ?_
      rw [show leBytes 4 (lo32 (s.dev.atTime t).now) = leBytes 4 (s.dev.atTime t).now from leBytes_mod 4 _]
      rfl
    · exact exec_loRegisterRead hoff (normal_of_locked _ hlocked hinert) 0x14 _ _ (by decide) (by decide)
        (regRead_timeHi (s.dev.atTime t)) (quiet_atTime s t hs)

end Sys2Proof.Machine
end

section
/-! SUPPORT. Triangles binned and flush jobs (R322 to R343). -/
namespace Sys2Proof.Machine

/-! ### What the tiles of a flush job change -/

/-- `d'` is `d` but for memory, the engines' work and scores, the meters, the seal counters, the recovery count and the events. -/
structure Device.Reads (d d' : Device) : Prop where
  same : d' = { d with
    store := d'.store, ne := d'.ne, toll := d'.toll, sealRegs := d'.sealRegs, ctl := d'.ctl, i3c := d'.i3c }
  wf : Memory.wf d.store.mem = true → Memory.wf d'.store.mem = true

section
variable {d d' d'' : Device}

theorem reads_refl (d : Device) : d.Reads d := ⟨rfl, id⟩

theorem Device.Reads.trans (h : d.Reads d') (h' : d'.Reads d'') : d.Reads d'' where
  same := by
    have hsame := h'.same
    rw [h.same] at hsame
    exact hsame
  wf hm := h'.wf (h.wf hm)

theorem Device.Reads.rfe (h : d.Reads d') : d'.rfe = d.rfe := by rw [h.same]
theorem Device.Reads.sealSt (h : d.Reads d') : d'.sealSt = d.sealSt := by rw [h.same]
theorem Device.Reads.image (h : d.Reads d') : d'.image = d.image := by rw [h.same]
theorem Device.Reads.phase (h : d.Reads d') : d'.phase = d.phase := by rw [h.same]

theorem reads_foldl {α : Type} (l : List α) (f : Device → α → Device) (hf : ∀ (d : Device) a, d.Reads (f d a)) (d : Device) :
    d.Reads (l.foldl f d) :=
  List.foldlRecOn (motive := fun d' : Device => d.Reads d') l f (reads_refl d) fun d' hd' a _ => hd'.trans (hf d' a)

end

section
variable (d : Device)

theorem reads_modEng (e : Nat) (f : Engine → Engine) : d.Reads (d.modEng e f) := ⟨rfl, id⟩
theorem reads_modSeal (f : SealRegs → SealRegs) : d.Reads (d.modSeal f) := ⟨rfl, id⟩
theorem reads_chargeDevice (u : Use) : d.Reads (d.chargeDevice u) := ⟨rfl, id⟩
theorem reads_write (a : Nat) (bs : List Byte) : d.Reads (d.write a bs) := ⟨rfl, device_write_wf d a bs⟩
theorem reads_freeBytes (n : Nat) : d.Reads (d.freeBytes n).2 := ⟨rfl, id⟩

theorem reads_repeated : d.Reads d.repeated := by
  rw [repeated_same]
  exact ⟨rfl, id⟩

theorem reads_scoreDomain (dom points : Nat) : d.Reads (d.scoreDomain dom points) := by
  unfold Device.scoreDomain
  split
  · exact reads_refl d
  · exact reads_modEng d _ _

theorem reads_verify (tile : Nat) : d.Reads (d.verify tile).2 := by
  have hfailed : d.Reads ((d.failAgain tile).countFail (domainOf tile)).repeated :=
    Device.Reads.trans (d' := (d.failAgain tile).countFail (domainOf tile)) ⟨rfl, id⟩ (reads_repeated _)
  unfold Device.verify
  dsimp only
  split
  · exact reads_refl d
  · split
    · exact hfailed.trans ((reads_modSeal _ _).trans (reads_scoreDomain _ _ _))
    · exact hfailed.trans (reads_scoreDomain _ _ _)

theorem reads_reload (tile : Nat) : d.Reads (d.reload tile).2 where
  same := by
    rw [reload_same]
  wf := reload_wf d tile

theorem reads_rung3 (tile ctx : Nat) : d.Reads (d.rung3 tile ctx) := ⟨rfl, id⟩

/-- Rungs 2 and 3 once the re-fetch of a tile has failed. -/
theorem reads_ladder (tile ctx : Nat) (backed : Bool) : d.Reads
    (if backed then
      match d.reload tile with
      | (true, d) => if d.sealed tile then (true, d) else (false, d.rung3 tile ctx)
      | (false, d) => (false, d.rung3 tile ctx)
    else (false, d.rung3 tile ctx)).2 := by
  have hreload := reads_reload d tile
  split
  · split
    · next h =>
      rw [h] at hreload
      split
      · exact hreload
      · exact hreload.trans (reads_rung3 _ _ _)
    · next h =>
      rw [h] at hreload
      exact hreload.trans (reads_rung3 _ _ _)
  · exact reads_rung3 _ _ _

theorem reads_verifyRead (tile ctx : Nat) : d.Reads (d.verifyRead tile ctx).2 := by
  have hverify := reads_verify d tile
  unfold Device.verifyRead
  split
  · next h => rwa [h] at hverify
  · next h => rwa [h] at hverify
  · next d₁ h =>
    rw [h] at hverify
    have hrung : d.Reads (d₁.rung2 tile ctx) := hverify.trans ⟨rfl, id⟩
    exact hrung.trans (reads_ladder _ tile ctx _)

theorem reads_verifyAll (ctx : Nat) (tiles : List Nat) : d.Reads (d.verifyAll ctx tiles).2 :=
  List.foldlRecOn (motive := fun s : Bool × Device => d.Reads s.2) tiles _ (reads_refl d) fun s hs k _ =>
    hs.trans (reads_verifyRead s.2 k ctx)

theorem reads_spendFor (e : Nat) (c : Option Nat) (u : Use) : d.Reads (d.spendFor e c u) := by
  cases c <;> exact ⟨rfl, id⟩

theorem reads_writeHead (r : RasterRec) (buf : Fin 2) (tile first last count flags : Nat) :
    d.Reads (d.writeHead r buf tile first last count flags) := reads_write d _ _

theorem reads_putHead (r : RasterRec) (buf : Fin 2) (tile first last count flags : Nat) :
    d.Reads (d.putHead r buf tile first last count flags) := (reads_writeHead d r buf tile first last count flags).trans (reads_chargeDevice _ _)

theorem reads_flushRecord (r : RasterRec) (g : GeoSet) (tile : Nat) (pix : List Pix) : d.Reads (d.flushRecord r g tile pix).2 :=
  reads_freeBytes d _

theorem reads_flushTile (e : Nat) (r : RasterRec) (g : GeoSet) (tile : Nat) : d.Reads (d.flushTile e r g tile) := by
  have hread := reads_verifyAll d ((d.streamCtx g.stream).getD 0) (spanTiles e (d.tileSpans r g (d.tileWork r g.buf tile) true))
  unfold Device.flushTile
  extract_lets w c spans
  split
  next ok d₁ h =>
  rw [h] at hread
  extract_lets d₂ d₃
  have hspent : d.Reads d₃ := (hread.trans (reads_modSeal _ _)).trans (reads_spendFor _ _ _ _)
  split
  next first last count flags hhead =>
  split
  · exact (hspent.trans (reads_writeHead _ _ _ _ _ _ _ _)).trans (reads_spendFor _ _ _ _)
  · split
    next bytes d₄ hrecord =>
    have hrecorded : d.Reads d₄ := hspent.trans (by
      have hsnd : (d₃.flushRecord r g tile _).2 = d₄ := congrArg Prod.snd hrecord
      exact hsnd ▸ reads_flushRecord d₃ r g tile _)
    extract_lets d₅ d₆
    have hwritten : d.Reads d₆ := (hrecorded.trans (reads_write _ _ _)).trans (reads_writeHead _ _ _ _ _ _ _ _)
    exact (hwritten.trans (reads_spendFor _ _ _ _)).trans (reads_modEng _ _ _)

end

/-! ### A triangle is binned (R322, R325) -/

theorem calm_modRfe {d : Device} (h : d.Calm) (f : Rfe → Rfe) : (d.modRfe f).Calm := ⟨h.still, h.mem, h.fresh, h.alert⟩

theorem calm_putHead {d : Device} (h : d.Calm) (r : RasterRec) (buf : Fin 2) (tile first last count flags : Nat) :
    (d.putHead r buf tile first last count flags).Calm := calm_chargeDevice (calm_write h _ _) _

theorem calm_binEntry {d : Device} (h : d.Calm) (r : RasterRec) (buf : Fin 2) (next n tile : Nat) :
    (d.binEntry r buf next n tile).2.Calm := by
  unfold Device.binEntry
  split
  next first last count flags hhead =>
  split
  · dsimp only
    have hblock (bs : List Byte) : ((d.write (blockAddr next) bs).chargeDevice { well := 256 }).Calm :=
      calm_chargeDevice (calm_write h _ _) _
    refine calm_putHead ?_ r buf tile _ _ _ _
    split
    · exact hblock _
    · exact calm_chargeDevice (calm_write (hblock _) _ _) _
  · exact calm_putHead (calm_chargeDevice (calm_write (calm_write h _ _) _ _) _) r buf tile _ _ _ _

/-- The device once a triangle that lies in tiles or in none is taken (R322, R343). -/
def Device.countTriangle (d : Device) (n : Nat) : Device := d.modRfe (fun y =>
  { y with served := y.served + 1, tris := (y.tris + 1) % 2 ^ 64, offscreen := if n = 0 then satInc y.offscreen else y.offscreen })

/-- The tiles of a set's next triangle. -/
def Device.nextTiles (d : Device) (r : RasterRec) (x : SetRec) : List Nat :=
  (d.triangle (r.geoBaseOf x.1.buf) x.1.nvert x.2.nextTri).tiles r

/-- The entries of a set's next triangle in the lists of its tiles, with the next free block. -/
def Device.binTiles (d : Device) (r : RasterRec) (x : SetRec) : Nat × Device :=
  (d.nextTiles r x).foldl (fun (y : Nat × Device) tile => y.2.binEntry r x.1.buf y.1 x.2.nextTri tile) (x.2.nextBlock, d.countTriangle 1)

section
variable (d : Device) (r : RasterRec) (x : SetRec)

theorem binNext_of_offscreen (h : d.nextTiles r x = []) : d.binNext r x =
    (d.countTriangle 0).putSet (SetRec.close (x.1, { x.2 with nextTri := x.2.nextTri + 1 })) := by
  refine if_pos ?_
  change (d.nextTiles r x).isEmpty = true
  rw [h]
  rfl

theorem binNext_of_room (h : d.nextTiles r x ≠ []) (hdenied : x.2.denied = false)
    (hroom : ((d.nextTiles r x).filter (d.needsBlock r x.1.buf)).length ≤ r.block0 x.1.buf + r.quota - x.2.nextBlock) :
    d.binNext r x = (d.binTiles r x).2.putSet
      (SetRec.close (x.1, { x.2 with nextTri := x.2.nextTri + 1, nextBlock := (d.binTiles r x).1 })) := by
  have hempty : ¬ (d.nextTiles r x).isEmpty = true := by simpa using h
  refine (if_neg hempty).trans ((if_neg (by simp [hdenied])).trans ((if_neg (Nat.not_lt.mpr hroom)).trans rfl))

variable {d r x}

theorem calm_binTiles (h : d.Calm) : (d.binTiles r x).2.Calm :=
  List.foldlRecOn (motive := fun y : Nat × Device => y.2.Calm) _ _ (show (d.countTriangle 1).Calm from calm_modRfe h _) fun y hy tile _ =>
    calm_binEntry hy r x.1.buf y.1 x.2.nextTri tile

end

/-- The set that is served bins its next triangle. -/
theorem exec_triangleBinning_of_served (t : Nat) (x : SetRec) (r : RasterRec) (s : State) {d : Device} (hphase : s.dev.phase = .running)
    (hserved : s.dev.keepsServing = some x) (hpending : x.pending = true) (hr : s.dev.image.rasters[x.1.recIdx]? = some r)
    (hd : (s.dev.atTime t).binNext r x = d) (hcalm : d.Calm) : exec (.triangleBinning t) s = .next (s.withDev d) := by
  refine next_whenRunning_of_calm hphase ?_ hcalm
  have hserved' : (s.dev.atTime t).keepsServing = some x := hserved
  have hr' : (s.dev.atTime t).image.rasters[x.1.recIdx]? = some r := hr
  simp only [hserved', hpending, if_true, hr', hd]

/-! ### A flush job starts (R337 to R339) -/

theorem exec_flushJobStart_of_ready (t : Nat) (e : Fin 6) (x : SetRec) (s : State) {d : Device} (hphase : s.dev.phase = .running)
    (hx : (sortBy (s.dev.atTime t).setBefore s.dev.rfe.sets).find? ((s.dev.atTime t).flushReady e.val) = some x)
    (hd : (s.dev.atTime t).beginFlush e.val x = d) (hcalm : d.Calm) : exec (.flushJobStart t e) s = .next (s.withDev d) := by
  refine next_whenRunning_of_calm hphase ?_ hcalm
  have hx' : (sortBy (s.dev.atTime t).setBefore (s.dev.atTime t).rfe.sets).find? ((s.dev.atTime t).flushReady e.val) = some x := hx
  simp only [hx', hd]

theorem calm_spendFor {d : Device} (h : d.Calm) (e : Nat) (c : Option Nat) (u : Use) : (d.spendFor e c u).Calm := by
  have hsteps : (d.modEng e (fun x => { x with steps := x.steps + u.steps, periodSteps := x.periodSteps + u.steps })).Calm :=
    calm_modEng h e _ fun _ => rfl
  cases c <;> exact ⟨hsteps.still, hsteps.mem, hsteps.fresh, hsteps.alert⟩

theorem spendFor_eng (d : Device) (e : Nat) (c : Option Nat) (u : Use) (n : Nat) : (d.spendFor e c u).eng n =
    (d.modEng e (fun x => { x with steps := x.steps + u.steps, periodSteps := x.periodSteps + u.steps })).eng n := by
  cases c <;> rfl

theorem calm_freeBytes {d : Device} (h : d.Calm) (n : Nat) : (d.freeBytes n).2.Calm := ⟨h.still, h.mem, h.fresh, h.alert⟩

theorem spendFor_rfe (d : Device) (e : Nat) (c : Option Nat) (u : Use) : (d.spendFor e c u).rfe = d.rfe := by cases c <;> rfl
theorem spendFor_itn (d : Device) (e : Nat) (c : Option Nat) (u : Use) : (d.spendFor e c u).itn = d.itn := by cases c <;> rfl
theorem spendFor_store (d : Device) (e : Nat) (c : Option Nat) (u : Use) : (d.spendFor e c u).store = d.store := by cases c <;> rfl

/-- Free bytes at an address. -/
def Device.fillFree (d : Device) (a n : Nat) : Device := (d.freeBytes n).2.write a (d.freeBytes n).1

theorem fillFree_rfe (d : Device) (a n : Nat) : (d.fillFree a n).rfe = d.rfe := rfl
theorem fillFree_itn (d : Device) (a n : Nat) : (d.fillFree a n).itn = d.itn := rfl
theorem fillFree_eng (d : Device) (a n e : Nat) : (d.fillFree a n).eng e = d.eng e := rfl

theorem fillFree_get_out (d : Device) (a n i : Nat) (h : i < a ∨ a + n ≤ i) :
    memGet (d.fillFree a n).store.mem i = memGet d.store.mem i := by
  refine device_write_get_out _ a _ i ?_
  rwa [show (d.freeBytes n).1.length = n by rw [Device.freeBytes, List.length_map, List.length_range]]

theorem peek_one_congr {d d' : Device} {a : Nat} (h : memGet d'.store.mem a = memGet d.store.mem a) : d'.peek a 1 = d.peek a 1 := by
  refine List.ext_getElem ((memGetN_length _ _ _).trans (memGetN_length _ _ _).symm) fun i hi hi' => ?_
  have hone : i < 1 := hi.trans_eq (memGetN_length _ _ _)
  have hread (y : Device) : (y.peek a 1).getD i 0 = memGet y.store.mem a := by
    rw [Device.peek, memGetN_getD _ _ _ _ hone, Nat.lt_one_iff.mp hone, Nat.add_zero]
  rw [← List.getD_eq_getElem _ 0 hi, ← List.getD_eq_getElem _ 0 hi', hread, hread, h]

/-- The device once a flush job of a set on engine `e` is charged and has its two record buffers. -/
def Device.openBuffers (d : Device) (e : Nat) (x : SetRec) : Device :=
  (d.spendFor e (d.streamCtx x.1.stream) { emptySteps := 16 }).fillFree (scratchBase e) (2 * flushBytes)

section
variable (d : Device) (e : Nat) (x : SetRec)

theorem beginFlush_of_waiting {f done : Nat} {b : Bool} (h : x.2.flush = some (f, b, done)) :
    d.beginFlush e x = (d.openBuffers e x).putSet (x.1, { x.2 with flush := some (e, true, done) }) := by
  simp only [Device.beginFlush, Device.openBuffers, Device.fillFree, h]

variable {d e x}

theorem calm_openBuffers (h : d.Calm) : (d.openBuffers e x).Calm :=
  calm_write (calm_freeBytes (calm_spendFor h e (d.streamCtx x.1.stream) _) _) _ _

theorem openBuffers_rfe : (d.openBuffers e x).rfe = d.rfe :=
  (fillFree_rfe _ _ _).trans (spendFor_rfe _ _ _ _)

theorem openBuffers_itn : (d.openBuffers e x).itn = d.itn :=
  (fillFree_itn _ _ _).trans (spendFor_itn _ _ _ _)

theorem openBuffers_steps (he : e < 6) : ((d.openBuffers e x).eng e).steps = (d.eng e).steps + 16 := by
  refine (congrArg Engine.steps ((fillFree_eng _ _ _ e).trans (spendFor_eng d e _ _ e))).trans ?_
  rw [eng_modEng _ _ _ he]
  rfl

theorem openBuffers_peek {a : Nat} (ha : a < scratchBase e ∨ scratchBase e + 34816 ≤ a) :
    (d.openBuffers e x).peek a 1 = d.peek a 1 := by
  refine peek_one_congr ((fillFree_get_out _ _ _ _ ha).trans ?_)
  rw [spendFor_store]

end

/-! ### The head table after a write -/

theorem peek_write_out (d : Device) (a n b : Nat) (bs : List Byte) (h : a + n ≤ b ∨ b + bs.length ≤ a) :
    (d.write b bs).peek a n = d.peek a n := by
  refine List.ext_getElem ((memGetN_length _ _ _).trans (memGetN_length _ _ _).symm) fun i hi hi' => ?_
  have hin : i < n := hi.trans_eq (memGetN_length _ _ _)
  have hread (y : Device) : (y.peek a n).getD i 0 = memGet y.store.mem (a + i) := memGetN_getD _ _ _ _ hin
  rw [← List.getD_eq_getElem _ 0 hi, ← List.getD_eq_getElem _ 0 hi', hread, hread]
  exact device_write_get_out d b bs (a + i) (by omega)

theorem peek_write_same (d : Device) (a : Nat) (bs : List Byte) : (d.write a bs).peek a bs.length = bs := by
  refine List.ext_getElem (memGetN_length _ _ _) fun i hi hi' => ?_
  rw [← List.getD_eq_getElem _ 0 hi, ← List.getD_eq_getElem _ 0 hi']
  exact (memGetN_getD _ _ _ _ hi').trans (device_write_get_in d a bs i hi')

/-- The bytes of a head-table entry (Table 7.7). -/
def headBytes (first last count flags : Nat) : List Byte := leBytes 4 first ++ leBytes 4 last ++ leBytes 4 count ++ leBytes 4 flags

theorem length_headBytes (first last count flags : Nat) : (headBytes first last count flags).length = 16 := by
  simp only [headBytes, List.length_append, length_leBytes]

section
variable (d : Device) (r : RasterRec) (buf : Fin 2) (first last count flags : Nat)

theorem head_putHead_ne {i tile : Nat} (h : i ≠ tile) : (d.putHead r buf tile first last count flags).head r buf i = d.head r buf i := by
  have hpeek : (d.putHead r buf tile first last count flags).peek (r.headAddr buf i) 16 = d.peek (r.headAddr buf i) 16 := by
    refine peek_write_out d _ 16 (r.headAddr buf tile) (headBytes first last count flags) ?_
    rw [length_headBytes, RasterRec.headAddr, RasterRec.headAddr]
    omega
  simp only [Device.head, hpeek]

theorem head_putHead_same (tile : Nat) :
    let h := (d.putHead r buf tile first last count flags).head r buf tile
    h.1 = first % 2 ^ 32 ∧ h.2.1 = last % 2 ^ 32 ∧ h.2.2.1 = count % 2 ^ 32 := by
  have hpeek : (d.putHead r buf tile first last count flags).peek (r.headAddr buf tile) 16 = headBytes first last count flags := by
    have hsame := peek_write_same d (r.headAddr buf tile) (headBytes first last count flags)
    rwa [length_headBytes] at hsame
  have hword (o v : Nat) (pre post : List Byte) (ho : pre.length = o) : field (pre ++ (leBytes 4 v ++ post)) o 4 = v % 2 ^ 32 := by
    rw [field, List.drop_left' ho, List.take_left' (length_leBytes 4 v), leNat_leBytes, show 256 ^ 4 = 2 ^ 32 from rfl]
  simp only [Device.head, hpeek, headBytes, List.append_assoc]
  refine ⟨hword 0 first [] _ rfl, hword 4 last (leBytes 4 first) _ (length_leBytes _ _), ?_⟩
  rw [← List.append_assoc]
  exact hword 8 count _ _ (by rw [List.length_append, length_leBytes, length_leBytes])

end

/-! ### A flush job ends (Table 7.9) -/

/-- The head-table entry of a tile with an empty list; its flags stay. -/
def Device.emptyHead (d : Device) (r : RasterRec) (buf : Fin 2) (t : Nat) : Device :=
  d.putHead r buf t noBlock noBlock 0 (d.head r buf t).2.2.2

/-- Order 7: the lists of the first `n` tiles are empty. -/
def Device.emptyHeads (d : Device) (r : RasterRec) (buf : Fin 2) (n : Nat) : Device :=
  (List.range n).foldl (fun d t => d.emptyHead r buf t) d

/-- At most `n` more tiles of the flush job of a set, after the first `done`. -/
def Device.flushTiles (d : Device) (e n done : Nat) (r : RasterRec) (x : SetRec) : Device :=
  (((d.flushList r x.1.buf).drop done).take n).foldl (fun (d : Device) t => d.flushTile e r x.1 t) d

/-- A set whose flush job has ended (Table 7.9). -/
def Device.flushed (d : Device) (r : RasterRec) (x : SetRec) : SetRec :=
  (x.1, { x.2 with
    flush := none, nextBlock := r.block0 x.1.buf + r.headBlocks
    incomplete := (List.range (r.tw * r.th)).any (fun t => bit (d.tileFlags r x.1.buf t) 1) })

section
variable (d : Device) (r : RasterRec)

theorem emptyHeads_succ (buf : Fin 2) (n : Nat) : d.emptyHeads r buf (n + 1) = (d.emptyHeads r buf n).emptyHead r buf n := by
  rw [Device.emptyHeads, List.range_succ, List.foldl_append]
  rfl

theorem head_emptyHeads (buf : Fin 2) (n i : Nat) (hi : i < n) :
    let h := (d.emptyHeads r buf n).head r buf i
    h.1 = noBlock ∧ h.2.1 = noBlock ∧ h.2.2.1 = 0 := by
  induction n with
  | zero => exact absurd hi (Nat.not_lt_zero i)
  | succ n ih =>
    rw [emptyHeads_succ]
    by_cases hin : i = n
    · subst hin
      exact head_putHead_same _ r buf noBlock noBlock 0 _ i
    · rw [Device.emptyHead, head_putHead_ne _ _ _ _ _ _ _ hin]
      exact ih (Nat.lt_of_le_of_ne (Nat.le_of_lt_succ hi) hin)

theorem reads_emptyHeads (buf : Fin 2) (n : Nat) : d.Reads (d.emptyHeads r buf n) :=
  reads_foldl _ _ (fun d t => reads_putHead d r buf t _ _ _ _) d

theorem reads_flushTiles (e n done : Nat) (x : SetRec) : d.Reads (d.flushTiles e n done r x) :=
  reads_foldl _ _ (fun d t => reads_flushTile d e r x.1 t) d

variable (e n done : Nat) (x : SetRec)

theorem flushSome_of_record (hr : d.image.rasters[x.1.recIdx]? = some r) : d.flushSome e n done x =
    (d.flushTiles e n done r x).putSet (x.1, { x.2 with flush := some (e, true, done + (((d.flushList r x.1.buf).drop done).take n).length) }) := by
  simp only [Device.flushSome, hr]
  rfl

theorem resetLists_eq : d.resetLists r x =
    (d.emptyHeads r x.1.buf (r.tw * r.th)).putSet ((d.emptyHeads r x.1.buf (r.tw * r.th)).flushed r x) := rfl

/-- The device once every tile of a set's flush job is sealed and its lists are empty. -/
def Device.flushLists (d : Device) (e done : Nat) (r : RasterRec) (x : SetRec) : Device :=
  (d.flushSome e (r.tw * r.th) done x).emptyHeads r x.1.buf (r.tw * r.th)

theorem flushAll_of_running {f : Nat} {b : Bool} (hr : d.image.rasters[x.1.recIdx]? = some r) (hx : x.2.flush = some (f, b, done)) :
    d.flushAll e x = (d.flushLists e done r x).putSet ((d.flushLists e done r x).flushed r x) := by
  simp only [Device.flushAll, hr, hx]
  rfl

theorem keepsLists_flushLists : d.KeepsLists (d.flushLists e done r x) := by
  have hheads (d : Device) : d.KeepsLists (d.emptyHeads r x.1.buf (r.tw * r.th)) :=
    keepsLists_foldl _ _ (fun d t => show d.KeepsLists (d.emptyHead r x.1.buf t) from keepsLists_of_same rfl rfl rfl rfl) d
  exact (keepsLists_flushSome d e _ done x).trans (hheads _)

variable (hr : d.image.rasters[x.1.recIdx]? = some r)
include hr

theorem flushLists_sealSt : (d.flushLists e done r x).sealSt = d.sealSt := by
  rw [Device.flushLists, flushSome_of_record d r e _ done x hr]
  exact (reads_emptyHeads _ r _ _).sealSt.trans (reads_flushTiles d r e _ done x).sealSt

theorem flushLists_wf (hm : Memory.wf d.store.mem = true) : Memory.wf (d.flushLists e done r x).store.mem = true := by
  rw [Device.flushLists, flushSome_of_record d r e _ done x hr]
  exact (reads_emptyHeads _ r _ _).wf ((reads_flushTiles d r e _ done x).wf hm)

end

theorem exec_flushJobEnd_of_running (t : Nat) (e : Fin 6) (x : SetRec) (s : State) {d : Device} (hphase : s.dev.phase = .running)
    (hx : s.dev.flushSet e.val = some x) (hd : (s.dev.atTime t).flushAll e.val x = d) :
    exec (.flushJobEnd t e) s = .next (s.withDev d.retireCheck.pump.settle) := by
  refine congrArg Host.Outcome.next ((runI_whenRunning s t _ hphase).trans ?_)
  have hx' : (s.dev.atTime t).flushSet e.val = some x := hx
  simp only [hx', hd]

/-- The job that runs on an engine is that of a set whose flush names it. -/
theorem flushSet_running {d : Device} {e : Nat} {x : SetRec} (h : d.flushSet e = some x) : ∃ done, x.2.flush = some (e, true, done) := by
  have hfind := List.find?_some h
  split at hfind
  · next f running done hflush =>
    simp only [Bool.and_eq_true, decide_eq_true_eq] at hfind
    obtain ⟨rfl, rfl⟩ := hfind
    exact ⟨done, hflush⟩
  · exact absurd hfind Bool.false_ne_true

/-- A set replaced by its new value stands with that value alone. -/
theorem putSet_sets_same (d : Device) (x y : SetRec) (hy : y ∈ (d.putSet x).rfe.sets) (hsame : sameSet x y = true) : y = x := by
  obtain ⟨z, -, rfl⟩ := List.mem_map.mp hy
  split
  · rfl
  · next h => rw [if_neg h] at hsame; exact absurd hsame h

theorem flushJob_ends (t : Nat) (e : Fin 6) (x : SetRec) (r : RasterRec) (s : State) (hs : s.Inv) (hstill : s.dev.Still)
    (hphase : s.dev.phase = .running) (hx : s.dev.flushSet e.val = some x) (hr : s.dev.image.rasters[x.1.recIdx]? = some r)
    (hbelow : ∀ i < 6, (((s.dev.atTime t).flushAll e.val x).eng i).retired = true ∨
      (((s.dev.atTime t).flushAll e.val x).eng i).score < s.dev.sealSt.retireThresh) :
    ∃ s', exec (.flushJobEnd t e) s = .next s' ∧ s'.pending = s.pending ∧
      (∀ i < r.tw * r.th, let h := s'.dev.head r x.1.buf i
        h.1 = noBlock ∧ h.2.1 = noBlock ∧ h.2.2.1 = 0) ∧
      (∀ y ∈ s'.dev.rfe.sets, sameSet x y = true → y.2.flush = none ∧ y.2.nextBlock = r.block0 x.1.buf + r.headBlocks) := by
  obtain ⟨done, hflush⟩ := flushSet_running hx
  have hr' : (s.dev.atTime t).image.rasters[x.1.recIdx]? = some r := hr
  have hcalm := calm_atTime s t hs hstill
  have hall := flushAll_of_running _ r e.val done x hr' hflush
  have hexec := exec_flushJobEnd_of_running t e x s hphase hx hall
  rw [hall] at hbelow
  have hkeeps := keepsLists_flushLists (s.dev.atTime t) r e.val done x
  have hsealSt := flushLists_sealSt (s.dev.atTime t) r e.val done x hr'
  have hwf := flushLists_wf (s.dev.atTime t) r e.val done x hr' hcalm.mem
  have hheads := head_emptyHeads ((s.dev.atTime t).flushSome e.val (r.tw * r.th) done x) r x.1.buf (r.tw * r.th)
  change ∀ i, i < r.tw * r.th → let h := ((s.dev.atTime t).flushLists e.val done r x).head r x.1.buf i
    h.1 = noBlock ∧ h.2.1 = noBlock ∧ h.2.2.1 = 0 at hheads
  obtain ⟨d, hd⟩ : ∃ d, d = (s.dev.atTime t).flushLists e.val done r x := ⟨_, rfl⟩
  rw [← hd] at hexec hbelow hkeeps hsealSt hwf hheads
  have hstill' : (d.putSet (d.flushed r x)).Still := hkeeps.still hcalm.still
  have hthreshold : (d.putSet (d.flushed r x)).BelowThreshold := fun i hi => by
    have h := hbelow i hi
    change _ ∨ _ < d.sealSt.retireThresh
    rwa [hsealSt]
  rw [retireCheck_of_below _ hthreshold, pump_of_still _ hstill'] at hexec
  have hstore : (d.putSet (d.flushed r x)).settle.store = d.store := settle_store_of_wf _ hwf
  refine ⟨_, hexec, rfl, fun i hi => ?_, fun y hy hsame => ?_⟩
  · have hpeek : ((d.putSet (d.flushed r x)).settle).head r x.1.buf i = d.head r x.1.buf i := by
      simp only [Device.head, Device.peek, hstore]
    have h := hheads i hi
    rw [← hpeek] at h
    exact h
  · rw [putSet_sets_same d (d.flushed r x) y hy hsame]
    exact ⟨rfl, rfl⟩

/-- Settles O39: a triangle's entries and a job's record buffers are writes of a calm device, and the head-table entries that the
end of a job writes lie apart, so that each reads back empty. -/
theorem setsBinAndFlush : Obligations.SetsBinAndFlush := by
  unfold Obligations.SetsBinAndFlush
  refine ⟨?_, ?_⟩
  · intro t x r s hs hstill hphase hserved hpending hr d tiles counted
    have hcalm : d.Calm := calm_atTime s t hs hstill
    refine ⟨fun htiles => ?_, fun htiles hdenied hroom => ?_⟩
    · exact exec_triangleBinning_of_served t x r s hphase hserved hpending hr (binNext_of_offscreen d r x htiles)
        (calm_modRfe (calm_modRfe hcalm _) _)
    · exact exec_triangleBinning_of_served t x r s hphase hserved hpending hr (binNext_of_room d r x htiles hdenied hroom)
        (calm_modRfe (calm_binTiles hcalm) _)
  · intro t e x s hs hstill hphase d
    refine ⟨fun done hx hflush => ?_, fun r hx hr hbelow => flushJob_ends t e x r s hs hstill hphase hx hr hbelow⟩
    have hcalm : d.Calm := calm_atTime s t hs hstill
    have hexec := exec_flushJobStart_of_ready t e x s hphase hx (beginFlush_of_waiting d e.val x hflush)
      (calm_modRfe (calm_openBuffers hcalm) _)
    have hrfe : (d.openBuffers e.val x).rfe = d.rfe := openBuffers_rfe
    have hitn : (d.openBuffers e.val x).itn = d.itn := openBuffers_itn
    have hsteps := openBuffers_steps (d := d) (x := x) e.isLt
    have hpeek (a : Nat) (ha : a < scratchBase e.val ∨ scratchBase e.val + 34816 ≤ a) := openBuffers_peek (d := d) (x := x) ha
    obtain ⟨d', hd'⟩ : ∃ d', d' = d.openBuffers e.val x := ⟨_, rfl⟩
    rw [← hd'] at hexec hrfe hitn hsteps hpeek
    refine ⟨_, hexec, rfl, ?_, hsteps, hitn, hpeek⟩
    exact congrArg (fun y : Rfe => { y with sets := y.sets.map (fun z =>
      if sameSet (x.1, { x.2 with flush := some (e.val, true, done) }) z then (x.1, { x.2 with flush := some (e.val, true, done) }) else z) }) hrfe

end Sys2Proof.Machine
end

section
/-! SUPPORT. The decision times of anchors and guides (R284, R307, R308). -/
namespace Sys2Proof.Machine

/-! ### What the causes of a slot change -/

/-- `d'` is `d` but for further causes of slot `m` of stream `s`, its distance and their events. -/
structure Device.Degrades (d d' : Device) (s m : Nat) : Prop where
  same : d' = { d with streams := d'.streams, i3c := d'.i3c }
  selected : (d'.strm s).selected = (d.strm s).selected
  decided : (d'.strm s).decided = (d.strm s).decided
  inUse : (d'.strm s).inUse = (d.strm s).inUse
  held : (d'.strm s).held = (d.strm s).held
  anchor : (d'.slot s m).anchor = (d.slot s m).anchor
  causes : ∀ b, (d.slot s m).causes.getLsbD b = true → (d'.slot s m).causes.getLsbD b = true

section
variable {d d' d'' : Device} {s m : Nat}

theorem degrades_refl (d : Device) : d.Degrades d s m := ⟨rfl, rfl, rfl, rfl, rfl, rfl, fun _ h => h⟩

theorem Device.Degrades.trans (h : d.Degrades d' s m) (h' : d'.Degrades d'' s m) : d.Degrades d'' s m where
  same := by
    have hsame := h'.same
    rw [h.same] at hsame
    exact hsame
  selected := h'.selected.trans h.selected
  decided := h'.decided.trans h.decided
  inUse := h'.inUse.trans h.inUse
  held := h'.held.trans h.held
  anchor := h'.anchor.trans h.anchor
  causes b hb := h'.causes b (h.causes b hb)

theorem Device.Degrades.keepsLists (h : d.Degrades d' s m) : d.KeepsLists d' := by
  rw [h.same]
  exact keepsLists_of_same rfl rfl rfl rfl

theorem strm_degrade_field {α : Type} (p : Stream → α) (d : Device) (s n cause k : Nat) (h : ∀ x y, p { x with slots := y } = p x) :
    p ((d.degrade s n cause).strm k) = p (d.strm k) := by
  rw [Device.strm, degrade_streams]
  by_cases hk : s = k
  · subst hk
    exact strm_modStrm_field p d s _ fun x => h x _
  · exact congrArg p (vget_vmod_ne _ _ _ _ _ hk)

theorem degrades_degrade (hs : s < 32) (d : Device) (cause : Nat) : d.Degrades (d.degrade s m cause) s m where
  same := by
    rw [degrade_same]
  selected := strm_degrade_field Stream.selected d s m cause s fun _ _ => rfl
  decided := strm_degrade_field Stream.decided d s m cause s fun _ _ => rfl
  inUse := strm_degrade_field Stream.inUse d s m cause s fun _ _ => rfl
  held := strm_degrade_field Stream.held d s m cause s fun _ _ => rfl
  anchor := by
    rw [slot_degrade d s m cause hs]
    rfl
  causes b hb := by
    rw [slot_degrade d s m cause hs, Slot.degraded, BitVec.getLsbD_or, hb, Bool.true_or]

/-- The cause that arises is set. -/
theorem cause_degrade (hs : s < 32) (d : Device) {cause : Nat} (hcause : cause < 13) :
    ((d.degrade s m cause).slot s m).causes.getLsbD cause = true := by
  rw [slot_degrade d s m cause hs, Slot.degraded, BitVec.getLsbD_or, BitVec.getLsbD_ofNat, Nat.testBit_two_pow_self]
  simp [hcause]

/-- A slot's distance is noted, and the stream's last one (R286). -/
def Device.noteDistance (d : Device) (s m dist : Nat) : Device :=
  let inUse := (d.strm s).inUse
  (d.modSlot s m (fun x => { x with dist := some dist, used := inUse })).modStrm s (fun x => { x with lastD := dist })

theorem degrades_noteDistance (hs : s < 32) (d : Device) (dist : Nat) : d.Degrades (d.noteDistance s m dist) s m := by
  unfold Device.noteDistance
  extract_lets inUse
  have hslot : (d.modSlot s m (fun x => { x with dist := some dist, used := inUse })).slot s m =
      { d.slot s m with dist := some dist, used := inUse } := slot_modSlot d s m _ hs fun _ => rfl
  generalize hd₁ : d.modSlot s m (fun x => { x with dist := some dist, used := inUse }) = d₁ at hslot
  have hslot' : (d₁.modStrm s (fun x => { x with lastD := dist })).slot s m = d₁.slot s m :=
    strm_modStrm_field (fun x : Stream => x.slot m) d₁ s _ fun _ => rfl
  have hfield {α : Type} (p : Stream → α) (h : ∀ x y, p { x with slots := y } = p x) (h' : ∀ x y, p { x with lastD := y } = p x) :
      p ((d₁.modStrm s (fun x => { x with lastD := dist })).strm s) = p (d.strm s) := by
    rw [strm_modStrm_field p d₁ s _ fun x => h' x _, ← hd₁]
    exact strm_modStrm_field p d s _ fun x => h x _
  exact
    { same := by rw [← hd₁]; rfl
      selected := hfield Stream.selected (fun _ _ => rfl) fun _ _ => rfl
      decided := hfield Stream.decided (fun _ _ => rfl) fun _ _ => rfl
      inUse := hfield Stream.inUse (fun _ _ => rfl) fun _ _ => rfl
      held := hfield Stream.held (fun _ _ => rfl) fun _ _ => rfl
      anchor := by rw [hslot', hslot]
      causes := fun b hb => by rwa [hslot', hslot] }

theorem settleDistance_eq (d : Device) : d.settleDistance s m =
    if (d.noteDistance s m (d.distance s m)).ssbG s ≤ d.distance s m then (d.noteDistance s m (d.distance s m)).degrade s m 11
    else d.noteDistance s m (d.distance s m) := by
  unfold Device.settleDistance Device.noteDistance
  generalize d.distance s m = dist
  rfl

theorem degrades_settleDistance (hs : s < 32) (d : Device) : d.Degrades (d.settleDistance s m) s m := by
  rw [settleDistance_eq]
  generalize d.distance s m = dist
  split
  · exact (degrades_noteDistance hs d dist).trans (degrades_degrade hs _ 11)
  · exact degrades_noteDistance hs d dist

end

/-! ### A slot's anchor is selected (R284, R42) -/

/-- The anchors still held once one is selected: no older one, but those that an encode list takes (R284). -/
def Device.heldAfter (d : Device) (s : Nat) (sel : Option Anchor) : List Anchor :=
  match sel with
  | some a => (d.strm s).held.filter (fun b => decide (a.tag ≤ b.tag) || d.encoding s b.tag)
  | none => (d.strm s).held

/-- The selection of slot `m`, before what it settles. -/
def Device.choose (d : Device) (s m : Nat) : Device :=
  let sel := d.usableAnchor s m
  let d := d.modSlot s m (fun y => { y with anchor := sel })
  d.modStrm s (fun x =>
    { x with
      selected := sel, decided := m + 1,
      held := match sel with
        | some a => x.held.filter (fun b => decide (a.tag ≤ b.tag) || d.encoding s b.tag)
        | none => x.held })

/-- The slot has not its own anchor although it is anchor-aligned (R42). -/
def Device.anchorAbsent (d : Device) (s m : Nat) (sel : Option Anchor) : Bool :=
  d.anchorAligned s m && sel.map (·.tag) ≠ some m

/-- What the selection settles of the slot: its causes and its distance (R42, R24, R286). -/
def Device.settleSlot (d : Device) (s m : Nat) (sel : Option Anchor) : Device :=
  let d := if d.anchorAbsent s m sel then d.degrade s m (if (d.slot s m).anchorBad then 1 else 0) else d
  let d := if d.noMotion s m then d.degrade s m 12 else d
  if d.noAnchor s m then d.degrade s m 9
  else if (d.newerAnchor s m).isSome && d.encodeEntry s m then d
  else d.settleDistance s m

theorem select_eq (d : Device) (s m : Nat) : d.select s m = (d.choose s m).settleSlot s m (d.usableAnchor s m) := rfl

section
variable (d : Device) {s : Nat} (m : Nat) (hs : s < 32)
include hs

theorem choose_strm : (d.choose s m).strm s =
    { (d.strm s).modSlot m (fun y => { y with anchor := d.usableAnchor s m }) with
      selected := d.usableAnchor s m, decided := m + 1, held := d.heldAfter s (d.usableAnchor s m) } := by
  have hstrm : (d.modSlot s m (fun y => { y with anchor := d.usableAnchor s m })).strm s =
      (d.strm s).modSlot m (fun y => { y with anchor := d.usableAnchor s m }) := vget_vmod_same _ _ _ _ hs
  refine (vget_vmod_same _ _ _ _ hs).trans ?_
  rw [← Device.strm, hstrm]
  rfl

theorem choose_slot : (d.choose s m).slot s m = { d.slot s m with anchor := d.usableAnchor s m } := by
  have hslot := slot_modSlot d s m (fun y => { y with anchor := d.usableAnchor s m }) hs fun _ => rfl
  rw [← hslot]
  exact strm_modStrm_field (fun x : Stream => x.slot m) _ s _ fun _ => rfl

variable (sel : Option Anchor)

theorem degrades_if (c : Bool) (cause : Nat) : d.Degrades (if c then d.degrade s m cause else d) s m := by
  split
  · exact degrades_degrade hs d cause
  · exact degrades_refl d

theorem degrades_settleRest : d.Degrades
    (let d := if d.noMotion s m then d.degrade s m 12 else d
     if d.noAnchor s m then d.degrade s m 9
     else if (d.newerAnchor s m).isSome && d.encodeEntry s m then d
     else d.settleDistance s m) s m := by
  extract_lets d₁
  refine Device.Degrades.trans (d' := d₁) (degrades_if d m hs (d.noMotion s m) 12) ?_
  split
  · exact degrades_degrade hs d₁ 9
  · split
    · exact degrades_refl d₁
    · exact degrades_settleDistance hs d₁

theorem degrades_settleSlot : d.Degrades (d.settleSlot s m sel) s m :=
  (degrades_if d m hs _ _).trans (degrades_settleRest _ m hs)

/-- R42: the cause of an anchor-aligned slot without its own anchor. -/
theorem cause_settleSlot (h : d.anchorAbsent s m sel = true) :
    ((d.settleSlot s m sel).slot s m).causes.getLsbD (if (d.slot s m).anchorBad then 1 else 0) = true := by
  have hcause : (if (d.slot s m).anchorBad then 1 else 0) < 13 := by split <;> decide
  refine (degrades_settleRest _ m hs).causes _ ?_
  rw [if_pos h]
  exact cause_degrade hs d hcause

end

theorem exec_anchorSelection_of_due (t m : Nat) (x : Fin 32) (s : State) {d : Device} (hphase : s.dev.phase = .running)
    (hm : (s.dev.atTime t).decidedSlot x.val = some m) (hssb : s.dev.hasSsb x.val = true) (hd : (s.dev.atTime t).select x.val m = d) :
    exec (.anchorSelection t x) s = .next (s.withDev d.pump.settle) := by
  refine congrArg Host.Outcome.next ((runI_whenRunning s t _ hphase).trans ?_)
  have hssb' : (s.dev.atTime t).hasSsb x.val = true := hssb
  simp only [hm, hssb', if_true, hd]

theorem exec_anchorSelection_of_none (t : Nat) (x : Fin 32) (s : State) (hs : s.Inv) (hstill : s.dev.Still)
    (hphase : s.dev.phase = .running) (hm : (s.dev.atTime t).decidedSlot x.val = none) :
    exec (.anchorSelection t x) s = .next (s.withDev (s.dev.atTime t)) := by
  refine next_whenRunning_of_calm hphase ?_ (calm_atTime s t hs hstill)
  simp only [hm]

/-! ### Sets that come too late are discarded (R308) -/

/-- `d'` is `d` but for what a flush job that stops changes, the sets and the containers. -/
structure Device.Discards (d d' : Device) : Prop where
  same : d' = { d with
    store := d'.store, ne := d'.ne, toll := d'.toll, sealRegs := d'.sealRegs, ctl := d'.ctl, i3c := d'.i3c, rfe := d'.rfe
    lanes := d'.lanes }
  wf : Memory.wf d.store.mem = true → Memory.wf d'.store.mem = true

section
variable {d d' d'' : Device}

theorem discards_refl (d : Device) : d.Discards d := ⟨rfl, id⟩

theorem Device.Discards.trans (h : d.Discards d') (h' : d'.Discards d'') : d.Discards d'' where
  same := by
    have hsame := h'.same
    rw [h.same] at hsame
    exact hsame
  wf hm := h'.wf (h.wf hm)

theorem Device.Reads.discards (h : d.Reads d') : d.Discards d' where
  same := by
    have hsame := h.same
    rw [hsame]
  wf := h.wf

theorem discards_modRfe (d : Device) (f : Rfe → Rfe) : d.Discards (d.modRfe f) := ⟨rfl, id⟩

theorem Device.Discards.streams (h : d.Discards d') : d'.streams = d.streams := by rw [h.same]
theorem Device.Discards.strm (h : d.Discards d') (s : Nat) : d'.strm s = d.strm s := by rw [Device.strm, h.streams, Device.strm]
theorem Device.Discards.slot (h : d.Discards d') (s n : Nat) : d'.slot s n = d.slot s n := by rw [Device.slot, h.strm, Device.slot]
theorem Device.Discards.rasterRec (h : d.Discards d') (s k : Nat) : d'.rasterRec s k = d.rasterRec s k := by
  rw [h.same]; rfl
theorem Device.Discards.isResim (h : d.Discards d') (s : Nat) : d'.isResim s = d.isResim s := by
  rw [h.same]; rfl
theorem Device.Discards.guideSlot (h : d.Discards d') (s : Nat) : d'.guideSlot s = d.guideSlot s := by
  rw [h.same]; rfl

end

theorem sameSet_iff (a b : SetRec) : sameSet a b = true ↔ a.1.recIdx = b.1.recIdx ∧ a.1.buf = b.1.buf := by
  simp only [sameSet, Bool.and_eq_true, decide_eq_true_eq]

theorem sameSet_refl (a : SetRec) : sameSet a a = true := (sameSet_iff a a).mpr ⟨rfl, rfl⟩

section
variable (d : Device) (x : SetRec)

/-- A set beside the one that a flush job counts its tiles for. -/
def Device.KeepsOthers (d d' : Device) (x : SetRec) : Prop := ∀ y ∈ d'.rfe.sets, sameSet x y = false → y ∈ d.rfe.sets

theorem mem_putSet_of_other {d : Device} {x y z : SetRec} (hx : x.1 = z.1) (hy : y ∈ (d.putSet x).rfe.sets) (h : sameSet z y = false) :
    y ∈ d.rfe.sets := by
  obtain ⟨w, hw, rfl⟩ := List.mem_map.mp hy
  split
  · next hsame =>
    rw [if_pos hsame] at h
    exact absurd ((sameSet_iff z x).mpr ⟨by rw [hx], by rw [hx]⟩) (by rw [h]; exact Bool.false_ne_true)
  · exact hw

theorem discards_flushSome (e n done : Nat) : d.Discards (d.flushSome e n done x) ∧ d.KeepsOthers (d.flushSome e n done x) x := by
  cases hr : d.image.rasters[x.1.recIdx]? with
  | none =>
    have hnone : d.flushSome e n done x = d := by simp only [Device.flushSome, hr]
    rw [hnone]
    exact ⟨discards_refl d, fun _ hy _ => hy⟩
  | some r =>
    rw [flushSome_of_record d r e n done x hr]
    have htiles := reads_flushTiles d r e n done x
    generalize d.flushTiles e n done r x = d' at htiles
    refine ⟨htiles.discards.trans (discards_modRfe d' _), fun y hy h => ?_⟩
    rw [← htiles.rfe]
    exact mem_putSet_of_other rfl hy h

theorem haltFlush_spec : d.Discards (d.haltFlush x).2 ∧ d.KeepsLists (d.haltFlush x).2 ∧ d.KeepsOthers (d.haltFlush x).2 x ∧
    sameSet x (d.haltFlush x).1 = true := by
  unfold Device.haltFlush
  split
  · next e done hflush =>
    obtain ⟨hdiscards, hothers⟩ := discards_flushSome d x e (Config.flushStop e (d.eng e).steps) done
    refine ⟨hdiscards, keepsLists_flushSome d e _ done x, hothers, ?_⟩
    dsimp only
    cases hfind : (d.flushSome e (Config.flushStop e (d.eng e).steps) done x).rfe.sets.find? (sameSet x) with
    | none => exact sameSet_refl x
    | some y => exact List.find?_some hfind
  · exact ⟨discards_refl d, keepsLists_refl d, fun _ hy _ => hy, sameSet_refl x⟩

/-- R308: a late set is discarded, and no other set changes. -/
theorem discardLate_spec : d.Discards (d.discardLate x) ∧ d.KeepsLists (d.discardLate x) ∧
    ∀ y ∈ (d.discardLate x).rfe.sets, y ∈ d.rfe.sets ∧ sameSet x y = false := by
  obtain ⟨hdiscards, hkeeps, hothers, hsame⟩ := haltFlush_spec d x
  unfold Device.discardLate
  extract_lets mine
  generalize d.haltFlush x = w at hdiscards hkeeps hothers hsame
  obtain ⟨x', d'⟩ := w
  refine ⟨hdiscards.trans ⟨rfl, id⟩, hkeeps.trans (keepsLists_of_same rfl rfl rfl rfl), fun y hy => ?_⟩
  obtain ⟨hy', hne⟩ := List.mem_filter.mp hy
  obtain ⟨hrec, hbuf⟩ := (sameSet_iff x x').mp hsame
  have hxy : sameSet x y = sameSet x' y := by rw [sameSet, hrec, hbuf, ← sameSet]
  have hother : sameSet x y = false := by simpa [hxy] using hne
  exact ⟨hothers y hy' hother, hother⟩

theorem discardLate_of_unflushed (h : x.2.flush = none) : (d.discardLate x).store = d.store ∧ (d.discardLate x).ne = d.ne ∧
    (d.discardLate x).itn = d.itn := by
  have hhalt : d.haltFlush x = (x, d) := by simp only [Device.haltFlush, h]
  unfold Device.discardLate
  rw [hhalt]
  exact ⟨rfl, rfl, rfl⟩

end

/-- R308: the late sets are discarded, and no other set changes. -/
theorem discardAll_spec (l : List SetRec) (d : Device) : d.Discards (l.foldl Device.discardLate d) ∧
    d.KeepsLists (l.foldl Device.discardLate d) ∧
    ∀ y ∈ (l.foldl Device.discardLate d).rfe.sets, y ∈ d.rfe.sets ∧ ∀ x ∈ l, sameSet x y = false := by
  induction l generalizing d with
  | nil => exact ⟨discards_refl d, keepsLists_refl d, fun y hy => ⟨hy, by simp⟩⟩
  | cons x l ih =>
    obtain ⟨hdiscards, hkeeps, hsets⟩ := discardLate_spec d x
    obtain ⟨hdiscards', hkeeps', hsets'⟩ := ih (d.discardLate x)
    refine ⟨hdiscards.trans hdiscards', hkeeps.trans hkeeps', fun y hy => ?_⟩
    obtain ⟨hy', hrest⟩ := hsets' y hy
    obtain ⟨hy'', hfirst⟩ := hsets y hy'
    exact ⟨hy'', List.forall_mem_cons.mpr ⟨hfirst, hrest⟩⟩

theorem discardAll_of_unflushed (l : List SetRec) (d : Device) (h : ∀ x ∈ l, x.2.flush = none) :
    (l.foldl Device.discardLate d).store = d.store ∧ (l.foldl Device.discardLate d).ne = d.ne ∧
      (l.foldl Device.discardLate d).itn = d.itn :=
  List.foldlRecOn (motive := fun d' : Device => d'.store = d.store ∧ d'.ne = d.ne ∧ d'.itn = d.itn) l _ ⟨rfl, rfl, rfl⟩
    fun d' ⟨hstore, hne, hitn⟩ x hx => by
      obtain ⟨hstore', hne', hitn'⟩ := discardLate_of_unflushed d' x (h x hx)
      exact ⟨hstore'.trans hstore, hne'.trans hne, hitn'.trans hitn⟩

/-! ### A guide is decided (R307) -/

/-- What the decision settles of the slot whose guide is decided next. -/
def Device.decideGuide (d : Device) (s : Nat) : Device :=
  match d.rasterRec s 0, d.guideSlot s with
  | some _, some n =>
    let d := d.modStrm s (fun x => { x with guided := n + 1 })
    let y := d.slot s n
    if y.guideOk = some true ∨ d.isResim s then d
    else d.degrade s n (if y.guideOk = some false then 3 else 2)
  | _, _ => d

theorem decideGuide_same (d : Device) (s : Nat) :
    d.decideGuide s = { d with streams := (d.decideGuide s).streams, i3c := (d.decideGuide s).i3c } := by
  unfold Device.decideGuide
  split
  · extract_lets d₁ y
    split
    · rfl
    · rw [degrade_same]
      rfl
  · rfl

/-- R307: the cause of a guided slot without an accepted set. -/
theorem cause_decideGuide (d : Device) {s n : Nat} {r : RasterRec} (hs : s < 32) (hr : d.rasterRec s 0 = some r)
    (hn : d.guideSlot s = some n) (hresim : d.isResim s = false) (hok : (d.slot s n).guideOk ≠ some true) :
    ((d.decideGuide s).slot s n).causes.getLsbD (if (d.slot s n).guideOk = some false then 3 else 2) = true := by
  have hslot : (d.modStrm s (fun x => { x with guided := n + 1 })).slot s n = d.slot s n :=
    strm_modStrm_field (fun x : Stream => x.slot n) d s _ fun _ => rfl
  have hresim' : (d.modStrm s (fun x => { x with guided := n + 1 })).isResim s = false := hresim
  have hcause : (if (d.slot s n).guideOk = some false then 3 else 2) < 13 := by split <;> decide
  unfold Device.decideGuide
  rw [hr, hn]
  simp only [hslot, hresim', hok, Bool.false_eq_true, or_self, if_false]
  exact cause_degrade hs _ hcause

/-- A set of the stream that is not accepted at its D_G (R308). -/
def Device.lateSet (d : Device) (s : Nat) (y : SetRec) : Bool :=
  y.1.stream = s && !y.2.accepted && decide (d.guideTime s y.1.slot ≤ d.now)

theorem exec_guideDecisionTime_eq (t : Nat) (x : Fin 32) (s : State) (hphase : s.dev.phase = .running) :
    exec (.guideDecisionTime t x) s = .next (s.withDev
      ((((s.dev.rfe.sets.filter ((s.dev.atTime t).lateSet x.val)).foldl Device.discardLate (s.dev.atTime t)).decideGuide x.val).pump.settle)) :=
  congrArg Host.Outcome.next (runI_whenRunning s t _ hphase)

section
variable (t m : Nat) (x : Fin 32) (s : State) (hs : s.Inv) (hstill : s.dev.Still) (hphase : s.dev.phase = .running)
include hs hstill hphase

theorem anchor_selected (hm : (s.dev.atTime t).decidedSlot x.val = some m) (hssb : s.dev.hasSsb x.val = true) :
    let sel := (s.dev.atTime t).usableAnchor x.val m
    ∃ s', exec (.anchorSelection t x) s = .next s' ∧ s'.pending = s.pending ∧
      (s'.dev.strm x.val).selected = sel ∧ (s'.dev.strm x.val).decided = m + 1 ∧ (s'.dev.strm x.val).inUse = (s.dev.strm x.val).inUse ∧
      (s'.dev.strm x.val).held = (s.dev.atTime t).heldAfter x.val sel ∧ (s'.dev.slot x.val m).anchor = sel ∧
      (s.dev.anchorAbsent x.val m sel = true →
        (s'.dev.slot x.val m).causes.getLsbD (if (s.dev.slot x.val m).anchorBad then 1 else 0) = true) ∧
      s'.dev.store = s.dev.store ∧ s'.dev.ne = s.dev.ne ∧ s'.dev.itn = s.dev.itn := by
  intro sel
  have hexec := exec_anchorSelection_of_due t m x s hphase hm hssb (select_eq _ _ _)
  have hstrm := choose_strm (s.dev.atTime t) m x.isLt
  have hslot := choose_slot (s.dev.atTime t) m x.isLt
  have hsame : (s.dev.atTime t).choose x.val m = { s.dev.atTime t with streams := ((s.dev.atTime t).choose x.val m).streams } := rfl
  have habsent (y : Option Anchor) : ((s.dev.atTime t).choose x.val m).anchorAbsent x.val m y = s.dev.anchorAbsent x.val m y := rfl
  generalize hd₁ : (s.dev.atTime t).choose x.val m = d₁ at hexec hstrm hslot hsame habsent
  have hdegrades := degrades_settleSlot d₁ m x.isLt sel
  have hcause := cause_settleSlot d₁ m x.isLt sel
  generalize d₁.settleSlot x.val m sel = d₂ at hexec hdegrades hcause
  have hkeeps : (s.dev.atTime t).KeepsLists d₂ :=
    Device.KeepsLists.trans (d' := d₁) (by rw [hsame]; exact keepsLists_of_same rfl rfl rfl rfl) hdegrades.keepsLists
  rw [pump_of_still _ (hkeeps.still (calm_atTime s t hs hstill).still)] at hexec
  have hall : d₂ = { s.dev.atTime t with streams := d₂.streams, i3c := d₂.i3c } := by
    have h := hdegrades.same
    rw [hsame] at h
    exact h
  have hstore : d₂.store = s.dev.store := by rw [hall]; rfl
  have hne : d₂.ne = s.dev.ne := by rw [hall]; rfl
  have hitn : d₂.itn = s.dev.itn := by rw [hall]; rfl
  refine ⟨_, hexec, rfl, hdegrades.selected.trans ?_, hdegrades.decided.trans ?_, hdegrades.inUse.trans ?_, hdegrades.held.trans ?_,
    hdegrades.anchor.trans ?_, fun h => ?_, ?_, hne, hitn⟩
  · rw [hstrm]
  · rw [hstrm]
  · rw [hstrm]; rfl
  · rw [hstrm]
  · rw [hslot]
  · have hbad : (d₁.slot x.val m).anchorBad = (s.dev.slot x.val m).anchorBad := by rw [hslot]; rfl
    rw [← hbad]
    exact hcause ((habsent sel).trans h)
  · exact (settle_store_of_wf d₂ (by rw [hstore]; exact (calm_atTime s t hs hstill).mem)).trans hstore

/-- R307, R308: late sets go, the guided slot takes its cause, and with no flush job among them memory, engines and itinerary stay. -/
theorem guide_decided :
    ∃ s', exec (.guideDecisionTime t x) s = .next s' ∧ s'.pending = s.pending ∧
      (∀ y ∈ s'.dev.rfe.sets, y ∈ s.dev.rfe.sets ∧ (s.dev.atTime t).lateSet x.val y = false) ∧
      ((∃ r, s.dev.rasterRec x.val 0 = some r) → (s.dev.atTime t).guideSlot x.val = some m → s.dev.isResim x.val = false →
        (s.dev.slot x.val m).guideOk ≠ some true →
        (s'.dev.slot x.val m).causes.getLsbD (if (s.dev.slot x.val m).guideOk = some false then 3 else 2) = true) ∧
      ((∀ y ∈ s.dev.rfe.sets, (s.dev.atTime t).lateSet x.val y = true → y.2.flush = none) →
        s'.dev.store = s.dev.store ∧ s'.dev.ne = s.dev.ne ∧ s'.dev.itn = s.dev.itn) := by
  have hcalm := calm_atTime s t hs hstill
  have hexec := exec_guideDecisionTime_eq t x s hphase
  obtain ⟨hdiscards, hkeeps, hsets⟩ := discardAll_spec (s.dev.rfe.sets.filter ((s.dev.atTime t).lateSet x.val)) (s.dev.atTime t)
  have hunflushed := discardAll_of_unflushed (s.dev.rfe.sets.filter ((s.dev.atTime t).lateSet x.val)) (s.dev.atTime t)
  generalize (s.dev.rfe.sets.filter ((s.dev.atTime t).lateSet x.val)).foldl Device.discardLate (s.dev.atTime t) = d₁
    at hexec hdiscards hkeeps hsets hunflushed
  have hsame := decideGuide_same d₁ x.val
  have hcause (r : RasterRec) := cause_decideGuide (n := m) (r := r) d₁ x.isLt
  generalize d₁.decideGuide x.val = d₂ at hexec hsame hcause
  have hkeeps' : d₁.KeepsLists d₂ := by
    rw [hsame]
    exact keepsLists_of_same rfl rfl rfl rfl
  rw [pump_of_still _ ((hkeeps.trans hkeeps').still hcalm.still)] at hexec
  have hrfe : d₂.rfe = d₁.rfe := by rw [hsame]
  have hstore : d₂.store = d₁.store := by rw [hsame]
  have hne : d₂.ne = d₁.ne := by rw [hsame]
  have hitn : d₂.itn = d₁.itn := by rw [hsame]
  refine ⟨_, hexec, rfl, fun y hy => ?_, fun ⟨r, hr⟩ hn hresim hok => ?_, fun h => ?_⟩
  · have hy' : y ∈ d₂.rfe.sets := hy
    rw [hrfe] at hy'
    obtain ⟨hmem, hothers⟩ := hsets y hy'
    refine ⟨hmem, ?_⟩
    by_contra hlate
    have hself := hothers y (List.mem_filter.mpr ⟨hmem, by simpa using hlate⟩)
    rw [sameSet_refl] at hself
    exact Bool.false_ne_true hself.symm
  · have hslot : d₁.slot x.val m = s.dev.slot x.val m := (hdiscards.slot x.val m).trans rfl
    have h := hcause r ((hdiscards.rasterRec x.val 0).trans hr) ((hdiscards.guideSlot x.val).trans hn)
      ((hdiscards.isResim x.val).trans hresim) (by rwa [hslot])
    rwa [hslot] at h
  · obtain ⟨hstore', hne', hitn'⟩ := hunflushed fun y hy => h y (List.mem_filter.mp hy).1 (List.mem_filter.mp hy).2
    have hkept : d₂.store = s.dev.store := hstore.trans hstore'
    exact ⟨(settle_store_of_wf d₂ (by rw [hkept]; exact (calm_atTime s t hs hstill).mem)).trans hkept, hne.trans hne', hitn.trans hitn'⟩

end

/-- Settles O38: what a selection settles of its slot adds causes alone, and a set that is discarded takes no other with it. -/
theorem decisionTimes : Obligations.DecisionTimes := by
  unfold Obligations.DecisionTimes
  intro t m x s hs hstill hphase d
  refine ⟨fun hm hssb => ?_, exec_anchorSelection_of_none t x s hs hstill hphase, guide_decided t m x s hs hstill hphase⟩
  obtain ⟨s', hexec, hpending, hselected, hdecided, hinUse, hheld, hanchor, hcause, hrest⟩ :=
    anchor_selected t m x s hs hstill hphase hm hssb
  refine ⟨s', hexec, hpending, hselected, hdecided, hinUse, hheld, hanchor, fun haligned htag => hcause ?_, hrest⟩
  rw [Device.anchorAbsent, haligned, Bool.true_and]
  exact decide_eq_true htag

end Sys2Proof.Machine
end

section
/-! SUPPORT. A launch of a stream whose weights have moved to another bank (R427, R170 to R172). -/
namespace Sys2Proof.Machine

namespace BankMoves

/-- An unbound latency-critical entry that names stream 0. -/
def entry : Entry :=
  { offset := 0, ctx := 1, bestEffort := false, target := 0, saveOk := false, units := 1, stream := 0, convoy := false
    bind := 0, slot := 0, group := 0, budget := 1, launch := 0, deadline := 0 }

def launch : LaunchDesc := { addr := 0x40000, record := 0x20000, credits := 0, yieldWait := 10, row0 := 0, rows := 0 }

def itin : Itin :=
  { index := 0, lockstep := true, cycleNs := 1000000, groups0 := 1, parts := [], ctxs := [], convoys := [], entries := [entry]
    launches := [launch], marks := [] }

/-- The package of the stream's weights, whose bank 0 is 64 bytes from 0x80000. -/
def package : Package :=
  { package := 0, dest := 0x80000, w := 1, t := 1, bank0Offset := 0, bank0Bytes := 64, initOffset := 0, initBytes := 0
    stateBytes := 0, rowBytes := 0, digest := [] }

/-- The stream's tuning record; its bank 1 is at 0x90000. -/
def tuning : TuneRec :=
  { stream := 0, enable := false, policy := 0, refEvery := 1, boxes := 1, w64 := 255, w128 := 0, w256 := 0, valMod := 0
    capacity := 8, refLimit := 10, adoptSteps := 1, tseed := 7, lr := 0, b1 := 0, b2 := 0, eps2 := 0, wd := 0, margin := 0
    replayBase := 0x100000, slotTiles := 1, stateBase := 0x180000, bank1Base := 0x90000, bank2Base := 0x98000, holdBase := 0xA0000
    eHold := 0, eCut := 0, eTrain := 0, eExport := 0, eEval := 0 }

/-- A tensor of one pixel of one channel of 8 bits at this address. -/
def pixel (base : Nat) : Desc :=
  { base := base, tensorId := 0, fmt := 1, layout := 0, comp := 0, channels := 1, width := 1, height := 1, rowPitch := 64
    planeStride := 64, scaleOffset := 0 }

/-- A SIGNAL of flag 1 by 1. -/
def signal : List Byte := List.replicate 64 0 |>.set 0 10 |>.set 16 1 |>.set 18 1

/-- The header of a list of one command with one descriptor, which stands behind the command. -/
def header : List Byte :=
  leBytes 2 1 ++ leBytes 2 1 ++ leBytes 2 1 ++ leBytes 2 0 ++ leBytes 6 0x40080 ++ leBytes 2 0 ++ leBytes 2 1 ++ List.replicate 46 0

def due : Due :=
  { index := 0, entry := 0, count := 0, at_ := 0, repro := none, shadow := false, relaunch := false, producer := false, tile := none
    anchors := [] }

def serve : Serve := { entry := entry, launch := launch, bind := none, streams := [0], slot := 0 }

/-- A device in operation whose T0 is not set, in which bank 1 was the active bank of the slots before instant 50. -/
def device : Device :=
  (({ Device.reset [] with
      phase := .running
      image := { Image.none with itins := [itin], packages := [package], tunes := [tuning] }
      sealRegs := { SealRegs.reset with genDram := 1, genWell := 1 }
      itn := { Itinerary.reset with groupEn := 1, waiting := [due] } } : Device).write 0x40000
    (header ++ signal ++ (pixel 0x80000).bytes)).modTune 0 fun x => { x with banks := [(50, 1)] }

def state : State := { pending := [], dev := device }

theorem state_inv : state.Inv := ⟨by decide +kernel, rfl, rfl⟩

theorem device_still : device.Still := (still_congr _ (Device.reset []) rfl rfl rfl).mpr (still_reset [] 0 0)

end BankMoves

open BankMoves in
/-- Refutes O22: with T0 unset a slot's frame start moves with the clock, so that the bank of a launch's descriptors is that of
the launch's instant and not the one that the state before the command gives. -/
theorem not_listLaunches : ¬ Obligations.ListLaunches := by
  intro h
  obtain ⟨hlaunch, -⟩ := h 100 0 due serve state state_inv device_still rfl (by decide +kernel) (by decide +kernel)
    (by decide +kernel) (by decide +kernel) rfl rfl rfl rfl (by decide +kernel) (by decide) (by decide +kernel) (by decide +kernel) rfl
    (by decide +kernel) (by decide +kernel) (by decide +kernel) (by decide +kernel) (by decide +kernel) (by decide +kernel)
    (by decide +kernel) (by decide +kernel)
  obtain ⟨s', r, hexec, -, hrun, -, -, -, -, hdescs, -⟩ := hlaunch (by decide +kernel)
  have hbase : (match exec (.listLaunch 100 0) state with
      | .next s' => (s'.dev.eng 0).run.map (fun r => r.descs.map (·.base))
      | _ => none) = some [0x80000] := by decide +kernel
  rw [hexec] at hbase
  have hmoved : (s'.dev.eng 0).run.map (fun r => r.descs.map (·.base)) = some [0x90000] := by
    rw [show (s'.dev.eng 0).run = some r from hrun, Option.map_some, hdescs]
    decide +kernel
  exact absurd (hmoved.symm.trans hbase) (by decide)

end Sys2Proof.Machine
end

section
/-! SUPPORT. What ends without a commit leaves the Serai, its landings and its rows alone (R470, R572, R575, R621). -/
namespace Sys2Proof.Machine

/-! ### Lists that end, and a Serai that stands -/

/-- `d'` is `d` but that lists may have ended on engines: the Serai, the time and the request are the same, no list has another
course and no vision unit has begun a job. -/
structure Device.Spares (d d' : Device) : Prop where
  serai : d'.serai = d.serai
  now : d'.now = d.now
  req : d'.req = d.req
  runs : ∀ e, (d'.eng e).run = (d.eng e).run ∨ (d'.eng e).run = none
  jobs : ∀ u, (d.unit u).run = none → (d'.unit u).run = none

section
variable {d d' d'' : Device}

theorem spares_refl (d : Device) : d.Spares d := ⟨rfl, rfl, rfl, fun _ => .inl rfl, fun _ h => h⟩

theorem Device.Spares.trans (h : d.Spares d') (h' : d'.Spares d'') : d.Spares d'' where
  serai := h'.serai.trans h.serai
  now := h'.now.trans h.now
  req := h'.req.trans h.req
  runs e := (h'.runs e).elim (fun hrun => hrun ▸ h.runs e) .inr
  jobs u hu := h'.jobs u (h.jobs u hu)

theorem Device.KeepsLists.spares (h : d.KeepsLists d') (hserai : d'.serai = d.serai) : d.Spares d' where
  serai := hserai
  now := h.now
  req := h.req
  runs e := .inl (h.runs e)
  jobs u hu := by rwa [Device.unit, h.vis]

theorem Device.Spares.still (h : d.Spares d') (hd : d.Still) : d'.Still := by
  obtain ⟨hruns, hjobs, hwatch⟩ := hd
  refine ⟨fun e he r hr => ?_, fun u hu => h.jobs u (hjobs u hu), h.req ▸ hwatch⟩
  rcases h.runs e with hrun | hrun
  · exact hruns e he r (hrun ▸ hr)
  · rw [hrun] at hr
    cases hr

/-- A change that keeps the engines, the vision units, the request, the instant and the Serai. -/
theorem spares_of_same (hne : d'.ne = d.ne) (hvis : d'.vis = d.vis) (hreq : d'.req = d.req) (hnow : d'.now = d.now)
    (hserai : d'.serai = d.serai) : d.Spares d' := (keepsLists_of_same hne hvis hreq hnow).spares hserai

theorem spares_foldl {α : Type} (l : List α) (f : Device → α → Device) (hf : ∀ (d : Device) a, d.Spares (f d a)) (d : Device) :
    d.Spares (l.foldl f d) :=
  List.foldlRecOn (motive := fun d' : Device => d.Spares d') l f (spares_refl d) fun d' hd' a _ => hd'.trans (hf d' a)

theorem spares_ite {c : Prop} [Decidable c] (h : c → d.Spares d') (h' : ¬ c → d.Spares d'') : d.Spares (if c then d' else d'') := by
  split
  · next hc => exact h hc
  · next hc => exact h' hc

theorem Device.Reads.spares (h : d.Reads d') (hkeeps : d.KeepsLists d') : d.Spares d' := hkeeps.spares (by rw [h.same])
theorem Device.Discards.spares (h : d.Discards d') (hkeeps : d.KeepsLists d') : d.Spares d' := hkeeps.spares (by rw [h.same])
theorem Device.Settles.spares (h : d.Settles d') : d.Spares d' := h.keepsLists.spares (by rw [h.same])

theorem spares_modEng (d : Device) (e : Nat) (f : Engine → Engine) (hf : ∀ x, (f x).run = x.run) : d.Spares (d.modEng e f) where
  serai := rfl
  now := rfl
  req := rfl
  runs n := .inl (eng_modEng_field Engine.run d e n f hf)
  jobs _ h := h

/-- A list that ends on an engine. -/
theorem spares_freeEngine (d : Device) (e : Nat) (r : Run) (st : Status) : d.Spares (d.freeEngine e r st) where
  serai := rfl
  now := rfl
  req := rfl
  runs n := by
    by_cases hn : e = n
    · subst hn
      by_cases he : e < 6
      · exact .inr (congrArg Engine.run (freeEngine_eng d e r st he))
      · exact .inl (congrArg (fun v => (vget v e Engine.reset).run) (vmod_out _ _ _ (Nat.not_lt.mp he)))
    · exact .inl (congrArg Engine.run (vget_vmod_ne _ _ _ _ _ hn))
  jobs _ h := h

theorem spares_modUnit (d : Device) (u : Nat) (f : Vision → Vision) (hf : ∀ x, x.run = none → (f x).run = none) :
    d.Spares (d.modUnit u f) where
  serai := rfl
  now := rfl
  req := rfl
  runs _ := .inl rfl
  jobs n hn := by
    by_cases hun : u = n
    · subst hun
      by_cases hu : u < 7
      · rw [Device.unit, show (d.modUnit u f).vis = vmod d.vis u f from rfl, vget_vmod_same _ _ _ _ hu]
        exact hf _ hn
      · rw [Device.unit, show (d.modUnit u f).vis = vmod d.vis u f from rfl, vmod_out _ _ _ (Nat.not_lt.mp hu)]
        exact hn
    · rw [Device.unit, show (d.modUnit u f).vis = vmod d.vis u f from rfl, vget_vmod_ne _ _ _ _ _ hun]
      exact hn

end

section
variable (d : Device)

/-! ### Slots and streams -/

theorem spares_degrade (s n cause : Nat) (excused : Bool) : d.Spares (d.degrade s n cause excused) := by
  unfold Device.degrade
  dsimp only
  split <;> exact spares_of_same rfl rfl rfl rfl rfl

theorem spares_modSlot (s n : Nat) (f : Slot → Slot) : d.Spares (d.modSlot s n f) := spares_of_same rfl rfl rfl rfl rfl
theorem spares_modItn (f : Itinerary → Itinerary) : d.Spares (d.modItn f) := spares_of_same rfl rfl rfl rfl rfl
theorem spares_modCtx (c : Nat) (f : Ctx → Ctx) : d.Spares (d.modCtx c f) := spares_of_same rfl rfl rfl rfl rfl
theorem spares_modStrm (s : Nat) (f : Stream → Stream) : d.Spares (d.modStrm s f) := spares_of_same rfl rfl rfl rfl rfl
theorem spares_modTune (s : Nat) (f : Tune → Tune) : d.Spares (d.modTune s f) := spares_of_same rfl rfl rfl rfl rfl
theorem spares_modSealSt (f : SealState → SealState) : d.Spares (d.modSealSt f) := spares_of_same rfl rfl rfl rfl rfl
theorem spares_modRfe (f : Rfe → Rfe) : d.Spares (d.modRfe f) := spares_of_same rfl rfl rfl rfl rfl
theorem spares_write (a : Nat) (bs : List Byte) : d.Spares (d.write a bs) := spares_of_same rfl rfl rfl rfl rfl
theorem spares_event (ev : Event) (a b c : Nat) : d.Spares (d.event ev a b c) := spares_of_same rfl rfl rfl rfl rfl

theorem spares_controlChoice : d.Spares d.controlChoice := by
  unfold Device.controlChoice
  split
  · exact spares_of_same rfl rfl rfl rfl rfl
  · exact spares_refl d

theorem spares_settleDistance (s m : Nat) : d.Spares (d.settleDistance s m) := by
  rw [settleDistance_eq]
  generalize d.distance s m = dist
  have hnote : d.Spares (d.noteDistance s m dist) := spares_of_same rfl rfl rfl rfl rfl
  exact spares_ite (fun _ => hnote.trans (spares_degrade _ _ _ _ _)) fun _ => hnote

theorem spares_ssbSet (s o : Nat) (bs : List Byte) : d.Spares (d.ssbSet s o bs) := by
  unfold Device.ssbSet
  split
  · exact spares_write d _ _
  · exact spares_refl d

theorem spares_ssbSetFlag (s b : Nat) (x : Bool) : d.Spares (d.ssbSetFlag s b x) := spares_ssbSet d _ _ _

theorem spares_notCommitted (s n : Nat) (bind : Bind) (excused : Bool) : d.Spares (d.notCommitted s n bind excused) := by
  cases bind with
  | encode => exact spares_degrade d _ _ _ _
  | stripe => exact spares_refl d
  | endOfFrame =>
    have hslot : d.Spares (d.modSlot s n (fun x => { x with eofFailed := true, eofExcused := excused })) := spares_modSlot d _ _ _
    exact spares_ite (fun _ => hslot.trans (spares_degrade _ _ _ _ _)) fun _ => hslot

theorem spares_abandonCommit (s n : Nat) (bind : Bind) (excused : Bool) : d.Spares (d.abandonCommit s n bind excused) :=
  ((spares_ssbSetFlag d _ _ _).trans (spares_modStrm _ _ _)).trans (spares_notCommitted _ _ _ _ _)

theorem spares_reproject (x : Due) (v : Serve) (cause : Nat) (excused : Bool) (on : Option Nat) :
    d.Spares (d.reproject x v cause excused on) := by
  unfold Device.reproject
  extract_lets fills d₁ d₂
  have hserved : d.Spares d₁ := spares_foldl _ _ (fun d s => spares_degrade d s v.slot cause excused) d
  have hfilled : d₁.Spares d₂ :=
    spares_foldl _ _ (fun d s => (spares_modSlot d s v.slot _).trans (spares_controlChoice _)) d₁
  refine (hserved.trans hfilled).trans (spares_foldl _ _ (fun d s => ?_) d₂)
  extract_lets d₃
  have hback : d.Spares d₃ := spares_modSlot d s v.slot _
  exact spares_ite (fun _ => hback.trans (spares_modItn _ _)) fun _ => hback

/-! ### Tuning lists that end (R399, R423) -/

theorem spares_refDrops {α : Type} (s : Nat) (l : List α) : d.Spares (l.foldl (fun (d : Device) _ => d.refDrop s) d) :=
  spares_foldl l _ (fun d _ => show d.Spares (d.refDrop s) from spares_modStrm d _ _) d

theorem spares_dropUnfilled (s : Nat) : d.Spares (d.dropUnfilled s) := (spares_modTune d s _).trans (spares_refDrops _ s _)

theorem spares_takeBatch (s : Nat) : d.Spares (d.takeBatch s) := by
  unfold Device.takeBatch
  extract_lets x d₁ d₂ d₃
  have htaken : d.Spares d₁ := spares_modTune d s _
  have hlow : d₁.Spares d₃ := (spares_modTune d₁ s _).trans (spares_modStrm _ s _)
  exact spares_ite (fun _ => (htaken.trans hlow).trans (spares_event _ _ _ _ _)) fun _ => htaken

theorem spares_tuneFail (s : Nat) (k : TuneEntry) : d.Spares (d.tuneFail s k) := by
  unfold Device.tuneFail
  split
  · exact spares_dropUnfilled d s
  · have hcount : d.Spares (d.modTune s (fun x => { x with failures := x.failures + 1 })) := spares_modTune d s _
    unfold Device.trainFail
    exact spares_ite (fun _ => hcount) fun _ => (hcount.trans (spares_modStrm _ _ _)).trans (spares_takeBatch _ s)
  · exact spares_modTune d s _
  · exact spares_refl d

theorem spares_abandonRun (r : Run) (v : Serve) (excused : Bool) : d.Spares (d.abandonRun r v excused) := by
  unfold Device.abandonRun
  extract_lets d₁
  have hbind : d.Spares d₁ := by
    cases hv : v.bind with
    | none => simp only [d₁, hv]; exact spares_refl d
    | some b =>
      cases b with
      | encode =>
        simp only [d₁, hv]
        exact spares_foldl _ _ (fun d a => (spares_abandonCommit d _ _ _ _).trans (spares_settleDistance _ _ _)) d
      | endOfFrame =>
        simp only [d₁, hv]
        exact spares_foldl _ _ (fun d a => spares_abandonCommit d _ _ _ _) d
      | stripe =>
        simp only [d₁, hv]
        exact spares_foldl _ _ (fun d a => spares_modSlot d _ _ _) d
  split
  · exact hbind.trans (spares_tuneFail _ _ _)
  · exact hbind

/-! ### Reads that a launch's end makes (R288, R364) -/

theorem spares_verifyAll (ctx : Nat) (tiles : List Nat) : d.Spares (d.verifyAll ctx tiles).2 :=
  (reads_verifyAll d ctx tiles).spares (keepsLists_verifyAll d ctx tiles)

theorem spares_readFor (c a n : Nat) : d.Spares (d.readFor c a n).2 :=
  (spares_verifyAll d c (tilesOf a n)).trans (spares_of_same rfl rfl rfl rfl rfl)

theorem spares_readChecked (c a n : Nat) : d.Spares (d.readChecked c a n).2 :=
  (spares_verifyAll d c (tilesOf a n)).trans (spares_of_same rfl rfl rfl rfl rfl)

theorem spares_initialState (s : Nat) : d.Spares (d.initialState s).2 := by
  unfold Device.initialState
  split
  · exact spares_refl d
  · next p _ =>
    split
    · exact spares_refl d
    · have hread := spares_readChecked d 0 (p.dest + p.initOffset) p.initBytes
      dsimp only
      split
      · next h => rwa [h] at hread
      · next h =>
        rw [h] at hread
        exact hread.trans (spares_of_same rfl rfl rfl rfl rfl)

theorem spares_coldStart (s : Nat) : d.Spares (d.coldStart s) := by
  unfold Device.coldStart
  extract_lets d₁ d₂ base
  have hset : d.Spares d₂ := (spares_ssbSet d _ _ _).trans (spares_ssbSetFlag _ _ _ _)
  exact (hset.trans (spares_initialState d₂ s)).trans (spares_write _ _ _)

theorem spares_resync (s m : Nat) : d.Spares (d.resync s m) := by
  unfold Device.resync
  exact spares_ite (fun _ => ((spares_coldStart d s).trans (spares_modSlot _ _ _ _)).trans (spares_modStrm _ _ _)) fun _ => spares_refl d

theorem spares_missedDue (x : Due) (v : Serve) (excused listed : Bool) : d.Spares (d.missedDue x v excused listed) := by
  unfold Device.missedDue
  refine spares_ite (fun _ => spares_refl d) fun _ => ?_
  split
  · refine spares_foldl _ _ (fun d s => ?_) d
    refine spares_ite (fun _ => ?_) fun _ => spares_refl d
    refine (spares_resync d s v.slot).trans (Device.Spares.trans ?_ (spares_settleDistance _ _ _))
    exact spares_ite (fun _ => spares_notCommitted _ _ _ _ _) fun _ => spares_refl _
  · exact spares_foldl _ _ (fun d s => spares_ite (fun _ => spares_notCommitted d _ _ _ _) fun _ => spares_modSlot d _ _ _) d
  · exact spares_foldl _ _ (fun d s => spares_modSlot d _ _ _) d
  · exact spares_refl d

/-! ### Sets that go and jobs that are lost (R310, Table 8.8) -/

theorem spares_haltFlush (x : SetRec) : d.Spares (d.haltFlush x).2 := by
  obtain ⟨hdiscards, hkeeps, -, -⟩ := haltFlush_spec d x
  exact hdiscards.spares hkeeps

theorem spares_dropSet (x : SetRec) : d.Spares (d.dropSet x) := spares_modRfe d _
theorem spares_putSet (x : SetRec) : d.Spares (d.putSet x) := spares_modRfe d _

theorem spares_releaseSets : d.Spares d.releaseSets :=
  spares_foldl _ _ (fun d x => show d.Spares ((d.haltFlush x).2.dropSet (d.haltFlush x).1) from
    (spares_haltFlush d x).trans (spares_dropSet _ _)) d

theorem spares_skipShadow (x : Due) : d.Spares (d.skipShadow x) := spares_of_same rfl rfl rfl rfl rfl

theorem spares_loseJob (x : Due) (job : List Byte) (st : Status) (excused : Bool) : d.Spares (d.loseJob x job st excused) := by
  unfold Device.loseJob
  split
  · next v f hserve hflag =>
    refine spares_foldl _ _ (fun d s => ?_) d
    extract_lets d₁ hit d₂ d₃
    have hlost : d.Spares d₁ := (spares_degrade d s v.slot _ excused).trans (spares_modSlot _ s v.slot _)
    have hgone : d₁.Spares d₃ := spares_of_same rfl rfl rfl rfl rfl
    refine (hlost.trans hgone).trans (spares_foldl _ _ (fun d y => ?_) d₃)
    split
    · exact spares_refl d
    · exact spares_ite (fun _ => spares_skipShadow d _) fun _ => spares_reproject d _ _ _ _ _
  · exact spares_refl d

/-! ### A launch that ends without a commit (R174, R268, R606) -/

theorem spares_noteEnd (x : Due) (st : Status) : d.Spares (d.noteEnd x st) := (settles_noteEnd d x st).spares

theorem spares_writeRecord (x : Due) (v : Serve) (st : Status) (index steps : Nat) : d.Spares (d.writeRecord x v st index steps) := by
  unfold Device.writeRecord
  extract_lets d₁
  have hnoted : d.Spares d₁ := spares_noteEnd d x st
  refine spares_ite (fun _ => hnoted) fun _ => spares_ite (fun _ => hnoted.trans (spares_write _ _ _)) fun _ => ?_
  have hread : d₁.Spares (if inOneRegion v.launch.addr 64 then d₁.readFor v.entry.ctx v.launch.addr 64 else (none, d₁)).2 := by
    split
    · exact spares_readFor d₁ _ _ _
    · exact spares_refl d₁
  split
  · next job d₂ h =>
    have hfetched : d.Spares d₂ := hnoted.trans (by rw [h] at hread; exact hread)
    split
    · exact hfetched.trans (spares_write _ _ _)
    · exact hfetched
  · next d₂ h => exact hnoted.trans (by rw [h] at hread; exact hread)

theorem spares_skipDue (x : Due) (v : Serve) (st : Status) (excused listed : Bool) : d.Spares (d.skipDue x v st excused listed) := by
  unfold Device.skipDue
  refine spares_ite (fun _ => (spares_skipShadow d x).trans (spares_releaseSets _)) fun _ => ?_
  extract_lets d₁ d₂
  have hmissed : d.Spares d₁ := (spares_writeRecord d x v st 0 0).trans (spares_missedDue _ x v excused listed)
  have htuned : d.Spares d₂ := by
    simp only [d₂]
    split
    · exact hmissed.trans (spares_tuneFail _ _ _)
    · exact hmissed
  exact (htuned.trans (spares_ite (fun _ => spares_refl _) fun _ => spares_loseJob _ _ _ _ _)).trans (spares_releaseSets _)

theorem spares_rung3 (tile ctx : Nat) : d.Spares (d.rung3 tile ctx) := spares_of_same rfl rfl rfl rfl rfl

theorem spares_dropConsumer : d.Spares d.dropConsumer := by
  unfold Device.dropConsumer
  split
  · exact spares_refl d
  · next x _ =>
    refine spares_ite (fun _ => spares_refl d) fun _ => ?_
    extract_lets d₁
    have hgone : d.Spares d₁ := spares_modItn d _
    split
    · exact hgone
    · next v _ =>
      extract_lets d₂ d₃ d₄
      have hrung : d.Spares d₂ := by
        simp only [d₂]
        split
        · exact hgone.trans (spares_rung3 _ _ _)
        · exact hgone
      have hskipped : d.Spares d₃ := hrung.trans (spares_skipDue _ _ _ _ _ _)
      have htuned : d.Spares d₄ := by
        simp only [d₄]
        split
        · exact spares_ite (fun _ => hskipped) fun _ => hskipped.trans (spares_tuneFail _ _ _)
        · exact hskipped
      exact spares_ite (fun _ => htuned.trans (spares_reproject _ _ _ _ _ _)) fun _ => htuned

theorem spares_relaunchVision : d.Spares d.relaunchVision := by
  unfold Device.relaunchVision
  split
  · exact spares_refl d
  · split
    · exact spares_refl d
    · exact spares_ite (fun _ => spares_refl d) fun _ => (spares_modItn d _).trans (spares_modUnit _ _ _ fun _ h => h)

theorem spares_endRelaunch (x : Due) (st : Status) : d.Spares (d.endRelaunch x st) := by
  unfold Device.endRelaunch
  refine spares_ite (fun _ => spares_refl d) fun _ => Device.Spares.trans ?_ (spares_relaunchVision _)
  exact spares_ite (fun _ => spares_dropConsumer d) fun _ => spares_refl d

theorem spares_endShadow (e : Nat) (r : Run) (st : Status) : d.Spares (d.endShadow e r st) :=
  spares_ite (fun _ => spares_skipShadow d _) fun _ => spares_modSealSt d _

theorem spares_releaseMarks (entry : Nat) : d.Spares (d.releaseMarks entry) := (settles_releaseMarks d entry).spares

theorem spares_endLaunch (e : Nat) (r : Run) (st : Status) (excused again : Bool) (hst : committed st = false) :
    d.Spares (d.endLaunch e r st excused again) := by
  unfold Device.endLaunch
  split
  · exact spares_refl d
  · next v _ =>
    extract_lets d₁ d₂ d₃ d₄ d₅ d₆
    have hrecord : d.Spares d₁ := spares_writeRecord d _ v st _ _
    have hrun : d.Spares d₂ := hrecord.trans (by
      simp only [d₂, hst, Bool.false_eq_true, if_false]
      exact spares_ite (fun _ => spares_refl _) fun _ => spares_abandonRun _ r v excused)
    have hshadow : d.Spares d₃ := by
      simp only [d₃]
      split
      · exact hrun
      · exact spares_ite (fun _ => hrun) fun _ => hrun.trans (spares_modSealSt _ _)
    have hended : d.Spares d₄ := by
      simp only [d₄]
      refine spares_ite (fun _ => ?_) fun _ => hshadow.trans (settles_countLate _ _ _).spares
      exact spares_ite (fun _ => spares_refl d) fun _ => spares_endShadow d e r st
    have hcredits : d.Spares d₅ := hended.trans (settles_creditsBack d₄ r).spares
    refine spares_ite (fun _ => ?_) fun _ => ?_
    · exact ((hcredits.trans (settles_settleCtx _ _).spares).trans (spares_releaseSets _)).trans (spares_endRelaunch _ _ _)
    · have hctx : d.Spares d₆ := hcredits.trans ((settles_dropSems _ _).trans (settles_settleCtx _ _)).spares
      exact ((hctx.trans (spares_releaseMarks _ _)).trans (spares_releaseSets _)).trans (spares_endRelaunch _ _ _)

theorem spares_endRun (e : Nat) (st : Status) (excused again : Bool) (hst : committed st = false) :
    d.Spares (d.endRun e st excused again) := by
  unfold Device.endRun
  split
  · exact spares_refl d
  · next r _ =>
    have hbooked := ((settles_bookTime d r).trans (settles_withdrawSems _ e)).trans
      (settles_reloads _ (fun l => l.filter (fun y => y.2.1 ≠ some e)))
    exact (hbooked.spares.trans (spares_freeEngine _ e r st)).trans (spares_endLaunch _ e r st excused again hst)

/-! ### Contexts that are torn down (R468 to R470) -/

theorem spares_quarantineDue (x : Due) (tornDown : Bool) : d.Spares (d.quarantineDue x tornDown) := by
  unfold Device.quarantineDue
  split
  · exact spares_refl d
  · next v _ =>
    refine spares_ite (fun _ => spares_skipShadow d x) fun _ => spares_ite (fun _ => spares_modItn d _) fun _ => ?_
    extract_lets excused
    refine spares_ite (fun _ => Device.Spares.trans ?_ (spares_reproject _ x v 10 excused none))
      fun _ => (spares_skipDue d x v _ excused _).trans (spares_releaseMarks _ _)
    exact spares_ite (fun _ => spares_noteEnd d x _) fun _ => spares_refl d

theorem spares_stopFlushes (c : Nat) : d.Spares (d.stopFlushes c) :=
  spares_foldl _ _ (fun d x => show d.Spares (((d.haltFlush x).2.dropSet (d.haltFlush x).1).degrade (d.haltFlush x).1.1.stream
    (d.haltFlush x).1.1.slot 2) from ((spares_haltFlush d x).trans (spares_dropSet _ _)).trans (spares_degrade _ _ _ _ _)) d

theorem spares_dropProgress (c : Nat) : d.Spares (d.dropProgress c) := spares_of_same rfl rfl rfl rfl rfl

theorem committed_teardownStatus (cause : Nat) : committed (teardownStatus cause) = false := by
  unfold teardownStatus
  split <;> rfl

theorem Device.Clears.spares {d d' : Device} (h : d.Clears d') : d.Spares d' where
  serai := by rw [h.same]
  now := by rw [h.same]
  req := by rw [h.same]
  runs e := .inl (h.runs e)
  jobs u hu := by rw [h.same]; exact hu

theorem spares_tearEngine (c e : Nat) (st : Status) (excused : Bool) (hst : committed st = false) :
    d.Spares (d.tearEngine c st excused e) := by
  obtain ⟨d', hclears, htear⟩ := tearEngine_cases c st excused d e
  rw [htear]
  exact spares_ite (fun _ => hclears.spares.trans (spares_endRun d' e st excused false hst)) fun _ => hclears.spares

/-- A vision unit without a job of the context: its queued launches of it go. -/
theorem spares_tearUnit (c u : Nat) (st : Status) (excused : Bool) (hrun : (d.unit u).run = none) :
    d.Spares (d.tearUnit c st excused u) := by
  unfold Device.tearUnit
  extract_lets x mine d₁ d₂
  have hqueue : d.Spares d₁ := spares_modUnit d u _ fun _ h => h
  have hd₂ : d₂ = d₁ := by simp only [d₂, x, hrun]
  rw [hd₂]
  exact hqueue.trans (spares_foldl _ _ (fun d q => spares_quarantineDue d _ true) d₁)

theorem spares_cancelRelaunches (gone : List Due) : d.Spares (d.cancelRelaunches gone) := by
  unfold Device.cancelRelaunches
  extract_lets pairs off next d₁
  have hwaiting : d.Spares d₁ := spares_modItn d _
  refine spares_ite (fun _ => hwaiting.trans ?_) fun _ => hwaiting
  refine ⟨rfl, rfl, rfl, fun _ => .inl rfl, fun u hu => ?_⟩
  by_cases h : u < 7
  · rw [Device.unit, vget, Vector.getElem?_eq_getElem h, Option.getD_some] at hu ⊢
    rw [Vector.getElem_map]
    exact hu
  · rw [Device.unit, vget, Vector.getElem?_eq_none (Nat.not_lt.mp h)]
    rfl

/-- A teardown while no vision unit runs a job. -/
theorem spares_teardown (c cause entry : Nat) (excused : Bool) (hjobs : ∀ u, (d.unit u).run = none) :
    d.Spares (d.teardown c cause entry excused) := by
  unfold Device.teardown
  extract_lets st fresh ends d₁ dues d₂ ready kept keptOn d₃ d₄ d₅ d₆ d₇ d₈
  have hst : committed st = false := committed_teardownStatus cause
  have hcounted : d.Spares d₁ := spares_ite (fun _ => spares_modItn d _) fun _ => spares_refl d
  have hcancelled : d.Spares d₂ := hcounted.trans (spares_cancelRelaunches d₁ dues)
  have hquarantined : d.Spares d₄ := (hcancelled.trans (spares_modItn d₂ _)).trans (spares_modCtx d₃ c _)
  have hengines : d.Spares d₅ :=
    hquarantined.trans (spares_foldl _ _ (fun d e => spares_tearEngine d c e st excused hst) d₄)
  have hkept : d.Spares d₆ := by
    simp only [d₆]
    clear_value kept
    cases kept with
    | none => exact hengines
    | some r => exact hengines.trans (spares_endLaunch _ _ r st excused false hst)
  have hunits : d.Spares d₇ :=
    List.foldlRecOn (motive := fun d' : Device => d.Spares d') _ _ hkept fun d' hd' u _ =>
      hd'.trans (spares_tearUnit d' c u st excused (hd'.jobs u (hjobs u)))
  have hdues : d.Spares d₈ := hunits.trans (spares_foldl _ _ (fun d x => spares_quarantineDue d x true) d₇)
  exact ((hdues.trans (settles_dropSems d₈ c).spares).trans (spares_stopFlushes _ c)).trans (spares_dropProgress _ c)

/-! ### Engines that retire (R621) -/

theorem spares_moveFlushes (e : Nat) : d.Spares (d.moveFlushes e) := by
  refine spares_foldl _ _ (fun d x => ?_) d
  split
  · refine spares_ite (fun _ => spares_refl d) fun _ => ?_
    have hhalt := spares_haltFlush d x
    generalize d.haltFlush x = w at hhalt
    obtain ⟨x', d'⟩ := w
    dsimp only
    split
    · exact hhalt.trans (spares_putSet _ _)
    · exact (hhalt.trans (spares_putSet _ _)).trans (spares_modRfe _ _)
  · exact spares_refl d

theorem spares_deadlineSkip (x : Due) (v : Serve) (st : Status) : d.Spares (d.deadlineSkip x v st) :=
  (((spares_modItn d _).trans (spares_skipDue _ x v st false true)).trans (spares_modItn _ _)).trans (spares_releaseMarks _ _)

theorem spares_dropReady (x : Due) (c : Nat) : d.Spares (d.dropReady x c) := (spares_modCtx d c _).trans (spares_releaseMarks _ _)

theorem spares_skipStranded : d.Spares d.skipStranded := by
  refine spares_foldl _ _ (fun d x => ?_) d
  split
  · refine spares_ite (fun _ => ?_) fun _ => spares_refl d
    exact (spares_dropReady d x _).trans (spares_deadlineSkip _ _ _ _)
  · exact spares_refl d

theorem spares_retire (e why : Nat) (hjobs : ∀ u, (d.unit u).run = none) : d.Spares (d.retire e why) := by
  unfold Device.retire
  extract_lets score d₁ d₂ d₃ d₄ d₅ d₆
  have hmarked : d.Spares d₁ := spares_modEng d e _ fun _ => rfl
  have hstopped : d.Spares d₂ := hmarked.trans (spares_ite (fun _ => spares_endRun d₁ e .aborted false false rfl) fun _ => spares_refl d₁)
  have htorn : d.Spares d₃ :=
    List.foldlRecOn (motive := fun d' : Device => d.Spares d') _ _ hstopped fun d' hd' c _ =>
      hd'.trans (spares_teardown d' c 6 _ false fun u => hd'.jobs u (hjobs u))
  have hskipped : d.Spares d₄ := (htorn.trans (spares_moveFlushes d₃ e)).trans (spares_skipStranded _)
  have hcounted : d.Spares d₆ := (hskipped.trans (spares_event d₄ _ _ _ _)).trans
    (spares_ite (fun _ => spares_modSealSt d₅ _) fun _ => spares_refl d₅)
  exact hcounted.trans (spares_modItn d₆ _)

theorem spares_retireCheck (hjobs : ∀ u, (d.unit u).run = none) : d.Spares d.retireCheck :=
  List.foldlRecOn (motive := fun d' : Device => d.Spares d') _ _ (spares_refl d) fun d' hd' e _ =>
    hd'.trans (spares_ite (fun _ => spares_retire d' e 0 fun u => hd'.jobs u (hjobs u)) fun _ => spares_refl d')

/-- No unit of a device whose lists all run free of waits has a job. -/
theorem Device.Still.idle {d : Device} (h : d.Still) (u : Nat) : (d.unit u).run = none := by
  obtain ⟨-, hjobs, -⟩ := h
  by_cases hu : u < 7
  · exact hjobs u hu
  · rw [Device.unit, vget, Vector.getElem?_eq_none (Nat.not_lt.mp hu)]
    rfl

end

end Sys2Proof.Machine
end

section
/-! SUPPORT. Landings that are drained (R574 to R577, R59, R733). -/
namespace Sys2Proof.Machine

/-! ### Tiles of several runs -/

theorem mem_dedup (l acc : List Nat) (k : Nat) :
    k ∈ l.foldl (fun acc t => if acc.contains t then acc else acc ++ [t]) acc ↔ k ∈ acc ∨ k ∈ l := by
  induction l generalizing acc with
  | nil => simp
  | cons t l ih =>
    rw [List.foldl_cons, ih, List.mem_cons]
    split
    · next h =>
      have ht : t ∈ acc := by simpa using h
      constructor
      · rintro (h | h)
        · exact .inl h
        · exact .inr (.inr h)
      · rintro (h | rfl | h)
        · exact .inl h
        · exact .inl ht
        · exact .inr h
    · rw [List.mem_append, List.mem_singleton, or_assoc]

theorem mem_spanTiles (e k : Nat) (l : List Span) : k ∈ spanTiles e l ↔ ∃ s ∈ l, k ∈ tilesOf (physAddr e s.addr) s.len := by
  rw [spanTiles, mem_dedup, List.mem_flatMap]
  simp

/-- The tiles of some of the runs are among those of all. -/
theorem spanTiles_subset (e k : Nat) {l l' : List Span} (h : ∀ s ∈ l, s ∈ l') (hk : k ∈ spanTiles e l) : k ∈ spanTiles e l' := by
  obtain ⟨s, hs, hks⟩ := (mem_spanTiles e k l).mp hk
  exact (mem_spanTiles e k l').mpr ⟨s, h s hs, hks⟩

/-! ### Memory as the Serai and an engine see it (R733) -/

/-- Outside the local window an engine sees memory as it is. -/
theorem memGet_view (d : Device) (e a n x : Nat) (h : x < localBase ∨ localBase + scratchBytes ≤ x) :
    memGet (d.view e a n) x = memGet (memWindow d.store.mem a n) x := by
  have hinside (b k : Nat) (hx : b ≤ x ∧ x < b + k) : memGet (memWindow d.store.mem b k) x = memGet d.store.mem x :=
    memGet_filter _ x _ fun _ => by simpa using hx
  have houtside (b k : Nat) (hx : ¬ (b ≤ x ∧ x < b + k)) : memGet (memWindow d.store.mem b k) x = 0 :=
    memGet_filter_none _ x _ fun _ => by simpa using hx
  have hany (l r : List (Nat × Byte)) (hl : ∀ c ∈ l, c.1 ≠ x) : memGet (l ++ r) x = memGet r x := by
    refine (memGet_append l r x).trans (if_neg fun hin => ?_)
    obtain ⟨c, hc, hcx⟩ := List.any_eq_true.mp hin
    exact hl c hc (by simpa using hcx)
  have habsent (b k : Nat) (hx : ¬ (b ≤ x ∧ x < b + k)) : ∀ c ∈ memWindow d.store.mem b k, c.1 ≠ x := by
    rintro c hc rfl
    have hwin := (List.mem_filter.mp hc).2
    simp only [Bool.and_eq_true, decide_eq_true_eq] at hwin
    exact hx hwin
  unfold Device.view
  extract_lets lo hi
  have hlocal : ∀ c ∈ (memWindow d.store.mem (physAddr e lo) (hi - lo)).map (fun c => (c.1 - physAddr e lo + lo, c.2)), c.1 ≠ x := by
    intro c hc
    obtain ⟨c', hc', rfl⟩ := List.mem_map.mp hc
    have hwin := (List.mem_filter.mp hc').2
    simp only [Bool.and_eq_true, decide_eq_true_eq] at hwin
    simp only [lo, hi] at hwin ⊢
    omega
  rw [List.append_assoc]
  by_cases hfirst : a ≤ x ∧ x < a + min n (localBase - a)
  · rw [memGet_append]
    have hrest : ¬ (hi ≤ x ∧ x < hi + (a + n - hi)) := by simp only [hi, lo]; omega
    split
    · rw [hinside _ _ hfirst, hinside a n (by omega)]
    · next hnone =>
      have hmissing : memGet (memWindow d.store.mem a (min n (localBase - a))) x = 0 :=
        memGet_absent _ _ fun c hc hcx => hnone (List.any_eq_true.mpr ⟨c, hc, by simpa using hcx⟩)
      rw [hany _ _ hlocal, houtside _ _ hrest, ← hmissing, hinside _ _ hfirst, hinside a n (by omega)]
  · rw [hany _ _ (habsent _ _ hfirst), hany _ _ hlocal]
    by_cases hrest : hi ≤ x ∧ x < hi + (a + n - hi)
    · rw [hinside _ _ hrest, hinside a n (by simp only [hi, lo] at hrest; omega)]
    · rw [houtside _ _ hrest, houtside a n (by simp only [hi, lo] at hrest; omega)]

/-- What the Serai may read lies below the local window. -/
theorem seraiEnd_le (a : Nat) : seraiEnd a ≤ localBase := by
  unfold seraiEnd
  split
  · decide
  · decide
  · next n _ =>
    have hn : n.val ≤ 5 := Nat.le_of_lt_succ n.isLt
    simp only [scratchBase, scratchBytes, localBase]
    omega
  · exact Nat.zero_le _

/-- A pixel of a row that the Serai may read is the same to it and to an engine. -/
theorem fp32_tensorWindow (d : Device) (e c y x : Nat) (t : Desc) (hfmt : seraiFmt t = true) (hc : c < t.channels) (hx : x < t.width)
    (hrow : ∀ w ∈ t.rowSpans false [y], w.strays = false) : t.fp32 (d.tensorWindow e t) c y x = t.fp32 (d.plainWindow t) c y x := by
  simp only [seraiFmt, Bool.and_eq_true, List.contains_eq_mem, decide_eq_true_eq] at hfmt
  obtain ⟨⟨hfmt, hlayout⟩, -⟩ := hfmt
  have hcb : t.cb = 1 := by simp [Desc.cb, hlayout]
  have hmx : isMx t.fmt = false := by
    simp only [List.mem_cons, List.not_mem_nil, or_false] at hfmt
    rcases hfmt with h | h | h <;> rw [h] <;> rfl
  obtain ⟨k, hk⟩ : ∃ k, fmtBits t.fmt = 8 * k ∧ (k = 2 ∨ k = 4) := by
    simp only [List.mem_cons, List.not_mem_nil, or_false] at hfmt
    rcases hfmt with h | h | h <;> rw [h]
    · exact ⟨2, rfl, .inl rfl⟩
    · exact ⟨2, rfl, .inl rfl⟩
    · exact ⟨4, rfl, .inr rfl⟩
  obtain ⟨hbits, hwide⟩ := hk
  have hspan : ({ addr := t.rowAddr c y, len := t.rowBytes, store := false } : Span) ∈ t.rowSpans false [y] := by
    refine List.mem_flatMap.mpr ⟨c, List.mem_range.mpr ?_, List.mem_singleton.mpr rfl⟩
    rw [Desc.planes, hcb]
    simpa [ceilDiv] using hc
  have hbytes : t.rowBytes = t.width * k := by
    rw [Desc.rowBytes, runBytes, hbits, hcb, if_neg (by omega), Nat.mul_one]
    simp only [ceilDiv]
    rcases hwide with rfl | rfl <;> omega
  have hend : t.rowAddr c y + t.rowBytes ≤ localBase := by
    have h := hrow _ hspan
    have hpos : t.rowBytes ≠ 0 := by
      rw [hbytes]
      rcases hwide with rfl | rfl <;> omega
    simp only [Span.strays, hpos, ne_eq, not_false_iff, decide_true, Bool.true_and, decide_eq_false_iff_not, Nat.not_lt] at h
    exact h.trans (seraiEnd_le _)
  have hcode : t.code (d.tensorWindow e t) c y x = t.code (d.plainWindow t) c y x := by
    simp only [Desc.code, codeAt, hcb, Nat.mod_one, Nat.div_one, Nat.mul_one, Nat.add_zero, hbits]
    refine congrArg (fun l => leNat l / 2 ^ (x * (8 * k) % 8) % 2 ^ (8 * k)) (List.map_congr_left fun i hi => ?_)
    refine memGet_view d e t.base t.span _ (.inl ?_)
    have hi' := List.mem_range.mp hi
    rw [hbytes] at hend
    rcases hwide with rfl | rfl <;> omega
  simp only [Desc.fp32, Desc.num, hcode, hmx, Bool.false_eq_true, if_false]

/-! ### What a drain changes of the Serai (R575, R577, R579) -/

/-- `d'` is a device after work of the Serai on `d`: no list has moved, no landing is new and none waits that did not. -/
structure Device.Serves (d d' : Device) : Prop where
  keeps : d.KeepsLists d'
  last : d'.serai.lastProducer = d.serai.lastProducer
  landings : ∀ x ∈ d'.serai.landings, x ∈ d.serai.landings
  waiting : d'.serai.waiting = d.serai.waiting

section
variable {d d' d'' : Device}

theorem serves_refl (d : Device) : d.Serves d := ⟨keepsLists_refl d, rfl, fun _ h => h, rfl⟩

theorem Device.Serves.trans (h : d.Serves d') (h' : d'.Serves d'') : d.Serves d'' where
  keeps := h.keeps.trans h'.keeps
  last := h'.last.trans h.last
  landings x hx := h.landings x (h'.landings x hx)
  waiting := h'.waiting.trans h.waiting

theorem Device.KeepsLists.serves (h : d.KeepsLists d') (hserai : d'.serai = d.serai) : d.Serves d' :=
  ⟨h, by rw [hserai], fun x hx => hserai ▸ hx, by rw [hserai]⟩

/-- Steps of the Serai, none of which has a landing that waits. -/
theorem serves_foldl {α : Type} (l : List α) (f : Device → α → Device)
    (hf : ∀ (d : Device) a, d.serai.waiting = [] → d.Serves (f d a)) (d : Device) (hw : d.serai.waiting = []) :
    d.Serves (l.foldl f d) :=
  List.foldlRecOn (motive := fun d' : Device => d.Serves d') l f (serves_refl d) fun d' hd' a _ =>
    hd'.trans (hf d' a (hd'.waiting.trans hw))

end

section
variable (d : Device)

theorem serves_modSlot (s n : Nat) (f : Slot → Slot) : d.Serves (d.modSlot s n f) := (keepsLists_modSlot d s n f).serves rfl

theorem serves_degrade (s n cause : Nat) : d.Serves (d.degrade s n cause) :=
  (keepsLists_degrade d s n cause false).serves (by rw [degrade_same])

theorem serves_seraiFault (a : Nat) : d.Serves (d.seraiFault a) :=
  Device.KeepsLists.serves (d' := d.seraiFault a) (keepsLists_of_same rfl rfl rfl rfl) rfl

theorem serves_countCharge (n : Nat) (u : Use) : d.Serves ((d.countFill n).chargeDevice u) :=
  Device.KeepsLists.serves (d' := (d.countFill n).chargeDevice u) (keepsLists_of_same rfl rfl rfl rfl) rfl

theorem serves_seraiRead (spans : List Span) : d.Serves (d.seraiRead spans).2 := by
  unfold Device.seraiRead
  split
  · exact serves_seraiFault d _
  · have hread := (keepsLists_verifyAll d 0 (spanTiles 0 spans)).serves (by rw [(reads_verifyAll d 0 (spanTiles 0 spans)).same])
    exact hread.trans (serves_countCharge (d.verifyAll 0 (spanTiles 0 spans)).2 _ _)

theorem serves_layerAbsent (s n i : Nat) : d.Serves (d.layerAbsent s n i) := by
  unfold Device.layerAbsent
  extract_lets d₁
  have hcount : d.Serves d₁ := ⟨keepsLists_of_same rfl rfl rfl rfl, rfl, fun _ h => h, rfl⟩
  exact (hcount.trans (serves_modSlot _ _ _ _)).trans (serves_degrade _ _ _ _)

theorem serves_freeLanding (l : Landing) (hw : d.serai.waiting = []) : d.Serves (d.freeLanding l) ∧
    ∀ x ∈ (d.freeLanding l).serai.landings, ¬ (x.producer = l.producer ∧ x.slotIdx = l.slotIdx) := by
  have hfree : d.freeLanding l = d.modSerai (fun r =>
      { r with landings := r.landings.filter (fun x => !(x.producer = l.producer && x.slotIdx = l.slotIdx)) }) := by
    simp only [Device.freeLanding, Device.modSerai, hw, List.find?_nil]
  rw [hfree]
  refine ⟨⟨keepsLists_of_same rfl rfl rfl rfl, rfl, fun x hx => (List.mem_filter.mp hx).1, rfl⟩, fun x hx => ?_⟩
  have hother := (List.mem_filter.mp hx).2
  rintro ⟨hproducer, hslot⟩
  simp [hproducer, hslot] at hother

theorem serves_settleLayers (s n y : Nat) (hw : d.serai.waiting = []) : d.Serves (d.settleLayers s n y) := by
  refine serves_foldl _ _ (fun d p _ => ?_) d hw
  split
  · split
    · exact serves_modSlot d _ _ _
    · exact serves_layerAbsent d _ _ _
  · exact serves_refl d

theorem serves_blendRow (s n y : Nat) (row : List (List Word)) : d.Serves (d.blendRow s n y row).2.2 := by
  refine List.foldlRecOn (motive := fun acc : List (List Word) × Nat × Device => d.Serves acc.2.2) _ _ (serves_refl d)
    fun acc hacc p _ => ?_
  obtain ⟨row', k, d'⟩ := acc
  dsimp only at hacc ⊢
  split
  · split
    · exact hacc
    · next l _ =>
      have hread := serves_seraiRead d' (l.desc.rowSpans false [y - p.2.y])
      split
      · next h => rw [h] at hread; exact hacc.trans hread
      · next h => rw [h] at hread; exact (hacc.trans hread).trans (serves_layerAbsent _ _ _ _)
  · exact hacc

theorem serves_freeLayers (s n y : Nat) (hw : d.serai.waiting = []) : d.Serves (d.freeLayers s n y) := by
  refine serves_foldl _ _ (fun d p hd => ?_) d hw
  split
  · split
    · exact (serves_freeLanding d _ hd).1
    · exact serves_refl d
  · exact serves_refl d

theorem serves_composeRow (l : Landing) (y : Nat) (hw : d.serai.waiting = []) : d.Serves (d.composeRow l y) := by
  have hread := serves_seraiRead d (l.desc.rowSpans false [y])
  unfold Device.composeRow
  dsimp only
  split
  · next d₁ h => rw [h] at hread; exact hread
  · next d₁ h =>
    rw [h] at hread
    have hsettled := hread.trans (serves_settleLayers d₁ l.stream l.frame y (hread.waiting.trans hw))
    generalize d₁.settleLayers l.stream l.frame y = d₂ at hsettled
    have hblend := serves_blendRow d₂ l.stream l.frame y
      ((List.range l.desc.width).map (fun x => (List.range 3).map (fun c => word (l.desc.fp32 (d₂.plainWindow l.desc) c y x))))
    obtain ⟨⟨row, k, d₃⟩, hw₃⟩ : ∃ w, w = d₂.blendRow l.stream l.frame y
      ((List.range l.desc.width).map (fun x => (List.range 3).map (fun c => word (l.desc.fp32 (d₂.plainWindow l.desc) c y x)))) :=
      ⟨_, rfl⟩
    rw [← hw₃] at hblend ⊢
    have hblended := hsettled.trans hblend
    have hcomposed : d.Serves (d₃.modSerai (fun r =>
        { r with composed := r.composed ++ [(l.stream, l.frame, y, row)], pixelLayers := r.pixelLayers + l.desc.width + k })) :=
      hblended.trans ⟨keepsLists_of_same rfl rfl rfl rfl, rfl, fun _ h => h, rfl⟩
    exact hcomposed.trans (serves_freeLayers _ _ _ _ (hcomposed.waiting.trans hw))

/-- The producer of a landing that is drained is noted. -/
def Device.noteProducer (d : Device) (l : Landing) : Device := d.modSerai (fun r => { r with lastProducer := l.producer })

/-- The run of bytes of a landing's record in the Well (R575). -/
def Device.landingNote (d : Device) (l : Landing) : Span :=
  { addr := d.image.landBase + (2 * l.producer + l.slotIdx.val) * 64, len := 64, store := false }

/-- The rows of a landing. -/
def Landing.rowList (l : Landing) : List Nat := ((List.range l.rows).map (l.row0 + ·)).filter (fun y => y < l.desc.height)

/-- A landing's record is read, and its rows are composed where they fit. -/
def Device.composeLanding (d : Device) (l : Landing) : Device :=
  let w := (d.noteProducer l).seraiRead [d.landingNote l]
  if w.1 && w.2.landingFits l then l.rowList.foldl (fun d y => d.composeRow l y) w.2 else w.2

theorem foldl_rowList (l : Landing) : l.rowList.foldl (fun d y => d.composeRow l y) d =
    (List.range l.rows).foldl (fun d i => if l.row0 + i < l.desc.height then d.composeRow l (l.row0 + i) else d) d := by
  rw [Landing.rowList, List.foldl_filter, List.foldl_map]
  simp only [decide_eq_true_eq]

theorem drain_eq (l : Landing) : d.drain l = ((d.composeLanding l).freeLanding l).retireCheck := by
  simp only [Device.drain, Device.composeLanding, foldl_rowList]
  rfl

theorem serves_composeLanding (l : Landing) (hw : d.serai.waiting = []) :
    (d.noteProducer l).Serves (d.composeLanding l) := by
  have hread := serves_seraiRead (d.noteProducer l) [d.landingNote l]
  unfold Device.composeLanding
  extract_lets w
  split
  · exact hread.trans (serves_foldl _ _ (fun d y hd => serves_composeRow d l y hd) _ (hread.waiting.trans hw))
  · exact hread

/-- R575: a drained landing is gone, its producer is noted, and no landing is new. -/
theorem drain_landings (l : Landing) (hw : d.serai.waiting = []) (hstill : d.Still) :
    (d.drain l).Still ∧ (d.drain l).serai.lastProducer = l.producer ∧
      ∀ x ∈ (d.drain l).serai.landings, x ∈ d.serai.landings ∧ ¬ (x.producer = l.producer ∧ x.slotIdx = l.slotIdx) := by
  have hcomposed := serves_composeLanding d l hw
  have hnoted : d.KeepsLists (d.noteProducer l) := keepsLists_of_same rfl rfl rfl rfl
  obtain ⟨hfreed, hgone⟩ := serves_freeLanding (d.composeLanding l) l (hcomposed.waiting.trans hw)
  have hserved := hcomposed.trans hfreed
  have hstill' := hserved.keeps.still (hnoted.still hstill)
  rw [drain_eq]
  generalize (d.composeLanding l).freeLanding l = d' at hgone hserved hstill'
  have hspares := spares_retireCheck d' fun u => hstill'.idle u
  refine ⟨hspares.still hstill', ?_, fun x hx => ?_⟩
  · rw [hspares.serai, hserved.last]
    rfl
  · rw [hspares.serai] at hx
    exact ⟨hserved.landings x hx, hgone x hx⟩

end

end Sys2Proof.Machine
end

section
/-! SUPPORT. Settles O42. -/
namespace Sys2Proof.Machine

/-! ### Rows that are composed (R574, R577) -/

/-- `d'` is `d` after reads of the Serai that pass: only its count of tiles and the device meter have moved. -/
structure Device.Metered (d d' : Device) : Prop where
  same : d' = { d with sealRegs := { d.sealRegs with fillTiles := d'.sealRegs.fillTiles }, toll := d'.toll }

/-- `d'` is `d` with rows composed. -/
structure Device.Composes (d d' : Device) (rows : List (Nat × Nat × Nat × List (List Word))) : Prop where
  same : d' = { d with
    sealRegs := { d.sealRegs with fillTiles := d'.sealRegs.fillTiles }, toll := d'.toll,
    serai := { d.serai with composed := d.serai.composed ++ rows, pixelLayers := d'.serai.pixelLayers } }

/-- The composed row y of a landing without layers over it, from memory as an engine sees it. -/
def Device.landingRow (d : Device) (l : Landing) (y : Nat) : Nat × Nat × Nat × List (List Word) :=
  (l.stream, l.frame, y, (List.range l.desc.width).map (fun x =>
    (List.range 3).map (fun c => word (l.desc.fp32 (d.tensorWindow 0 l.desc) c y x))))

section
variable {d d' d'' : Device} {l : Landing}

theorem composes_refl (d : Device) : d.Composes d [] := ⟨by rw [List.append_nil]⟩

theorem Device.Composes.trans {rows rows' : List (Nat × Nat × Nat × List (List Word))} (h : d.Composes d' rows)
    (h' : d'.Composes d'' rows') : d.Composes d'' (rows ++ rows') := by
  constructor
  rw [h'.same, h.same]
  simp only [List.append_assoc]

theorem Device.Composes.passes {rows : List (Nat × Nat × Nat × List (List Word))} (h : d.Composes d' rows) (k : Nat) :
    d'.passes k = d.passes k := by rw [h.same]; rfl

theorem Device.Composes.layersOf {rows : List (Nat × Nat × Nat × List (List Word))} (h : d.Composes d' rows) (s : Nat) :
    d'.layersOf s = d.layersOf s := by rw [h.same]; rfl

theorem Device.Composes.landingRow {rows : List (Nat × Nat × Nat × List (List Word))} (h : d.Composes d' rows) (y : Nat) :
    d'.landingRow l y = d.landingRow l y := by rw [h.same]; rfl

/-- A read that meets no run out of the Serai's reach and no failing tile passes. -/
theorem seraiRead_of_passes (d : Device) (spans : List Span) (hin : ∀ w ∈ spans, w.strays = false)
    (hpass : ∀ k ∈ spanTiles 0 spans, d.passes k = true) :
    d.seraiRead spans = (true, (d.countFill (fillTiles 0 inWellOrDram spans)).chargeDevice (spanUse 0 inWellOrDram spans)) := by
  have hnone : spans.find? Span.strays = none := List.find?_eq_none.mpr fun w hw => by simp [hin w hw]
  simp only [Device.seraiRead, hnone, verifyAll_of_passes d 0 _ hpass]

theorem metered_countCharge (d : Device) (n : Nat) (u : Use) : d.Metered ((d.countFill n).chargeDevice u) := ⟨rfl⟩

theorem Device.Metered.composes (h : d.Metered d') : d.Composes d' [] := by
  constructor
  rw [List.append_nil, h.same]

/-- R59: a run out of the Serai's reach is not read. -/
theorem seraiRead_of_strays (d : Device) (spans : List Span) (w : Span) (h : spans.find? Span.strays = some w) :
    d.seraiRead spans = (false, d.seraiFault (max w.addr (seraiEnd w.addr))) := by
  simp only [Device.seraiRead, h]

theorem blendRow_of_noLayers (d : Device) (s n y : Nat) (row : List (List Word)) (h : d.layersOf s = []) :
    d.blendRow s n y row = (row, 0, d) := by
  rw [Device.blendRow, h, List.foldl_nil]

theorem settleLayers_of_noLayers (d : Device) (s n y : Nat) (h : d.layersOf s = []) : d.settleLayers s n y = d := by
  rw [Device.settleLayers, h, List.foldl_nil]

theorem freeLayers_of_noLayers (d : Device) (s n y : Nat) (h : d.layersOf s = []) : d.freeLayers s n y = d := by
  rw [Device.freeLayers, h, List.foldl_nil]

/-- The layer-0 landing has a format of R574 and the three channels of a base layer. -/
theorem seraiFmt_of_landingFits (h : d.landingFits l = true) : seraiFmt l.desc = true ∧ l.desc.channels = 3 := by
  unfold Device.landingFits at h
  split at h
  · simp only [Bool.and_eq_true, decide_eq_true_eq] at h
    obtain ⟨⟨⟨hfmt, hchannels⟩, -⟩, -⟩ := h
    exact ⟨hfmt, hchannels⟩
  · exact absurd h Bool.false_ne_true

/-- R577 without layers: the row joins the composed rows, and memory stays. -/
theorem composes_composeRow (y : Nat) (hfmt : seraiFmt l.desc = true) (hchannels : l.desc.channels = 3)
    (hlayers : d.layersOf l.stream = []) (hin : ∀ w ∈ l.desc.rowSpans false [y], w.strays = false)
    (hpass : ∀ k ∈ spanTiles 0 (l.desc.rowSpans false [y]), d.passes k = true) :
    d.Composes (d.composeRow l y) [d.landingRow l y] := by
  have hread := (metered_countCharge d (fillTiles 0 inWellOrDram (l.desc.rowSpans false [y]))
    (spanUse 0 inWellOrDram (l.desc.rowSpans false [y]))).composes
  unfold Device.composeRow
  dsimp only
  rw [seraiRead_of_passes d _ hin hpass]
  dsimp only
  generalize (d.countFill _).chargeDevice _ = d₁ at hread
  have hlayers₁ : d₁.layersOf l.stream = [] := (hread.layersOf _).trans hlayers
  rw [settleLayers_of_noLayers d₁ _ _ _ hlayers₁, blendRow_of_noLayers d₁ _ _ _ _ hlayers₁]
  have hrow : (l.stream, l.frame, y, (List.range l.desc.width).map (fun x =>
      (List.range 3).map (fun c => word (l.desc.fp32 (d₁.plainWindow l.desc) c y x)))) = d.landingRow l y := by
    rw [← hread.landingRow]
    refine congrArg (fun r => (l.stream, l.frame, y, r)) (List.map_congr_left fun x hx => List.map_congr_left fun c hc => ?_)
    rw [fp32_tensorWindow d₁ 0 c y x l.desc hfmt (hchannels ▸ List.mem_range.mp hc) (List.mem_range.mp hx) hin]
  dsimp only
  rw [hrow, freeLayers_of_noLayers _ _ _ _ (by exact hlayers₁)]
  exact hread.trans ⟨rfl⟩

/-- The rows of a landing that the Serai may read are composed from the first to the last. -/
theorem composes_rows (rows : List Nat) (hfmt : seraiFmt l.desc = true) (hchannels : l.desc.channels = 3)
    (hlayers : d.layersOf l.stream = []) (hin : ∀ w ∈ l.desc.rowSpans false rows, w.strays = false)
    (hpass : ∀ k ∈ spanTiles 0 (l.desc.rowSpans false rows), d.passes k = true) :
    d.Composes (rows.foldl (fun d y => d.composeRow l y) d) (rows.map (d.landingRow l)) := by
  induction rows generalizing d with
  | nil => exact composes_refl d
  | cons y rows ih =>
    have hsub (part : List Nat) (hpart : ∀ z ∈ part, z ∈ y :: rows) :
        ∀ w ∈ l.desc.rowSpans false part, w ∈ l.desc.rowSpans false (y :: rows) := by
      intro w hw
      obtain ⟨p, hp, hw⟩ := List.mem_flatMap.mp hw
      obtain ⟨z, hz, rfl⟩ := List.mem_map.mp hw
      exact List.mem_flatMap.mpr ⟨p, hp, List.mem_map_of_mem (hpart z hz)⟩
    have hfirst := hsub [y] (by simp)
    have hrest := hsub rows fun z => List.mem_cons_of_mem y
    have hrow := composes_composeRow y hfmt hchannels hlayers (fun w hw => hin w (hfirst w hw))
      fun k hk => hpass k (spanTiles_subset 0 k hfirst hk)
    have htail := ih ((hrow.layersOf _).trans hlayers) (fun w hw => hin w (hrest w hw))
      fun k hk => (hrow.passes k).trans (hpass k (spanTiles_subset 0 k hrest hk))
    have hsame : rows.map ((d.composeRow l y).landingRow l) = rows.map (d.landingRow l) :=
      List.map_congr_left fun z _ => hrow.landingRow z
    rw [hsame] at htail
    exact hrow.trans htail

end

/-! ### The landing that is drained -/

section
variable {d : Device} {l : Landing}

/-- R574 to R577: the rows of a fitting landing are composed. -/
theorem composes_composeLanding (hfits : d.landingFits l = true) (hlayers : d.layersOf l.stream = [])
    (hin : ∀ w ∈ d.landingNote l :: l.desc.rowSpans false l.rowList, w.strays = false)
    (hpass : ∀ k ∈ spanTiles 0 (d.landingNote l :: l.desc.rowSpans false l.rowList), d.passes k = true) :
    (d.noteProducer l).Composes (d.composeLanding l) (l.rowList.map (d.landingRow l)) := by
  obtain ⟨hfmt, hchannels⟩ := seraiFmt_of_landingFits hfits
  have hnote : ∀ w ∈ [d.landingNote l], w ∈ d.landingNote l :: l.desc.rowSpans false l.rowList := by simp
  have hrows : ∀ w ∈ l.desc.rowSpans false l.rowList, w ∈ d.landingNote l :: l.desc.rowSpans false l.rowList :=
    fun w => List.mem_cons_of_mem _
  have hread := (metered_countCharge (d.noteProducer l) (fillTiles 0 inWellOrDram [d.landingNote l])
    (spanUse 0 inWellOrDram [d.landingNote l])).composes
  unfold Device.composeLanding
  dsimp only
  rw [seraiRead_of_passes (d.noteProducer l) _ (fun w hw => hin w (hnote w hw)) fun k hk => hpass k (spanTiles_subset 0 k hnote hk)]
  dsimp only
  generalize ((d.noteProducer l).countFill _).chargeDevice _ = d₁ at hread
  have hfits₁ : d₁.landingFits l = true := by rw [hread.same]; exact hfits
  rw [Bool.true_and, if_pos hfits₁]
  have hall := composes_rows (d := d₁) l.rowList hfmt hchannels ((hread.layersOf _).trans hlayers) (fun w hw => hin w (hrows w hw))
    fun k hk => (hread.passes k).trans (hpass k (spanTiles_subset 0 k hrows hk))
  have hsame : l.rowList.map (d₁.landingRow l) = l.rowList.map (d.landingRow l) :=
    List.map_congr_left fun y _ => hread.landingRow y
  rw [hsame] at hall
  exact hread.trans hall

/-- R59, R733: the one row of a landing is not read where it leaves the Serai's reach. -/
theorem composeLanding_of_strays {y : Nat} {w : Span} (hfits : d.landingFits l = true) (hrows : l.rowList = [y])
    (hin : (d.landingNote l).strays = false) (hpass : ∀ k ∈ spanTiles 0 [d.landingNote l], d.passes k = true)
    (hstray : (l.desc.rowSpans false [y]).find? Span.strays = some w) :
    ∃ d', (d.noteProducer l).Metered d' ∧ d.composeLanding l = d'.seraiFault (max w.addr (seraiEnd w.addr)) := by
  have hread := metered_countCharge (d.noteProducer l) (fillTiles 0 inWellOrDram [d.landingNote l])
    (spanUse 0 inWellOrDram [d.landingNote l])
  refine ⟨_, hread, ?_⟩
  unfold Device.composeLanding
  dsimp only
  rw [seraiRead_of_passes (d.noteProducer l) _ (fun w hw => by rwa [List.mem_singleton.mp hw]) hpass]
  dsimp only
  generalize ((d.noteProducer l).countFill _).chargeDevice _ = d₁ at hread
  have hfits₁ : d₁.landingFits l = true := by rw [hread.same]; exact hfits
  rw [Bool.true_and, if_pos hfits₁, hrows, List.foldl_cons, List.foldl_nil]
  simp only [Device.composeRow, seraiRead_of_strays d₁ _ w hstray]

/-- A landing that is freed frees no other while none waits. -/
theorem freeLanding_eq (hw : d.serai.waiting = []) : d.freeLanding l = d.modSerai (fun r =>
    { r with landings := r.landings.filter (fun x => !(x.producer = l.producer && x.slotIdx = l.slotIdx)) }) := by
  simp only [Device.freeLanding, Device.modSerai, hw, List.find?_nil]

end

section
variable {t : Nat} {l : Landing} {tie : Bool} {s : State}

/-- The device that the Serai drains from in free mode: at the command's instant, with the choice counted among landings of one instant. -/
def Device.drainStart (d : Device) (t : Nat) (tie : Bool) : Device :=
  if tie then (d.atTime t).modSerai (fun r => { r with freeChoice := satInc r.freeChoice }) else d.atTime t

/-- All that the choice between landings of one instant changes is its count. -/
theorem drainStart_same (d : Device) (t : Nat) (tie : Bool) : d.drainStart t tie = { d.atTime t with
    serai := { d.serai with freeChoice := (d.drainStart t tie).serai.freeChoice } } := by
  cases tie <;> rfl

/-- R576: in free mode the landing that landed first is drained. -/
theorem exec_layer0Drain_of_free (hrun : s.dev.phase = .running) (hfree : s.dev.ctl.lockstep = false)
    (hl : s.dev.freeDrain = some (l, tie)) :
    exec (.layer0Drain t) s = .next (s.withDev ((s.dev.drainStart t tie).drain l).pump.settle) := by
  refine (congrArg Host.Outcome.next (runI_whenRunning s t _ hrun)).trans ?_
  refine congrArg (fun d : Device => Host.Outcome.next (s.withDev d.pump.settle)) ?_
  have hfree' : (s.dev.atTime t).ctl.lockstep = false := hfree
  have hl' : (s.dev.atTime t).freeDrain = some (l, tie) := hl
  simp only [hfree', hl', Bool.not_false, Bool.and_true]
  cases tie <;> rfl

/-- R484, R576: in lockstep mode an entry whose landing is missing is waited for. -/
theorem exec_layer0Drain_of_waits {tab : SlotTable} {at_ : Nat × Nat} (hs : s.Inv) (hstill : s.dev.Still) (hrun : s.dev.phase = .running)
    (hlock : s.dev.ctl.lockstep = true) (htab : s.dev.slotTable .serai = some tab)
    (hwait : (s.dev.atTime t).tableDrain tab.entries (tab.entries.length + 1) (s.dev.arb .serai).tablePos (s.dev.arb .serai).served =
      (at_, none)) :
    exec (.layer0Drain t) s =
      .next (s.withDev ((s.dev.atTime t).setArb { s.dev.arb .serai with tablePos := at_.1, served := at_.2 })) := by
  refine (congrArg Host.Outcome.next (runI_whenRunning s t _ hrun)).trans ?_
  have hlock' : (s.dev.atTime t).ctl.lockstep = true := hlock
  have htab' : (s.dev.atTime t).slotTable .serai = some tab := htab
  have harb : (s.dev.atTime t).arb .serai = s.dev.arb .serai := rfl
  simp only [hlock', htab', harb, hwait]
  obtain ⟨hstill', hmem, hfresh, halert⟩ := calm_atTime s t hs hstill
  rw [calm_pump_settle (d := (s.dev.atTime t).setArb _) ⟨hstill', hmem, hfresh, halert⟩]

end

section
variable {d : Device} {l : Landing}

/-- The device after a drain whose rows were composed. -/
theorem drain_of_composes {rows : List (Nat × Nat × Nat × List (List Word))} (hw : d.serai.waiting = []) (hbelow : d.BelowThreshold)
    (hrows : (d.noteProducer l).Composes (d.composeLanding l) rows) :
    (d.drain l).serai.composed = d.serai.composed ++ rows ∧ (d.drain l).store = d.store ∧ (d.drain l).ne = d.ne ∧
      (d.drain l).i3c = d.i3c := by
  have hw' : (d.composeLanding l).serai.waiting = [] := by rw [hrows.same]; exact hw
  rw [drain_eq, freeLanding_eq hw', hrows.same]
  rw [retireCheck_of_below _ (by exact hbelow)]
  exact ⟨rfl, rfl, rfl, rfl⟩

/-- R59: the device after a drain whose one row lies out of the Serai's reach. -/
theorem drain_of_fault {d' : Device} {a : Nat} (hw : d.serai.waiting = []) (hbelow : d.BelowThreshold)
    (hread : (d.noteProducer l).Metered d') (hfault : d.composeLanding l = d'.seraiFault a) :
    (d.drain l).serai.composed = d.serai.composed ∧ (d.drain l).ctl.faultAddr = a ∧ (d.drain l).store = d.store ∧
      (d.drain l).ne = d.ne ∧ (d.drain l).itn = d.itn ∧ (d.drain l).i3c = d.i3c := by
  have hw' : (d'.seraiFault a).serai.waiting = [] := by rw [hread.same]; exact hw
  rw [drain_eq, hfault, freeLanding_eq hw', hread.same]
  rw [retireCheck_of_below _ (by exact hbelow)]
  exact ⟨rfl, rfl, rfl, rfl, rfl, rfl⟩

end

/-- The close of a command changes nothing of the Serai, the engines, the itinerary and the control registers. -/
theorem settle_parts (d : Device) :
    d.settle.serai = d.serai ∧ d.settle.ctl = d.ctl ∧ d.settle.ne = d.ne ∧ d.settle.itn = d.itn := ⟨rfl, rfl, rfl, rfl⟩

theorem settle_i3c_of_quiet (d : Device) (h : d.i3c.fresh = []) : d.settle.i3c = d.i3c := flush_of_quiet _ _ h

/-- Settles O42: a drain frees its landing and leaves no list to go on; rows that the Serai may read are composed one after the
other, and one that it may not read faults. -/
theorem landingDrains : Obligations.LandingDrains := by
  unfold Obligations.LandingDrains
  intro t l tie s hs hstill hrun
  refine ⟨fun hfree hl hw => ?_, fun tab at_ hlock htab hwait => exec_layer0Drain_of_waits hs hstill hrun hlock htab hwait⟩
  obtain ⟨hmem, hfresh, -⟩ := hs
  obtain ⟨d, hd⟩ : ∃ d, d = s.dev.drainStart t tie := ⟨_, rfl⟩
  have hsame := drainStart_same s.dev t tie
  have hexec := exec_layer0Drain_of_free (t := t) hrun hfree hl
  rw [← hd] at hsame hexec
  have hw' : d.serai.waiting = [] := by rw [hsame]; exact hw
  have hstill' : d.Still := (still_congr s.dev d (by rw [hsame]; rfl) (by rw [hsame]; rfl) (by rw [hsame]; rfl)).mpr hstill
  have hstore : d.store = s.dev.store := by rw [hsame]; rfl
  have hne : d.ne = s.dev.ne := by rw [hsame]; rfl
  have hi3c : d.i3c = s.dev.i3c := by rw [hsame]; rfl
  have hitn : d.itn = s.dev.itn := by rw [hsame]; rfl
  have hlandings : d.serai.landings = s.dev.serai.landings := by rw [hsame]
  have hcomposed : d.serai.composed = s.dev.serai.composed := by rw [hsame]
  have hfits' (h : s.dev.landingFits l = true) : d.landingFits l = true := by rw [hsame]; exact h
  have hlayers' (h : s.dev.layersOf l.stream = []) : d.layersOf l.stream = [] := by rw [hsame]; exact h
  have hpasses (k : Nat) : d.passes k = s.dev.passes k := by rw [hsame]; rfl
  have hbelow (h : s.dev.BelowThreshold) : d.BelowThreshold := by rw [hsame]; exact h
  have hnote : d.landingNote l = s.dev.landingNote l := by rw [hsame]; rfl
  have hrow : d.landingRow l = s.dev.landingRow l := by rw [hsame]; rfl
  obtain ⟨hdrained, hlast, hleft⟩ := drain_landings d l hw' hstill'
  have hrows := fun rows => drain_of_composes (d := d) (l := l) (rows := rows) hw'
  have hfault := fun d' a => drain_of_fault (d := d) (l := l) (d' := d') (a := a) hw'
  rw [pump_of_still _ hdrained] at hexec
  generalize d.drain l = d₁ at *
  obtain ⟨hserai₁, hctl₁, hne₁, hitn₁⟩ := settle_parts d₁
  have hquiet (h : d₁.store = d.store) : d₁.settle.store = s.dev.store := by
    rw [settle_store_of_wf _ (by rw [h, hstore]; exact hmem), h, hstore]
  refine ⟨s.withDev d₁.settle, hexec, rfl, ?_⟩
  change d₁.settle.serai.lastProducer = l.producer ∧ _
  rw [hserai₁]
  refine ⟨hlast, fun x hx => hlandings ▸ hleft x hx, fun hfits hlayers hunretired hin hpass => ?_,
    fun y w hfits hrowList hin hpass hunretired hstray => ?_⟩
  · have hdone := composes_composeLanding (hfits' hfits) (hlayers' hlayers) (by rw [hnote]; exact hin)
      fun k hk => (hpasses k).trans (hpass k (by rw [hnote] at hk; exact hk))
    obtain ⟨hserai, hmem₁, heng, hevents⟩ := hrows _ (hbelow hunretired) hdone
    rw [hrow, hcomposed] at hserai
    exact ⟨hserai, hquiet hmem₁, hne₁.trans (heng.trans hne),
      (settle_i3c_of_quiet d₁ (by rw [hevents, hi3c]; exact hfresh)).trans (hevents.trans hi3c)⟩
  · obtain ⟨d', hread, hstrayed⟩ := composeLanding_of_strays (hfits' hfits) hrowList (by rw [hnote]; exact hin)
      (fun k hk => (hpasses k).trans (hpass k (by rw [hnote] at hk; exact hk))) hstray
    obtain ⟨hserai, haddr, hmem₁, heng, hitin, -⟩ := hfault d' _ (hbelow hunretired) hread hstrayed
    exact ⟨hserai.trans hcomposed, hctl₁ ▸ haddr, hquiet hmem₁, hne₁.trans (heng.trans hne), hitn₁.trans (hitin.trans hitn)⟩

end Sys2Proof.Machine
end

section
/-! SUPPORT. No command's meaning moves the time base: the pump (R65 to R69, R359, R690). -/
namespace Sys2Proof.Machine

/-! ### Folds and steps with a choice -/

theorem foldl_now {α : Type} (l : List α) (f : Device → α → Device) (hf : ∀ (d : Device) a, (f d a).now = d.now) (d : Device) :
    (l.foldl f d).now = d.now :=
  List.foldlRecOn (motive := fun d' : Device => d'.now = d.now) l f rfl fun d' hd' a _ => (hf d' a).trans hd'

theorem ite_now {c : Prop} [Decidable c] {d d' d'' : Device} (h : d'.now = d.now) (h' : d''.now = d.now) :
    (if c then d' else d'').now = d.now := by
  split
  · exact h
  · exact h'

section
variable (d : Device)

/-! ### State blocks (R266 to R280) -/

theorem ssbSet_now (s o : Nat) (bs : List Byte) : (d.ssbSet s o bs).now = d.now := (spares_ssbSet d s o bs).now

theorem ssbFlip_now (s b : Nat) : (d.ssbFlip s b).now = d.now := (spares_ssbSetFlag d s b _).now

theorem ringAppend_now (s dest : Nat) : (d.ringAppend s dest).now = d.now := by
  unfold Device.ringAppend
  extract_lets w d₁ d₂
  have hrow : d₁.now = d.now := ssbSet_now d _ _ _
  have hplace : d₂.now = d₁.now := ite_now (ssbSet_now _ _ _ _) (ite_now rfl (ssbSet_now _ _ _ _))
  exact (ssbSet_now _ _ _ _).trans (hplace.trans hrow)

theorem encodeCommit_now (s dest tag : Nat) : (d.encodeCommit s dest tag).now = d.now := by
  unfold Device.encodeCommit
  extract_lets d₁ d₂ d₃ d₄
  have hflip : d₁.now = d.now := ssbFlip_now d _ _
  have htag : d₂.now = d₁.now := ssbSet_now _ _ _ _
  have hring : d₃.now = d₂.now := ringAppend_now _ _ _
  have hcold : d₄.now = d₃.now := (spares_ssbSetFlag _ _ _ _).now
  exact (spares_ssbSetFlag _ _ _ _).now.trans (hcold.trans (hring.trans (htag.trans hflip)))

theorem eofCommit_now (s dest n : Nat) (clean : Bool) : (d.eofCommit s dest n clean).now = d.now := by
  unfold Device.eofCommit
  extract_lets d₁ d₂ d₃ d₄ d₅
  have hflip : d₁.now = d.now := ssbFlip_now d _ _
  have hclean : d₂.now = d₁.now := ite_now ((ssbSet_now _ _ _ _).trans (ssbFlip_now _ _ _)) rfl
  have hring : d₃.now = d₂.now := ringAppend_now _ _ _
  have hslot : d₄.now = d₃.now := ssbSet_now _ _ _ _
  have hpending : d₅.now = d₄.now := (spares_ssbSetFlag _ _ _ _).now
  exact (spares_modSlot d₅ _ _ _).now.trans (hpending.trans (hslot.trans (hring.trans (hclean.trans hflip))))

/-! ### Tuning (R401, R420 to R426) -/

theorem tuneEof_now (s n : Nat) (clean : Bool) : (d.tuneEof s n clean).now = d.now := by
  unfold Device.tuneEof
  split
  · rfl
  · exact ite_now rfl rfl

theorem trainCommit_now (r : TuneRec) (cmds : List (List Byte)) : (d.trainCommit r cmds).now = d.now := by
  unfold Device.trainCommit
  extract_lets s x n p new j d₁ d₂ d₃ t c
  have hcopy : d₂.now = d₁.now := ite_now rfl rfl
  have hbatch : d₃.now = d₂.now := (spares_takeBatch _ _).now
  have hdone : d₃.now = d.now := hbatch.trans hcopy
  exact ite_now hdone hdone

theorem sampleCorrupt_now (r : TuneRec) (m : Nat × Nat × Bool) : (d.sampleCorrupt r m).2.now = d.now := by
  unfold Device.sampleCorrupt
  split
  · rfl
  · exact (spares_verifyAll d 0 _).now

theorem evalCommit_now (r : TuneRec) : (d.evalCommit r).now = d.now := by
  unfold Device.evalCommit
  extract_lets s
  generalize hfree : d.freeBytes 8 = w
  have hnow : w.2.now = d.now := by rw [← hfree]; rfl
  obtain ⟨bs, d₁⟩ := w
  dsimp only at hnow ⊢
  refine (foldl_now _ _ (fun d' n => ?_) d₁).trans hnow
  split
  · rfl
  · next m _ =>
    have hread := sampleCorrupt_now d' r m
    exact ite_now hread hread

theorem tuneCommit_now (s : Nat) (k : TuneEntry) (cmds : List (List Byte)) : (d.tuneCommit s k cmds).now = d.now := by
  unfold Device.tuneCommit
  split
  · rfl
  · cases k with
    | hold => rfl
    | cut => rfl
    | train => exact trainCommit_now d _ _
    | exported => rfl
    | eval => exact evalCommit_now d _

/-! ### Landings (R572) -/

theorem setStalled_now (unit : Nat) (x : Bool) : (d.setStalled unit x).now = d.now := ite_now rfl rfl

theorem land_now (unit : Nat) (l : Landing) : (d.land unit l).now = d.now := by
  unfold Device.land
  exact ite_now rfl (ite_now rfl (setStalled_now _ _ _))

theorem landLayers_now (e : Nat) (r : Run) (v : Serve) (st : Status) : (d.landLayers e r v st).now = d.now := by
  refine foldl_now _ _ (fun d i => ?_) d
  split
  · rfl
  · refine ite_now rfl (ite_now rfl ?_)
    split
    · rfl
    · exact land_now d _ _

/-! ### Commits (R279, R280) -/

theorem commitEncode_now (r : Run) (v : Serve) : (d.commitEncode r v).now = d.now := by
  unfold Device.commitEncode
  refine foldl_now _ _ (fun d a => ?_) d
  obtain ⟨s, anchor⟩ := a
  dsimp only
  refine (spares_settleDistance _ _ _).now.trans ((spares_modSlot _ _ _ _).now.trans ((spares_modStrm _ _ _).now.trans ?_))
  exact encodeCommit_now d _ _ _

theorem commitEof_now (r : Run) (v : Serve) : (d.commitEof r v).now = d.now := by
  unfold Device.commitEof
  refine foldl_now _ _ (fun d s => ?_) d
  extract_lets dest clean d₁
  exact (tuneEof_now d₁ _ _ _).trans (eofCommit_now d _ _ _ _)

theorem commitStripe_now (r : Run) (v : Serve) : (d.commitStripe r v).now = d.now := by
  unfold Device.commitStripe
  refine foldl_now _ _ (fun d s => ?_) d
  extract_lets sl d₁
  exact ite_now (spares_degrade d₁ _ _ _ _).now rfl

theorem commitRun_now (e : Nat) (r : Run) (v : Serve) (st : Status) : (d.commitRun e r v st).now = d.now := by
  unfold Device.commitRun
  extract_lets d₁ d₂
  have hbind : d₁.now = d.now := by
    simp only [d₁]
    split
    · exact commitEncode_now d r v
    · exact commitEof_now d r v
    · exact ite_now rfl (commitStripe_now d r v)
    · rfl
  have htune : d₂.now = d.now := by
    simp only [d₂]
    split
    · exact (tuneCommit_now _ _ _ _).trans hbind
    · exact hbind
  exact ite_now ((landLayers_now _ _ _ _ _).trans htune) htune

/-! ### Ends of lists (R174, R268) -/

theorem endLaunch_now (e : Nat) (r : Run) (st : Status) (excused again : Bool) :
    (d.endLaunch e r st excused again).now = d.now := by
  unfold Device.endLaunch
  split
  · rfl
  · next v _ =>
    extract_lets d₁ d₂ d₃ d₄ d₅ d₆
    have hrecord : d₁.now = d.now := (spares_writeRecord d _ v st _ _).now
    have hrun : d₂.now = d.now :=
      (ite_now (commitRun_now d₁ e r v st) (ite_now rfl (spares_abandonRun d₁ r v excused).now)).trans hrecord
    have hshadow : d₃.now = d.now := by
      simp only [d₃]
      split
      · exact hrun
      · exact ite_now hrun hrun
    have hended : d₄.now = d.now :=
      ite_now (ite_now rfl (spares_endShadow d e r st).now) ((settles_countLate d₃ _ _).spares.now.trans hshadow)
    have hcredits : d₅.now = d.now := (settles_creditsBack d₄ r).spares.now.trans hended
    refine ite_now ?_ ?_
    · exact (((settles_settleCtx d₅ _).spares.trans (spares_releaseSets _)).trans (spares_endRelaunch _ _ _)).now.trans hcredits
    · have hctx : d₆.now = d₅.now := ((settles_dropSems d₅ _).trans (settles_settleCtx _ _)).spares.now
      exact (((spares_releaseMarks d₆ _).trans (spares_releaseSets _)).trans (spares_endRelaunch _ _ _)).now.trans
        (hctx.trans hcredits)

theorem endRun_now (e : Nat) (st : Status) (excused again : Bool) : (d.endRun e st excused again).now = d.now := by
  unfold Device.endRun
  split
  · rfl
  · exact endLaunch_now _ _ _ _ _ _

theorem finishList_now (e : Nat) : (d.finishList e).now = d.now := by
  unfold Device.finishList
  split
  · rfl
  · refine ite_now rfl ?_
    split
    · exact ite_now rfl (endRun_now d _ _ _ _)
    · exact endRun_now d _ _ _ _

theorem completeCommand_now (e : Nat) : (d.completeCommand e).now = d.now := by
  unfold Device.completeCommand
  split
  · rfl
  · extract_lets c fused d₁
    exact ite_now rfl (finishList_now d₁ e)

/-! ### Waits (R65 to R69, R359) -/

theorem semChoice_now (tie : Bool) : (d.semChoice tie).now = d.now := ite_now rfl rfl

variable {d' : Device}

theorem tryGrant_now (e m : Nat) (h : d.tryGrant e m = some d') : d'.now = d.now := by
  unfold Device.tryGrant at h
  dsimp only at h
  split at h
  · cases h
  · split at h
    · cases h
    · split at h
      · cases h
      · obtain rfl := Option.some.inj h
        exact (completeCommand_now _ _).trans (semChoice_now _ _)

theorem tryRelease_now (e : Nat) (h : d.tryRelease e = some d') : d'.now = d.now := by
  unfold Device.tryRelease at h
  split at h
  · cases h
  · split at h
    · cases h
    · split at h
      · split at h
        · obtain rfl := Option.some.inj h
          exact completeCommand_now d e
        · cases h
      · exact tryGrant_now d e _ h
      · cases h

end

theorem pumpEngines_now (fuel : Nat) (d : Device) : (Device.pumpEngines fuel d).now = d.now := by
  induction fuel generalizing d with
  | zero => rfl
  | succ n ih =>
    unfold Device.pumpEngines
    split
    · next d' h =>
      obtain ⟨e, -, hrelease⟩ := List.exists_of_findSome?_eq_some h
      exact (ih d').trans (tryRelease_now d e hrelease)
    · rfl

section
variable (d : Device)

theorem pumpLost_now : d.pumpLost.now = d.now := by
  refine foldl_now _ _ (fun d e => ?_) d
  split
  · split
    · split
      · exact (spares_reproject _ _ _ _ _ _).now.trans (endRun_now d _ _ _ _)
      · rfl
    · rfl
  · rfl

theorem pumpVision_now : d.pumpVision.now = d.now := by
  refine foldl_now _ _ (fun d u => ?_) d
  split
  · exact ite_now rfl rfl
  · rfl

theorem pumpCommits_now : d.pumpCommits.now = d.now := by
  refine foldl_now _ _ (fun d e => ?_) d
  split
  · refine ite_now rfl (ite_now (ite_now rfl (endRun_now _ _ _ _ _)) (finishList_now d e))
  · rfl

/-! ### Requests through I3C (R690, R691) -/

theorem recordControl_now (type index : Nat) (body : List Byte) : (d.recordControl type index body).now = d.now :=
  ite_now rfl (takes_putRecord (takes_putGap (takes_drainRing (takes_refl d))) _ _ _ _ _ _ _).now

theorem finishRequest_now (st : Status) (arg : Nat) : (d.finishRequest st arg).now = d.now := by
  unfold Device.finishRequest
  split
  · rfl
  · refine ite_now ?_ rfl
    exact (recordControl_now _ _ _ _).trans (spares_controlChoice _).now

theorem pumpRequest_now : d.pumpRequest.now = d.now := by
  unfold Device.pumpRequest
  split
  · rfl
  · split
    · exact finishRequest_now d _ _
    · rfl

/-- The waits that a command meets are all met at its instant. -/
theorem pump_now : d.pump.now = d.now :=
  (pumpRequest_now _).trans ((pumpCommits_now _).trans ((pumpVision_now _).trans ((pumpLost_now _).trans (pumpEngines_now 64 d))))

end

end Sys2Proof.Machine
end

section
/-! SUPPORT. The receipt of packets leaves the time base alone, and the bytes of a geometry set every list (R298 to R310, R526 to R538). -/
namespace Sys2Proof.Machine

/-! ### Geometry sets that are fed (R301 to R308) -/

section
variable (d : Device)

theorem keepsLists_rejectInput (x : Reject) : d.KeepsLists (d.rejectInput x) := by
  obtain ⟨free, n, v, hreject, -⟩ := rejectInput_eq d x
  rw [hreject]
  exact keepsLists_of_same rfl rfl rfl rfl

theorem keepsLists_modRfe (f : Rfe → Rfe) : d.KeepsLists (d.modRfe f) := keepsLists_of_same rfl rfl rfl rfl

theorem keepsLists_rejectSet (h : List Byte) (lane : Nat) (e : SetFail) : d.KeepsLists (d.rejectSet h lane e) := by
  unfold Device.rejectSet
  dsimp only
  have hbytes : d.KeepsLists (d.freeBytes 1).2 := keepsLists_of_same rfl rfl rfl rfl
  split
  · split
    · exact (hbytes.trans ((keepsLists_modRfe _ _).trans (keepsLists_rejectInput _ _))).trans (keepsLists_modSlot _ _ _ _)
    · exact hbytes.trans ((keepsLists_modRfe _ _).trans (keepsLists_rejectInput _ _))
  · exact hbytes.trans ((keepsLists_modRfe _ _).trans (keepsLists_rejectInput _ _))

theorem keepsLists_failSet (h : List Byte) (lane : Nat) (x : SetRec) (e : SetFail) : d.KeepsLists (d.failSet h lane x e) :=
  ((keepsLists_haltFlush d x).trans (keepsLists_modRfe _ _)).trans (keepsLists_rejectSet _ h lane e)

theorem keepsLists_trailerIn (x : SetRec) (stamp : Nat) (digest : List Byte) : d.KeepsLists (d.trailerIn x stamp digest) := by
  obtain ⟨g, p⟩ := x
  unfold Device.trailerIn
  dsimp only
  split
  · refine Device.KeepsLists.trans ?_ (keepsLists_releaseSets _)
    exact ((keepsLists_modRfe d _).trans (keepsLists_modSlot _ _ _ _)).trans (keepsLists_modRfe _ _)
  · exact (discardLate_spec d _).2.1

theorem keepsLists_writeCharge (a : Nat) (bs : List Byte) (u : Use) : d.KeepsLists ((d.write a bs).chargeDevice u) :=
  keepsLists_of_same rfl rfl rfl rfl

/-- What the next item of a set's bytes leaves of the lists. -/
def Fed.Keeps (d : Device) : Fed → Prop
  | .more d' _ => d.KeepsLists d'
  | _ => True

theorem fedKeeps_ite {c : Prop} [Decidable c] {a b : Fed} (ha : a.Keeps d) (hb : b.Keeps d) : (if c then a else b).Keeps d := by
  split
  · exact ha
  · exact hb

theorem fedKeeps_feedStep (r : RasterRec) (x : SetRec) (stamp : Nat) : (d.feedStep r x stamp).Keeps d := by
  obtain ⟨g, p⟩ := x
  have hstays : d.KeepsLists d := keepsLists_refl d
  unfold Device.feedStep
  dsimp only
  split
  · refine fedKeeps_ite d (fedKeeps_ite d trivial (fedKeeps_ite d trivial hstays)) (fedKeeps_ite d trivial ?_)
    split
    · trivial
    · exact fedKeeps_ite d trivial trivial
  · refine fedKeeps_ite d (fedKeeps_ite d trivial (keepsLists_writeCharge d _ _ _)) (fedKeeps_ite d ?_ ?_)
    · exact fedKeeps_ite d trivial (fedKeeps_ite d hstays (keepsLists_writeCharge d _ _ _))
    · exact fedKeeps_ite d (fedKeeps_ite d trivial hstays) hstays

theorem keepsLists_putSet (x : SetRec) : d.KeepsLists (d.putSet x) := keepsLists_modRfe d _

theorem keepsLists_feed (h : List Byte) (lane stamp : Nat) (digest : List Byte) (r : RasterRec) (fuel : Nat) (x : SetRec) :
    d.KeepsLists (Device.feed h lane stamp digest r fuel d x) := by
  induction fuel generalizing d x with
  | zero => exact keepsLists_putSet d x
  | succ n ih =>
    unfold Device.feed
    have hfed := fedKeeps_feedStep d r x stamp
    split
    · next d' x' hstep =>
      rw [hstep] at hfed
      exact Device.KeepsLists.trans hfed (ih d' x')
    · exact keepsLists_putSet d x
    · exact keepsLists_trailerIn d x _ digest
    · exact keepsLists_failSet d h lane x _

theorem keepsLists_feedBytes (h : List Byte) (lane stamp : Nat) (digest bytes : List Byte) :
    d.KeepsLists (d.feedBytes h lane stamp digest bytes) := by
  unfold Device.feedBytes
  split
  · exact keepsLists_refl d
  · split
    · exact keepsLists_refl d
    · split
      · exact keepsLists_refl d
      · split
        · exact keepsLists_failSet d h lane _ _
        · exact keepsLists_feed d h lane stamp digest _ _ _

theorem keepsLists_feedHeader (lane stamp : Nat) (digest bytes : List Byte) :
    d.KeepsLists (d.feedHeader lane stamp digest bytes).2.2 := by
  unfold Device.feedHeader
  dsimp only
  split
  · exact keepsLists_rejectSet d _ lane _
  · split
    · exact keepsLists_modRfe d fun x => { x with late := satInc x.late }
    · refine Device.KeepsLists.trans ?_ (keepsLists_feedBytes _ _ _ _ _ _)
      exact keepsLists_of_same rfl rfl rfl rfl

theorem keepsLists_feedEnd (h : List Byte) (lane : Nat) : d.KeepsLists (d.feedEnd h lane) := by
  unfold Device.feedEnd
  split
  · exact keepsLists_refl d
  · split
    · exact keepsLists_failSet d h lane _ _
    · exact keepsLists_refl d

theorem keepsLists_feedLost (h : List Byte) : d.KeepsLists (d.feedLost h) := by
  unfold Device.feedLost
  split
  · exact keepsLists_refl d
  · next x _ =>
    split
    · exact keepsLists_refl d
    · exact ((keepsLists_haltFlush d x).trans (keepsLists_modRfe _ _)).trans (keepsLists_modSlot _ _ _ _)

/-! ### Rejected containers (R538) -/

theorem loseContainer_now (c : Container) : (d.loseContainer c).now = d.now := by
  unfold Device.loseContainer
  split
  · split
    · rfl
    · split <;> rfl
  · extract_lets d₁
    have hlost : d₁.now = d.now := ite_now (keepsLists_feedLost d c.header).now rfl
    split
    · exact hlost
    · split
      · exact hlost
      · exact hlost
  · rfl

theorem countReject_now (stream dt : Option Nat) (st : Status) (order lane tag : Nat) :
    (d.countReject stream dt st order lane tag).now = d.now := by
  unfold Device.countReject
  split
  · exact ite_now rfl (keepsLists_rejectInput d _).now
  · exact (keepsLists_rejectInput d _).now

theorem rejectContainer_now (c : Container) (st : Status) (order : Nat) : (d.rejectContainer c st order).now = d.now :=
  (countReject_now _ _ _ _ _ _ _).trans (loseContainer_now _ c)

/-! ### Packets of containers (R528 to R536) -/

theorem putInputRow_now (base : Nat) (h : List Byte) (p y : Nat) (vals : List Nat) : (d.putInputRow base h p y vals).now = d.now := by
  unfold Device.putInputRow
  extract_lets planes
  split
  · rfl
  · rfl

theorem putLines_now (base : Nat) (h : List Byte) (rows : List (Nat × Nat × List Nat)) : (d.putLines base h rows).now = d.now :=
  foldl_now _ _ (fun d _ => putInputRow_now d base h _ _ _) d

theorem freeRows_now (base : Nat) (h : List Byte) (i : Nat) : (d.freeRows base h i).now = d.now := by
  unfold Device.freeRows
  extract_lets n planes
  split
  · rfl
  · rfl

theorem imageHeader_now (r : InputRec) (c : Container) (stamp : Nat) (h : List Byte) (crcOk : Bool) :
    (d.imageHeader r c stamp h crcOk).now = d.now := by
  unfold Device.imageHeader
  dsimp only
  split
  · exact rejectContainer_now d _ _ _
  · exact ite_now rfl (rejectContainer_now _ _ _ _)

theorem imagePayload_now (r : InputRec) (c : Container) (payload : List Byte) (crcOk : Bool) :
    (d.imagePayload r c payload crcOk).now = d.now := by
  unfold Device.imagePayload
  dsimp only
  refine ite_now (rejectContainer_now d _ _ _) (ite_now (rejectContainer_now d _ _ _) ?_)
  split
  · exact putLines_now d _ _ _
  · exact ite_now (rejectContainer_now d _ _ _) (freeRows_now d _ _ _)

theorem geometryPacket_now (s : Nat) (c : Container) (stamp : Nat) (payload : List Byte) (crcOk : Bool) :
    (d.geometryPacket s c stamp payload crcOk).now = d.now := by
  unfold Device.geometryPacket
  dsimp only
  refine ite_now (ite_now (rejectContainer_now d _ _ _) (ite_now (rejectContainer_now d _ _ _) ?_))
    (ite_now (rejectContainer_now d _ _ _) (ite_now (rejectContainer_now d _ _ _) (ite_now rfl ?_)))
  · have hfed := (keepsLists_feedHeader d c.lane.val stamp (shake (c.bytes ++ payload)) payload).now
    exact ite_now hfed hfed
  · exact (keepsLists_feedBytes d _ _ _ _ _).now

theorem commandPacket_now (c : Container) (payload : List Byte) (crcOk : Bool) : (d.commandPacket c payload crcOk).now = d.now := by
  unfold Device.commandPacket
  dsimp only
  exact ite_now (rejectContainer_now d _ _ _) (ite_now (rejectContainer_now d _ _ _) (ite_now (rejectContainer_now d _ _ _)
    (ite_now (rejectContainer_now d _ _ _) rfl)))

theorem longPacket_now (lane vc stamp dt : Nat) (payload : List Byte) (crcOk : Bool) :
    (d.longPacket lane vc stamp dt payload crcOk).now = d.now := by
  unfold Device.longPacket
  extract_lets stream
  split
  · exact countReject_now d _ _ _ _ _ _
  · refine ite_now rfl (ite_now (rejectContainer_now d _ _ _) (ite_now (commandPacket_now d _ _ _) ?_))
    split
    · rfl
    · exact ite_now (geometryPacket_now d _ _ _ _ _) (ite_now (imageHeader_now d _ _ _ _ _) (imagePayload_now d _ _ _ _))

/-! ### Frame Start and Frame End (R22, R282, R403, R526) -/

theorem frameStartIn_now (lane : Fin 24) (vc stamp data : Nat) : (d.frameStartIn lane vc stamp data).now = d.now := by
  unfold Device.frameStartIn
  extract_lets d₁
  have hclosed : d₁.now = d.now := by
    simp only [d₁]
    split
    · exact ite_now rfl (rejectContainer_now d _ _ _)
    · rfl
  exact hclosed

theorem select_now (s m : Nat) : (d.select s m).now = d.now := by
  unfold Device.select
  extract_lets sel d₁ d₂ absent d₃ d₄
  have habsent : d₃.now = d₂.now := ite_now (spares_degrade _ _ _ _ _).now rfl
  have hmotion : d₄.now = d₃.now := ite_now (spares_degrade _ _ _ _ _).now rfl
  have hrest : (if d₄.noAnchor s m then d₄.degrade s m 9
      else if (d₄.newerAnchor s m).isSome && d₄.encodeEntry s m then d₄ else d₄.settleDistance s m).now = d₄.now :=
    ite_now (spares_degrade _ _ _ _ _).now (ite_now rfl (spares_settleDistance _ _ _).now)
  exact hrest.trans (hmotion.trans habsent)

theorem unselect_now (s m : Nat) : (d.unselect s m).now = d.now := ite_now rfl rfl

theorem reselect_now (s stamp : Nat) : (d.reselect s stamp).now = d.now :=
  ite_now rfl ((select_now _ _ _).trans (unselect_now d _ _))

theorem acceptAnchor_now (s : Nat) (c : Container) (stamp : Nat) : (d.acceptAnchor s c stamp).now = d.now := by
  unfold Device.acceptAnchor
  extract_lets reject
  split
  · extract_lets x
    refine ite_now ((keepsLists_rejectInput _ _).now.trans (loseContainer_now d c)) (ite_now (keepsLists_rejectInput d _).now ?_)
    exact reselect_now _ _ _
  · rfl

theorem expireHolds_now (s at_ : Nat) : (d.expireHolds s at_).now = d.now :=
  (spares_refDrops _ s _).now

theorem acceptReference_now (s : Nat) (c : Container) (stamp : Nat) : (d.acceptReference s c stamp).now = d.now := by
  unfold Device.acceptReference
  extract_lets d₁
  have hexpired : d₁.now = d.now := expireHolds_now d s stamp
  split
  · exact hexpired
  · exact hexpired

theorem acceptCommand_now (c : Container) (stamp : Nat) : (d.acceptCommand c stamp).now = d.now := by
  unfold Device.acceptCommand
  extract_lets body
  split
  · exact ite_now rfl rfl
  · exact (keepsLists_rejectInput d _).now

theorem frameEndIn_now (lane vc stamp data : Nat) : (d.frameEndIn lane vc stamp data).now = d.now := by
  unfold Device.frameEndIn
  split
  · rfl
  · refine ite_now rfl (ite_now (rejectContainer_now d _ _ _) (ite_now (rejectContainer_now d _ _ _) ?_))
    extract_lets d₁ ended
    split
    · exact acceptAnchor_now _ _ _ _
    · exact acceptReference_now _ _ _ _
    · refine ite_now (ite_now (keepsLists_rejectInput _ _).now rfl) ?_
      have hended : ended.now = d.now := (keepsLists_feedEnd d₁ _ _).now
      exact ite_now hended hended
    · exact acceptCommand_now _ _ _
    · rfl

/-! ### Packets (orders 1 to 5) -/

theorem headerOk_now (lane : Nat) (head : PacketHead) : (d.headerOk lane head).2.now = d.now := by
  unfold Device.headerOk
  dsimp only
  split
  · split
    · dsimp only
      exact ite_now rfl (loseContainer_now _ _)
    · rfl
  · split <;> rfl

theorem expireOpen_now (lane vc stamp : Nat) : (d.expireOpen lane vc stamp).now = d.now := by
  unfold Device.expireOpen
  split
  · rfl
  · exact ite_now (rejectContainer_now d _ _ _) rfl

theorem packetIn_now (lane : Fin 24) (stamp : Nat) (head : PacketHead) (p : Packet) : (d.packetIn lane stamp head p).now = d.now := by
  have hhead := headerOk_now d lane.val head
  unfold Device.packetIn
  extract_lets vc
  split
  · next h => rw [h] at hhead; exact hhead
  · next d' h =>
    rw [h] at hhead
    dsimp only
    refine Eq.trans ?_ hhead
    cases p with
    | frameStart data =>
      exact ite_now ((frameStartIn_now _ _ _ _ _).trans (expireOpen_now _ _ _ _)) (countReject_now _ _ _ _ _ _ _)
    | frameEnd data =>
      exact ite_now ((frameEndIn_now _ _ _ _ _).trans (expireOpen_now _ _ _ _)) (countReject_now _ _ _ _ _ _ _)
    | short dt data => exact ite_now (countReject_now _ _ _ _ _ _ _) (ite_now rfl (countReject_now _ _ _ _ _ _ _))
    | long dt payload ok =>
      dsimp only
      have hcrc : (if ok then d' else d'.modLanes (fun l => { l with rx := vmod l.rx lane.val (fun x => { x with crc := satInc x.crc }) })).now =
        d'.now := ite_now rfl rfl
      refine Eq.trans ?_ hcrc
      exact ite_now (countReject_now _ _ _ _ _ _ _) (ite_now (countReject_now _ _ _ _ _ _ _)
        ((longPacket_now _ _ _ _ _ _ _).trans (expireOpen_now _ _ _ _)))

theorem frameOk_now (lane : Nat) (head : PacketHead) : (d.frameOk lane head).2.now = d.now := by
  unfold Device.frameOk
  dsimp only
  split <;> rfl

theorem receive_now (lane : Fin 24) (head : PacketHead) (p : Packet) : (d.receive lane head p).now = d.now := by
  have hframe := frameOk_now d lane.val head
  unfold Device.receive
  dsimp only
  refine ite_now rfl ?_
  split
  · next h => rw [h] at hframe; exact hframe
  · next d' h =>
    rw [h] at hframe
    refine Eq.trans ?_ hframe
    refine ite_now rfl (ite_now rfl ?_)
    exact (packetIn_now _ _ _ _ _).trans (ite_now (takes_recordPacket (takes_refl d') _ _ _ _ _).now rfl)

end

end Sys2Proof.Machine
end

section
/-! SUPPORT. Settles O13: long packets complete, and a clean one joins its container (R526, R528, R533 to R535). -/
namespace Sys2Proof.Machine

/-! ### Every long packet completes -/

theorem settle_now (d : Device) : d.settle.now = d.now := rfl

section
variable (t : Nat) (l : Fin 24) (h : PacketHead) (dt : BitVec 6) (payload : List Byte) (s : State)

/-- A long packet is received and leaves its instant, in every state. -/
theorem exec_longPacket_now (crcOk : Bool) : ∃ s', exec (.longPacket t l h dt payload crcOk) s = .next s' ∧ s'.pending = s.pending ∧
    s'.dev.now = max s.dev.now t := by
  refine ⟨_, rfl, State.runI_pending s t _, ?_⟩
  rw [State.runI_dev, settle_now, pump_now]
  exact (ite_now (ite_now (receive_now _ _ _ _) rfl) rfl).trans (Device.atTime_now s.dev t)

/-! ### A clean packet of a container (orders 2 to 5) -/

variable {t l h dt payload s} {c : Container}

theorem typeAllowed_of_image {vc : Nat} (hvc : vc ≠ 31) (hdt : dt = 0x30 ∨ dt = 0x31 ∨ dt = 0x32) :
    typeAllowed vc dt.toNat = true := by
  rw [typeAllowed, if_neg hvc]
  rcases hdt with rfl | rfl | rfl <;> rfl

theorem packetOf_long (crcOk : Bool) (hdt : 0x10 ≤ dt.toNat) : packetOf dt.toNat payload crcOk = .long dt.toNat payload crcOk := by
  unfold packetOf
  split
  · omega
  · omega
  · exact if_neg (by omega)

/-- Orders 2 to 5 pass a clean long packet of a known VC whose container is in time. -/
theorem packetIn_long {d : Device} {stamp n : Nat} (hclean : headClean h)
    (hknown : h.frameVc.toNat = 31 ∨ (d.inputAt l.val h.frameVc.toNat).isSome = true) (htype : typeAllowed h.frameVc.toNat n = true)
    (hc : d.openAt l.val h.frameVc.toNat = some c) (hfresh : stamp < c.openedAt + 100000000) :
    d.packetIn l stamp h (.long n payload true) = d.longPacket l.val h.frameVc.toNat stamp n payload true := by
  have hexpire : d.expireOpen l.val h.frameVc.toNat stamp = d := by
    simp only [Device.expireOpen, hc]
    exact if_neg (by omega)
  rw [Device.packetIn, headerOk_of_clean d l.val h hclean]
  dsimp only
  have hvc : (decide (h.frameVc.toNat = 31) || (d.inputAt l.val h.frameVc.toNat).isSome) = true := by simpa using hknown
  rw [if_pos rfl, hvc, if_neg (by simp), if_neg (by simp [htype]), hexpire]

/-- R526: the command's meaning on a clean long packet of an open container. -/
theorem exec_longPacket_of_open (hopen : s.dev.feedOpen l) (hclean : headClean h) (hlen : payload.length < 65536)
    (hdt : 0x10 ≤ dt.toNat) (hknown : h.frameVc.toNat = 31 ∨ (s.dev.inputAt l.val h.frameVc.toNat).isSome = true)
    (htype : typeAllowed h.frameVc.toNat dt.toNat = true) (hc : s.dev.openAt l.val h.frameVc.toNat = some c)
    (hfresh : max s.dev.now t < c.openedAt + 100000000) :
    exec (.longPacket t l h dt payload true) s = .next (s.withDev (((s.dev.atTime t).takePacket l h (.long dt.toNat payload true)).longPacket
      l.val h.frameVc.toNat (max s.dev.now t) dt.toNat payload true).pump.settle) := by
  have htakes := takes_takePacket (s.dev.atTime t) l h (.long dt.toNat payload true)
  refine congrArg (fun d : Device => Host.Outcome.next (s.withDev d.pump.settle)) ?_
  refine (if_pos (show (s.dev.atTime t).phase = .running ∨ (s.dev.atTime t).phase = .awaitChips from hopen.1)).trans ?_
  refine (if_pos (decide_eq_true hlen)).trans ?_
  rw [packetOf_long true hdt]
  refine (receive_of_clean (s.dev.atTime t) l h _ hopen hclean).trans ?_
  exact packetIn_long hclean (by rw [htakes.inputAt]; exact hknown) htype ((htakes.openAt _ _).trans hc) hfresh

end

/-! ### Containers of each kind (R533 to R535) -/

section
variable {d : Device} {c : Container} {lane vc stamp dt : Nat} {payload : List Byte} {r : InputRec}

/-- The container that is open on a lane and VC is of them. -/
theorem openAt_key (h : d.openAt lane vc = some c) : c.lane.val = lane ∧ c.vc = vc := by
  have hfound := List.find?_some h
  simpa using hfound

theorem openAt_putContainer {x : Container} (h : d.openAt lane vc = some c) (hlane : x.lane = c.lane) (hvc : x.vc = c.vc) :
    (d.putContainer x).openAt lane vc = some x := by
  obtain ⟨rfl, rfl⟩ := openAt_key h
  rw [← hlane, ← hvc]
  exact openAt_putContainer_same d x

theorem type_of_container (hdt : c.dt = none ∨ c.dt = some dt) : c.dt.any (fun n => decide (n ≠ dt)) = false := by
  rcases hdt with h | h <;> simp [h]

/-- R526, R535: a packet on VC 31 is a command's. -/
theorem longPacket_of_command (hc : d.openAt lane vc = some c) (hdead : c.dead = false) (hdt : c.dt = none) :
    d.longPacket lane vc stamp 0x33 payload true = d.commandPacket { c with dt := some 0x33 } payload true := by
  simp only [Device.longPacket, hc, hdead, type_of_container (.inl hdt), Bool.false_eq_true, if_false, if_true]

/-- What a packet of the type of its container makes of an input's device (R528 to R534). -/
def Device.joinInput (d : Device) (r : InputRec) (c : Container) (stamp dt : Nat) (payload : List Byte) : Device :=
  if dt = 0x31 then d.geometryPacket r.stream c stamp payload true
  else if c.header.isEmpty then d.imageHeader r c stamp payload true
  else d.imagePayload r c payload true

/-- R526: a packet of the type of its container joins it. -/
theorem longPacket_of_input (hc : d.openAt lane vc = some c) (hdead : c.dead = false) (hdt : c.dt = none ∨ c.dt = some dt)
    (hr : d.inputAt lane vc = some r) (hcommand : dt ≠ 0x33) :
    d.longPacket lane vc stamp dt payload true = d.joinInput r { c with dt := some dt } stamp dt payload := by
  simp only [Device.longPacket, Device.joinInput, hc, hr, hdead, type_of_container hdt, hcommand, Bool.false_eq_true, if_false]

/-- R535: the packet of a command container that passes orders 6 and 10. -/
theorem commandPacket_of_passes (hfirst : c.packets = 0)
    (hlen : payload.length = 64) (hversion : field payload 0 2 = 1) (hzero : field payload 2 2 = 0)
    (hfs : c.fsData = field payload 4 4 % 2 ^ 16) (hshape : modeShape (payload.drop 8) = true) :
    d.commandPacket c payload true = d.putContainer { c with header := payload, bytes := payload, packets := 1 } := by
  unfold Device.commandPacket
  dsimp only
  rw [if_neg (by simp [hfirst]), if_neg (by simp [hversion, hzero, hfs, hshape]), if_neg (by simp), if_neg (by simp [hlen])]

/-- R528: the header packet of an image container that passes orders 6 to 9. -/
theorem imageHeader_of_passes {buf : Option (Fin 2)}
    (hcheck : d.checkHeader r { c with header := payload, bytes := payload } (decide (c.dt = some 0x32)) stamp payload = .ok buf) :
    d.imageHeader r c stamp payload true =
      (d.putContainer { c with header := payload, bytes := payload, buf := buf }).laneWrite
        (Container.base { c with header := payload, bytes := payload, buf := buf } r) payload := by
  unfold Device.imageHeader
  dsimp only
  rw [hcheck]
  dsimp only
  rw [Bool.true_or, if_pos rfl]

/-- R533: a payload packet of an image container, of the right length and decodable. -/
theorem imagePayload_of_passes {rows : List (Nat × Nat × List Nat)}
    (hmore : c.packets < packetCount (hdrFormat c.header) (hdrComp c.header) (hdrChannels c.header) (hdrHeight c.header))
    (hlen : lengthOk (hdrFormat c.header) (hdrComp c.header) (hdrWidth c.header) payload.length = true)
    (hrows : packetRows c.header c.packets payload = some rows) :
    d.imagePayload r c payload true =
      (d.putLines (c.base r) c.header rows).putContainer { c with packets := c.packets + 1, bytes := c.bytes ++ payload } := by
  unfold Device.imagePayload
  dsimp only
  rw [if_neg (by simp), if_neg (by simp [hlen, Nat.not_le.mpr hmore]), hrows, if_pos rfl, List.append_nil]

/-- R534: a later packet of a geometry container. -/
theorem geometryPacket_of_later {x : Nat} (hlater : 0 < c.packets) (hpayload : payload ≠ []) :
    d.geometryPacket x c stamp payload true =
      if !c.opened then d.putContainer { c with bytes := c.bytes ++ payload, packets := c.packets + 1 }
      else (d.feedBytes c.header c.lane.val stamp (shake (c.bytes ++ payload)) payload).putContainer
        { c with
          bytes := c.bytes ++ payload, packets := c.packets + 1,
          opened := ((d.feedBytes c.header c.lane.val stamp (shake (c.bytes ++ payload)) payload).openAt c.lane.val c.vc).any (·.opened) } := by
  unfold Device.geometryPacket
  dsimp only
  rw [if_neg (by omega), if_neg (by simp), if_neg (by simp [hpayload])]

/-- A container of a type stays of it. -/
theorem container_of_type (h : c.dt = some dt) : { c with dt := some dt } = c := by rw [← h]

/-! ### Rows that the lanes write -/

theorem calm_laneWrite (hd : d.Calm) (a : Nat) (bs : List Byte) : (d.laneWrite a bs).Calm := calm_chargeDevice (calm_write hd a bs) _

/-- `d'` is `d` with bytes written by the lanes. -/
theorem putLines_same (base : Nat) (hdr : List Byte) (rows : List (Nat × Nat × List Nat)) :
    d.putLines base hdr rows =
      { d with store := (d.putLines base hdr rows).store, toll := (d.putLines base hdr rows).toll } := by
  refine List.foldlRecOn (motive := fun d' : Device => d' = { d with store := d'.store, toll := d'.toll }) _ _ rfl fun d' hd' x _ => ?_
  unfold Device.putInputRow
  extract_lets planes
  split
  · exact hd'
  · rw [hd']
    rfl

theorem calm_putLines (hd : d.Calm) (base : Nat) (hdr : List Byte) (rows : List (Nat × Nat × List Nat)) :
    (d.putLines base hdr rows).Calm := by
  refine List.foldlRecOn (motive := fun d' : Device => d'.Calm) _ _ hd fun d' hd' x _ => ?_
  unfold Device.putInputRow
  extract_lets planes
  split
  · exact hd'
  · exact calm_laneWrite hd' _ _

/-- Without compression every packet has its rows (R533). -/
theorem packetRows_of_plain {hdr : List Byte} (hcomp : hdrComp hdr = 0) (i : Nat) : ∃ rows, packetRows hdr i payload = some rows :=
  ⟨_, by simp only [packetRows, hcomp, if_true]; rfl⟩

theorem lengthOk_of_plain {fmt w : Nat} (hlen : payload.length = lineBytes fmt w) : lengthOk fmt 0 w payload.length = true := by
  simp [lengthOk, packetSize, hlen]

end

/-! ### Clean packets of the render feeds -/

theorem Device.Takes.same {d d' : Device} (h : d.Takes d') : d'.streams = d.streams ∧ d'.itn = d.itn ∧ d'.ne = d.ne ∧ d'.i3c = d.i3c := by
  obtain ⟨r, tx, rx, n, rfl⟩ := h
  exact ⟨rfl, rfl, rfl, rfl⟩

/-- The device once it has taken a clean long packet, before the packet meets its container. -/
def State.taken (s : State) (t : Nat) (l : Fin 24) (h : PacketHead) (dt : Nat) (payload : List Byte) : Device :=
  (s.dev.atTime t).takePacket l h (.long dt payload true)

/-- A container with one packet more. -/
def Container.grown (c : Container) (payload : List Byte) : Container :=
  { c with packets := c.packets + 1, bytes := c.bytes ++ payload }

theorem pump_settle_of_calm {s : State} {d d' : Device} (h : d = d') (hcalm : d'.Calm) :
    (Host.Outcome.next (s.withDev d.pump.settle) : Host.Outcome State Fault Refusal) = .next (s.withDev d') := by
  rw [h, calm_pump_settle hcalm]

section
variable {t : Nat} {l : Fin 24} {h : PacketHead} {dt : BitVec 6} {payload : List Byte} {s : State} {c : Container} {r : InputRec}

theorem takes_taken (s : State) (n : Nat) : (s.dev.atTime t).Takes (s.taken t l h n payload) :=
  takes_takePacket (s.dev.atTime t) l h (.long n payload true)

theorem calm_taken (hs : s.Inv) (hstill : s.dev.Still) (n : Nat) : (s.taken t l h n payload).Calm :=
  calm_takePacket (calm_atTime s t hs hstill) l h (.long n payload true)

variable (hs : s.Inv) (hstill : s.dev.Still) (hopen : s.dev.feedOpen l) (hclean : headClean h) (hlen : payload.length < 65536)
  (hc : s.dev.openAt l.val h.frameVc.toNat = some c) (hdead : c.dead = false) (hfresh : max s.dev.now t < c.openedAt + 100000000)
include hopen hclean hlen hc hdead hfresh

/-- R526: a clean packet of an image or geometry container in time joins it. -/
theorem exec_longPacket_of_input (hvc : h.frameVc.toNat ≠ 31) (hdt : dt = 0x30 ∨ dt = 0x31 ∨ dt = 0x32)
    (hr : s.dev.inputAt l.val h.frameVc.toNat = some r) (htype : c.dt = none ∨ c.dt = some dt.toNat) :
    exec (.longPacket t l h dt payload true) s = .next (s.withDev ((s.taken t l h dt.toNat payload).joinInput r
      { c with dt := some dt.toNat } (max s.dev.now t) dt.toNat payload).pump.settle) := by
  have hten : 0x10 ≤ dt.toNat := by rcases hdt with rfl | rfl | rfl <;> decide
  have hcommand : dt.toNat ≠ 0x33 := by rcases hdt with rfl | rfl | rfl <;> decide
  have htakes := takes_taken (t := t) (l := l) (h := h) (payload := payload) s dt.toNat
  refine (exec_longPacket_of_open hopen hclean hlen hten (.inr (by rw [hr]; rfl)) (typeAllowed_of_image hvc hdt) hc hfresh).trans ?_
  exact congrArg (fun d : Device => Host.Outcome.next (s.withDev d.pump.settle))
    (longPacket_of_input ((htakes.openAt _ _).trans hc) hdead htype ((htakes.inputAt _ _).trans hr) hcommand)

include hs hstill

/-- R535: a clean command in time is kept for its Frame End. -/
theorem longPacket_joins_command (hvc : h.frameVc.toNat = 31) (hdt : c.dt = none) (hfirst : c.packets = 0) (hsize : payload.length = 64)
    (hversion : field payload 0 2 = 1) (hzero : field payload 2 2 = 0) (hfs : c.fsData = field payload 4 4 % 2 ^ 16)
    (hshape : modeShape (payload.drop 8) = true) :
    exec (.longPacket t l h 0x33 payload true) s = .next (s.withDev ((s.taken t l h 0x33 payload).putContainer
      { c with dt := some 0x33, header := payload, bytes := payload, packets := 1 })) := by
  have htakes := takes_taken (t := t) (l := l) (h := h) (payload := payload) s 0x33
  refine (exec_longPacket_of_open hopen hclean hlen (by decide) (.inl hvc) (by rw [hvc]; rfl) hc hfresh).trans ?_
  refine pump_settle_of_calm ?_ (calm_putContainer (calm_taken hs hstill _) _)
  exact (longPacket_of_command ((htakes.openAt _ _).trans hc) hdead hdt).trans
    (commandPacket_of_passes hfirst hsize hversion hzero hfs hshape)

/-- R528: the header packet of an image container stands at the base of the buffer that it claims. -/
theorem longPacket_joins_header {buf : Option (Fin 2)} (hvc : h.frameVc.toNat ≠ 31) (himage : dt = 0x30 ∨ dt = 0x32)
    (hr : s.dev.inputAt l.val h.frameVc.toNat = some r) (hdt : c.dt = none) (hfirst : c.header = [])
    (hcheck : (s.taken t l h dt.toNat payload).checkHeader r { c with dt := some dt.toNat, header := payload, bytes := payload }
      (decide (dt = 0x32)) (s.taken t l h dt.toNat payload).now payload = .ok buf) :
    exec (.longPacket t l h dt payload true) s = .next (s.withDev (((s.taken t l h dt.toNat payload).putContainer
      { c with dt := some dt.toNat, header := payload, bytes := payload, buf := buf }).laneWrite
      (Container.base { c with dt := some dt.toNat, header := payload, bytes := payload, buf := buf } r) payload)) := by
  have hnow : (s.taken t l h dt.toNat payload).now = max s.dev.now t := (takes_taken s dt.toNat).now
  have hgeo : dt.toNat ≠ 0x31 := by rcases himage with rfl | rfl <;> decide
  have href : decide (dt = 0x32) = decide ((some dt.toNat : Option Nat) = some 0x32) := by rcases himage with rfl | rfl <;> rfl
  rw [hnow, href] at hcheck
  refine (exec_longPacket_of_input hopen hclean hlen hc hdead hfresh hvc (himage.imp_right .inr) hr (.inl hdt)).trans ?_
  refine pump_settle_of_calm ?_ (calm_laneWrite (calm_putContainer (calm_taken hs hstill _) _) _ _)
  rw [Device.joinInput, if_neg hgeo, if_pos (by simp [hfirst])]
  exact imageHeader_of_passes hcheck

/-- R533: the rows of a payload packet are written where they unpack, and the container counts it. -/
theorem longPacket_joins_rows {rows : List (Nat × Nat × List Nat)} (hvc : h.frameVc.toNat ≠ 31) (himage : dt = 0x30 ∨ dt = 0x32)
    (hr : s.dev.inputAt l.val h.frameVc.toNat = some r) (hdt : c.dt = some dt.toNat) (hhead : c.header.length = 128)
    (hmore : c.packets < packetCount (hdrFormat c.header) (hdrComp c.header) (hdrChannels c.header) (hdrHeight c.header))
    (hok : lengthOk (hdrFormat c.header) (hdrComp c.header) (hdrWidth c.header) payload.length = true)
    (hrows : packetRows c.header c.packets payload = some rows) :
    ∃ s', exec (.longPacket t l h dt payload true) s = .next s' ∧ s'.pending = s.pending ∧
      s'.dev.store = ((s.taken t l h dt.toNat payload).putLines (c.base r) c.header rows).store ∧
      s'.dev.openAt l.val h.frameVc.toNat = some (c.grown payload) ∧
      s'.dev.streams = s.dev.streams ∧ s'.dev.itn = s.dev.itn ∧ s'.dev.ne = s.dev.ne ∧ s'.dev.i3c = s.dev.i3c := by
  have hgeo : dt.toNat ≠ 0x31 := by rcases himage with rfl | rfl <;> decide
  have hsome : c.header.isEmpty = false := by
    rw [List.isEmpty_eq_false_iff]
    rintro hnil
    simp [hnil] at hhead
  have htakes := takes_taken (t := t) (l := l) (h := h) (payload := payload) s dt.toNat
  have hlines := putLines_same (d := s.taken t l h dt.toNat payload) (c.base r) c.header rows
  have hcalm := calm_putLines (calm_taken (t := t) (l := l) (h := h) (payload := payload) hs hstill dt.toNat) (c.base r) c.header rows
  have hopened : ((s.taken t l h dt.toNat payload).putLines (c.base r) c.header rows).openAt l.val h.frameVc.toNat = some c := by
    rw [hlines]
    exact (htakes.openAt _ _).trans hc
  obtain ⟨hstreams, hitn, hne, hi3c⟩ := htakes.same
  refine ⟨s.withDev (((s.taken t l h dt.toNat payload).putLines (c.base r) c.header rows).putContainer (c.grown payload)),
    (exec_longPacket_of_input hopen hclean hlen hc hdead hfresh hvc (himage.imp_right .inr) hr (.inr hdt)).trans ?_, rfl, rfl,
    openAt_putContainer hopened rfl rfl, ?_, ?_, ?_, ?_⟩
  · refine pump_settle_of_calm ?_ (calm_putContainer hcalm _)
    rw [container_of_type hdt, Device.joinInput, if_neg hgeo, if_neg (by simp [hsome])]
    exact imagePayload_of_passes hmore hok hrows
  · exact (congrArg Device.streams hlines).trans hstreams
  · exact (congrArg Device.itn hlines).trans hitn
  · exact (congrArg Device.ne hlines).trans hne
  · exact (congrArg Device.i3c hlines).trans hi3c

/-- R534: a later packet of a geometry container whose set does not stand is only kept. -/
theorem longPacket_joins_geometry (hvc : h.frameVc.toNat ≠ 31) (hr : s.dev.inputAt l.val h.frameVc.toNat = some r)
    (hdt : c.dt = some 0x31) (hlater : 0 < c.packets) (hsome : payload ≠ []) (hgone : c.opened = false) :
    exec (.longPacket t l h 0x31 payload true) s = .next (s.withDev ((s.taken t l h 0x31 payload).putContainer (c.grown payload))) := by
  refine (exec_longPacket_of_input hopen hclean hlen hc hdead hfresh hvc (.inr (.inl rfl)) hr (.inr hdt)).trans ?_
  refine pump_settle_of_calm ?_ (calm_putContainer (calm_taken hs hstill _) _)
  have htype : { c with dt := some (0x31 : BitVec 6).toNat } = c := container_of_type hdt
  rw [htype, Device.joinInput, if_pos (by decide), geometryPacket_of_later hlater hsome, if_pos (by simp [hgone])]
  rfl

/-- R534: a later packet of a geometry container feeds its set. -/
theorem longPacket_feeds_geometry (hvc : h.frameVc.toNat ≠ 31) (hr : s.dev.inputAt l.val h.frameVc.toNat = some r)
    (hdt : c.dt = some 0x31) (hlater : 0 < c.packets) (hsome : payload ≠ []) (hstands : c.opened = true) :
    ∃ s' o, exec (.longPacket t l h 0x31 payload true) s = .next s' ∧ s'.pending = s.pending ∧
      s'.dev.openAt l.val h.frameVc.toNat = some { c.grown payload with opened := o } := by
  obtain ⟨hlane, hsameVc⟩ := openAt_key hc
  have hcalm := calm_taken (t := t) (l := l) (h := h) (payload := payload) hs hstill (0x31 : BitVec 6).toNat
  have hfed := keepsLists_feedBytes (s.taken t l h (0x31 : BitVec 6).toNat payload) c.header c.lane.val (max s.dev.now t) (shake (c.bytes ++ payload)) payload
  have htype : { c with dt := some (0x31 : BitVec 6).toNat } = c := container_of_type hdt
  have hexec := exec_longPacket_of_input hopen hclean hlen hc hdead hfresh hvc (.inr (.inl rfl)) hr (.inr hdt)
  rw [htype, Device.joinInput, if_pos (by decide), geometryPacket_of_later hlater hsome, if_neg (by simp [hstands])] at hexec
  generalize (s.taken t l h (BitVec.toNat 0x31) payload).feedBytes c.header c.lane.val (max s.dev.now t) (shake (c.bytes ++ payload))
    payload = d at hexec hfed
  have hjoined (x : Container) : (d.putContainer x).pump = d.putContainer x :=
    pump_of_still _ (show (d.putContainer x).Still from hfed.still hcalm.still)
  rw [hjoined] at hexec
  refine ⟨_, (d.openAt c.lane.val c.vc).any (·.opened), hexec, rfl, ?_⟩
  rw [← hlane, ← hsameVc]
  exact openAt_putContainer_same d _

end

/-- Settles O13: a packet that is received moves no time and waits for nothing but what the pump does, and a clean one is what its
container makes of it. -/
theorem longPacketJoins : Obligations.LongPacketJoins := by
  unfold Obligations.LongPacketJoins
  refine ⟨fun t l h dt payload crcOk s => exec_longPacket_now t l h dt payload s crcOk, ?_⟩
  intro t l h dt payload c s hs hstill hopen hclean hlen hc hdead hfresh
  refine ⟨?_, fun r buf hvc himage hr hdt hfirst hcheck => ?_, fun r rows hvc himage hr hdt hhead hmore hok hrows => ?_,
    fun r b hvc himage hr hdt hhead hcomp hbuf hmore hsize => ?_, fun r hvc hgeo hr hdt hlater hsome => ?_⟩
  · rintro hvc rfl hdt hfirst hsize hversion hzero hfs hshape
    exact longPacket_joins_command hs hstill hopen hclean hlen hc hdead hfresh hvc hdt hfirst hsize hversion hzero hfs hshape
  · cases buf <;> exact longPacket_joins_header hs hstill hopen hclean hlen hc hdead hfresh hvc himage hr hdt hfirst hcheck
  · exact longPacket_joins_rows hs hstill hopen hclean hlen hc hdead hfresh hvc himage hr hdt hhead hmore hok hrows
  · obtain ⟨rows, hrows⟩ := packetRows_of_plain (payload := payload) hcomp c.packets
    have hok : lengthOk (hdrFormat c.header) (hdrComp c.header) (hdrWidth c.header) payload.length = true := by
      rw [hcomp]
      exact lengthOk_of_plain hsize
    have hbase : c.base r = vget r.rxBase b.val 0 := by rw [Container.base, hbuf]
    obtain ⟨s', hexec, hpending, hstore, hkept, hrest⟩ := longPacket_joins_rows hs hstill hopen hclean hlen hc hdead hfresh hvc (.inl himage)
      hr (by rw [hdt, himage]; rfl) hhead (by rw [hcomp]; exact hmore) hok hrows
    exact ⟨s', rows, hexec, hpending, hrows, hbase ▸ hstore, hkept, hrest⟩
  · subst hgeo
    exact ⟨longPacket_joins_geometry hs hstill hopen hclean hlen hc hdead hfresh hvc hr hdt hlater hsome,
      longPacket_feeds_geometry hs hstill hopen hclean hlen hc hdead hfresh hvc hr hdt hlater hsome⟩

end Sys2Proof.Machine
end

section
/-! SUPPORT. A boot up to its image (R634, R647, R656, Tables 15.8, 15.9 and 15.13), and how far the model settles O59. Two things
that O59 leaves open meet in the journal: the digest of the root key is free (`Config.rootDigest`), so that nothing says whether an
image verifies, and a boot without factory data puts the device ID that it finds, of any length, into its journal record
(Table 15.10). Where no image verifies every boot ends inert and O59 holds (`bootEnds_of_rootDigest`); where one does, beside helper
data that agree with the free device secret, such a record runs past the journal and O59 fails (`not_bootEnds_of_image`). No run of
the model has such a device ID: a reset gives it 8 bytes, and a boot at most 8. -/
namespace Sys2Proof.Machine

/-! ### Orders 1 to 3 -/

/-- A boot at its start. -/
def Device.begun (d : Device) (f : BootFacts) : Device := { d with
  phase := .preLock, pins := { d.pins with addrSel := f.addrSel, xspiFloating := false }
  i3c := { d.i3c with enint := false }, attest := { d.attest with programs := f.programs } }

/-- A boot up to its identity, before it reads the image. -/
def Device.identified (d : Device) (f : BootFacts) : Device :=
  let factory := ((d.begun f).bootOrder 1).bootFactory
  ((factory.2.bootOrder 2).bootSecret).bootIdentity factory.1

theorem runBoot_eq (d : Device) (f : BootFacts) : d.runBoot f = (d.identified f).bootFrom f := by
  simp only [Device.runBoot, Device.identified, Device.begun]

/-- What orders 1 to 3 leave: all but the identity and BOOT_STATUS, which BOOT_CAUSE 0x01 and 0x02 may stand in. -/
structure Device.Identifies (d d' : Device) : Prop where
  same : d' = { d with attest := d'.attest, trust := d'.trust, boot := d'.boot }
  cause : d.boot.cause ≤ 2 → d'.boot.cause ≤ 2

theorem Device.Identifies.trans {d d' d'' : Device} (h : d.Identifies d') (h' : d'.Identifies d'') : d.Identifies d'' := by
  obtain ⟨hsame, hcause⟩ := h
  obtain ⟨hsame', hcause'⟩ := h'
  refine ⟨?_, fun hd => hcause' (hcause hd)⟩
  rw [hsame', hsame]

theorem identifies_modAttest (d : Device) (f : Attest → Attest) : d.Identifies (d.modAttest f) := ⟨rfl, id⟩

theorem identifies_modTrust (d : Device) (f : Trust → Trust) : d.Identifies (d.modTrust f) := ⟨rfl, id⟩

theorem identifies_bootOrder (d : Device) (n : Nat) : d.Identifies (d.bootOrder n) := ⟨rfl, id⟩

theorem identifies_bootCause (d : Device) (code : Nat) (h : code ≤ 2) : d.Identifies (d.bootCause code) := by
  refine ⟨rfl, fun hd => ?_⟩
  show (if d.boot.cause = 0 then code else d.boot.cause) ≤ 2
  split
  · exact h
  · exact hd

theorem identifies_bootFactory (d : Device) : d.Identifies d.bootFactory.2 := by
  unfold Device.bootFactory
  extract_lets head mfg idc d₁
  clear_value head
  split
  · show d.Identifies d₁
    exact identifies_modAttest d _
  · exact (identifies_modTrust d _).trans (identifies_bootCause _ 1 one_le_two)

theorem identifies_bootSecret (d : Device) : d.Identifies d.bootSecret := by
  unfold Device.bootSecret
  extract_lets helper ds
  clear_value helper ds
  split
  · exact identifies_modTrust d _
  · exact (identifies_modTrust d _).trans (identifies_bootCause _ 2 le_rfl)

theorem identifies_bootIdentity (d : Device) (chain : Bool) : d.Identifies (d.bootIdentity chain) := identifies_modTrust d _

theorem identifies_identified (d : Device) (f : BootFacts) : (d.begun f).Identifies (d.identified f) :=
  (identifies_bootOrder _ 1).trans <| (identifies_bootFactory _).trans <| (identifies_bootOrder _ 2).trans <|
    (identifies_bootSecret _).trans (identifies_bootIdentity _ _)

theorem identified_norRead (d : Device) (f : BootFacts) (a n : Nat) : (d.identified f).norRead a n = d.norRead a n := by
  rw [(identifies_identified d f).same]
  rfl

/-! ### An image that does not verify -/

def Device.imageHead (d : Device) : ImgHead := imgHeadOf (d.norRead norImage 256)

/-- The image header is right. -/
def Device.headOk (d : Device) : Bool := imgHeadOk (d.norRead norImage 256)

/-- What of the image is signed. -/
def Device.signedBytes (d : Device) : List Byte := d.norRead norImage (256 + 64 * d.imageHead.nsect)

def Device.signatureOk (d : Device) : Bool :=
  imageSigned (d.norRead (norImage + d.imageHead.sigOffset) d.imageHead.sigBytes) d.signedBytes

section
variable {d d' : Device} (hread : ∀ a n, d'.norRead a n = d.norRead a n)
include hread

theorem imageHead_congr : d'.imageHead = d.imageHead := congrArg imgHeadOf (hread _ _)

theorem headOk_congr : d'.headOk = d.headOk := congrArg imgHeadOk (hread _ _)

theorem signedBytes_congr : d'.signedBytes = d.signedBytes := by
  rw [Device.signedBytes, Device.signedBytes, imageHead_congr hread, hread]

theorem signatureOk_congr : d'.signatureOk = d.signatureOk := by
  rw [Device.signatureOk, Device.signatureOk, imageHead_congr hread, signedBytes_congr hread, hread]

end

/-- A boot that order 3 or order 4 ends, with the bytes of the image as far as they are known. -/
def Device.rejectsImage (d : Device) (bytes code : Nat) : Device :=
  ({ d with boot := { d.boot with order := 3, imageBytes := bytes } } : Device).bootFail code .configRejected 0x3FF

theorem bootFrom_of_badHead (d : Device) (f : BootFacts) (h : d.headOk = false) :
    d.bootFrom f = d.rejectsImage d.boot.imageBytes 3 := by
  have h' : imgHeadOk ((d.bootOrder 3).norRead norImage 256) = false := h
  have hread : d.norRead norImage 256 = (d.bootOrder 3).norRead norImage 256 := rfl
  simp only [Device.bootFrom, hread, h', Bool.not_false, if_true]
  rfl

theorem bootFrom_of_unsigned (d : Device) (f : BootFacts) (hsig : d.signatureOk = false) :
    ∃ bytes code, (code = 3 ∨ code = 4) ∧ d.bootFrom f = d.rejectsImage bytes code := by
  cases hhead : d.headOk with
  | false => exact ⟨_, 3, .inl rfl, bootFrom_of_badHead d f hhead⟩
  | true =>
    unfold Device.bootFrom
    extract_lets head h d₁ signed raw dir size b d₂ digest d₃ d₄
    have hhead' : imgHeadOk head = true := hhead
    have hsigned : imageSigned (d₂.norRead (norImage + h.sigOffset) h.sigBytes) signed = false := hsig
    refine ⟨size, if (!raw.all sectEntryOk || !directoryOk h dir || decide (511 * 1048576 < size)) = true then 3 else 4, ?_, ?_⟩
    · split <;> simp
    · rw [hhead', hsigned]
      clear_value head h signed raw dir size
      simp only [Bool.not_true, Bool.not_false, Bool.false_eq_true, if_false, if_true]
      split <;> rfl

/-- What an image that is rejected leaves of the device: inert, with the rejection in BOOT_STATUS. -/
structure Device.EndsRejected (d : Device) (f : BootFacts) (d' : Device) : Prop where
  same : d' = { d with
    phase := .inert, pins := { d.pins with addrSel := f.addrSel, xspiFloating := false }
    i3c := { d.i3c with enint := false, fresh := d'.i3c.fresh }, attest := d'.attest, trust := d'.trust, boot := d'.boot }
  order : d'.boot.order = 3
  status : d'.boot.status = .configRejected
  failIndex : d'.boot.failIndex = 0x3FF
  cause : d.headOk = false → d.boot.cause = 0 → d'.boot.cause = 1 ∨ d'.boot.cause = 2 ∨ d'.boot.cause = 3

theorem rejectsImage_cause (d : Device) (bytes code : Nat) :
    (d.rejectsImage bytes code).boot.cause = if d.boot.cause = 0 then code else d.boot.cause := rfl

theorem endsRejected_rejectsImage (d : Device) (f : BootFacts) (bytes code : Nat) (hcode : d.headOk = false → code = 3) :
    d.EndsRejected f ((d.identified f).rejectsImage bytes code) := by
  obtain ⟨hsame, hcause⟩ := identifies_identified d f
  generalize d.identified f = d₁ at hsame hcause
  refine ⟨by rw [hsame]; rfl, rfl, rfl, rfl, fun hhead hzero => ?_⟩
  have hle : d₁.boot.cause ≤ 2 := hcause (le_of_eq_of_le hzero (Nat.zero_le 2))
  rw [rejectsImage_cause, hcode hhead]
  split <;> omega

/-- Orders 3 and 4: a boot whose image header is wrong, or whose image is not signed, ends inert. -/
theorem runBoot_of_rejected (d : Device) (f : BootFacts) (h : d.headOk = false ∨ d.signatureOk = false) :
    d.EndsRejected f (d.runBoot f) := by
  have hhead : (d.identified f).headOk = d.headOk := headOk_congr (identified_norRead d f)
  have hsig : (d.identified f).signatureOk = d.signatureOk := signatureOk_congr (identified_norRead d f)
  rw [runBoot_eq]
  cases hok : d.headOk with
  | false =>
    rw [bootFrom_of_badHead _ f (hhead.trans hok)]
    exact endsRejected_rejectsImage d f _ 3 fun _ => rfl
  | true =>
    obtain ⟨bytes, code, -, heq⟩ := bootFrom_of_unsigned (d.identified f) f (hsig.trans (h.resolve_left (by simp [hok])))
    rw [heq]
    exact endsRejected_rejectsImage d f bytes code fun hbad => absurd (hok.symm.trans hbad) (by decide)

/-! ### The command -/

/-- A boot is due: after a reset none has run. -/
def Device.BootDue (d : Device) : Prop := (d.phase = .preLock ∨ d.phase = .off) ∧ d.boot.order = 0

/-- A boot that is due, with the reset that may fall into it. -/
def Device.boots (d : Device) (f : BootFacts) : Device := if f.cut.isSome then (d.runBoot f).resetAll else d.runBoot f

theorem exec_boot_of_due (t : Nat) (f : BootFacts) (s : State) (h : s.dev.BootDue) :
    exec (.boot t f) s = .next (s.runI t fun d => d.boots f) := by
  have hdue : ((s.dev.atTime t).phase = .preLock || (s.dev.atTime t).phase = .off) && (s.dev.atTime t).boot.order = 0 := by
    simp only [Bool.and_eq_true, Bool.or_eq_true, decide_eq_true_eq]
    exact h
  exact congrArg (fun d => Host.Outcome.next (s.withDev (Device.settle (Device.pump d)))) (if_pos hdue)

theorem exec_boot_of_not_due (t : Nat) (f : BootFacts) (s : State) (hs : s.Inv) (hstill : s.dev.Still) (h : ¬ s.dev.BootDue) :
    exec (.boot t f) s = .next (s.withDev (s.dev.atTime t)) := by
  have hdue : ¬ (((s.dev.atTime t).phase = .preLock || (s.dev.atTime t).phase = .off) && (s.dev.atTime t).boot.order = 0) = true := by
    simp only [Bool.and_eq_true, Bool.or_eq_true, decide_eq_true_eq]
    exact h
  exact next_runI_of_calm (if_neg hdue) (calm_atTime s t hs hstill)

theorem calm_reset (nor : List (Nat × Byte)) (powerUp free : Nat) : (Device.reset nor powerUp free).Calm :=
  ⟨still_reset nor powerUp free, reset_memory_wf, rfl, rfl⟩

/-- R634: of a boot that a reset falls into, the NOR stays. -/
theorem exec_boot_of_cut (t : Nat) (f : BootFacts) (s : State) (h : s.dev.BootDue) (hcut : f.cut.isSome = true) :
    exec (.boot t f) s = .next (s.withDev ((s.dev.atTime t).runBoot f).resetAll) := by
  rw [exec_boot_of_due t f s h]
  exact next_runI_of_calm (if_pos hcut) (calm_reset _ _ _)

theorem post_enint (now : Nat) (r : I3c) (x : Event × Nat × Nat × Nat) : (r.post now x).enint = r.enint := by
  obtain ⟨ev, a0, a1, a2⟩ := x
  simp only [I3c.post]
  split
  · split
    · rfl
    · split
      · split <;> rfl
      · rfl
  · rfl

/-- The events of a command leave the enabling of in-band interrupts. -/
theorem flush_enint (r : I3c) (now : Nat) : (r.flush now).enint = r.enint := by
  unfold I3c.flush
  split
  · rfl
  · exact List.foldlRecOn (motive := fun r' : I3c => r'.enint = r.enint) _ _ rfl fun r' hr x _ => (post_enint now r' x).trans hr

/-- Orders 1 to 4 satisfy no wait: a boot whose image is rejected ends its command there. -/
theorem exec_boot_of_rejected (t : Nat) (f : BootFacts) (s : State) (hstill : s.dev.Still) (hdue : s.dev.BootDue)
    (hcut : f.cut = none) (hbad : s.dev.headOk = false ∨ s.dev.signatureOk = false) :
    ∃ d, (s.dev.atTime t).EndsRejected f d ∧ exec (.boot t f) s = .next (s.withDev d.settle) := by
  have hends := runBoot_of_rejected (s.dev.atTime t) f hbad
  have hstill' : ((s.dev.atTime t).runBoot f).Still := by
    rw [hends.same]
    exact (still_congr s.dev _ rfl rfl rfl).mpr hstill
  have hboots : (s.dev.atTime t).boots f = (s.dev.atTime t).runBoot f := if_neg (by simp [hcut])
  refine ⟨_, hends, ?_⟩
  rw [exec_boot_of_due t f s hdue, State.runI, State.run, hboots, pump_of_still _ hstill']
  rfl

/-! ### O59 where no image verifies -/

theorem lanesBy_length (f : Nat → Nat → BitVec 64) : (lanesBy f).length = 25 := by
  rw [lanesBy, List.length_map, List.length_range]

theorem keccakRound_length (a : Lanes25) (rc : BitVec 64) : (keccakRound a rc).length = 25 := by
  simp only [keccakRound, List.length_cons, List.length_drop, lanesBy_length]

theorem keccakF_length (a : Lanes25) (h : a.length = 25) : (keccakF a).length = 25 :=
  List.foldlRecOn (motive := fun a : Lanes25 => a.length = 25) _ _ h fun a _ rc _ => keccakRound_length a rc

theorem absorb_length (fuel : Nat) (a : Lanes25) (bs : List Byte) (h : a.length = 25) : (absorb fuel a bs).length = 25 := by
  induction fuel generalizing a bs with
  | zero => exact h
  | succ n ih =>
    rw [absorb]
    split
    · exact h
    · exact ih _ _ (keccakF_length _ (lanesBy_length _))

theorem squeezeBlock_length (a : Lanes25) (h : a.length = 25) : (squeezeBlock a).length = 136 := by
  simp [squeezeBlock, List.length_flatMap, length_leBytes, h]

theorem shake_length (msg : List Byte) : (shake msg).length = 32 := by
  have hblock := squeezeBlock_length _ (absorb_length ((shakePad msg).length / shakeRate) (List.replicate 25 0) (shakePad msg) rfl)
  simp only [shake, shake256, show ceilDiv 32 shakeRate = 1 from rfl, squeeze, List.append_nil, List.length_take, hblock]
  rfl

theorem imageSigned_of_rootDigest (h : Config.rootDigest.length ≠ 32) (block signed : List Byte) :
    imageSigned block signed = false := by
  have hroot : shake (block.take 68) ≠ Config.rootDigest := fun heq => h (heq ▸ shake_length _)
  unfold imageSigned
  extract_lets rootPk cert alg
  split
  · rfl
  · simp only [rootPk, hroot, decide_false, Bool.and_false, Bool.false_and]

/-- A root digest that is not of 32 bytes is no key's: no image verifies, and O59 holds. -/
theorem bootEnds_of_rootDigest (h : Config.rootDigest.length ≠ 32) : Obligations.BootEnds := by
  unfold Obligations.BootEnds
  intro t f s hs hstill head badHead unsigned
  have hbad : s.dev.signatureOk = false := imageSigned_of_rootDigest h _ _
  refine ⟨fun hno => ?_, fun horder hphase c hcut => ?_, fun horder hphase hcut => ?_⟩
  · refine exec_boot_of_not_due t f s hs hstill fun ⟨hphase, horder⟩ => ?_
    rcases hno with hne | ⟨hlock, hoff⟩
    · exact hne horder
    · exact hphase.elim hlock hoff
  · have hends := (runBoot_of_rejected (s.dev.atTime t) f (.inr hbad)).same
    have hexec := exec_boot_of_cut t f s ⟨hphase, horder⟩ (by rw [hcut]; rfl)
    generalize (s.dev.atTime t).runBoot f = d at hends hexec
    have hnor : d.store.nor = s.dev.store.nor := (congrArg (fun d => d.store.nor) hends).trans rfl
    have hpower : d.pins.powerUp = s.dev.pins.powerUp := (congrArg (fun d => d.pins.powerUp) hends).trans rfl
    refine ⟨_, hexec, rfl, ?_, fun a _ => congrArg (norGet · a) hnor, fun _ => hnor⟩
    exact congrArg (Device.reset d.store.nor · d.store.freeCtr) hpower
  · obtain ⟨d, ⟨hsame, hord, hstatus, hindex, hcause⟩, hexec⟩ := exec_boot_of_rejected t f s hstill ⟨hphase, horder⟩ hcut (.inr hbad)
    have hphase' : d.phase = .inert := congrArg Device.phase hsame
    have hstore : d.settle.store = s.dev.store := by
      have hd : d.store = s.dev.store := (congrArg Device.store hsame).trans rfl
      exact (settle_store_of_wf d (by rw [hd]; exact hs.1)).trans hd
    have halert : d.settle.pins.alertLow = true := by
      rw [settle_alertLow, Device.alert, show d.settle.phase = .inert from hphase']
    refine ⟨_, hexec, rfl, congrArg (fun d => d.pins.addrSel) hsame, ?_, .inr hphase', fun _ => ⟨hphase', halert⟩,
      fun hhead => ⟨hord, hstatus, hindex, hcause hhead, (congrArg Device.lanes hsame).trans rfl, hstore⟩,
      fun a _ => congrArg (fun st : Store => norGet st.nor a) hstore⟩
    exact (flush_enint _ _).trans (congrArg (fun d => d.i3c.enint) hsame)

/-! ### O59 where an image verifies -/

/-- A read of bytes that nothing has programmed. -/
theorem norRead_of_blank (d : Device) (a n : Nat) (h : ∀ c ∈ d.store.nor, c.1 < a ∨ a + n ≤ c.1) :
    d.norRead a n = List.replicate n 0xFF := by
  have hnone : memWindow d.store.nor a n = [] := by
    refine List.filter_eq_nil_iff.mpr fun c hc => ?_
    have := h c hc
    simp only [Bool.and_eq_true, decide_eq_true_eq]
    omega
  simp only [Device.norRead, hnone, norGet, List.map_const', List.length_range]

/-- The entries of a programmed run. -/
theorem mem_norWrite_iff (d : Device) (a : Nat) (bs : List Byte) (i : Nat) (hi : i < bs.length) (b : Byte) :
    (a + i, b) ∈ (d.norWrite a bs).store.nor ↔ b = bs[i] ∧ b ≠ 0xFF := by
  have hnew : (a + i, b) ∈ ((List.range bs.length).zip bs).filterMap (fun p => if p.2 = 0xFF then none else some (a + p.1, p.2)) ↔
      b = bs[i] ∧ b ≠ 0xFF := by
    rw [List.mem_filterMap]
    constructor
    · rintro ⟨⟨j, x⟩, hmem, heq⟩
      obtain ⟨k, hk, hkj⟩ := List.mem_iff_getElem.mp hmem
      have hk' : k < bs.length := by simpa using hk
      simp only [List.getElem_zip, List.getElem_range, Prod.mk.injEq] at hkj
      obtain ⟨rfl, rfl⟩ := hkj
      split at heq
      · cases heq
      · obtain ⟨hki, rfl⟩ : a + k = a + i ∧ bs[k] = b := by simpa using heq
        obtain rfl : k = i := by omega
        exact ⟨rfl, by assumption⟩
    · rintro ⟨rfl, hb⟩
      refine ⟨(i, bs[i]), List.mem_iff_getElem.mpr ⟨i, by simpa using hi, by simp⟩, if_neg hb⟩
  simp only [Device.norWrite, List.mem_append, List.mem_filter, hnew, decide_eq_true_eq]
  constructor
  · rintro (⟨-, hlow⟩ | h | ⟨-, hhigh⟩)
    · omega
    · exact h
    · omega
  · exact fun h => .inr (.inl h)

/-- A byte of a run that is programmed. -/
theorem norGet_norWrite_in (d : Device) (a : Nat) (bs : List Byte) (i : Nat) (hi : i < bs.length) :
    norGet (d.norWrite a bs).store.nor (a + i) = bs[i] := by
  rw [norGet_eq_find]
  cases hfind : (d.norWrite a bs).store.nor.find? (fun c => c.1 = a + i) with
  | some c =>
    obtain ⟨x, b⟩ := c
    obtain rfl : x = a + i := by simpa using List.find?_some hfind
    exact ((mem_norWrite_iff d a bs i hi b).mp (List.mem_of_find?_eq_some hfind)).1
  | none =>
    by_contra hne
    have hmem := (mem_norWrite_iff d a bs i hi bs[i]).mpr ⟨rfl, fun h => hne h.symm⟩
    exact absurd (List.find?_eq_none.mp hfind _ hmem) (by simp)

/-- The entries of the image's directory. -/
def Device.rawEntries (d : Device) : List (List Byte) :=
  (List.range d.imageHead.nsect).map (fun i => (d.signedBytes.drop (256 + 64 * i)).take 64)

/-- The image passes orders 3 and 4. -/
structure Device.ImageVerifies (d : Device) : Prop where
  head : d.headOk = true
  entries : d.rawEntries.all sectEntryOk = true
  directory : directoryOk d.imageHead (d.rawEntries.map sectEntryOf) = true
  size : d.imageHead.sigOffset + d.imageHead.sigBytes ≤ 511 * 1048576
  signature : d.signatureOk = true

theorem imageVerifies_congr {d d' : Device} (hread : ∀ a n, d'.norRead a n = d.norRead a n) (h : d.ImageVerifies) :
    d'.ImageVerifies := by
  obtain ⟨hhead, hentries, hdir, hsize, hsig⟩ := h
  have hraw : d'.rawEntries = d.rawEntries := by
    rw [Device.rawEntries, Device.rawEntries, imageHead_congr hread, signedBytes_congr hread]
  refine ⟨(headOk_congr hread).trans hhead, hraw ▸ hentries, ?_, imageHead_congr hread ▸ hsize,
    (signatureOk_congr hread).trans hsig⟩
  rw [imageHead_congr hread, hraw]
  exact hdir

/-- R650: the helper data agree with what the PUF cells hold. -/
def Device.SecretAgrees (d : Device) : Prop :=
  let helper := d.norRead 0x10000 16384
  shake (asciiOf "PZDSCHK1" ++ leBytes 32 (Config.deviceSecret (Config.pufCells d.pins.powerUp) helper).toNat) =
    helper.drop (16384 - 32)

theorem bootFrom_of_cut (d : Device) (f : BootFacts) (c : BootCut) (h : d.ImageVerifies) (hcut : f.cut = some c) :
    ∃ d₁ : Device, d₁.store = d.store ∧ d₁.attest = d.attest ∧ d₁.trust = d.trust ∧ d.bootFrom f = d₁.cutJournal c := by
  obtain ⟨hhead, hentries, hdir, hsize, hsig⟩ := h
  unfold Device.bootFrom
  extract_lets head h d₁ signed raw dir size b d₂ digest d₃ d₄
  have hhead' : imgHeadOk head = true := hhead
  have hentries' : raw.all sectEntryOk = true := hentries
  have hdir' : directoryOk h dir = true := hdir
  have hsize' : decide (511 * 1048576 < size) = false := decide_eq_false (Nat.not_lt.mpr hsize)
  have hsigned : imageSigned (d₂.norRead (norImage + h.sigOffset) h.sigBytes) signed = true := hsig
  refine ⟨d₄, rfl, rfl, rfl, ?_⟩
  rw [hhead', hentries', hdir', hsize', hsigned, hcut]
  rfl

/-- A blank factory block gives no identity: the device ID stays. -/
theorem bootFactory_of_blank (d : Device) (h : ∀ c ∈ d.store.nor, 128 ≤ c.1) :
    d.bootFactory = (false, (d.modTrust (fun r => { r with noFactory := true })).bootCause 1) := by
  have hread : d.norRead 0 128 = List.replicate 128 0xFF := norRead_of_blank d 0 128 fun c hc => .inr (h c hc)
  have hmagic : ¬ (field (List.replicate 128 (0xFF : Byte)) 0 8 = magicFac ∧ field (List.replicate 128 (0xFF : Byte)) 8 2 = 1) := by
    decide +kernel
  simp only [Device.bootFactory, hread, if_neg hmagic]

theorem bootSecret_of_agrees (d : Device) (h : d.SecretAgrees) : ∃ ds, d.bootSecret = d.modTrust (fun r => { r with secret := ds }) :=
  ⟨_, if_pos h⟩

theorem identified_of_blank (d : Device) (f : BootFacts) (hblank : ∀ c ∈ d.store.nor, 128 ≤ c.1) (hsecret : d.SecretAgrees) :
    (d.identified f).attest = { d.attest with programs := f.programs } ∧ (d.identified f).trust.puffail = d.trust.puffail := by
  have hfactory := bootFactory_of_blank ((d.begun f).bootOrder 1) hblank
  obtain ⟨ds, hds⟩ := bootSecret_of_agrees
    (((((d.begun f).bootOrder 1).modTrust (fun r => { r with noFactory := true })).bootCause 1).bootOrder 2) hsecret
  simp only [Device.identified, hfactory, hds]
  exact ⟨rfl, rfl⟩

/-! ### The first record of a blank journal -/

/-- Nothing of the journal has been programmed. -/
def Device.JournalBlank (d : Device) : Prop := ∀ c ∈ d.store.nor, c.1 < 0x30000 ∨ 0x32000 ≤ c.1

theorem journalRecs_of_blank (d : Device) (h : d.JournalBlank) : d.journalRecs = [] := by
  refine List.filterMap_eq_nil_iff.mpr fun i hi => ?_
  have hi := List.mem_range.mp hi
  have hread : d.norRead (positionAddr (i / 32) (i % 32)) 128 = List.replicate 128 0xFF := by
    refine norRead_of_blank d _ _ fun c hc => ?_
    have := h c hc
    simp only [positionAddr, slotAddr]
    omega
  have hvalid (key : List Byte) : journalValid key (List.replicate 128 0xFF) = false := by
    have hmark : ¬ ((List.replicate 128 (0xFF : Byte)).drop 124).take 4 = asciiOf "OKAY" := by decide +kernel
    simp only [journalValid, hmark, decide_false, Bool.false_and]
  simp only [hread, hvalid, Bool.false_eq_true, if_false]

theorem journalTop_of_blank (d : Device) (h : d.JournalBlank) : d.journalTop = none := by
  rw [Device.journalTop, journalRecs_of_blank d h]
  rfl

theorem writable_of_blank (d : Device) (h : d.JournalBlank) : d.writable 0 = some 0 := by
  have hread : d.norRead (positionAddr 0 0) (4096 - 128 * 0) = List.replicate 4096 0xFF := by
    refine norRead_of_blank d _ _ fun c hc => ?_
    have := h c hc
    simp only [positionAddr, slotAddr]
    omega
  have herased : erased (List.replicate 4096 (0xFF : Byte)) = true :=
    List.all_eq_true.mpr fun b hb => decide_eq_true (List.eq_of_mem_replicate hb)
  rw [Device.writable, List.range_eq_range', List.range'_succ, List.find?_cons_of_pos]
  rw [hread, herased]

/-- A reset between the bytes of the first record and its VALID leaves the record without VALID. -/
theorem cutJournal_of_blank (d : Device) (h : d.JournalBlank) (hpuf : d.trust.puffail = false) (herase : d.attest.eraseSlot = none) :
    d.cutJournal .afterBytes = d.norWrite 0x30000 (d.journalBytes 1 0 0) := by
  have htop := journalTop_of_blank d h
  have hplace : d.journalPlace = ((0, 0, false), d) := by
    unfold Device.journalPlace
    rw [finishErase_of_none d herase]
    dsimp only
    rw [htop]
    dsimp only
    rw [writable_of_blank d h]
  have hblock : d.bootBlock = 0 := by rw [Device.bootBlock, htop]; rfl
  have hseq : d.nextSeq = 1 := by rw [Device.nextSeq, htop]; rfl
  unfold Device.cutJournal
  rw [hpuf, hblock, hseq, hplace]
  rfl

/-- The device ID stands at byte 24 of a record. -/
theorem journalBytes_deviceId (d : Device) (seq block reason : Nat) : ∃ head tail : List Byte, head.length = 24 ∧
    d.journalBytes seq block reason = head ++ (d.attest.deviceId ++ tail) := by
  refine ⟨asciiOf "PZJR" ++ [0, 0, 0, 0] ++ leBytes 8 seq ++ leBytes 4 block ++ leBytes 1 reason ++ [0, 0, 0], _, ?_,
    List.append_assoc _ _ _⟩
  simp [length_leBytes, asciiOf]

/-! ### A device ID that runs past the journal -/

namespace LongDeviceId

/-- After a reset, with a device ID longer than a journal slot. -/
def device (nor : List (Nat × Byte)) : Device := (Device.reset nor).modAttest (fun a => { a with deviceId := List.replicate 8192 0 })

def state (nor : List (Nat × Byte)) : State := { pending := [], dev := device nor }

/-- A reset falls between the bytes of the record and its VALID. -/
def facts : BootFacts :=
  { addrSel := 0, badEngines := 0, badBase := false, bistSram := [], bistDram := [], programs := [], cut := some .afterBytes, lockUs := 0 }

section
variable (nor : List (Nat × Byte)) (himage : (Device.reset nor).ImageVerifies) (hsecret : (Device.reset nor).SecretAgrees)
  (hblank : ∀ c ∈ nor, 128 ≤ c.1 ∧ (c.1 < 0x30000 ∨ 0x32000 < c.1))
include himage hsecret hblank

/-- The boot writes the record with the device ID that it finds. -/
theorem runBoot_device : ∃ d₁ : Device, d₁.attest.deviceId = List.replicate 8192 0 ∧
    (((state nor).dev.atTime 0).runBoot facts) = d₁.norWrite 0x30000 (d₁.journalBytes 1 0 0) := by
  have hverifies := imageVerifies_congr (d := Device.reset nor) (identified_norRead ((state nor).dev.atTime 0) facts) himage
  obtain ⟨hattest, hpuf⟩ := identified_of_blank ((state nor).dev.atTime 0) facts (fun c hc => (hblank c hc).1) hsecret
  have hstore : (((state nor).dev.atTime 0).identified facts).store = (Device.reset nor).store :=
    (congrArg Device.store (identifies_identified ((state nor).dev.atTime 0) facts).same).trans rfl
  obtain ⟨d₁, hstore₁, hattest₁, htrust₁, hfrom⟩ := bootFrom_of_cut _ facts .afterBytes hverifies rfl
  have hjournal : d₁.JournalBlank := fun c hc => by
    rw [hstore₁, hstore] at hc
    exact (hblank c hc).2.imp_right Nat.le_of_lt
  refine ⟨d₁, by rw [hattest₁, hattest]; rfl, ?_⟩
  rw [runBoot_eq, hfrom, cutJournal_of_blank d₁ hjournal (by rw [htrust₁, hpuf]; rfl) (by rw [hattest₁, hattest]; rfl)]

/-- The byte behind the journal, erased before, holds a byte of the device ID. -/
theorem norGet_behind_journal : norGet ((state nor).dev.atTime 0 |>.runBoot facts).store.nor 0x32000 = 0 := by
  obtain ⟨d₁, hid, hboot⟩ := runBoot_device nor himage hsecret hblank
  obtain ⟨head, tail, hhead, hbytes⟩ := journalBytes_deviceId d₁ 1 0 0
  rw [hboot, hbytes, hid, show 0x32000 = 0x30000 + 8192 from rfl, norGet_norWrite_in]
  · rw [List.getElem_append_right (by omega), List.getElem_append_left]
    · exact List.getElem_replicate _
    · rw [List.length_replicate]
      omega
  · simp only [List.length_append, List.length_replicate]
    omega

end

end LongDeviceId

open LongDeviceId in
/-- Where an image verifies, beside helper data that agree with the PUF cells, O59 fails: with the factory block and the journal
blank, a boot writes a device ID of 8,192 bytes past the journal's end at 0x32000. -/
theorem not_bootEnds_of_image (nor : List (Nat × Byte)) (himage : (Device.reset nor).ImageVerifies)
    (hsecret : (Device.reset nor).SecretAgrees) (hblank : ∀ c ∈ nor, 128 ≤ c.1 ∧ (c.1 < 0x30000 ∨ 0x32000 < c.1)) :
    ¬ Obligations.BootEnds := by
  intro hboot
  obtain ⟨-, hcut, -⟩ := hboot 0 facts (state nor) ⟨rfl, rfl, rfl⟩ (still_reset nor 0 0)
  obtain ⟨s', hexec, -, -, hnor, -⟩ := hcut rfl (.inl rfl) .afterBytes rfl
  have hafter := norGet_behind_journal nor himage hsecret hblank
  rw [exec_boot_of_cut 0 facts (state nor) ⟨.inl rfl, rfl⟩ rfl] at hexec
  generalize ((state nor).dev.atTime 0).runBoot facts = d at hafter hexec
  cases hexec
  have hbefore : norGet nor 0x32000 = 0xFF := by
    rw [norGet_eq_find, List.find?_eq_none.mpr]
    · rfl
    · intro c hc
      have := (hblank c hc).2
      simp only [decide_eq_true_eq]
      omega
  have hsame : norGet d.store.nor 0x32000 = norGet nor 0x32000 := hnor 0x32000 (.inr le_rfl)
  rw [hafter, hbefore] at hsame
  exact absurd hsame (by decide)

end Sys2Proof.Machine
end
